-- ==== Sys2Proof/Word.lean ====
section
/-! DEFINITION. The word types of the TZ8 and the shape of its sparse stores (R7, R11, R366). -/

namespace Sys2Proof

/-- A 64-bit word: one SRAM data word, one result word, a JSN, a device time (R11, R12). -/
abbrev Word := BitVec 64

/-- A byte (R11). -/
abbrev Byte := BitVec 8

/-- A 32-bit register word of management space (R583). -/
abbrev Reg := BitVec 32

/-- One 32 B message slot, byte 0 in the low bits (R11, R258). -/
abbrev Slot := BitVec 256

/-- A store that lists only the keys whose value is not the default: keys strictly rising. -/
abbrev Sparse (α : Type) := List (Nat × α)

end Sys2Proof
end

