-- ==== Sys2Proof/Types.lean ====
section
/-! DEFINITION. The closed sets of names that commands and State share: statuses, requesters, operand shapes. -/

namespace Sys2Proof

/-- The status codes of R20; 0xF is never sent (R21). -/
inductive Status where
  | ok | miss | deny | poison | noRoom | recentlyHit | notOwner | locked | exhausted
  | stillReferenced | staleVersion | late | busyRetry | malformed | internal
deriving DecidableEq, Repr

/-- Who reaches management space (R582): a management core, the sideband, a partner port, the test access port. -/
inductive Requester where
  | core (n : Fin 4)
  | sb
  | port (n : Fin 8)
  | jtag
deriving DecidableEq, Repr

/-- Who sends requests to Waitos (R515): a partner on its management channel, or the sideband. -/
inductive Client where
  | port (n : Fin 8)
  | sb
deriving DecidableEq, Repr

/-- An MCTP packet on the sideband (R516): start and end of message, packet sequence number, and the part of the message that it
carries, at most 64 B. -/
structure SbPacket where
  som : Bool
  eom : Bool
  seq : BitVec 2
  data : List Byte
deriving DecidableEq, Repr

/-- Where a management segment comes from: the head of a port's ingress, or an MCTP message (R271, R516, R517). -/
inductive MgmtSrc where
  | port (n : Fin 8)
  | sideband (endpoint : Byte) (tag : BitVec 3) (packets : List SbPacket)
deriving DecidableEq, Repr

/-- How a store page reads at a restore (R415, R425, R446): after a correction by its code; from the other die, since it fails on the
first that is read; from neither die intact; or with a record of unknown type at a place in it. -/
inductive PageRead where
  | corrected
  | mirrored
  | lost
  | unknown (at_ : Nat)
deriving DecidableEq, Repr

/-- What the world outside the die decides during a boot: whether the boot store's transfer checks fail for slot A
and slot B (R491), the measured step durations in µs (R513), the store dies replaced since the last boot (R416),
the journal and checkpoint pages that do not read well at once, by page number, and the superblocks that do not, by SBGEN
(R415, R435, R446). -/
structure BootEnv where
  readFailA : Bool
  readFailB : Bool
  durs : List Nat
  readyMs : Nat
  replaced : List Nat
  reads : List (Nat × PageRead)
  sbReads : List (Nat × PageRead)
deriving DecidableEq, Repr

/-- A boot in which the boot store reads well, nothing is replaced and no page is bad. -/
def BootEnv.reset : BootEnv where
  readFailA := false
  readFailB := false
  durs := []
  readyMs := 0
  replaced := []
  reads := []
  sbReads := []

/-- SUPERBLOCK_RING_CONDITION: a pair, and whether a superblock of the block that its ring writes has been read back valid (R436). -/
structure RingAsk where
  pair : Fin 8
  readBack : Bool
deriving DecidableEq, Repr

/-- What a decision of an arbiter finds (R301, R302, R314): the classes that ask, as bits; by class, how long ago in ns each of its
requests that stand was presented, in the order in which they will be served (none: those the arbiter knows of, else one presented
now); by class, how long each request that was withdrawn since the last decision had waited; and whether the search that held the
last grant has withdrawn since (R304). -/
structure ArbAsk where
  classes : BitVec 16
  ages : List (List Nat)
  gone : List (List Nat)
  dead : Bool
deriving DecidableEq, Repr

/-- Classes that ask with nothing else to tell. -/
def ArbAsk.of (cls : BitVec 16) : ArbAsk where
  classes := cls
  ages := []
  gone := []
  dead := false

/-- A flit as the adapter hands it over (R258, R260); bit i of ecc: the ingress buffer finds slot i uncorrectable (R285). -/
structure RxFlit where
  bytes : BitVec 2048
  ecc : BitVec 8
deriving DecidableEq, Repr

/-- The port whose queue sends a record (R566); bad: egress finds the record uncorrectable (R285). -/
structure EvtSend where
  port : Fin 8
  bad : Bool
deriving DecidableEq, Repr

/-- The regions of management data SRAM that R403 tells apart. A critical or fatal record stands in two copies: both says that
the other copy is uncorrectable too (R571). -/
inductive SramRegion where
  | eventRecord (q : Fin 10) (qseq : BitVec 32) (both : Bool)
  | traceEntry (idx : Nat)
  | waitosState (rebuilt : Bool)
deriving DecidableEq, Repr

/-- The halted channels of R404, with where each stands; unread says that a store page the re-derivation needs cannot be read from
either die (R401); of a journal-buffer word, its address and syndrome (R371). -/
inductive HaltCase where
  | bulkDump (p : Fin 10) (k : Fin 4)
  | checkpointRead (key : Nat) (unread : Bool)
  | save (frame : Nat) (rec : Nat) (firstOk : Bool) (addr : BitVec 28) (syn : Byte)
  | drain (frame : Nat) (rec : Nat) (firstOk : Bool) (addr : BitVec 28) (syn : Byte)
  | restore (key : Nat)
  | clone (e : Fin 8) (row : Nat) (unread : Bool)
deriving DecidableEq, Repr

/-- What Waitos's own scrub reads (R396 to R398): an uncorrectable ROM word; an uncorrectable word of management data SRAM, by
region; a word of macros 5,120 to 5,387 as it is stored; a correctable word there of a buffer that the model holds by contents. -/
inductive BadWord where
  | rom (copy : Fin 2) (word : Nat)
  | dataSram (r : SramRegion)
  | word (a : BitVec 28)
  | fixed (a : BitVec 28) (syn : Byte)
deriving DecidableEq, Repr

/-- The MCTP control messages of R516; any other is not supported. -/
inductive MctpCmd where
  | setEid (eid : Byte)
  | getEid
  | getVersion (msgType : Byte)
  | getMsgTypes
  | getVendor (selector : Byte)
  | other (code : Byte)
deriving DecidableEq, Repr

/-- Test access port instructions: the four that IEEE 1149.1 makes mandatory, and the internal access that the
grant scopes open (R508, R509, R582). -/
inductive TapOp where
  | bypass
  | sample
  | preload (v : Word)
  | extest
  | internalRead (off : BitVec 24)
  | internalWrite (off : BitVec 24) (v : Reg)
deriving DecidableEq, Repr

end Sys2Proof
end

