-- ==== Sys2Proof/Syntax.lean ====
section
/-! DEFINITION. The commands of the TZ8: one constructor for each row of spec/opcode_table.json. -/

namespace Sys2Proof

/-- One command: a step of the table, whole and indivisible (95_what_each_step_holds). -/
inductive Instr where
  /-- POWER_UP. A rising edge of PWRGD starts the power-up order of R44. -/
  | powerUp (e : BootEnv)
  /-- PWRGD_DROP. PWRGD was low for lowNs (R613). -/
  | pwrgdDrop (lowNs : Nat)
  /-- RST_N. A change on RST_N to level high, or a low phase of lowNs (R615). -/
  | rstN (high : Bool) (lowNs : Nat)
  /-- PFAIL. PFAIL_N has been low for lowNs (R437). -/
  | pfail (lowNs : Nat)
  /-- FENCE_CLOSE. The fence of the save ends, 250 us after PFAIL_N (R438, R439). -/
  | fenceClose
  /-- SAVE_COMPLETE. The drain has ended and the save writes its superblock (R438, R444). -/
  | saveComplete
  /-- HOLD_END. 4 ms after PFAIL_N the hold window ends (R438, R45). -/
  | holdEnd
  /-- VHOLD_FLOOR. VHOLD falls below its floor (R442, R618). -/
  | vholdFloor
  /-- PFAIL_RISE. PFAIL_N rises, with VHOLD recovered or not (R46). -/
  | pfailRise (vhok : Bool)
  /-- SAVE_BEGUN. The SAVE_BEGUN note at the head of cascade port k is taken (R362). -/
  | saveBegun (k : Fin 3)
  /-- SRCH. The search request at the head of port p's ingress reaches admission (R24). -/
  | srch (p : Fin 8)
  /-- MATCH_STEP. The probed banks of a MATCH step return their winners (R86). -/
  | matchStep (tok : Nat) (step : Fin 4)
  /-- DISAGREEMENT_RESOLUTION. Disagreeing twins or a failed validation are resolved (R87, R90). -/
  | disagreementResolution (tok : Nat) (step : Fin 4)
  /-- REPAIR_WRITE. The repair at the head of engine e's repair queue is made or dropped (R88). -/
  | repairWrite (e : Fin 8)
  /-- INDEX_STEP. An INDEX step reads its row or allocates (R108, R112). -/
  | indexStep (tok : Nat) (step : Fin 4)
  /-- LEVEL_END. Every step of the running level has ended (R105). -/
  | levelEnd (tok : Nat)
  /-- SRSP. The response of a resolved search is sent, or discarded (R266, R294). -/
  | srsp (tok : Nat)
  /-- LATE_WATCHDOG. 1 us has passed since admission of the token's search (R131). -/
  | lateWatchdog (tok : Nat)
  /-- TOKEN_RETIRE. The last outstanding request of a token has returned (R133). -/
  | tokenRetire (tok : Nat)
  /-- FWD. The FWD at the head of cascade port k is taken (R337). -/
  | fwd (k : Fin 3)
  /-- PROBE. The PROBE at the head of cascade port k is taken (R341). -/
  | probe (k : Fin 3)
  /-- FANS. The FANS at the head of cascade port k is delivered (R347). -/
  | fans (k : Fin 3)
  /-- PANS. The PANS at the head of cascade port k is combined (R341). -/
  | pans (k : Fin 3)
  /-- STROKE. The 250 ns share-window tick (R300). -/
  | stroke
  /-- ARBITER_DECISION. Arbiter arb decides among the classes that ask (R301). -/
  | arbiterDecision (arb : Nat) (present : ArbAsk)
  /-- STALL_CUTOFF. The holder of arbiter arb completed no transfer within 2 us (R305). -/
  | stallCutoff (arb : Nat)
  /-- DFRZ. A write of freeze word k (R312). -/
  | dfrz (who : Requester) (k : Fin 3) (v : BitVec 32)
  /-- FREEZE_TIMEOUT. The freeze bit of bank group g has been set for 1 ms (R313). -/
  | freezeTimeout (g : Nat)
  /-- SNAP. A write of SNAP for the arbiter in the writer's CSEL (R315). -/
  | snap (who : Requester)
  /-- CLR. A write of SNAP with CLR (R315). -/
  | clr (who : Requester)
  /-- COMMIT. A write of COMMIT to SCTL of share table t (R309). -/
  | commit (who : Requester) (t : Fin 8)
  /-- AUTOWARM. 1 ms after a tally violation with AUTOWARM set (R326). -/
  | autowarm
  /-- AUDIT. A write of AUDIT (R325). -/
  | audit (who : Requester)
  /-- TSNAP. A write of TSNAP (R328). -/
  | tsnap (who : Requester)
  /-- FLIT. A flit handed over by the adapter of port p; 8 to 10 are C0 to C2 (R260). -/
  | flit (p : Fin 11) (bytes : RxFlit)
  /-- CRED. The CRED message at the head of port p is applied (R278). -/
  | cred (p : Fin 11)
  /-- CREDIT_RETURN. Freed credits of port p are returned in a flit header (R279). -/
  | creditReturn (p : Fin 11)
  /-- TEMP. The TEMP report at the head of port p is applied (R270). -/
  | temp (p : Fin 8)
  /-- FLUSHED. The FLUSHED note at the head of port p is processed (R268). -/
  | flushed (p : Fin 8)
  /-- RESET_REQ. The RESET_REQ note at the head of port p is processed (R292). -/
  | resetReq (p : Fin 8)
  /-- HELLO. The HELLO at the head of port p is checked (R288, R332). -/
  | hello (p : Fin 11)
  /-- MGMT. A management segment of a port, or a request on the sideband, is accepted or discarded (R271, R517). -/
  | mgmt (src : MgmtSrc)
  /-- EVT. The next record of a port's owner queue is sent (R566). -/
  | evt (p : EvtSend)
  /-- FLIT_CRC_ERROR. A flit CRC error is recovered by replay (R285). -/
  | flitCrcError (p : Fin 11)
  /-- RETRAIN. Four failed replays or the replay timer retrain the link (R285). -/
  | retrain (p : Fin 11)
  /-- RETRAIN_LIMIT. A retrain has not ended within 50 us (R285, R292). -/
  | retrainLimit (p : Fin 11)
  /-- LINK_RESET. The partner starts a link reset on the UCIe sideband (R292). -/
  | linkReset (p : Fin 11)
  /-- PRESET. A write of 1 to PRESET of port p (R292). -/
  | preset (who : Requester) (p : Fin 11)
  /-- LINK_TRAINED. Training of port p completed at a rate, with the lanes repaired (R286, R289). -/
  | linkTrained (p : Fin 11) (rate : BitVec 2) (tx rx : List (Fin 64))
  /-- TRAINING_FAILURE. Training of port p failed at the rate being tried (R287). -/
  | trainingFailure (p : Fin 11)
  /-- TRAINING_RETRY. The 1 s retry of a DOWN port (R287). -/
  | trainingRetry (p : Fin 11)
  /-- LANE_SHIFT. Rolling calibration of a lane begins (R290). -/
  | laneShift (p : Fin 11) (lane : Fin 64) (rx : Bool)
  /-- LANE_SHIFT_ACK. The partner acknowledges the lane shift (R290). -/
  | laneShiftAck (p : Fin 11)
  /-- LANE_CAL_TIMEOUT. No acknowledgement within 10 us (R291). -/
  | laneCalTimeout (p : Fin 11)
  /-- LANE_CALIBRATED. Eye-centering of the vacated lane ends with a margin (R290, R291). -/
  | laneCalibrated (p : Fin 11) (margin : BitVec 8)
  /-- CREW_READY. The CREW_READY note at the head of cascade port k is processed (R350). -/
  | crewReady (k : Fin 3)
  /-- CREW_READY_TIMEOUT. 100 ms have passed since the tables were restored (R351). -/
  | crewReadyTimeout
  /-- LINKS. The LINKS note at the head of cascade port k is processed (R358). -/
  | links (k : Fin 3)
  /-- LINKS_PERIOD. The 1 ms LINKS period (R358). -/
  | linksPeriod
  /-- CREW_RESET. The CREW_RESET note at the head of cascade port k is processed (R352). -/
  | crewReset (k : Fin 3)
  /-- REBAL. The REBAL note at the head of cascade port k is processed (R354). -/
  | rebal (k : Fin 3)
  /-- REBAL_ACK. The REBAL_ACK note at the head of cascade port k is processed (R354). -/
  | rebalAck (k : Fin 3)
  /-- REBAL_RETIRE. 8 us after SWITCHED the coordinator sends RETIRE (R354). -/
  | rebalRetire
  /-- CREWRST. A write of 1 to CREWRST (R352, R365). -/
  | crewrst (who : Requester)
  /-- INSERT. Engine e executes the INSERT at the head of its queue (R154). -/
  | insert (e : Fin 8)
  /-- DELETE. Engine e executes the DELETE at the head of its queue (R162). -/
  | delete (e : Fin 8)
  /-- DELETE_IF_IDLE. Engine e executes the DELETE_IF_IDLE at the head of its queue (R167). -/
  | deleteIfIdle (e : Fin 8)
  /-- WRITE. Engine e executes the WRITE at the head of its queue (R163, R164). -/
  | write (e : Fin 8)
  /-- READ. Engine e executes the READ at the head of its queue (R165). -/
  | read (e : Fin 8)
  /-- REPOINT. Engine e runs its REPOINT over at most budget further entries (R170). -/
  | repoint (e : Fin 8) (budget : Nat)
  /-- HSWEEP. Engine e executes the HSWEEP at the head of its queue (R166). -/
  | hsweep (e : Fin 8)
  /-- BANK_CLONE. Engine e starts the BANK_CLONE at the head of its queue (R177). -/
  | bankClone (e : Fin 8)
  /-- CLONE_COMPLETE. The clone that engine e runs completes (R178). -/
  | cloneComplete (e : Fin 8)
  /-- BANK_RETIRE. Engine e executes the BANK_RETIRE at the head of its queue (R179). -/
  | bankRetire (e : Fin 8)
  /-- BULK_OPEN. Engine e executes the BULK_OPEN at the head of its queue (R180). -/
  | bulkOpen (e : Fin 8)
  /-- BULK_RECORD. The bulk record at the head of port p is applied (R181). -/
  | bulkRecord (p : Fin 8)
  /-- DUMP_ENTRY. DUMP stream k of port p, or of FW and SB as 8 and 9, sends its next entry (R182). -/
  | dumpEntry (p : Fin 10) (k : Fin 4)
  /-- BULK_CLOSE. Engine e executes the BULK_CLOSE at the head of its queue (R183). -/
  | bulkClose (e : Fin 8)
  /-- IREAD. Engine e executes the IREAD at the head of its queue (R176). -/
  | iread (e : Fin 8)
  /-- IWRITE. Engine e executes the IWRITE at the head of its queue (R173). -/
  | iwrite (e : Fin 8)
  /-- IFIELD. Engine e executes the IFIELD at the head of its queue (R175). -/
  | ifield (e : Fin 8)
  /-- ICAS. Engine e executes the ICAS at the head of its queue (R174). -/
  | icas (e : Fin 8)
  /-- LEARN_NOTE. Engine e executes the LEARN_NOTE at the head of its queue (R184). -/
  | learnNote (e : Fin 8)
  /-- GATE_DRAINED. No snapshot older than gate g's opening is still probing (R82). -/
  | gateDrained (g : Fin 64)
  /-- REPLICA_RELEASE. The banks of a removed replica of directory entry d are released (R76). -/
  | replicaRelease (d : Nat)
  /-- MAP_BIND. Engine e executes the MAP_BIND at the head of its queue (R230). -/
  | mapBind (e : Fin 8)
  /-- MAP_RELEASE. Engine e executes the MAP_RELEASE at the head of its queue (R230). -/
  | mapRelease (e : Fin 8)
  /-- MAP_POISON. Engine e executes the MAP_POISON at the head of its queue (R230). -/
  | mapPoison (e : Fin 8)
  /-- HEAT_SET. Engine e executes the HEAT_SET at the head of its queue (R230). -/
  | heatSet (e : Fin 8)
  /-- MIG_BEGIN. Engine e executes the MIG_BEGIN at the head of its queue (R230). -/
  | migBegin (e : Fin 8)
  /-- MIG_CURSOR. Engine e executes the MIG_CURSOR at the head of its queue (R230). -/
  | migCursor (e : Fin 8)
  /-- MIG_COPIED. Engine e executes the MIG_COPIED at the head of its queue (R230). -/
  | migCopied (e : Fin 8)
  /-- MAP_SWITCH. Engine e executes the MAP_SWITCH at the head of its queue (R230). -/
  | mapSwitch (e : Fin 8)
  /-- MIG_ABORT. Engine e executes the MIG_ABORT at the head of its queue (R230). -/
  | migAbort (e : Fin 8)
  /-- LOG_OPEN. Engine e executes the LOG_OPEN at the head of its queue (R230). -/
  | logOpen (e : Fin 8)
  /-- LOG_CLOSE. Engine e executes the LOG_CLOSE at the head of its queue (R230). -/
  | logClose (e : Fin 8)
  /-- LOG_FREE. Engine e executes the LOG_FREE at the head of its queue (R230). -/
  | logFree (e : Fin 8)
  /-- LOG_REPOINT. Engine e runs its LOG_REPOINT over at most budget further entries (R243). -/
  | logRepoint (e : Fin 8) (budget : Nat)
  /-- CONDITION_BEGIN. Engine e executes the CONDITION_BEGIN at the head of its queue (R244). -/
  | conditionBegin (e : Fin 8)
  /-- CONDITION_DONE. Engine e executes the CONDITION_DONE at the head of its queue (R246). -/
  | conditionDone (e : Fin 8)
  /-- REFRESH_DONE. Engine e executes the REFRESH_DONE at the head of its queue (R251). -/
  | refreshDone (e : Fin 8)
  /-- MEMBER_FAIL. Engine e executes the MEMBER_FAIL at the head of its queue (R248). -/
  | memberFail (e : Fin 8)
  /-- REBUILD_ADVANCE. Engine e executes the REBUILD_ADVANCE at the head of its queue (R249). -/
  | rebuildAdvance (e : Fin 8)
  /-- OVL_PUT. Engine e executes the OVL_PUT at the head of its queue (R240). -/
  | ovlPut (e : Fin 8)
  /-- OVL_DROP. Engine e executes the OVL_DROP at the head of its queue (R230). -/
  | ovlDrop (e : Fin 8)
  /-- SPARE_RESERVE_REFILL. Waitos refills the spare reserve (R211). -/
  | spareReserveRefill
  /-- CONDITION_QUEUE_SCAN. Waitos scans BINF for unqueued FREE_DIRTY blocks (R244). -/
  | conditionQueueScan
  /-- REFRESH_SCAN. Waitos scans BINF for old blocks, once per 64 epochs (R252). -/
  | refreshScan
  /-- WEAR_BIN_UPDATE. Waitos resets the bin boundaries to the wear quantiles (R247). -/
  | wearBinUpdate
  /-- HEAT_HALVING. Waitos halves every HEAT counter (R210). -/
  | heatHalving
  /-- MARKER_COUNT_READING. The 100 ms reading of the MATCH counts (R545). -/
  | markerCountReading
  /-- COMPOSER_GENERATION_COMMIT. The waiting composer-table writes commit (R121). -/
  | composerGenerationCommit
  /-- EPOCH. Device time crosses a multiple of 64 s (R37). -/
  | epoch
  /-- REFCLK_FAULT. A REFCLK loss is detected (R38). -/
  | refclkFault
  /-- REFCLK_RESTORE. REFCLK has been good for 10 ms (R38). -/
  | refclkRestore
  /-- REFRESH_GROUP. The group period of a bank site starts (R93). -/
  | refreshGroup (bank : Nat)
  /-- REFRESH_GUARD. 100 ms have passed without a band confirmation (R43). -/
  | refreshGuard
  /-- GUARD_READING. The 10 ms demand of the thermal block under the guard (R469). -/
  | guardReading
  /-- READING_DEMAND. Waitos demands a reading at the scheduled period (R458). -/
  | readingDemand
  /-- DEMAND. A write of TCTL DEMAND (R456). -/
  | demand (who : Requester)
  /-- CONVERSION_DONE. A conversion finishes with the converter value raw (R459). -/
  | conversionDone (raw : BitVec 12)
  /-- CONVERSION_TIMEOUT. A conversion has not finished 500 us after its start (R455). -/
  | conversionTimeout
  /-- BAND_WRITE. A write of BAND in TSTAT (R464). -/
  | bandWrite (who : Requester) (band : BitVec 3)
  /-- DIODE_RETRY. The 1 s retry reading of the fault state (R466). -/
  | diodeRetry
  /-- BAND_CONFIRM. The 50 ms confirmation during a fault or a calibration (R466). -/
  | bandConfirm
  /-- CALIBRATION. The 24 h calibration is due (R468). -/
  | calibration
  /-- CALIBRATION_DONE. The running calibration ends after 2 ms (R468). -/
  | calibrationDone
  /-- CALNOW. A write of TCTL CALNOW (R468). -/
  | calnow (who : Requester)
  /-- CAL_DEFERRED. A calibration has been deferred for 7 days (R468). -/
  | calDeferred
  /-- MEDIA_STALE_CHECK. The 100 ms stale check of the media groups (R474). -/
  | mediaStaleCheck
  /-- TRACKER_REPORT. The tracker applies the oldest queued correction report (R373). -/
  | trackerReport
  /-- WRITE_BACK. Waitos rewrites a recurring word with a write-back transfer (R374). -/
  | writeBack (addr : BitVec 28)
  /-- TRACKER_AGE_OUT. The REWRITTEN entry i has seen no correction for 24 h (R374). -/
  | trackerAgeOut (i : Fin 1024)
  /-- ROW_SPARING. Waitos spares the row that holds a word address (R378). -/
  | rowSparing (addr : BitVec 28)
  /-- COLUMN_SPARING. Waitos spares a bit position of the word's SRAM block (R379). -/
  | columnSparing (addr : BitVec 28) (bit : Fin 72)
  /-- FIELD_REPAIR_PROGRAM. Waitos programs both copies of the oldest waiting repair record, each programmed or not (R384). -/
  | fieldRepairProgram (ok0 ok1 : Bool)
  /-- COALESCER_ISSUE. The coalescer entry of a word is issued (R386). -/
  | coalescerIssue (key : Nat)
  /-- BANK_SCRUB. Scrub sequencer e reads back its next row (R394). -/
  | bankScrub (e : Fin 8)
  /-- SRAM_SCRUB. Scrub sequencer e reads its next index-pool word (R396). -/
  | sramScrub (e : Fin 8)
  /-- REDERIVE. Waitos re-derives the oldest queued word or entry (R399). -/
  | rederive
  /-- ROM_TRAP. A core fetches an uncorrectable ROM word (R402). -/
  | romTrap (core : Fin 4) (copy : Fin 2) (word : Nat) (both : Bool)
  /-- DATA_SRAM_TRAP. A core meets an uncorrectable management SRAM word (R403). -/
  | dataSramTrap (r : SramRegion)
  /-- CHANNEL_HALT. A DMA channel meets an uncorrectable word (R404). -/
  | channelHalt (c : HaltCase)
  /-- SELF_TEST_ROTATION. The 20-minute routine rotation (R405). -/
  | selfTestRotation
  /-- BANK_SELF_TEST. The tests run on a TESTING site: their result code of R409, or 8 when the retention test begins (R406, R407). -/
  | bankSelfTest (bank : Nat) (result : BitVec 4)
  /-- SELF_TEST_DONE. A finished self-test returns or retires its site (R406). -/
  | selfTestDone (bank : Nat)
  /-- RAWRD. A write of ETCMD with OP 1 (R411). -/
  | rawrd (who : Requester)
  /-- RAWWR. A write of ETCMD with OP 2 (R411). -/
  | rawwr (who : Requester)
  /-- INJECT. A write of ETCMD with OP 3 (R411). -/
  | inject (who : Requester)
  /-- TRD. A write of ETCMD with OP 4 (R411). -/
  | trd (who : Requester)
  /-- TWR. A write of ETCMD with OP 5 (R411). -/
  | twr (who : Requester)
  /-- DISARM. A write of ETCMD with OP 6 (R411). -/
  | disarm (who : Requester)
  /-- PAGE_FRAME_CLOSE. The open journal page frame closes (R428). -/
  | pageFrameClose
  /-- JOURNAL_DRAIN. The oldest closed frame is written to the store (R428). -/
  | journalDrain
  /-- TIME_RECORD. The 10 ms TIME record (R447). -/
  | timeRecord
  /-- CHECKPOINT_BEGIN. A new checkpoint generation begins (R430). -/
  | checkpointBegin
  /-- CHECKPOINT_SEGMENT. The next checkpoint segment is written (R432). -/
  | checkpointSegment
  /-- CHECKPOINT_COMPLETE. The segment directory and a superblock are written (R432). -/
  | checkpointComplete
  /-- CKNOW. A write of CKNOW (R452). -/
  | cknow (who : Requester)
  /-- BAND_CONDITION. The store conditions a band ahead of the write pointer (R418). -/
  | bandCondition (band : Nat)
  /-- SUPERBLOCK_RING_CONDITION. The next block of a superblock ring is conditioned (R436). -/
  | superblockRingCondition (ask : RingAsk)
  /-- STORE_BLOCK_RETIRE. A store block fails a program or a conditioning (R419). -/
  | storeBlockRetire (die : Fin 16) (block : Nat)
  /-- STORE_DIE_FAIL. A store die fails (R416). -/
  | storeDieFail (die : Fin 16)
  /-- SETLOCK. A write of SETLOCK (R497, R514). -/
  | setlock (who : Requester)
  /-- RETRY. A write of RETRY (R494). -/
  | retry (who : Requester) (e : BootEnv)
  /-- DEBUG_EXPIRY. The expiry of the debug grant in force is reached (R510). -/
  | debugExpiry
  /-- GET_INFO. Waitos executes the GET_INFO at the head of the requester's queue (R528). -/
  | getInfo (w : Client)
  /-- OP_STATUS. Waitos executes the OP_STATUS request (R525). -/
  | opStatus (w : Client)
  /-- GET_KEYSLOTS. Waitos executes the GET_KEYSLOTS request (R502). -/
  | getKeyslots (w : Client)
  /-- DIR_READ. Waitos executes the DIR_READ request (R527). -/
  | dirRead (w : Client)
  /-- MIG_INFO. Waitos executes the MIG_INFO request (R231). -/
  | migInfo (w : Client)
  /-- MREAD. Waitos executes the MREAD request (R529). -/
  | mread (w : Client)
  /-- MWRITE. Waitos executes the MWRITE request (R530). -/
  | mwrite (w : Client)
  /-- CTX_READ. Waitos executes the CTX_READ request (R531). -/
  | ctxRead (w : Client)
  /-- CTX_WRITE. Waitos executes the CTX_WRITE request (R531). -/
  | ctxWrite (w : Client)
  /-- CTX_CAS. Waitos executes the CTX_CAS request (R531). -/
  | ctxCas (w : Client)
  /-- TEMP_READ. Waitos executes the TEMP_READ request (R533). -/
  | tempRead (w : Client)
  /-- DIODE_CAL. Waitos executes the DIODE_CAL request (R534). -/
  | diodeCal (w : Client)
  /-- LANE_CAL. Waitos executes the LANE_CAL request (R535). -/
  | laneCal (w : Client)
  /-- SCRUB_SET. Waitos executes the SCRUB_SET request (R536). -/
  | scrubSet (w : Client)
  /-- SCRUB_NOW. Waitos executes the SCRUB_NOW request (R537). -/
  | scrubNow (w : Client)
  /-- BANK_TEST. Waitos executes the BANK_TEST request (R539). -/
  | bankTest (w : Client)
  /-- WAITOS_BANK_RETIRE. Waitos executes the BANK_RETIRE request (R540). -/
  | waitosBankRetire (w : Client)
  /-- CELL_SPARE. Waitos executes the CELL_SPARE request (R541). -/
  | cellSpare (w : Client)
  /-- REPLICATE. Waitos executes the REPLICATE request (R543). -/
  | replicate (w : Client)
  /-- GROW. Waitos executes the GROW request (R544). -/
  | grow (w : Client)
  /-- AUTO_SET. Waitos executes the AUTO_SET request (R546). -/
  | autoSet (w : Client)
  /-- REBAL_BEGIN. Waitos executes the REBAL_BEGIN request (R547). -/
  | rebalBegin (w : Client)
  /-- REBAL_REPORT. Waitos executes the REBAL_REPORT request (R548). -/
  | rebalReport (w : Client)
  /-- PORT_RESET_COMMAND. Waitos executes the PORT_RESET request (R549). -/
  | portResetCommand (w : Client)
  /-- WARM_RESET_COMMAND. Waitos executes the WARM_RESET request (R549). -/
  | warmResetCommand (w : Client)
  /-- CREW_RESET_COMMAND. Waitos executes the CREW_RESET request (R352). -/
  | crewResetCommand (w : Client)
  /-- TIME_ADVANCE. Waitos executes the TIME_ADVANCE request (R550). -/
  | timeAdvance (w : Client)
  /-- IMG_BEGIN. Waitos executes the IMG_BEGIN request (R552). -/
  | imgBegin (w : Client)
  /-- IMG_DATA. Waitos executes the IMG_DATA request (R553). -/
  | imgData (w : Client)
  /-- IMG_COMMIT. Waitos executes the IMG_COMMIT request (R555). -/
  | imgCommit (w : Client)
  /-- IMG_ABORT. Waitos executes the IMG_ABORT request (R556). -/
  | imgAbort (w : Client)
  /-- IMG_SESSION_TIMEOUT. The open image session received no command for 60 s (R552). -/
  | imgSessionTimeout
  /-- DBG_NONCE. Waitos executes the DBG_NONCE request (R557). -/
  | dbgNonce (w : Client)
  /-- DBG_GRANT. Waitos executes the DBG_GRANT request (R557). -/
  | dbgGrant (w : Client)
  /-- STORE_INIT. Waitos executes the STORE_INIT request (R558). -/
  | storeInit (w : Client)
  /-- OP_DONE. The operation with handle h ends (R525). -/
  | opDone (h : Nat) (status : BitVec 4) (progress : BitVec 64)
  /-- HANDLE_FREE. Handle h is freed 10 s after its operation ended (R523). -/
  | handleFree (h : Nat)
  /-- RECORD_CLOSE. The open records of queue q that are 10 ms old close (R568). -/
  | recordClose (q : Fin 10)
  /-- EQHEAD. A read of EQHEAD of queue q (R568). -/
  | eqhead (who : Requester) (q : Fin 10)
  /-- EQPOP. A write of EQPOP of queue q (R580). -/
  | eqpop (who : Requester) (q : Fin 10) (v : BitVec 32)
  /-- LCLR. A write of LCLR of queue q (R580). -/
  | lclr (who : Requester) (q : Fin 10)
  /-- GSNAP. A write of GSNAP (R578). -/
  | gsnap (who : Requester)
  /-- FREEZE. A write of FREEZE (R576). -/
  | freeze (who : Requester) (v : Bool)
  /-- TRCLR. A write of TRCLR (R580). -/
  | trclr (who : Requester)
  /-- WIDE_READ. A read of the word at off, the lowest of a wide register (R584). -/
  | wideRead (who : Requester) (off : BitVec 24)
  /-- REGISTER_WRITE. A write of one word of management space (R14). -/
  | registerWrite (who : Requester) (off : BitVec 24) (v : BitVec 32)
  /-- VOLTAGE_REQUEST. The 10 ms voltage request of Waitos (R608). -/
  | voltageRequest
  /-- VREQ. A write of VREQ (R609). -/
  | vreq (who : Requester) (code : BitVec 6)
  /-- CORE_LOST. A management core becomes unavailable (R42). -/
  | coreLost (core : Fin 4)
  /-- ROM_SCRUB. Waitos's own scrub read finds a bad word (R398). -/
  | romScrub (b : BadWord)
  /-- MCTP_CONTROL. The sideband target answers an MCTP control message (R516). -/
  | mctpControl (m : MctpCmd)
  /-- DYNAMIC_ADDRESS. An I3C controller assigns the dynamic address (R516). -/
  | dynamicAddress (setdasa : Bool) (addr : BitVec 7)
  /-- TAP_INSTRUCTION. The test access port executes an instruction (R508). -/
  | tapInstruction (t : TapOp)
deriving DecidableEq, Repr

end Sys2Proof
end

