-- ==== Sys2Proof/Config.lean ====
section
/-! DEFINITION. What one implementation fixes and what the spec leaves open: free values without a body. -/

namespace Sys2Proof

/-- The k-th value that the spec leaves open: an entropy value, a trim, a strobe placement (log entry 5). -/
opaque Config.freeWord : Nat → Word

/-- SHA-384 of a byte string (R487, R489): FIPS 180-4 is named and not restated by the spec (log entry 6). -/
opaque Config.sha384 : List Byte → BitVec 384

/-- ECDSA P-384 verification: public key bytes, digest, signature bytes (R487, R509; log entry 6). -/
opaque Config.ecdsaOk : List Byte → BitVec 384 → List Byte → Bool

/-- Which word of its region's macros a place is (R369 numbers macros and words, not what they hold; log entry 7). -/
opaque Config.addrOf : Nat → BitVec 28

/-- The place that an SRAM word address may hold (R369; log entry 7). -/
opaque Config.placeOf : BitVec 28 → Option Nat

/-- Whether an entry takes part in matching while its G names a selector that no gated change holds: key bank × 2 +
selector. No update leaves such an entry; a cell fault or TWR may (R79, R82; log entry 10). -/
opaque Config.released : Nat → Bool

/-- Whether a transfer of the boot store fails its check three times (R491, R598): the byte address it begins at, and how many free
values have been drawn (log entry 80). -/
opaque Config.transferFails : Nat → Nat → Bool

/-- Whether a unit or page of the store that holds the copy of a place reads from neither die (R401): the place, and how many free
values have been drawn (log entry 119). -/
opaque Config.copyUnread : Nat → Nat → Bool

/-- How many flits beyond the 256 that R290 asks for the TZ8 puts between a sideband message of rolling calibration for a lane
and the shift (log entry 113). -/
opaque Config.laneAhead : Nat → BitVec 16

end Sys2Proof
end

