-- ==== Sys2Proof/Machine/State.lean ====
section
/-! DEFINITION. The state of one TZ8-A1 die as plain data, and the state right after reset.
Every field names the rule of spec/ that gives it; a field marked MODEL is the model's own. -/

namespace Sys2Proof.Machine

open Sys2Proof

/-- Why the machine stops with a fault. No command of this model ends in one: the TZ8 answers what it refuses with
a status code and goes on. -/
inductive Fault where
  /-- An access outside management space's 24-bit aperture. Raised by no meaning (offsets are 24 bits wide, R581). Safe. -/
  | outsideAperture
deriving DecidableEq, Repr

/-- Why the model gives a command no meaning. -/
inductive Refusal where
  /-- The row has no meaning yet. Raised only by exec's own arms. Safe: nothing can be proved of the command. -/
  | notModelled (mnemonic : String)
deriving DecidableEq, Repr

/-! ## Pins, time and power -/

/-- Levels on the board pins (R611 to R618, R621). -/
structure Pins where
  pwrgd : Bool
  rstN : Bool
  pfailN : Bool
  vhok : Bool
  refclk : Bool
  phyref : Bool
  crewSz : BitVec 2
  crewRk : BitVec 2
deriving DecidableEq, Repr

/-- The timebase (R12, R13, R37, R38, R550). -/
structure Clock where
  /-- Device time in ns (R12). -/
  time : Word
  /-- MODEL: elapsed ns since reset, which a TIME_ADVANCE does not move (R550). -/
  elapsed : Nat
  /-- The epoch (R13). -/
  epoch : BitVec 16
  /-- The timebase runs (from power-up step 1, R44). -/
  running : Bool
  /-- The ring oscillator is in use (R38). -/
  ring : Bool
  /-- Share-window ticks since reset (R37). -/
  strokes : Nat
  /-- Sum of the advances accepted since the last ready, in ns (R550). -/
  advanced : Nat
deriving DecidableEq, Repr

/-- A setpoint transition in progress (R609). -/
structure VTrans where
  up : Bool
  target : BitVec 6
  /-- Downward: ticks still to come before the code changes. Upward: unused. -/
  ticks : Nat
  /-- Upward: the elapsed time at which the code changed. -/
  since : Nat
deriving DecidableEq, Repr

/-- The power controller (R39, R40, R605 to R610, R624). -/
structure Power where
  /-- DOMSTAT [23:0]: domain on. -/
  dom : BitVec 24
  /-- PWRSTAT PSTATE. -/
  pstate : BitVec 3
  /-- CREW_SZ and CREW_RK as sampled at power-up step 1 (R616). -/
  crewSz : BitVec 2
  crewRk : BitVec 2
  vmin : BitVec 6
  vmax : BitVec 6
  /-- VREQ: the requested code. -/
  vreq : BitVec 6
  /-- VIDNOW: the code driven. -/
  vid : BitVec 6
  /-- VFACT: the voltage factor in force. -/
  vfact : BitVec 3
  trans : Option VTrans
  /-- The latest VREQ write held during a transition (R609). -/
  held : Option (BitVec 6)
  /-- The highest SRCH credit return of any port in any stroke of the past 10 ms (R608). -/
  peak : Nat
deriving DecidableEq, Repr

/-! ## Boot, fuses, boot store, protection -/

/-- Where the device stands between power and ready (R44, R492 to R496, R449, R615). -/
inductive Phase where
  | off | holdRst | stopped | booting | ready | resetHeld
deriving DecidableEq, Repr

/-- Identity and boot status (R513). -/
structure Boot where
  phase : Phase
  /-- BOOTSTAT [3:0]: last step completed. -/
  step : BitVec 4
  slot : BitVec 1
  first : Bool
  rejA : BitVec 4
  rejB : BitVec 4
  imgver : BitVec 16
  /-- STRVER: structure version, SVN and key of the booted image (R505). -/
  strver : BitVec 16
  svn : BitVec 6
  key1 : Bool
  imglen : Nat
  /-- An image has been chosen since the cold reset (R598). -/
  chosen : Bool
  /-- BSTOP: stop code (R494). -/
  stop : BitVec 4
  /-- LAYOUT (R490). -/
  layout : Word
  /-- BSTEP1 to BSTEP9, in µs. -/
  bsteps : List (BitVec 24)
  rdytime : BitVec 10
  /-- MODEL: what the world outside the die decided for the boot under way, kept for a boot that RST_N holds (R615). -/
  env : BootEnv
deriving DecidableEq, Repr

/-- A field repair record, both copies (R383). -/
structure RepairRec where
  c0 : Word
  c1 : Word
deriving DecidableEq, Repr

/-- Fuses and the one-time-programmable region (R30, R383, R488, R489, R495). -/
structure Fuses where
  dieId : Word
  key0 : BitVec 384
  key1 : BitVec 384
  key1Prog : Bool
  revoke0 : Bool
  initDone : Bool
  /-- The 64-bit thermometer anti-rollback counter. -/
  rollback : Word
  /-- Factory repair records, in the layout of R383. -/
  factory : List Word
  /-- Field repair records, at most 256. -/
  field : List RepairRec
deriving DecidableEq, Repr

/-- The protection set-up outside the tables, and the lock (R497, R514). -/
structure Prot where
  locked : Bool
  ownmap : BitVec 128
  plock : Word
  dbgpol : BitVec 2
  /-- KSMAP: byte k is the port mask of key slot k. -/
  ksmap : BitVec 2048
  /-- PROLE of P0 to P7 and C0 to C2. -/
  prole : Sparse Reg
deriving DecidableEq, Repr

/-- Debug (R508 to R510, R514). -/
structure Debug where
  nonce : BitVec 128
  scope : BitVec 4
  exp : Word
  granted : Bool
  debugged : Bool
deriving DecidableEq, Repr

/-! ## The structure in force -/

/-- A table descriptor, the 32 B of R484. -/
abbrev TableDesc := BitVec 256

/-- Thermal policy (R477, section 0x06). -/
structure ThermalPol where
  tsched : BitVec 24
  mthr : BitVec 40
deriving DecidableEq, Repr

/-- The structure that the image and the live packages set (R483, R484, R307, R573, R333, R340). -/
structure Struct where
  /-- Table descriptors by table number; zero for an undefined table. -/
  tables : Sparse TableDesc
  /-- WACT and WPEND: key 16t + c, the weight of class c in table t. -/
  wact : Sparse (BitVec 8)
  wpend : Sparse (BitVec 8)
  /-- SCTL PEND, REJ and CSTAT by share table. -/
  spend : BitVec 8
  srej : BitVec 8
  cstat : Sparse (BitVec 4)
  stmap : BitVec 18
  /-- The save share table is in use since the last tick (R311). -/
  saveTable : Bool
  thermal : ThermalPol
  /-- TSCHED and MTHR as the image and live packages give them: what a warm reset reloads (R30). -/
  thermalHome : ThermalPol
  /-- The 32 B EVENTS section (R573). -/
  events : BitVec 256
  /-- LIFECYCLE: wear limit, reserve size, due age, critical age. -/
  wearLimit : BitVec 32
  reserve : BitVec 16
  dueAge : BitVec 16
  critAge : BitVec 16
  /-- PORTS entries, [15:8] margin threshold and [23:16] calibration period (R483). -/
  portPol : Sparse Reg
  /-- CREW: routed-profile mask, route field map, share maps by table number. -/
  routed : Word
  routeMap : BitVec 512
  shareMaps : Sparse Word
  /-- STORE: dies per channel, pace floor of the image. -/
  dpc : BitVec 8
  imgPace : BitVec 8
deriving DecidableEq, Repr

/-! ## Cells -/

/-- One SECDED-protected word: 64 data bits and 8 check bits (R366). -/
structure Cw where
  data : Word
  chk : Byte
deriving DecidableEq, Repr

/-- One side-field set of a row half (R48 to R50). -/
structure Side where
  v : Bool
  h : Bool
  g : BitVec 2
  tag : BitVec 7
  pc : Bool
  pv : Bool
deriving DecidableEq, Repr

/-- One TCAM row of 96 trits with its two side-field sets (R47, R49). -/
structure TRow where
  care : BitVec 96
  val : BitVec 96
  s0 : Side
  s1 : Side
deriving DecidableEq, Repr

/-- A repair that disagreement resolution has issued (R87, R88): write entry and result slot of (bank, slot, half)
from the answering copy, if that copy still holds what was read. -/
structure Repair where
  src : Nat
  dst : Nat
  slot : Nat
  half : Nat
  care : BitVec 192
  val : BitVec 192
  side : Side
  rword : Word
  chk : Word
  scrub : Bool
deriving DecidableEq, Repr

/-- The pattern banks, their states and their selectors (R22, R47 to R98, R409, R595). -/
structure Tcam where
  /-- Rows by site × 4096 + row. -/
  rows : Sparse TRow
  /-- Site of a logical bank, kept as site XOR logical number so that the identity map is empty (R595). -/
  site : Sparse Nat
  /-- Bank state of a logical bank (R409): FREE 0, IN_USE 1, SPARE 2, CLONE_DEST 3, TESTING 4, RETIRED 5. -/
  state : Sparse (BitVec 4)
  /-- Table that a logical bank is allocated to, plus 1. -/
  table : Sparse Nat
  disag : Sparse (BitVec 8)
  /-- TEST of a site (R409). -/
  test : Sparse (BitVec 4)
  /-- Sites whose retention test runs, with the elapsed time at which it began or began again (R406, R407). -/
  retain : List (Nat × Nat)
  /-- Gate selectors: key bank × 2 + (0 GA, 1 GB); the gate and whether its sense is insert (R79, R83). -/
  sels : Sparse (Option (Nat × Bool))
  bsgen : Reg
  /-- Repairs waiting at each update engine (R89): key engine. -/
  repairs : Sparse (List Repair)
  /-- Refresh: the next refresh group of a site (R91, R93). -/
  refGroup : Sparse Nat
  /-- The band whose length times the group period in progress at a site (R94). -/
  refBand : Sparse Nat
  /-- Group requests of a site that its arbiter has not granted yet (R93). -/
  refDue : Sparse Nat
  /-- Clone mirrors: source logical bank to the logical banks that take every write of it, each with COPY or not (R75, R178). -/
  mirror : Sparse (List (Nat × Bool))
deriving DecidableEq, Repr

/-! ## The marker and the commit gates -/

/-- Commit gate states (R82). -/
inductive GateSt where
  | free | armed | draining | clearing
deriving DecidableEq, Repr

/-- One copy under a gate: bank, slot, half, sense, and the selector that governs it. -/
structure GCopy where
  bank : Nat
  slot : Nat
  half : Nat
  ins : Bool
  gb : Bool
deriving DecidableEq, Repr

/-- What a table command answers to (R143, R188, R181): a port's TRSP, a register set, a bulk record, a Waitos request. -/
inductive Via where
  | port (p : Nat) (incarn : BitVec 16)
  | regset (n : Nat)
  | bulk (p k seq : Nat)
  | none
deriving DecidableEq, Repr

/-- A TRSP, before it is packed (R146). -/
structure TRsp where
  st : Status
  existed : Bool
  latehit : Bool
  chain : Bool
  ctag : BitVec 10
  opc : BitVec 8
  addr : BitVec 24
  /-- The half-select of the entry address (R54). -/
  half : Bool
  jsn : Word
  res : Word
  moves : BitVec 5
  tag : BitVec 7
  hit : Bool
  /-- Continuation slots of READ and IREAD. -/
  cont : List Slot
deriving DecidableEq, Repr

/-- One of the 64 commit gates, with the change it governs (R79 to R84, R172). -/
structure Gate where
  st : GateSt
  opened : Bool
  /-- MODEL: the order of the opening among snapshots and openings (R82, R139). -/
  seq : Nat
  copies : List GCopy
  table : Nat
  jsn : Word
  /-- H-bit transfers due at the drain: source (bank, slot, half) key to destination key (R161, R163). -/
  hmoves : List (Nat × Nat)
  /-- BINF rows whose count falls after the drain (R172). -/
  refDec : List Nat
  /-- BMAP rows whose basting count falls after the drain (R230). -/
  basteDec : List Nat
  /-- The answer a command gives only after the drain (R167, R230). -/
  reply : Option (Via × TRsp)
  /-- The change is a DELETE_IF_IDLE (R167). -/
  dii : Bool
deriving DecidableEq, Repr

/-- The bank directory, its list and its counts (R67 to R78, R545), and the route mirror (R333, R336). -/
structure Marker where
  dirA : Sparse (BitVec 80)
  dirB : Sparse (BitVec 80)
  /-- What Waitos's record of the structure image and the live replication changes gives for each entry (R73). -/
  dirRec : Sparse (BitVec 80)
  /-- How often the marker rewrote one copy from the other (R73); no register shows it. -/
  dirFixed : Word
  /-- The bank list of 32,768 logical bank numbers. -/
  list : Sparse Nat
  /-- MATCH counts (R74). -/
  count : Sparse (BitVec 32)
  /-- Next replica in rotation (R71). -/
  rot : Sparse Nat
  /-- R545 run lengths: key 2 × index for ADD, 2 × index + 1 for DROP. -/
  runs : Sparse Nat
  /-- INS_NOROOM at the last reading, by table (R545), and the partition that last refused an insert. -/
  lastNoRoom : Sparse Word
  refused : Sparse Nat
  gates : Sparse Gate
  /-- MODEL: the running number of snapshots and gate openings. -/
  seq : Nat
  /-- Banks of removed replicas that wait under R76: directory index, step number of the write, banks. -/
  releases : List (Nat × Nat × List Nat)
  /-- The route mirror: RTE entries as key, care, TAG, rank. -/
  mirror : List (BitVec 96 × BitVec 96 × Nat × Nat)
deriving DecidableEq, Repr

/-! ## SRAM -/

/-- An entry of an update coalescer: merge mask and merge value of a word (R386). -/
structure Coal where
  mask : Word
  val : Word
  /-- Commands whose answer waits for the merged write (R175). -/
  waits : List (Via × TRsp)
deriving DecidableEq, Repr

/-- The SECDED-protected words and what surrounds them (R366 to R392, R411). -/
structure Sram where
  /-- Words by place key (Ops): index rows, result slots, profile buffers, composer copies. -/
  words : Sparse Cw
  /-- Page valid bits in three copies (R390), by page key. -/
  pages : Sparse (BitVec 3)
  /-- Update coalescers, by place key (R386). -/
  coal : Sparse (Option Coal)
  /-- Row map: (SRAM block × 1024 + row) to spare row plus 1 (R378). -/
  rowMap : Sparse Nat
  /-- Column map: (SRAM block × 128 + bit) to spare column plus 1 (R379). -/
  colMap : Sparse Nat
  /-- The armed injection: word address, data flip, check flip (R411). -/
  inj : Option (BitVec 28 × Word × Byte)
deriving DecidableEq, Repr

/-! ## Searches -/

/-- Where a lookup step stands (R105 to R114, R341). -/
inductive StepPh where
  | idle | issued | disagree | remote | ended
deriving DecidableEq, Repr

/-- The outcome of one probed bank: the winner's slot, half and TAG, or none. -/
structure Win where
  slot : Nat
  half : Nat
  tag : Nat
deriving DecidableEq, Repr

/-- A share's answer to a broadcast step (R341): winner's TAG, rank, entry address, half and result word. -/
structure Share where
  tag : Nat
  rank : Nat
  addr : Nat
  half : Nat
  rword : Word
deriving DecidableEq, Repr

/-- One span bank of an issued step: the bank, its site at the snapshot, and the twin's when the table is paired (R98). -/
structure ProbeBank where
  bank : Nat
  site : Nat
  /-- The site of the odd bank of a 192-trit pair at the same snapshot (R98). -/
  odd : Nat
  /-- The twin: its bank, its site and the site of its odd bank. -/
  twin : Option (Nat × Nat × Nat)
  a : Option Win
  b : Option Win
  resolve : Bool
  /-- The validated winner of the bank or twin pair. -/
  out : Option Share
deriving DecidableEq, Repr

/-- One lookup step of a running search (R105 to R114). -/
structure StepRun where
  ph : StepPh
  hit : Bool
  o0 : Word
  o1 : Word
  o2 : Word
  o3 : Word
  /-- Gate snapshot: open gates (R79), and its place in the order of snapshots and openings. -/
  snap : BitVec 64
  seq : Nat
  dir : Nat
  banks : List ProbeBank
  /-- Ranks whose PANS is awaited (R341). -/
  await : List Nat
  /-- Those of them that a PROBE is still to reach, for want of a probe tag (R345). -/
  unsent : List Nat
  shares : List Share
  /-- The status that ends the search at the end of the level, when the step found one (R105). -/
  fail : Option Status
deriving DecidableEq, Repr

/-- Who waits for a token's answer: a partner's search, a FWD or a PROBE of a peer (R130, R345). -/
inductive TokKind where
  | partner
  | fwdd (k tag origin : Nat) (l0 : Bool)
  | probed (k tag origin table : Nat)
deriving DecidableEq, Repr

/-- Where a token stands. -/
inductive TokPh where
  | running | away | resolved | answered
deriving DecidableEq, Repr

/-- A reserved free-list entry of a running search (R112): list and block. -/
structure Resv where
  list : Nat
  block : Nat
deriving DecidableEq, Repr

/-- A search token (R24, R130, R134). -/
structure Token where
  eng : Nat
  kind : TokKind
  incarn : BitVec 16
  tag : Nat
  client : Nat
  profile : Nat
  /-- The latched buffer of the slot, its VER, and the latched composer generation (R134). -/
  buf : Nat
  ver : BitVec 16
  gen : Nat
  key : BitVec 192
  cx : Word
  lk0 : BitVec 192
  lk1 : BitVec 192
  level : Nat
  steps : List StepRun
  resv : List Resv
  rsv : Bool
  fwdFlag : Bool
  lowv : Bool
  ph : TokPh
  st : Status
  hits : BitVec 4
  w0 : Word
  w1 : Word
  w2 : Word
  /-- Elapsed time of admission (R26). -/
  t0 : Nat
  nosample : Bool
  /-- The forward tag and cascade port that carry the search to a peer (R347). -/
  away : Option (Nat × Nat)
deriving DecidableEq, Repr

/-- A composer-table row write that waits for a generation (R120, R121): place key and value, and its reply. -/
structure CompWrite where
  key : Nat
  val : Word
  reply : Option (Via × TRsp)
deriving DecidableEq, Repr

/-- Profile engines, composers and the heat sampler (R99, R119 to R121, R127, R134). -/
structure Search where
  tokens : Sparse (Option Token)
  /-- MODEL: the number the next token takes. -/
  next : Nat
  /-- Active buffer of each slot (R99). -/
  active : Sparse Nat
  /-- VER of each slot's active buffer, as Waitos sets it: what the next rewrite raises when the header cannot be read (R135). -/
  vers : Sparse (BitVec 16)
  /-- Composer tables: the number of the current generation and its contents by place key, and the previous one. -/
  gen : Nat
  cur : Sparse Word
  prev : Sparse Word
  waiting : List CompWrite
  /-- Eligible searches seen on each engine since the last sample (R127). -/
  sample : Sparse Nat
deriving DecidableEq, Repr

/-! ## Update engines -/

/-- A table command in an engine's queue: slot 0 and its continuation slots (R143, R227). -/
structure TCmd where
  issuer : Nat
  via : Via
  s0 : Slot
  s1 : Slot
  s2 : Slot
deriving DecidableEq, Repr

/-- The clone an engine runs (R177, R178): source, destination, mode COPY, the command, the destination's state before, the
state before of the bank beside it in a 192-trit pair, and the row cursor: the rows below it have been copied. -/
structure Clone where
  src : Nat
  dst : Nat
  copy : Bool
  cmd : Option TCmd
  /-- The states to which the destinations return when the clone is halted, the second of a 192-trit pair (R177, R306). -/
  prior : BitVec 4
  prior2 : BitVec 4
  jsn : Word
  /-- The row cursor (R178). -/
  row : Nat
  /-- The bank map has moved the logical number; the clone waits for the searches that still probe the old site (R98, R407). -/
  moved : Bool
deriving DecidableEq, Repr

/-- A REPOINT or LOG_REPOINT in progress (R169, R170, R187). -/
structure Repoint where
  cmd : TCmd
  /-- Last entry address visited and its half, as one number plus 1; 0 before the first. -/
  cursor : Nat
  /-- The cursor as the last cursor record holds it; 0 where none has been placed. -/
  saved : Nat
  count : Nat
  /-- JSN of the command's first group, 0 before it. -/
  jsn : Word
  /-- Resumed after a reset: completion is an event (R187). -/
  resumed : Bool
deriving DecidableEq, Repr

/-- One update engine (R34, R149). -/
structure Engine where
  queue : List TCmd
  clone : Option Clone
  repoint : Option Repoint
  /-- Relocation moves that the command at the head of the queue has committed (R160). -/
  moves : Nat
  /-- The reservations that it holds while it waits, in the order of R321. -/
  held : List Nat
  /-- How often the command at the head has started again (R321). -/
  restarts : Nat
  /-- The bulk record that the engine has begun, which waits: port × 4 + stream; the reservations and moves are its (R34, R158). -/
  record : Option Nat
  /-- Bank scrub position: bank and row; SRAM scrub position: place key (R393, R396). -/
  scrubBank : Nat
  scrubRow : Nat
  scrubWord : Nat
deriving DecidableEq, Repr

/-- A bulk stream (R180 to R183). -/
structure Stream where
  isOpen : Bool
  table : Nat
  dir : BitVec 2
  replace : Bool
  committed : Nat
  rejected : Nat
  sent : Nat
  /-- DUMP: the next entry address key. -/
  pos : Nat
  /-- Number of the port's next record sequence (R181). -/
  seq : Nat
  eng : Nat
deriving DecidableEq, Repr

/-- One command register set (R188 to R190). -/
structure RegSet where
  opc : BitVec 8
  tnum : BitVec 5
  half : Bool
  replace : Bool
  nochain : Bool
  busy : Bool
  done : Bool
  rejected : Bool
  st : BitVec 4
  rflags : BitVec 4
  addr : BitVec 24
  pfx : BitVec 7
  key : BitVec 192
  mask : BitVec 192
  result : Word
  opnd : BitVec 256
  jseq : Word
  detail : BitVec 16
deriving DecidableEq, Repr

/-- Update engines, streams, register sets and the learning table (R34, R180, R184, R188). -/
structure Update where
  eng : Sparse Engine
  streams : Sparse Stream
  set0 : RegSet
  set1 : RegSet
  /-- LEARN_NOTE counts, most recently reported line first: line and count (R184). -/
  learn : List (Nat × Nat)
deriving DecidableEq, Repr

/-! ## Lifecycle -/

/-- The side record of a MIG row (R231). -/
structure MigSide where
  holder : BitVec 3
  rsrc : Bool
  bepoch : BitVec 16
  /-- Device time of the slot's last MAP_SWITCH, and the elapsed time of it. -/
  switched : Word
  since : Nat
  /-- The logical stripe-block of the migration. -/
  lblk : Nat
deriving DecidableEq, Repr

/-- Free lists, in-hand sets, condition queues, wear bins (R211, R233, R244, R247, R253). -/
structure Life where
  /-- Lists 0 to 17 of POOL, head first. -/
  lists : Sparse (List Nat)
  /-- In-hand set of each port: block and the list it came from. -/
  inhand : Sparse (List (Nat × Nat))
  /-- Condition queue of each port. -/
  condq : Sparse (List Nat)
  /-- The 15 bin boundaries. -/
  bins : List Nat
  mig : Sparse MigSide
  /-- The end-of-life advisory (R124, R253). -/
  advisory : Bool
  /-- An allocation took a block from the reserve (R211). -/
  refillDue : Bool
  /-- Keys of the lines whose patch was refused for want of room and has not been replaced (R242, R253, R255). -/
  noPatch : List (BitVec 192)
deriving DecidableEq, Repr

/-! ## Ports -/

/-- Credits of one class that the TZ8 grants (R274, R276, R323): what the partner may spend or has in flight, what has
arrived and is not consumed, what is freed and not yet returned, and the cumulative count returned. -/
structure Grant where
  avail : Nat
  queued : Nat
  freed : Nat
  cum : BitVec 16
deriving DecidableEq, Repr

/-- Credits of one class that the other side grants (R275, R276, R323): in hand, A, the total since HELLO, and the most that
have been in hand, which is the grant. -/
structure Held where
  avail : Nat
  a : BitVec 16
  total : Nat
  cap : Nat
deriving DecidableEq, Repr

/-- A management exchange (R271): id, segments received, bytes, whether the request is complete. -/
structure Exchange where
  id : Byte
  segs : Nat
  bytes : List Byte
  complete : Bool
deriving DecidableEq, Repr

/-- Rolling calibration in progress on a port (R290). -/
structure LaneRun where
  lane : Nat
  rx : Bool
  /-- The redundant lane Q of the lane's group of 32, 0 or 1. -/
  red : Nat
  /-- 0 LANE_SHIFT unacknowledged, 1 traffic on Q, 2 LANE_RETURN unacknowledged. -/
  ph : BitVec 2
  since : Nat
deriving DecidableEq, Repr

/-- A sideband message of rolling calibration (R290): LANE_SHIFT, or LANE_RETURN (back), with L, Q and the flit count. -/
structure LaneMsg where
  back : Bool
  lane : Nat
  rx : Bool
  red : Nat
  flit : Nat
deriving DecidableEq, Repr

/-- A slot that leaves a cascade port in a relayed or direct flit (R358, R359): the rank it is for, and the port whose
relay buffer holds it when this die relays it. -/
structure Relay where
  dest : Nat
  src : Option Nat
  slot : Slot
deriving DecidableEq, Repr

/-- One port, P0 to P7 as 0 to 7 and C0 to C2 as 8 to 10 (R256 to R297, R331 to R347). -/
structure Port where
  st : BitVec 3
  rate : BitVec 2
  /-- The rate that training tries now (R287). -/
  trying : BitVec 2
  ready : Bool
  hold : Bool
  incarn : BitVec 16
  /-- Redundant lanes in use, transmit and receive: bit 2 × group of 32 + redundant lane (R289, R291). -/
  txRed : BitVec 4
  rxRed : BitVec 4
  /-- Lanes that the pass of rolling calibration under way has come to: bit 64 × receive + lane (R290, R291). -/
  pass : BitVec 128
  /-- Groups of 32 that the pass has found without a free redundant lane and counted: bit 2 × receive + group (R291). -/
  skipped : BitVec 4
  /-- MODEL: the sideband messages of rolling calibration sent, oldest first (R290). -/
  lmsg : List LaneMsg
  calen : Bool
  credlim : BitVec 11
  /-- Granted classes by credit code (R274, R344). -/
  grants : Sparse Grant
  /-- Classes granted by the other side, by credit code. -/
  helds : Sparse Held
  tags : List Nat
  ctags : List Nat
  exch : List Exchange
  /-- Ingress in arrival order, by class code: SRCH 1, TCMD 3, TEMP 6, BULK 7, NOTE 8, CRED 9, MGMT 10, SRSP 2. -/
  ingress : Sparse (List Slot)
  /-- Slots of a TCMD or BULK record whose continuation has not arrived (R143, R284). -/
  part : List Slot
  bulkPart : List Slot
  /-- Slots still to come of a record discarded whole, by credit code (R281). -/
  skip : Sparse Nat
  /-- Slots that wait for transmission (R258). -/
  egress : List Slot
  /-- MODEL: every flit sent on the link, oldest first, each as its slots from slot 0 on (R258). -/
  tx : List (List Slot)
  /-- Last applied RSEQ (R270). -/
  rseq : BitVec 16
  rseqSet : Bool
  /-- SRCH credits returned in this stroke (R280). -/
  strokeRet : Nat
  /-- Elapsed time of the last OVERRUN report (R281). -/
  overAt : Nat
  overSet : Bool
  /-- READY had been sent before PFAIL_N, and FLUSHED has come since SAVE_FENCE (R268). -/
  fenced : Bool
  flushed : Bool
  /-- Event records sent and not yet freed (R566). -/
  evtSent : Nat
  cal : Option LaneRun
  /-- The other side's HELLO has been accepted in this incarnation (R286). -/
  hello : Bool
  /-- The JSN of the last update accepted from the port (R267). -/
  lastJsn : Word
  /-- Forward tags and probe tags held (R347): the tag with the token that waits; for a probe also step × 4 + rank. -/
  fwdTags : List (Nat × Nat)
  probeTags : List (Nat × Nat × Nat)
  /-- Slots that wait to leave a cascade port, this die's own and those in its relay buffers (R359). -/
  relay : List Relay
  /-- PORT_DOWN, reason 2, has been raised in this incarnation (R275). -/
  short : Bool
deriving DecidableEq, Repr

/-! ## Arbiters and tally -/

/-- Counters of one class in one arbiter (R314). -/
structure ArbClass where
  /-- Grants since the last share-window tick: the credit counter stands at the weight less these, or at zero (R300). -/
  used : BitVec 8
  /-- Of a snapshot only: the credit counter and the weight at that time (R315). -/
  credit : BitVec 8
  weight : BitVec 8
  /-- Elapsed times at which the class's requests that wait were presented, in the order in which they are served. -/
  waits : List Nat
  grants : Word
  waitsum : Word
  waitmax : BitVec 32
  preempt : BitVec 16
  dead : BitVec 16
  cuts : BitVec 16
  starve : BitVec 16
deriving DecidableEq, Repr

/-- One arbiter (R298 to R306, R314). -/
structure Arb where
  classes : Sparse ArbClass
  holder : Option Nat
  /-- Progress count and class of each preempted multi-cycle holder (R303). -/
  preempted : List (Nat × Nat)
  progress : Nat
  prev : Nat
  cut : Bool
  /-- Elapsed time of the last grant under the 1 µs line, plus 1 (R301). -/
  starveAt : Nat
  /-- Elapsed time at which the holder's stall timer started (R305). -/
  timer : Nat
deriving DecidableEq, Repr

/-- Every arbiter, and the shadows that the counter window shows (R298, R315, R578). -/
structure Arbiters where
  live : Sparse Arb
  /-- Shadows that a SNAP took, or a GSNAP of an arbiter that had counted. -/
  shadow : Sparse (Option Arb)
  /-- Weights at the last GSNAP, by arbiter type × 16 + class: what the shadow of every other arbiter shows. -/
  shadowW : Sparse (BitVec 8)
  /-- Freeze bits and timeout bits (R312, R313). -/
  dfrz : BitVec 66
  frzto : BitVec 66
deriving DecidableEq, Repr

/-- The tally unit (R323 to R328). -/
structure Tally where
  viol : Bool
  admstop : Bool
  poolId : BitVec 16
  vrec : List Reg
  autowarm : Bool
  audits : Word
  /-- TVAL of the management cores and of the sideband (R590). -/
  tvalC : List Reg
  tvalS : List Reg
deriving DecidableEq, Repr

/-! ## Journal and store -/

/-- Journal records (R424 to R427). -/
inductive JRec where
  | iword (t w row : Nat) (v : Word)
  | entry (t half slotAddr tag : Nat) (val : BitVec 192) (care : BitVec 192) (wide ext : Bool) (res : Word)
  | move (t half srcHalf dst src tag : Nat) (val : BitVec 192) (care : BitVec 192) (wide ext : Bool) (res : Word)
  | del (t half addr : Nat)
  | life (opc : BitVec 8) (slot : Slot) (port : Nat) (fw rsrc : Bool) (bepoch : BitVec 16) (block : Nat)
  | alloc (list block port : Nat)
  | bank (action lb second cursor newState : Nat)
  /-- MODEL: the half of the address, whether the command has ended, and the command itself (log entries 46, 102). -/
  | cursor (opc : BitVec 8) (addr half : Nat) (done : Bool) (first : Word) (cmd : TCmd)
  /-- MODEL: the payload, which the LIVEDATA records behind it carry. -/
  | live (section_ : Nat) (off : Nat) (ver : BitVec 16) (data : List Byte)
  /-- EXT_MASK: care bits 95:0; EXT_WIDE: value and care bits 191:96; LIVEDATA: payload. -/
  | extMask (care : BitVec 96)
  | extWide (val care : BitVec 96)
  | livedata (data : List Byte)
  | time (t : Word)
  /-- The first 8 bytes of the lost record, where they can be read. -/
  | hole (first : Option Word)
  | void (jsn : Word)
  | seal (t : Word)
deriving DecidableEq, Repr

/-- A record in a page frame with its full JSN and MORE bit (R423, R424). -/
structure JEntry where
  jsn : Word
  more : Bool
  body : JRec
deriving DecidableEq, Repr

/-- A journal page frame (R428). -/
structure Frame where
  recs : List JEntry
  /-- Units of 16 B in use, of 256. -/
  used : Nat
  closed : Bool
  drained : Bool
  openedAt : Nat
deriving DecidableEq, Repr

/-- The journal (R421 to R429, R439). -/
structure Journal where
  /-- JSNLAST. -/
  last : Word
  /-- DMARK. -/
  dmark : Word
  frames : List Frame
  /-- JSNs of groups whose table writes have not all been made (R429). -/
  open_ : List Word
  /-- JSINCE: journal bytes since RFJSN (R433, R452). -/
  since : Word
  sealed : Bool
deriving DecidableEq, Repr

/-- A page of a checkpoint on the store (R417, R420): page number in writing order, band, unit, and (MODEL) the ranges of places of
words that lie in it, each from its first place up to the next range. -/
structure CkPage where
  num : Nat
  band : Nat
  unit : Nat
  spans : List (Nat × Nat)
deriving DecidableEq, Repr

/-- A segment as the segment directory lists it (R432): its number; its kind, 0 TCAM, 1 index, 2 structure, 3 the directory itself;
table; start of its range, a bank or the first row; length in bytes; CRC-32C; and its pages, whose first gives the SLOC. -/
structure Seg where
  num : Nat
  kind : Nat
  table : Nat
  lo : Nat
  len : Nat
  crc : BitVec 32
  pages : List CkPage
deriving DecidableEq, Repr

/-- A checkpoint's contents, complete or in progress (R430 to R432, R490). -/
structure Ckpt where
  gen : Word
  /-- Its segments in writing order, the segment directory last (R432). -/
  segs : List Seg
  rfjsn : Word
  /-- Journal bytes at the time the generation began. -/
  sinceMark : Word
  rows : Sparse TRow
  words : Sparse Cw
  pages : Sparse (BitVec 3)
  hasStruct : Bool
  dir : Sparse (BitVec 80)
  list : Sparse Nat
  site : Sparse Nat
  state : Sparse (BitVec 4)
  btable : Sparse Nat
  profiles : Sparse Cw
  active : Sparse Nat
  wact : Sparse (BitVec 8)
  thermal : ThermalPol
  events : BitVec 256
  lifePol : List Nat
  mig : Sparse MigSide
  lists : Sparse (List Nat)
  /-- The in-hand sets beside the free lists (R236). -/
  inhand : Sparse (List (Nat × Nat))
  bins : List Nat
  strver : BitVec 16
  /-- The header of the booted image (R490, R506). -/
  image : List Byte
  layout : Word
  counters : Sparse Word
  gen_ : Nat
  remap : List (Nat × Nat × Nat)
  /-- REBALANCE as journaled: phase, source, destination, cursor, G, G′, device time of BEGIN (R354). -/
  rebal : List Nat
deriving DecidableEq, Repr

/-- A superblock (R434). -/
structure Superblock where
  sbgen : Word
  ckgen : Word
  rfjsn : Word
  sealJsn : Word
  /-- SLOC of the segment directory, and of the journal page that holds RFJSN. -/
  ckdir : BitVec 32
  jloc : BitVec 32
  saved : Bool
  pairs : Nat
  dpc : Nat
  pstate : BitVec 8
  imgver : BitVec 16
  dtime : Word
  epoch : BitVec 16
  remap : List (Nat × Nat × Nat)
  /-- MODEL: the page of its ring that it stands in (R436). -/
  pos : Nat
deriving DecidableEq, Repr

/-- A journal page on the store (R417, R420): page number in writing order, the band and unit it lies in, and its records. -/
structure JPage where
  num : Nat
  band : Nat
  unit : Nat
  recs : List JEntry
deriving DecidableEq, Repr

/-- The store (R414 to R420, R430 to R436, R452). -/
structure Store where
  /-- Dies identified and not failed, by die number 2p + copy. -/
  die : BitVec 16
  /-- DEGRADED and FAILED bits by pair. -/
  degraded : BitVec 8
  failed : BitVec 8
  /-- The store is conditioned for a first boot (R495, R496, R558). -/
  blank : Bool
  pages : List JPage
  nextPage : Nat
  /-- Newest complete checkpoint and the one in progress. -/
  ckpt : Option Ckpt
  run : Option Ckpt
  /-- Segment number in progress, and the highest generation number begun (R430). -/
  seg : Nat
  lastGen : Word
  /-- PFLOOR. -/
  pfloor : BitVec 2
  /-- Superblock rings: pair to the superblocks written, newest first, with ring position. -/
  rings : Sparse (List Superblock)
  ringPos : Sparse Nat
  /-- Ring blocks conditioned: key pair × 8 + block. -/
  ringCond : Sparse Bool
  sbgen : Word
  /-- Write pointer band and unit, and the bands conditioned ahead of it (R418). -/
  band : Nat
  unit : Nat
  conditioned : List Nat
  /-- Remap table: die, retired block, spare block (R419). -/
  remap : List (Nat × Nat × Nat)
  /-- STWEAR: conditionings of store blocks. -/
  wear : Nat
deriving DecidableEq, Repr

/-- Hold-up save phases of HSTAT (R453). -/
structure HoldUp where
  ph : BitVec 3
  early : Bool
  /-- HSTAT [11:4]: ports that sent FLUSHED. -/
  flushed : BitVec 8
  pftime : Word
  /-- Elapsed time of the failure. -/
  pfAt : Nat
  sealJsn : Word
  savetime : BitVec 21
  lastboot : BitVec 2
  warm : Bool
  rsttime : BitVec 10
  /-- The save was started by PWRGD (R613), by a trip (R470). -/
  byPwrgd : Bool
  byTrip : Bool
  /-- PFAIL_N has risen with VHOLD recovered and the warm reset waits for the save (R46). -/
  recover : Bool
  /-- PWRGD has risen again and the cold boot waits for the save (R613). -/
  reboot : Bool
  /-- The ports have stopped and the save is still to complete (R46). -/
  incomplete : Bool
  /-- The on-die table marker passes its check: the tables have been restored or loaded since power came (R449; log entry 134). -/
  tableMark : Bool
deriving DecidableEq, Repr

/-! ## Thermal -/

/-- One stripe group's media temperature (R472 to R476). -/
structure MGroup where
  /-- Applied value, last entry the partner reported, both in 0.125 °C. -/
  value : Int
  reported : Int
  band : Nat
  /-- Elapsed time at which the band was entered, and of the last applied entry. -/
  entered : Nat
  last : Nat
  lowRun : Bool
  stale : Bool
  subst : Bool
  seen : Bool
deriving DecidableEq, Repr

/-- The thermal block (R455 to R478). -/
structure Therm where
  reading : BitVec 12
  band : BitVec 3
  fault : Bool
  held : Bool
  guard : Bool
  tripped : Bool
  conv : Bool
  ttime : Word
  trim : BitVec 16
  calTime : Word
  /-- Elapsed time of the last conversion start; demands waiting; the running conversion confirms a trip (R456, R470). -/
  started : Nat
  startedSet : Bool
  waiting : Bool
  confirming : Bool
  /-- The reading a confirming conversion confirms (R470). -/
  suspect : Int
  /-- The good readings of the last 10 ms: elapsed time at which each finished, and value (R465). -/
  goods : List (Nat × Int)
  /-- The previous reading met the downward bound (R462). -/
  pair : Bool
  entered : Nat
  confirmed : Nat
  /-- Good readings in a row in the fault state (R467). -/
  run : Nat
  /-- Band that Waitos is to write after the last reading (R464). -/
  decided : BitVec 3
  /-- Calibration: elapsed time of the last one, since when it is deferred, its handle. -/
  calAt : Nat
  deferred : Option Nat
  deferRaised : Nat
  /-- Requesters whose TEMP_READ waits for a reading (R533): client code and SEQ and header. -/
  readers : List (Nat × List Byte)
  groups : Sparse MGroup
  /-- Guard demands: the thermal block has demanded one (R469). -/
  guardDemand : Bool
  /-- Stripe groups whose DCOL is still to be written: the home row is to be re-derived first, or the journal took no group
  (R206, R473). -/
  dcolDue : List Nat
deriving DecidableEq, Repr

/-! ## Integrity -/

/-- A recurrence tracker entry (R372). -/
structure Track where
  valid : Bool
  addr : BitVec 28
  count : BitVec 3
  rewritten : Bool
  hard : Bool
  syn : Byte
  /-- Device time of the last correction, and the elapsed time of the rewrite. -/
  last : Word
  rewroteAt : Nat
deriving DecidableEq, Repr

/-- A correction report in the tracker's queue (R372). -/
structure Report where
  addr : BitVec 28
  syn : Byte
  time : Word
  elapsed : Nat
deriving DecidableEq, Repr

/-- What a re-derivation rebuilds (R399). -/
inductive Bad where
  | word (key : Nat)
  | entry (bank slot half : Nat)
  /-- A directory entry whose copies differ with equal parity (R73). -/
  | dir (d : Nat)
deriving DecidableEq, Repr

/-- Integrity machinery (R372 to R413). -/
structure Integ where
  track : Sparse Track
  queue : List Report
  bankScrub : Bool
  sramScrub : Bool
  bankPer : BitVec 10
  sramPer : BitVec 12
  bankPass : Word
  sramPass : Word
  romPri : BitVec 4
  coreOut : BitVec 4
  romBad : Sparse Bool
  rederive : List Bad
  repairs : List Word
  otpFull : Bool
  /-- ECC test registers (R411). -/
  arm : Bool
  etaddr : BitVec 28
  etbusy : Bool
  etdone : Bool
  etrej : Bool
  etst : BitVec 4
  syn : Byte
  pageinv : Bool
  etdata : Word
  etchk : Byte
  etside : BitVec 14
  etflipd : Word
  etflipc : Byte
  etkey : BitVec 96
  etmask : BitVec 96
  /-- Next bank of the routine self-test rotation (R405), and the waiting self-test requests: a bank, plus 4,096 when its
  turn in the rotation asked for it. -/
  rotation : Nat
  selfTest : List Nat
deriving DecidableEq, Repr

/-! ## Waitos -/

/-- A request in a Waitos queue (R518): exchange id or MCTP message tag, the incarnation of its port, and the bytes. -/
structure Req where
  id : Byte
  incarn : BitVec 16
  bytes : List Byte
deriving DecidableEq, Repr

/-- An operation handle (R523, R525). -/
structure Op where
  cmd : BitVec 16
  /-- 0 RUNNING, 1 DONE, 2 FAILED, 3 ABANDONED. -/
  state : BitVec 8
  st : BitVec 4
  progress : Word
  start : Word
  end_ : Word
  endAt : Nat
  owner : Nat
  auto : Bool
  /-- The object it holds (R561): kind and number. -/
  obj : Nat × Nat
  /-- MODEL: the banks that the operation works on. -/
  data : List Nat
deriving DecidableEq, Repr

/-- An image session (R552 to R556). -/
structure Session where
  live : Bool
  len : Nat
  next : Nat
  erased : Bool
  head : List Byte
  staging : List Byte
  touched : Nat
  handle : Nat
  verified : Bool
deriving DecidableEq, Repr

/-- The learning and maintenance state of Waitos, its queues, the sideband (R515 to R526, R546). -/
structure Waitos where
  /-- Requests waiting by client code: 0 to 7 ports, 9 sideband. -/
  reqs : Sparse (List Req)
  /-- MODEL: responses sent on the sideband, oldest first: message tag and bytes. -/
  sbTx : List (Byte × List SbPacket)
  /-- Operations that a reset has let resume: they end under handle 0 (R525). -/
  resumed : List Op
  /-- MCTP control responses sent (MODEL log) and the endpoint identity. -/
  eid : Byte
  dynAddr : BitVec 7
  dynSet : Bool
  ops : Sparse (Option Op)
  nextHandle : Nat
  session : Option Session
  autoRep : Bool
  autoGrow : Bool
  cores : BitVec 4
  /-- Preloaded boundary value of the test access port and its instruction register (R508). -/
  tapIr : Nat
  tapDr : Word
  /-- Software view of management SRAM that no other field holds is lost: Waitos state words rebuilt (R403). -/
  rebuilt : Nat
deriving DecidableEq, Repr

/-! ## Crew -/

/-- What the coordinator asks the other dies before a REBALANCE begins (R353; log entry 76): the granule and the destination, the
ranks whose answer is awaited, and the answers so far: 0 every one OK, 6 no RTE room, 7 refused. -/
structure RebalAsk where
  gran : Nat
  dst : Nat
  wait : BitVec 4
  verdict : Nat
deriving DecidableEq, Repr

/-- Crew state (R329 to R365). -/
structure Crew where
  /-- Ranks that sent CREW_READY, ranks this die sent it to. -/
  readyFrom : BitVec 4
  timedOut : Bool
  restoredAt : Nat
  /-- LINKS of each rank: its last note's bit mask (R358). -/
  links : Sparse (BitVec 3)
  /-- Links that rank reported, known at all. -/
  linksSeen : BitVec 4
  /-- REBALANCE (R354, R364). -/
  phase : BitVec 3
  src : BitVec 2
  dst : BitVec 2
  cursor : BitVec 7
  gran : BitVec 26
  part : BitVec 26
  start : Word
  /-- Ranks whose REBAL_ACK of the current phase is awaited, and whose it is in step 8. -/
  await : BitVec 4
  switchedAt : Nat
  /-- Partners of this die that have acknowledged RETIRE. -/
  retireAcks : BitVec 8
  retireSent : Bool
  handle : Nat
  /-- What the coordinator has asked the other dies (R353). -/
  ask : Option RebalAsk
deriving DecidableEq, Repr

/-! ## Events -/

/-- An event record (R563, R568). -/
structure EvRec where
  sev : BitVec 2
  code : BitVec 16
  qseq : BitVec 32
  tfirst : Word
  /-- Elapsed time of the first occurrence. -/
  seenAt : Nat
  count : BitVec 32
  tspan : BitVec 16
  obj : BitVec 48
  detail : BitVec 32
  mobj : Bool
  isOpen : Bool
  /-- Sent as EVT and not freed (R566). -/
  sent : Bool
  /-- Read at the head (R567, R568). -/
  seen : Bool
deriving DecidableEq, Repr

/-- One owner queue (R565 to R570, R580). -/
structure EvQueue where
  recs : List EvRec
  nseq : BitVec 32
  lost : Word
  first : Word
  coal : Word
  opened : Word
deriving DecidableEq, Repr

/-- A trace entry (R575). -/
structure Trace where
  time : Word
  src : BitVec 4
  type : Byte
  data : BitVec 48
deriving DecidableEq, Repr

/-- Event queues, trace ring, snapshots (R563 to R580). -/
structure Events where
  queues : Sparse EvQueue
  ring : List Trace
  /-- TRHEAD. -/
  head : BitVec 16
  frozen : Bool
  trmask : BitVec 10
  trdrop : Word
  trfdrop : Word
  gpend : Bool
  gtime : Word
  gseq : Reg
  /-- Snapshot area: counters by the offset of the live counter. -/
  snap : Sparse Word
  snapEq : Sparse Word
deriving DecidableEq, Repr

/-! ## Management space -/

/-- One copy of the selectors (R590). -/
structure Sels where
  csel : BitVec 13
  tsel : BitVec 16
  trsel : BitVec 16
  msel : BitVec 8
  shsel : BitVec 5
  trksel : BitVec 10
  macsel : BitVec 15
  /-- MACSEL has been written since the reset: until then MACINFO reads as reset (R412; log entry 30). -/
  macset : Bool
deriving DecidableEq, Repr

/-- Selectors, wide-read latches and counters (R584, R590). -/
structure Mgmt where
  core : Sels
  sb : Sels
  /-- Latch by requester code: offset of the register's lowest word plus 1, and its words. -/
  latch : Sparse (Nat × List Reg)
  /-- Counters of R191, R255, R297, R413, R454, R478, R625, by aperture offset. -/
  counters : Sparse Word
deriving DecidableEq, Repr

/-- The state of one TZ8-A1 die, and the queue of the commands that wait. -/
structure State where
  pins : Pins
  clock : Clock
  power : Power
  boot : Boot
  fuses : Fuses
  /-- The 64 MiB boot store (R479): unlisted bytes read 0xFF, as the erased store does (R554). -/
  flash : List Host.Cell
  prot : Prot
  dbg : Debug
  str : Struct
  tcam : Tcam
  marker : Marker
  sram : Sram
  search : Search
  update : Update
  life : Life
  ports : Sparse Port
  arbs : Arbiters
  tally : Tally
  journal : Journal
  store : Store
  holdup : HoldUp
  therm : Therm
  integ : Integ
  waitos : Waitos
  crew : Crew
  events : Events
  mgmt : Mgmt
  /-- MODEL: the number of free values drawn so far (Config.freeWord). -/
  free : Nat
  /-- The commands that wait, first in, first out. -/
  pending : List Instr
deriving DecidableEq, Repr

/-! ## The state right after reset

Cold reset with no power: PWRGD low, only the always-on domain's registers at the values of their Reset columns
(R593). The first POWER_UP command starts the order of R44. Values the spec does not give are log entries 1 to 4. -/

def Pins.reset : Pins where
  pwrgd := false
  rstN := true
  pfailN := true
  vhok := true
  refclk := true
  phyref := true
  crewSz := 0
  crewRk := 0

def Clock.reset : Clock where
  time := 0
  elapsed := 0
  epoch := 0
  running := false
  ring := false
  strokes := 0
  advanced := 0

/-- DOMSTAT 0x0080_0000, VIDSTAT 0x0000_0A28, VPOL 0x0000_0C88, VREQ 0x0000_0028 (R624). -/
def Power.reset : Power where
  dom := 0x800000
  pstate := 0
  crewSz := 0
  crewRk := 0
  vmin := 8
  vmax := 50
  vreq := 40
  vid := 40
  vfact := 0
  trans := none
  held := none
  peak := 0

def Boot.reset : Boot where
  phase := .off
  step := 0
  slot := 0
  first := false
  rejA := 0
  rejB := 0
  imgver := 0
  strver := 0
  svn := 0
  key1 := false
  imglen := 0
  chosen := false
  stop := 0
  layout := 0
  bsteps := List.replicate 9 0
  rdytime := 0
  env := .reset

def Fuses.reset : Fuses where
  dieId := 0
  key0 := 0
  key1 := 0
  key1Prog := false
  revoke0 := false
  initDone := false
  rollback := 0
  factory := []
  field := []

/-- OWNMAP all ones, PLOCK, DBGPOL and KSMAP zero, PROLE zero (R514, R296). -/
def Prot.reset : Prot where
  locked := false
  ownmap := BitVec.allOnes 128
  plock := 0
  dbgpol := 0
  ksmap := 0
  prole := []

def Debug.reset : Debug where
  nonce := 0
  scope := 0
  exp := 0
  granted := false
  debugged := false

def ThermalPol.reset : ThermalPol where
  tsched := 0
  mthr := 0

def Struct.reset : Struct where
  tables := []
  wact := []
  wpend := []
  spend := 0
  srej := 0
  cstat := []
  stmap := 0
  saveTable := false
  thermal := .reset
  thermalHome := .reset
  events := 0
  wearLimit := 0
  reserve := 0
  dueAge := 0
  critAge := 0
  portPol := []
  routed := 0
  routeMap := 0
  shareMaps := []
  dpc := 0
  imgPace := 0

def Tcam.reset : Tcam where
  rows := []
  site := []
  state := []
  table := []
  disag := []
  test := []
  retain := []
  sels := []
  bsgen := 0
  repairs := []
  refGroup := []
  refBand := []
  refDue := []
  mirror := []

def Marker.reset : Marker where
  dirA := []
  dirB := []
  dirRec := []
  dirFixed := 0
  list := []
  count := []
  rot := []
  runs := []
  lastNoRoom := []
  refused := []
  gates := []
  seq := 0
  releases := []
  mirror := []

def Sram.reset : Sram where
  words := []
  pages := []
  coal := []
  rowMap := []
  colMap := []
  inj := none

def Search.reset : Search where
  tokens := []
  next := 0
  active := []
  vers := []
  gen := 0
  cur := []
  prev := []
  waiting := []
  sample := []

/-- An update engine with nothing to do; what an unlisted engine is. -/
def Engine.reset : Engine where
  queue := []
  clone := none
  repoint := none
  moves := 0
  held := []
  restarts := 0
  record := none
  scrubBank := 0
  scrubRow := 0
  scrubWord := 0

/-- A closed stream; what an unlisted stream is. -/
def Stream.reset : Stream where
  isOpen := false
  table := 0
  dir := 0
  replace := false
  committed := 0
  rejected := 0
  sent := 0
  pos := 0
  seq := 0
  eng := 0

/-- A register set at its Reset column (R188). -/
def RegSet.reset : RegSet where
  opc := 0
  tnum := 0
  half := false
  replace := false
  nochain := false
  busy := false
  done := false
  rejected := false
  st := 0
  rflags := 0
  addr := 0
  pfx := 0
  key := 0
  mask := 0
  result := 0
  opnd := 0
  jseq := 0
  detail := 0

def Update.reset : Update where
  eng := []
  streams := []
  set0 := .reset
  set1 := .reset
  learn := []

def Life.reset : Life where
  lists := []
  inhand := []
  condq := []
  bins := []
  mig := []
  advisory := false
  refillDue := false
  noPatch := []

/-- What an unlisted class grants or holds: nothing. -/
def Grant.reset : Grant where
  avail := 0
  queued := 0
  freed := 0
  cum := 0

def Held.reset : Held where
  avail := 0
  a := 0
  total := 0
  cap := 0

/-- A port at its Reset column: STATE OFF, RATE 3, CALEN 1, CREDLIM 1,500 (R296). -/
def Port.reset : Port where
  st := 0
  rate := 3
  trying := 0
  ready := false
  hold := false
  incarn := 0
  txRed := 0
  rxRed := 0
  pass := 0
  skipped := 0
  lmsg := []
  calen := true
  credlim := 1500
  grants := []
  helds := []
  tags := []
  ctags := []
  exch := []
  ingress := []
  part := []
  bulkPart := []
  skip := []
  egress := []
  tx := []
  rseq := 0
  rseqSet := false
  strokeRet := 0
  overAt := 0
  overSet := false
  fenced := false
  flushed := false
  evtSent := 0
  cal := none
  hello := false
  lastJsn := 0
  fwdTags := []
  probeTags := []
  relay := []
  short := false

def ArbClass.reset : ArbClass where
  used := 0
  credit := 0
  weight := 0
  waits := []
  grants := 0
  waitsum := 0
  waitmax := 0
  preempt := 0
  dead := 0
  cuts := 0
  starve := 0

def Arb.reset : Arb where
  classes := []
  holder := none
  preempted := []
  progress := 0
  prev := 15
  cut := false
  starveAt := 0
  timer := 0

def Arbiters.reset : Arbiters where
  live := []
  shadow := []
  shadowW := []
  dfrz := 0
  frzto := 0

/-- TCTL 0x0000_0002: AUTOWARM set (R328). -/
def Tally.reset : Tally where
  viol := false
  admstop := false
  poolId := 0
  vrec := [0, 0, 0, 0]
  autowarm := true
  audits := 0
  tvalC := [0, 0, 0, 0]
  tvalS := [0, 0, 0, 0]

def Journal.reset : Journal where
  last := 0
  dmark := 0
  frames := []
  open_ := []
  since := 0
  sealed := false

/-- The store of a part as it leaves the factory: identified dies, all conditioned, nothing written (log entry 3). -/
def Store.reset : Store where
  die := BitVec.allOnes 16
  degraded := 0
  failed := 0
  blank := true
  pages := []
  nextPage := 0
  ckpt := none
  run := none
  seg := 0
  lastGen := 0
  pfloor := 0
  rings := []
  ringPos := []
  ringCond := []
  sbgen := 0
  band := 0
  unit := 0
  conditioned := []
  remap := []
  wear := 0

def HoldUp.reset : HoldUp where
  ph := 0
  early := false
  flushed := 0
  pftime := 0
  pfAt := 0
  sealJsn := 0
  savetime := 0
  lastboot := 0
  warm := false
  rsttime := 0
  byPwrgd := false
  byTrip := false
  recover := false
  reboot := false
  incomplete := false
  tableMark := false

def MGroup.reset : MGroup where
  value := 0
  reported := 0
  band := 0
  entered := 0
  last := 0
  lowRun := false
  stale := false
  subst := false
  seen := false

/-- TSTAT 0x0000_4000: BAND 4 (R477). -/
def Therm.reset : Therm where
  reading := 0
  band := 4
  fault := false
  held := false
  guard := false
  tripped := false
  conv := false
  ttime := 0
  trim := 0
  calTime := 0
  started := 0
  startedSet := false
  waiting := false
  confirming := false
  suspect := 0
  goods := []
  pair := false
  entered := 0
  confirmed := 0
  run := 0
  decided := 4
  calAt := 0
  deferred := none
  deferRaised := 0
  readers := []
  groups := []
  guardDemand := false
  dcolDue := []

def Track.reset : Track where
  valid := false
  addr := 0
  count := 0
  rewritten := false
  hard := false
  syn := 0
  last := 0
  rewroteAt := 0

/-- SCRCTL 3, BANKPER 10, SRAMPER 60 (R410). -/
def Integ.reset : Integ where
  track := []
  queue := []
  bankScrub := true
  sramScrub := true
  bankPer := 10
  sramPer := 60
  bankPass := 0
  sramPass := 0
  romPri := 0
  coreOut := 0
  romBad := []
  rederive := []
  repairs := []
  otpFull := false
  arm := false
  etaddr := 0
  etbusy := false
  etdone := false
  etrej := false
  etst := 0
  syn := 0
  pageinv := false
  etdata := 0
  etchk := 0
  etside := 0
  etflipd := 0
  etflipc := 0
  etkey := 0
  etmask := 0
  rotation := 0
  selfTest := []

def Waitos.reset : Waitos where
  reqs := []
  sbTx := []
  resumed := []
  eid := 0
  dynAddr := 0
  dynSet := false
  ops := []
  nextHandle := 0
  session := none
  autoRep := true
  autoGrow := true
  cores := 15
  tapIr := 0
  tapDr := 0
  rebuilt := 0

def Crew.reset : Crew where
  readyFrom := 0
  timedOut := false
  restoredAt := 0
  links := []
  linksSeen := 0
  phase := 0
  src := 0
  dst := 0
  cursor := 0
  gran := 0
  part := 0
  start := 0
  await := 0
  switchedAt := 0
  retireAcks := 0
  retireSent := false
  handle := 0
  ask := none

def EvQueue.reset : EvQueue where
  recs := []
  nseq := 0
  lost := 0
  first := 0
  coal := 0
  opened := 0

def Events.reset : Events where
  queues := []
  ring := []
  head := 0
  frozen := false
  trmask := 0
  trdrop := 0
  trfdrop := 0
  gpend := false
  gtime := 0
  gseq := 0
  snap := []
  snapEq := []

/-- Every copy of the selectors resets to zero (R590). -/
def Sels.reset : Sels where
  csel := 0
  tsel := 0
  trsel := 0
  msel := 0
  shsel := 0
  trksel := 0
  macsel := 0
  macset := false

def Mgmt.reset : Mgmt where
  core := .reset
  sb := .reset
  latch := []
  counters := []

/-- The machine right after reset. -/
def State.reset : State where
  pins := .reset
  clock := .reset
  power := .reset
  boot := .reset
  fuses := .reset
  flash := []
  prot := .reset
  dbg := .reset
  str := .reset
  tcam := .reset
  marker := .reset
  sram := .reset
  search := .reset
  update := .reset
  life := .reset
  ports := []
  arbs := .reset
  tally := .reset
  journal := .reset
  store := .reset
  holdup := .reset
  therm := .reset
  integ := .reset
  waitos := .reset
  crew := .reset
  events := .reset
  mgmt := .reset
  free := 0
  pending := []

end Sys2Proof.Machine
end

