-- ==== Sys2Proof/Machine/Mem.lean ====
section
/-! DEFINITION. Sparse stores in canonical form, bit fields, and byte order (R11). -/

namespace Sys2Proof.Machine

open Sys2Proof

/-- What key i of a sparse store holds; d is what an unlisted key holds. -/
def sget {α : Type} (d : α) : Sparse α → Nat → α
  | [], _ => d
  | (k, v) :: m, i => if i = k then v else sget d m i

/-- Key i of a sparse store takes v; the canonical form is kept: keys strictly rising, no entry equal to d. -/
def sput {α : Type} [DecidableEq α] (d : α) : Sparse α → Nat → α → Sparse α
  | [], i, v => if v = d then [] else [(i, v)]
  | (k, w) :: m, i, v =>
    if i < k then (if v = d then (k, w) :: m else (i, v) :: (k, w) :: m)
    else if i = k then (if v = d then m else (i, v) :: m)
    else (k, w) :: sput d m i v

/-- The canonical form of a sparse store, all keys above lo when lo is given. -/
def swf {α : Type} [DecidableEq α] (d : α) : Option Nat → Sparse α → Bool
  | _, [] => true
  | lo, (k, v) :: m => (match lo with | none => true | some l => decide (l < k)) && decide (v ≠ d) && swf d (some k) m

/-- Key i of a sparse store takes f of what it holds. -/
def smod {α : Type} [DecidableEq α] (d : α) (m : Sparse α) (i : Nat) (f : α → α) : Sparse α := sput d m i (f (sget d m i))

/-- A store from which every key with a property is taken off. -/
def sdrop {α : Type} (m : Sparse α) (p : Nat → Bool) : Sparse α := m.filter (fun e => !p e.1)

/-- The w bits of x from bit lo. -/
abbrev bf {n : Nat} (lo w : Nat) (x : BitVec n) : BitVec w := x.extractLsb' lo w

/-- The w bits of x from bit lo, as a number. -/
def bn {n : Nat} (lo w : Nat) (x : BitVec n) : Nat := (x.extractLsb' lo w).toNat

/-- Bit i of x. -/
def bit {n : Nat} (i : Nat) (x : BitVec n) : Bool := x.getLsbD i

/-- x with its w bits from bit lo taken from v. -/
def bset {n : Nat} (lo w : Nat) (x : BitVec n) (v : Nat) : BitVec n :=
  let m : BitVec n := (BitVec.ofNat n (2 ^ w - 1)) <<< lo
  (x &&& ~~~ m) ||| (((BitVec.ofNat n v) <<< lo) &&& m)

/-- A number placed at bit lo of an n-bit word. -/
def bput (n lo v : Nat) : BitVec n := (BitVec.ofNat n v) <<< lo

/-- A flag placed at bit lo of an n-bit word. -/
def bflag (n lo : Nat) (b : Bool) : BitVec n := if b then (1 : BitVec n) <<< lo else 0

/-- Byte i of x, byte 0 in the low bits (R11). -/
def byteAt {n : Nat} (i : Nat) (x : BitVec n) : Byte := x.extractLsb' (8 * i) 8

/-- The low k bytes of x, byte 0 first (R11). -/
def toBytes {n : Nat} (k : Nat) (x : BitVec n) : List Byte := (List.range k).map (fun i => byteAt i x)

/-- A word from its bytes, byte 0 first (R11). -/
def ofBytes (n : Nat) : List Byte → BitVec n
  | [] => 0
  | b :: bs => (ofBytes n bs <<< 8) ||| b.setWidth n

/-- A number from its bytes, byte 0 first (R11). -/
def natOfBytes : List Byte → Nat
  | [] => 0
  | b :: bs => b.toNat + 256 * natOfBytes bs

/-- The k low bytes of a number, byte 0 first (R11). -/
def bytesOfNat (k v : Nat) : List Byte := (List.range k).map (fun i => BitVec.ofNat 8 (v / 2 ^ (8 * i)))

/-- Part of a byte list, zero beyond its end. -/
def slice (bs : List Byte) (off len : Nat) : List Byte :=
  let part := (bs.drop off).take len
  part ++ List.replicate (len - part.length) 0

/-- A number held in part of a byte list. -/
def natAt (bs : List Byte) (off len : Nat) : Nat := natOfBytes (slice bs off len)

/-- The positions of the bits set in x, lowest first. -/
def setBits {n : Nat} (x : BitVec n) : List Nat := (List.range n).filter (fun i => x.getLsbD i)

/-- How many bits of x are set. -/
def popCount {n : Nat} (x : BitVec n) : Nat := (setBits x).length

/-- x plus 1, held at its largest value. -/
def satInc {n : Nat} (x : BitVec n) : BitVec n := if x = BitVec.allOnes n then x else x + 1

/-- The first element of a list with a property, and its place. -/
def findAt {α : Type} (p : α → Bool) : List α → Nat → Option (Nat × α)
  | [], _ => none
  | x :: xs, i => if p x then some (i, x) else findAt p xs (i + 1)

/-- f applied k times. -/
def iter {α : Type} : Nat → (α → α) → α → α
  | 0, _, x => x
  | k + 1, f, x => iter k f (f x)

end Sys2Proof.Machine
end

