-- ==== Sys2Proof/Machine/Timebase.lean ====
section
/-! DEFINITION. The timebase (R12, R13, R37). -/

namespace Sys2Proof.Machine

open Sys2Proof

/-- The epoch of a device time: device time divided by 64 s, kept as 16 bits (R13). -/
def epochOf (t : Word) : BitVec 16 := BitVec.ofNat 16 (t.toNat / 64000000000)

/-- A tick of the timebase: device time advances by 1 every nanosecond (R37). The epoch and the strokes that fall due
are the commands EPOCH and STROKE of their own. Before power-up step 1 the timebase does not run (R44). -/
def tick (s : State) : State :=
  if s.clock.running then
    { s with clock := { s.clock with time := s.clock.time + 1, elapsed := s.clock.elapsed + 1 } }
  else s

end Sys2Proof.Machine
end

