-- ==== Sys2Proof/Machine/Ops.lean ====
section
/-! DEFINITION. The named operations that commands share: accessors, counters, free values, the trace ring, and raising an event. -/

namespace Sys2Proof.Machine

open Sys2Proof

/-- A flag as a number. -/
def b2n (b : Bool) : Nat := if b then 1 else 0

/-- A management core is in service: the duties of Waitos go on (R42). -/
def coresServe (s : State) : Bool := decide (s.waitos.cores ≠ 0)

/-- Waitos runs: a core is in service, and the die is past power-up step 4 and not held in reset (R44, R522). -/
def waitosRuns (s : State) : Bool :=
  coresServe s && (s.boot.phase == .ready || s.boot.phase == .booting || s.boot.phase == .stopped)

/-! ## Accessors of the sparse stores -/

def getPort (s : State) (p : Nat) : Port := sget .reset s.ports p
def setPort (s : State) (p : Nat) (x : Port) : State := { s with ports := sput .reset s.ports p x }
def modPort (s : State) (p : Nat) (f : Port → Port) : State := setPort s p (f (getPort s p))

def getQueue (s : State) (q : Nat) : EvQueue := sget .reset s.events.queues q
def setQueue (s : State) (q : Nat) (x : EvQueue) : State := { s with events := { s.events with queues := sput .reset s.events.queues q x } }

def getEng (s : State) (e : Nat) : Engine := sget .reset s.update.eng e
def setEng (s : State) (e : Nat) (x : Engine) : State := { s with update := { s.update with eng := sput .reset s.update.eng e x } }

def getTok (s : State) (t : Nat) : Option Token := sget none s.search.tokens t
def setTok (s : State) (t : Nat) (x : Option Token) : State := { s with search := { s.search with tokens := sput none s.search.tokens t x } }

def getOp (s : State) (h : Nat) : Option Op := sget none s.waitos.ops h
def setOp (s : State) (h : Nat) (x : Option Op) : State := { s with waitos := { s.waitos with ops := sput none s.waitos.ops h x } }

def getArb (s : State) (a : Nat) : Arb := sget .reset s.arbs.live a
def setArb (s : State) (a : Nat) (x : Arb) : State := { s with arbs := { s.arbs with live := sput .reset s.arbs.live a x } }

/-- A gate that governs nothing, which an unlisted gate is. -/
def Gate.reset : Gate where
  st := .free
  opened := false
  seq := 0
  copies := []
  table := 0
  jsn := 0
  hmoves := []
  refDec := []
  basteDec := []
  reply := none
  dii := false

def getGate (s : State) (g : Nat) : Gate := sget .reset s.marker.gates g
def setGate (s : State) (g : Nat) (x : Gate) : State := { s with marker := { s.marker with gates := sput .reset s.marker.gates g x } }

/-! ## Counters and free values -/

/-- A 64-bit counter of management space, by the offset of its low word (R191, R255, R297, R413, R454, R478, R625). -/
def counter (s : State) (off : Nat) : Word := sget 0 s.mgmt.counters off

/-- A counter counts n more. -/
def count (s : State) (off n : Nat) : State :=
  { s with mgmt := { s.mgmt with counters := smod 0 s.mgmt.counters off (· + BitVec.ofNat 64 n) } }

/-- Thermal counter i (R478). -/
def countTh (s : State) (i n : Nat) : State := count s (0x080100 + 8 * i) n

/-- Counter i of port p (R297, R363): P0 to P7 are 0 to 7, C0 to C2 are 8 to 10. -/
def countPort (s : State) (p i n : Nat) : State := count s (0x020100 + 0x1000 * p + 8 * i) n

/-- A value that the spec leaves open, and the state in which the next one is another (log entry 5). -/
def fresh (s : State) : Word × State := (Config.freeWord s.free, { s with free := s.free + 1 })

/-- The present elapsed time in ns. -/
abbrev now (s : State) : Nat := s.clock.elapsed

/-! ## The trace ring (R575, R576) -/

/-- The state with entry x at the write place of the ring: the oldest entry is overwritten when the ring is full. -/
def traceWrite (s : State) (x : Trace) : State :=
  let ev := s.events
  if ev.ring.length < 65536 then
    { s with events := { ev with ring := ev.ring ++ [x], head := ev.head + 1 } }
  else
    { s with events := { ev with ring := ev.ring.drop 1 ++ [x], head := ev.head + 1, trdrop := ev.trdrop + 1 } }

/-- An internal action of a source writes one entry, if TRMASK enables the source; a frozen ring discards it (R575,
R576). The entry's type and data are open (log entry 9). -/
def trace (s : State) (src : Nat) : State :=
  if s.events.trmask.getLsbD src then
    if s.events.frozen then { s with events := { s.events with trfdrop := s.events.trfdrop + 1 } }
    else
      let (w, s) := fresh s
      traceWrite s { time := s.clock.time, src := BitVec.ofNat 4 src, type := bf 48 8 w, data := bf 0 48 w }
  else s

/-! ## Raising an event (R563 to R570) -/

/-- The severity of an event code (R564): 0 info, 1 warning, 2 critical, 3 fatal. -/
def evSev (code : Nat) : BitVec 2 :=
  if code ≥ 0xF000 then 3
  else if code ≥ 0xE000 then 2
  else if [0x1005, 0x2003, 0x2004, 0x2005, 0x2006, 0x2007, 0x2008, 0x3001, 0x3002, 0x3003, 0x4001].contains code then 0
  else 1

/-- A record takes further occurrences: it is open and less than 10 ms old (R568). -/
def recOpen (t : Nat) (r : EvRec) : Bool := r.isOpen && decide (t < r.seenAt + 10000000)

/-- One more occurrence in a record (R568); at 2^32 - 1 the record closes. -/
def recAdd (t : Nat) (mobj : Bool) (r : EvRec) : EvRec :=
  let c := r.count + 1
  { r with count := c, tspan := BitVec.ofNat 16 ((t - r.seenAt) / 1000), mobj := r.mobj || mobj,
           isOpen := r.isOpen && decide (c ≠ BitVec.allOnes 32) }

/-- The first record with a property takes f. -/
def updFirst {α : Type} (p : α → Bool) (f : α → α) : List α → List α
  | [] => []
  | x :: xs => if p x then f x :: xs else x :: updFirst p f xs

/-- The last record with a property is taken out, if there is one. -/
def dropLast {α : Type} (p : α → Bool) : List α → Option (α × List α)
  | [] => none
  | x :: xs =>
    match dropLast p xs with
    | some (y, ys) => some (y, x :: ys)
    | none => if p x then some (x, xs) else none

/-- n occurrences are lost at time t (R569). -/
def evLose (t : Word) (n : Nat) (q : EvQueue) : EvQueue :=
  { q with lost := q.lost + BitVec.ofNat 64 n, first := if q.first = 0 then t else q.first }

/-- Critical or fatal. -/
def recHigh (r : EvRec) : Bool := decide (2 ≤ r.sev.toNat)

/-- A new record at the end of a queue. -/
def evPush (q : EvQueue) (r : EvRec) : EvQueue :=
  { q with recs := q.recs ++ [{ r with qseq := q.nseq }], nseq := q.nseq + 1, opened := q.opened + 1 }

/-- A new record takes a slot, replaces another, or is lost (R567, R569). -/
def evOpen (t : Word) (q : EvQueue) (r : EvRec) : EvQueue :=
  let free := 4096 - q.recs.length
  if recHigh r then
    if free ≥ 1 then evPush q r
    else
      match dropLast (fun x => !recHigh x && !x.sent && !x.seen) q.recs with
      | some (x, rest) => evPush (evLose t x.count.toNat { q with recs := rest }) r
      | none => evLose t 1 q
  else if free ≥ 17 then evPush q r
  else evLose t 1 q

/-- An occurrence reaches one queue (R567 to R570). -/
def evOccur (t : Word) (el : Nat) (q : EvQueue) (r : EvRec) : EvQueue :=
  let same := fun x => recOpen el x && decide (x.code = r.code) && decide (x.obj = r.obj)
  let kind := fun x => recOpen el x && decide (x.code = r.code)
  if q.recs.any same then
    { q with recs := updFirst same (recAdd el false) q.recs, coal := q.coal + 1 }
  else if recHigh r && decide (64 ≤ (q.recs.filter recHigh).length) && q.recs.any kind then
    { q with recs := updFirst kind (recAdd el true) q.recs, coal := q.coal + 1 }
  else evOpen t q r

/-- FRZFATAL of the EVENTS section (R573). -/
def frzFatal (s : State) : Bool := bit 88 s.str.events

/-- An event is raised to the queues named: one record in each, one trace copy, and the ring freezes first on a fatal
occurrence (R564, R575, R576). -/
def event (s : State) (qs : List Nat) (code obj detail : Nat) : State :=
  let sev := evSev code
  let s := if sev = 3 ∧ frzFatal s = true then { s with events := { s.events with frozen := true } } else s
  let s := trace s 8
  let r : EvRec := { sev := sev, code := BitVec.ofNat 16 code, qseq := 0, tfirst := s.clock.time, seenAt := now s, count := 1, tspan := 0, obj := BitVec.ofNat 48 obj, detail := BitVec.ofNat 32 detail, mobj := false, isOpen := true, sent := false, seen := false }
  qs.foldl (fun s q => setQueue s q (evOccur s.clock.time (now s) (getQueue s q) r)) s

/-- Owner codes of the queues (R501): P0 to P7 are 0 to 7, FW 8, SB 9. -/
abbrev qFW : Nat := 8
abbrev qSB : Nat := 9

/-! ## The epoch (R13) -/

/-- EPOCH (R13, R37): device time has crossed a multiple of 64 s. A disagreement period begins when the epoch becomes a
multiple of 64: DISAG of every bank is cleared (R409). -/
def newEpoch (s : State) : State :=
  let e := epochOf s.clock.time
  if s.clock.running = false ∨ e = s.clock.epoch then s
  else
    let s := { s with clock := { s.clock with epoch := e } }
    if e.toNat % 64 = 0 then { s with tcam := { s.tcam with disag := [] } } else s

end Sys2Proof.Machine
end

