-- ==== Sys2Proof/Machine/Access.lean ====
section
/-! DEFINITION. Who may reach management space and write what (R582, R589, R508 to R510). -/

namespace Sys2Proof.Machine

open Sys2Proof

/-- A debug grant with a scope bit is in force (R508, R510). -/
def grantBit (s : State) (b : Nat) : Bool := s.dbg.granted && bit b s.dbg.scope

/-- A requester whose writes count as the sideband's and who has a path to write (R582). -/
def sideWriter (s : State) (who : Requester) : Bool :=
  match who with
  | .sb => true
  | .jtag => grantBit s 1
  | _ => false

def isCore (who : Requester) : Bool := match who with | .core _ => true | _ => false

/-- A write that the management cores may make, and the sideband where sideOk says so, reaches its field (R581, R589);
partners have no write path (R582). -/
def mayTrigger (s : State) (who : Requester) (sideOk : Bool) : Bool := isCore who || (sideOk && sideWriter s who)

/-- The copy of a selector or latch that a requester uses: the management cores' or the sideband's (R590). -/
def isSide (who : Requester) : Bool := match who with | .sb => true | .jtag => true | _ => false

/-- Every reset of any kind ends the grant in force and draws a new nonce (R509, R510). -/
def newNonce (s : State) : State :=
  let (a, s) := fresh s
  let (b, s) := fresh s
  { s with dbg := { s.dbg with nonce := b ++ a } }

def resetDebug (s : State) : State :=
  newNonce { s with dbg := { s.dbg with granted := false, scope := 0, exp := 0 } }

end Sys2Proof.Machine
end

