-- ==== Sys2Proof/Machine/Crc.lean ====
section
/-! DEFINITION. The codes: CRC-16 of R56, CRC-32C, and the SECDED code of R366 to R368. -/

namespace Sys2Proof.Machine

open Sys2Proof

/-- One bit of the CRC-16 of R56: polynomial 0x1021, most significant bit first. -/
def crc16Bit (c : BitVec 16) : BitVec 16 := if c.getLsbD 15 then (c <<< 1) ^^^ 0x1021 else c <<< 1

/-- CRC-16 with initial value 0xFFFF, no reflection, no final XOR, byte 0 first (R56). -/
def crc16 (bs : List Byte) : BitVec 16 :=
  bs.foldl (fun (c : BitVec 16) (b : Byte) => iter 8 crc16Bit (c ^^^ ((b.setWidth 16) <<< (8 : Nat)))) 0xFFFF

/-- One bit of CRC-32C: the reflected Castagnoli polynomial (log entry 11). -/
def crc32cBit (c : BitVec 32) : BitVec 32 := if c.getLsbD 0 then (c >>> 1) ^^^ 0x82F63B78 else c >>> 1

/-- CRC-32C of a byte string, byte 0 first (log entry 11). -/
def crc32c (bs : List Byte) : BitVec 32 :=
  (bs.foldl (fun (c : BitVec 32) (b : Byte) => iter 8 crc32cBit (c ^^^ b.setWidth 32)) 0xFFFFFFFF) ^^^ 0xFFFFFFFF

/-- The columns of d[0] to d[63] in the Hsiao code (R366). -/
def hsiaoCols : List Byte :=
  [0x07, 0x0B, 0x0D, 0x0E, 0x13, 0x15, 0x16, 0x19, 0x1A, 0x1C, 0x23, 0x25, 0x26, 0x29, 0x2A, 0x2C] ++
  [0x31, 0x32, 0x34, 0x38, 0x43, 0x45, 0x46, 0x49, 0x4A, 0x4C, 0x51, 0x52, 0x54, 0x58, 0x61, 0x62] ++
  [0x64, 0x68, 0x70, 0x83, 0x85, 0x86, 0x89, 0x8A, 0x8C, 0x91, 0x92, 0x94, 0x98, 0xA1, 0xA2, 0xA4] ++
  [0xA8, 0xB0, 0xC1, 0xC2, 0xC4, 0xC8, 0xD0, 0xE0, 0x1F, 0x2F, 0x37, 0x3B, 0x3D, 0x3E, 0x4F, 0x57]

/-- Sum of the columns of the data bits that are set, from bit i on. -/
def hsiaoSum (d : Word) : List Byte → Nat → Byte → Byte
  | [], _, acc => acc
  | c :: cs, i, acc => hsiaoSum d cs (i + 1) (if d.getLsbD i then acc ^^^ c else acc)

/-- The check bits of a data word (R366). -/
def secChk (d : Word) : Byte := hsiaoSum d hsiaoCols 0 0

/-- A data word with its correct check bits. -/
def secEnc (d : Word) : Cw := { data := d, chk := secChk d }

/-- The syndrome of a stored word (R367). -/
def secSyn (w : Cw) : Byte := w.chk ^^^ secChk w.data

/-- What a read of a SECDED word finds (R367): the data delivered, the syndrome, and whether it is uncorrectable. -/
structure SecRead where
  data : Word
  syn : Byte
  bad : Bool
deriving DecidableEq, Repr

/-- The decoding of a stored word (R367): clean, corrected at the column that equals the syndrome, or uncorrectable. -/
def secDec (w : Cw) : SecRead :=
  let syn := secSyn w
  if syn = 0 then { data := w.data, syn := syn, bad := false }
  else
    match findAt (fun c => c == syn) hsiaoCols 0 with
    | some (i, _) => { data := w.data ^^^ (1 <<< i), syn := syn, bad := false }
    | none =>
      if popCount syn = 1 then { data := w.data, syn := syn, bad := false }
      else { data := 0, syn := syn, bad := true }

/-- The poison pattern of a data word (R368). -/
def secPoison (d : Word) : Cw := { data := d, chk := secChk d ^^^ 0xFF }

end Sys2Proof.Machine
end

