-- ==== Sys2Proof/Machine/Cells.lean ====
section
/-! DEFINITION. SRAM words, table descriptors, TCAM rows, result slots, matching and validation (R47 to R62, R366 to R401, R484). -/

namespace Sys2Proof.Machine

open Sys2Proof

/-! ## Places of SRAM words -/

/-- Word w of index table t: row × words per row + word. -/
def kIndex (t w : Nat) : Nat := 2 ^ 40 + t * 2 ^ 34 + w
/-- Word j (0 the result word, 1 the check word) of the result slot of bank b, slot r, half h. -/
def kSlot (b r h j : Nat) : Nat := 2 ^ 41 + (((b * 4096 + r) * 2 + h) * 2 + j)
/-- Word i of buffer f of profile slot n. -/
def kProf (n f i : Nat) : Nat := 2 ^ 42 + (n * 2 + f) * 64 + i
/-- Word w of row r of composer table t in composer c's copy of generation parity g: what is listed there is the error
in that copy, XORed into the codeword that the generation gives it (R119, R120). -/
def kComp (c g t r w : Nat) : Nat := 2 ^ 43 + (c * 2 + g) * 16384 + t * 512 + r * 2 + w
/-- A word that no table, slot or buffer occupies, by its word address. -/
def kRaw (a : Nat) : Nat := 2 ^ 44 + a

/-- The macro of a place within the table of R369: the index pool's macros hold index words and result slots, macro 5,376 the
profile buffers, macro 5,377 + c composer c's copies; m is the macro that the free placement names. -/
def regionMacro (key m : Nat) : Nat :=
  if key < 2 ^ 42 then m % 5120 else if key < 2 ^ 43 then 5376 else 5377 + (key - 2 ^ 43) / 32768 % 11

/-- The word address of a place (R369; log entry 7): its region's macro, and the word there that the free placement names. -/
def addrAt (key : Nat) : BitVec 28 :=
  if 2 ^ 44 ≤ key then BitVec.ofNat 28 (key - 2 ^ 44)
  else BitVec.ofNat 28 (regionMacro key ((Config.addrOf key).toNat / 8192) * 8192 + (Config.addrOf key).toNat % 8192)

/-- The place at a word address (R369; log entry 7): one that has this address, or a word that holds nothing named. -/
def placeAt (a : BitVec 28) : Nat :=
  match Config.placeOf a with
  | some k => if addrAt k = a then k else kRaw a.toNat
  | none => kRaw a.toNat

/-- Whether a place lies in the index pool, whose pages have valid bits (R390). -/
def inPool (key : Nat) : Bool := decide (2 ^ 40 ≤ key ∧ key < 2 ^ 42)

/-- The index table of a place, if it is an index word. -/
def tableOfPlace (key : Nat) : Option Nat :=
  if 2 ^ 40 ≤ key ∧ key < 2 ^ 41 then some ((key - 2 ^ 40) / 2 ^ 34) else none

/-! ## Table descriptors (R484) -/

def desc (s : State) (t : Nat) : TableDesc := sget 0 s.str.tables t
/-- KIND: 0 undefined, 1 TCAM, 2 index, 3 counters, 4 allocator. -/
def tKind (s : State) (t : Nat) : Nat := bn 5 3 (desc s t)
def tDefined (s : State) (t : Nat) : Bool := decide (tKind s t ≠ 0)
def tWidth (s : State) (t : Nat) : Nat := bn 8 2 (desc s t)
def tPaired (s : State) (t : Nat) : Bool := bit 10 (desc s t)
def tComposer (s : State) (t : Nat) : Bool := bit 11 (desc s t)
def tCrew (s : State) (t : Nat) : Nat := bn 12 2 (desc s t)
def tProt (s : State) (t : Nat) : Bool := bit 14 (desc s t)
def tOrigin (s : State) (t : Nat) : Nat := bn 16 8 (desc s t)
def tMaxLen (s : State) (t : Nat) : Nat := bn 24 8 (desc s t)
def tSeam (s : State) (t : Nat) : Nat := bn 32 8 (desc s t)
/-- The owner code recorded in the ownership map (R8, R501): nibble t of OWNMAP. -/
def tOwner (s : State) (t : Nat) : Nat := bn (4 * t) 4 s.prot.ownmap
def tPartLo (s : State) (t : Nat) : Nat := bn 48 8 (desc s t)
def tPartW (s : State) (t : Nat) : Nat := bn 56 4 (desc s t) + 1
def tCap (s : State) (t : Nat) : Nat := bn 64 32 (desc s t)
/-- Row width in bits, counter width, or list count. -/
def tRowW (s : State) (t : Nat) : Nat := bn 96 16 (desc s t)
/-- The reference link of R172: ten bytes, all zero for none. -/
def tLink (s : State) (t : Nat) : BitVec 80 := bf 128 80 (desc s t)
/-- Key bits of a TCAM width code. -/
def widthBits (w : Nat) : Nat := if w = 0 then 48 else if w = 1 then 96 else 192
/-- SRAM words per row of an index table: a row of 64 bits or less takes one. -/
def rowWords (s : State) (t : Nat) : Nat := if tRowW s t ≤ 64 then 1 else tRowW s t / 64
/-- Bytes that an index table occupies. -/
def tBytes (s : State) (t : Nat) : Nat :=
  if tKind s t = 2 then tCap s t * (rowWords s t * 8) else tCap s t * tRowW s t / 8

/-! ## SECDED words (R366 to R401) -/

/-- The page of a place: 512 words (R390). -/
def pageOf (key : Nat) : Nat := key / 512

/-- The majority of the three copies of a page valid bit (R390). -/
def pageBit (s : State) (page : Nat) : Bool := decide (2 ≤ popCount (sget 0 s.sram.pages page))

/-- A page is valid: its bit says so, or the hardware fill of R389 filled it, because its table is under 1 MiB. -/
def pageValid (s : State) (key : Nat) : Bool :=
  if inPool key then
    pageBit s (pageOf key) ||
      (match tableOfPlace key with
       | some t => tDefined s t && decide (tBytes s t < 2 ^ 20)
       | none => false)
  else true

/-- The stored word of a place, an armed injection aside (R391). -/
def cell (s : State) (key : Nat) : Cw := if pageValid s key then sget ⟨0, 0⟩ s.sram.words key else ⟨0, 0⟩

/-- The word of a place as the next read sees it: an armed injection is XORed in (R411). -/
def cellInj (s : State) (key : Nat) : Cw :=
  match s.sram.inj with
  | some (a, d, c) => if placeAt a = key then ⟨(cell s key).data ^^^ d, (cell s key).chk ^^^ c⟩ else cell s key
  | none => cell s key

/-- What a read of a place delivers, without its reports. -/
def peek (s : State) (key : Nat) : SecRead := secDec (cellInj s key)

/-- A read of a word consumes the injection armed for it (R411). -/
def consumeInj (s : State) (key : Nat) : State :=
  match s.sram.inj with
  | some (a, _, _) => if placeAt a = key then { s with sram := { s.sram with inj := none } } else s
  | none => s

/-- Integrity counter i (R413). -/
def countI (s : State) (i : Nat) : State := count s (0x093000 + 8 * i) 1

/-- A correction is reported to the tracker's queue of 64, or dropped and counted (R372). -/
def report (s : State) (key : Nat) (syn : Byte) : State :=
  if s.integ.queue.length < 64 then
    { s with integ := { s.integ with queue := s.integ.queue ++ [{ addr := addrAt key, syn := syn, time := s.clock.time, elapsed := now s }] } }
  else countI s 5

/-- A word or entry is queued for re-derivation, once, in a queue of 256 (R399). -/
def queueBad (s : State) (b : Bad) : State :=
  if s.integ.rederive.contains b then s
  else if s.integ.rederive.length < 256 then { s with integ := { s.integ with rederive := s.integ.rederive ++ [b] } }
  else countI s 14

/-- A page valid copy that disagrees with the other two is rewritten, and counted (R390). -/
def fixPage (s : State) (key : Nat) : State :=
  let v : BitVec 3 := sget 0 s.sram.pages (pageOf key)
  if !inPool key || v == 0 || v == 7 then s
  else countI { s with sram := { s.sram with pages := sput 0 s.sram.pages (pageOf key) (if pageBit s (pageOf key) then 7 else 0) } } 17

/-- The reports of a request's read of a place: a correction to the tracker (R370), an uncorrectable word to FW as UE
(R371). -/
def touch (s : State) (key : Nat) : State :=
  let r := peek s key
  let s := fixPage (consumeInj s key) key
  if r.bad then countI (event s [qFW] 0x4003 (addrAt key).toNat r.syn.toNat) 1
  else if r.syn = 0 then s
  else countI (report s key r.syn) 0

/-- A search's or command's read of several places. -/
def touchAll (s : State) (keys : List Nat) : State := keys.foldl touch s

/-- An uncorrectable word is also queued for re-derivation (R371). -/
def touchQ (s : State) (key : Nat) : State :=
  let b := (peek s key).bad
  let s := touch s key
  if b then queueBad s (.word key) else s

/-- The page fill of R392: the words of an invalid page become zero and its bit is set. -/
def pageFill (s : State) (key : Nat) : State :=
  if pageValid s key then s
  else
    { s with sram := { s.sram with words := sdrop s.sram.words (fun k => decide (k / 512 = pageOf key)),
                                   pages := sput 0 s.sram.pages (pageOf key) 7 } }

/-- A codeword is written at a place exactly as given, after the fill of an invalid page. -/
def putCw (s : State) (key : Nat) (w : Cw) : State :=
  let s := pageFill s key
  { s with sram := { s.sram with words := sput ⟨0, 0⟩ s.sram.words key w } }

/-- A full-word write with correct check bits. -/
def putWord (s : State) (key : Nat) (d : Word) : State := putCw s key (secEnc d)

/-- HEAT has no durable image: the table kind of counters (R385). -/
def isHeat (s : State) (key : Nat) : Bool :=
  match tableOfPlace key with
  | some t => decide (tKind s t = 3)
  | none => false

/-- A narrow write as one read-modify-write transfer (R385): an uncorrectable word is not written, except that a HEAT
word is zeroed and counted. -/
def rmw (s : State) (key : Nat) (mask val : Word) : State :=
  let r := peek s key
  if r.bad then
    if isHeat s key then countI (putWord (consumeInj s key) key 0) 18 else touchQ s key
  else putWord (touch s key) key ((r.data &&& ~~~ mask) ||| (val &&& mask))

/-- A word as a read and a write carry it to another place: corrected, and reported; an uncorrectable one keeps its codeword, and is
queued for re-derivation (R370, R371). -/
def carried (s : State) (key : Nat) : Cw × State := (if (peek s key).bad then cellInj s key else secEnc (peek s key).data, touchQ s key)

/-- A word is written as its poison pattern (R368, R401). -/
def poisonWord (s : State) (key : Nat) : State := putCw s key (secPoison (cell s key).data)

/-- Word j of row r of index table t. -/
def rowKey (s : State) (t r j : Nat) : Nat := kIndex t (r * rowWords s t + j)

/-- The words of a row, low word first, as stored. -/
def rowKeys (s : State) (t r : Nat) : List Nat := (List.range (rowWords s t)).map (rowKey s t r)

/-- A row of an index table as one number of up to 256 bits; its uncorrectable words read zero. -/
def rowVal (s : State) (t r : Nat) : BitVec 256 :=
  (List.range (rowWords s t)).foldl (fun acc j => acc ||| (((peek s (rowKey s t r j)).data.setWidth 256) <<< (64 * j))) 0

/-- A word of the row is uncorrectable. -/
def rowBad (s : State) (t r : Nat) : Bool := (rowKeys s t r).any (fun k => (peek s k).bad)

/-! ## Banks -/

/-- The physical site of a logical bank (R5, R595). -/
def siteOf (s : State) (b : Nat) : Nat := (sget 0 s.tcam.site b) ^^^ b

/-- The logical bank that a site carries (R595). -/
def logicalOf (s : State) (site : Nat) : Nat :=
  match (List.range 2112).find? (fun b => siteOf s b == site) with
  | some b => b
  | none => site

/-- The state of a logical bank (R409); B2048 and above are SPARE unless listed. -/
def bankState (s : State) (b : Nat) : BitVec 4 := (sget 0 s.tcam.state b) ^^^ (if b ≥ 2048 then 2 else 0)

/-- A bank takes a state: one bank-state step (R596). -/
def setBankState (s : State) (b : Nat) (st : BitVec 4) : State :=
  { s with tcam := { s.tcam with state := sput 0 s.tcam.state b (st ^^^ (if b ≥ 2048 then 2 else 0)),
                                 bsgen := s.tcam.bsgen + 1 } }

/-- Two logical banks exchange their sites: one bank-map move (R98, R596). -/
def swapSites (s : State) (a b : Nat) : State :=
  let sa := siteOf s a
  let sb := siteOf s b
  { s with tcam := { s.tcam with site := sput 0 (sput 0 s.tcam.site a (sb ^^^ a)) b (sa ^^^ b), bsgen := s.tcam.bsgen + 1 } }

/-- The octant of a site or of a factory-numbered bank (R6). -/
def octantOf (n : Nat) : Nat := if n < 2048 then n / 256 else (n - 2048) / 8

/-- The twin of an in-use bank (R85). -/
def twinOf (b : Nat) : Nat := (b + 1024) % 2048

/-- The table of a bank, if it is allocated. -/
def bankTable (s : State) (b : Nat) : Option Nat :=
  match sget 0 s.tcam.table b with
  | 0 => none
  | t + 1 => some t

/-! ## Rows and entries -/

/-- A row never written: no trit cared for, no side field set. -/
def TRow.blank : TRow where
  care := 0
  val := 0
  s0 := ⟨false, false, 0, 0, false, false⟩
  s1 := ⟨false, false, 0, 0, false, false⟩

/-- A side-field set of all zeros. -/
def Side.zero : Side := ⟨false, false, 0, 0, false, false⟩

def getRow (s : State) (site r : Nat) : TRow := sget TRow.blank s.tcam.rows (site * 4096 + r)
def setRow (s : State) (site r : Nat) (x : TRow) : State :=
  { s with tcam := { s.tcam with rows := sput TRow.blank s.tcam.rows (site * 4096 + r) x } }

/-- An entry as its table's width sees it: care and value bits, and its side fields (R49, R53). -/
structure Entry where
  care : BitVec 192
  val : BitVec 192
  side : Side
deriving DecidableEq, Repr

/-- The entry of width code w at slot r, half h of the row pair x, y: y is the odd bank's row of a 192-trit table. -/
def rowEntry (w : Nat) (x y : TRow) (h : Nat) : Entry :=
  if w = 0 then
    if h = 0 then ⟨(bf 0 48 x.care).setWidth 192, (bf 0 48 x.val).setWidth 192, x.s0⟩
    else ⟨(bf 48 48 x.care).setWidth 192, (bf 48 48 x.val).setWidth 192, x.s1⟩
  else if w = 1 then ⟨x.care.setWidth 192, x.val.setWidth 192, x.s0⟩
  else ⟨(y.care ++ x.care).setWidth 192, (y.val ++ x.val).setWidth 192, { x.s0 with v := x.s0.v && y.s0.v }⟩

/-- The entry at a site; the odd bank of a 192-trit pair stands at the next logical bank's site. -/
def entryAt (s : State) (w site site2 r h : Nat) : Entry := rowEntry w (getRow s site r) (getRow s site2 r) h

/-- The entry of logical bank b. -/
def getEntry (s : State) (w b r h : Nat) : Entry := entryAt s w (siteOf s b) (siteOf s (b + 1)) r h

/-- XOR of the bits of a word. -/
def xorBits {n : Nat} (x : BitVec n) : Bool := decide (popCount x % 2 = 1)

/-- PC and PV of an entry (R50). -/
def parPC (e : Entry) : Bool := xorBits e.care ^^ xorBits e.side.tag
def parPV (e : Entry) : Bool := xorBits e.val
/-- The parity check of a read-back (R50). -/
def parityOk (e : Entry) : Bool := (e.side.pc == parPC e) && (e.side.pv == parPV e)

/-- A row with entry e of width code w written in half h; low is false for the odd bank of a 192-trit pair. The spec gives
a 192-trit entry one side-field set, half 0, and does not say what the odd bank's row holds: DESIGN CHOICE (log entry 100),
the same set stands in half 0 of both rows, and rowEntry asks for V in both. -/
def rowWith (w h : Nat) (low : Bool) (x : TRow) (e : Entry) : TRow :=
  if w = 0 then
    if h = 0 then { x with care := (bf 48 48 x.care) ++ (bf 0 48 e.care), val := (bf 48 48 x.val) ++ (bf 0 48 e.val), s0 := e.side }
    else { x with care := (bf 0 48 e.care) ++ (bf 0 48 x.care), val := (bf 0 48 e.val) ++ (bf 0 48 x.val), s1 := e.side }
  else if low then { care := bf 0 96 e.care, val := bf 0 96 e.val, s0 := e.side, s1 := Side.zero }
  else { care := bf 96 96 e.care, val := bf 96 96 e.val, s0 := e.side, s1 := Side.zero }

/-- Entry e is written at a site exactly as given. -/
def setEntryAt (s : State) (w site site2 r h : Nat) (e : Entry) : State :=
  let s := setRow s site r (rowWith w h true (getRow s site r) e)
  if w = 2 then setRow s site2 r (rowWith w h false (getRow s site2 r) e) else s

/-- The banks that take every write of bank b while a clone of it runs, each with whether the clone is a COPY (R75, R178); a
COPY's destination may itself be under a clone. -/
def mirrorsOf (s : State) (b : Nat) : List (Nat × Bool) :=
  let ds := sget [] s.tcam.mirror b
  ds ++ ds.flatMap (fun d => if d.2 then sget [] s.tcam.mirror d.1 else [])

/-- Entry e is written in logical bank b, and in the banks that mirror it during a clone (R75, R178). Of a 192-trit pair b is the
even bank, and both rows are written, here and there (R177). -/
def setEntry (s : State) (w b r h : Nat) (e : Entry) : State :=
  (mirrorsOf s b).foldl (fun s d => setEntryAt s w (siteOf s d.1) (siteOf s (d.1 + 1)) r h e)
    (setEntryAt s w (siteOf s b) (siteOf s (b + 1)) r h e)

/-- The entry that an update engine writes: value 0 under every don't-care trit (R48), H clear (R66), parity made (R50). -/
def mkEntry (care val : BitVec 192) (tag : BitVec 7) (v : Bool) (g : BitVec 2) : Entry :=
  let e : Entry := ⟨care, val &&& care, { v := v, h := false, g := g, tag := tag, pc := false, pv := false }⟩
  { e with side := { e.side with pc := parPC e, pv := parPV e } }

/-! ## Result slots and validation (R55 to R58) -/

/-- The fields of a check word. -/
def chkKcrc (c : Word) : BitVec 16 := bf 0 16 c
def chkPlen (c : Word) : Nat := bn 16 7 c
def chkLive (c : Word) : Bool := bit 23 c
def chkTnum (c : Word) : Nat := bn 24 5 c
def chkAc (c : Word) : BitVec 32 := bf 32 32 c

/-- n ones from bit 0. -/
def ones192 (n : Nat) : BitVec 192 := BitVec.ofNat 192 (2 ^ n - 1)

/-- The key bits of the checked field of R56: prefix bits from origin down, and the bits above origin that AC or
their distance includes. -/
def checkedMask (wBits origin plen : Nat) (ac : BitVec 32) : BitVec 192 :=
  let above := (List.range (wBits - 1 - origin)).foldl (fun (m : BitVec 192) i => if i ≥ 32 ∨ bit i ac = true then m ||| (1 <<< (origin + 1 + i)) else m) 0
  let pfx := ones192 (origin + 1) &&& ~~~ ones192 (origin + 1 - plen)
  (above ||| pfx) &&& ones192 wBits

/-- KCRC of a key (R56). -/
def kcrc (wBits origin plen : Nat) (ac : BitVec 32) (key : BitVec 192) : BitVec 16 :=
  crc16 (toBytes (wBits / 8) (key &&& checkedMask wBits origin plen ac))

/-- AC of an entry: its care bits above origin, at most 32 of them. -/
def acOf (wBits origin : Nat) (care : BitVec 192) : BitVec 32 :=
  ((care &&& ones192 wBits) >>> (origin + 1)).setWidth 32

/-- The check word of an entry of table t (R56). -/
def mkCheck (s : State) (t : Nat) (care val : BitVec 192) (tag : Nat) : Word :=
  let wb := widthBits (tWidth s t)
  let ac := acOf wb (tOrigin s t) care
  ac ++ (bput 3 0 0) ++ (BitVec.ofNat 5 t) ++ (1 : BitVec 1) ++ (BitVec.ofNat 7 tag) ++ (kcrc wb (tOrigin s t) tag ac (val &&& care))

/-- The validation of a winner of table t with tag for a search key (R57). -/
def validSlot (s : State) (t : Nat) (chk : Word) (tag : Nat) (key : BitVec 192) : Bool :=
  chkLive chk && decide (chkTnum chk = t) && decide (chkPlen chk = tag) &&
    (chkKcrc chk == kcrc (widthBits (tWidth s t)) (tOrigin s t) (chkPlen chk) (chkAc chk) key)

/-- The care pattern of an entry with TAG tag meets R58 in table t, and its TAG is in range. -/
def careOk (s : State) (t : Nat) (care : BitVec 192) (tag : Nat) : Bool :=
  let wb := widthBits (tWidth s t)
  let o := tOrigin s t
  let pfxAll := ones192 (o + 1) &&& ~~~ ones192 (o + 1 - tMaxLen s t)
  let pfx := ones192 (o + 1) &&& ~~~ ones192 (o + 1 - tag)
  let far := ones192 wb &&& ~~~ ones192 (o + 33)
  decide (tag ≤ tMaxLen s t ∧ tag ≤ 96 ∧ tag ≤ o + 1) && (care &&& pfxAll == pfx) && (care &&& far == far)

/-! ## Matching (R47, R51, R60, R79, R80) -/

/-- Every cared-for trit equals the key bit (R47). -/
def tritsMatch (care val key : BitVec 192) : Bool := care &&& (val ^^^ key) == 0

/-- Whether the commit gate, if any, admits an entry under a snapshot (R79, R80): sel is 0 for GA, 1 for GB. -/
def gateAdmits (s : State) (snap : BitVec 64) (b : Nat) (g : BitVec 2) : Bool :=
  if g = 0 then true
  else
    let k := b * 2 + (if g = 1 then 0 else 1)
    match sget none s.tcam.sels k with
    | some (gate, ins) => if ins then bit gate snap else !bit gate snap
    | none => Config.released k

/-- An entry takes part and matches (R51). -/
def entryMatches (s : State) (snap : BitVec 64) (b : Nat) (key : BitVec 192) (e : Entry) : Bool :=
  e.side.v && gateAdmits s snap b e.side.g && tritsMatch e.care e.val key

/-- The rows of a site that are not blank, in ascending order: row and contents. -/
def siteRows (s : State) (site : Nat) : List (Nat × TRow) :=
  (s.tcam.rows.filter (fun e => decide (e.1 / 4096 = site))).map (fun e => (e.1 % 4096, e.2))

/-- The entries of a bank in slot order (R52): slot, half, entry. -/
def bankEntries (s : State) (w site site2 : Nat) : List (Nat × Nat × Entry) :=
  (siteRows s site).flatMap (fun (r, x) =>
    if w = 0 then [(r, 0, rowEntry 0 x x 0), (r, 1, rowEntry 0 x x 1)]
    else [(r, 0, rowEntry w x (getRow s site2 r) 0)])

/-- The lowest matching slot of a bank at a site (R60), with one slot and half masked when mask says so (R87). -/
def probe (s : State) (w b site site2 : Nat) (snap : BitVec 64) (key : BitVec 192) (mask : Option (Nat × Nat)) : Option Win :=
  match (bankEntries s w site site2).find? (fun (r, h, e) => decide (mask ≠ some (r, h)) && entryMatches s snap b key e) with
  | some (r, h, e) => some ⟨r, h, e.side.tag.toNat⟩
  | none => none

/-- The valid entries of a bank of table t in slot order. -/
def liveEntries (s : State) (t b : Nat) : List (Nat × Nat × Entry) :=
  (bankEntries s (tWidth s t) (siteOf s b) (siteOf s (b + 1))).filter (fun (_, _, e) => e.side.v)

/-! ## The marker directory (R68 to R74) -/

def dirEntry (s : State) (d : Nat) : BitVec 80 := sget 0 s.marker.dirA d
def dTnum (x : BitVec 80) : Nat := bn 0 5 x
def dValid (x : BitVec 80) : Bool := bit 5 x
def dPval (x : BitVec 80) : BitVec 16 := bf 6 16 x
def dPcare (x : BitVec 80) : BitVec 16 := bf 22 16 x
def dSpan (x : BitVec 80) : Nat := bn 38 2 x + 1
def dRepl (x : BitVec 80) : Nat := bn 40 5 x + 1
def dList (x : BitVec 80) : Nat := bn 45 15 x
def dSel (x : BitVec 80) : Bool := bit 60 x
def dParityOk (x : BitVec 80) : Bool := decide (popCount x % 2 = 0)
/-- An entry with DP made (bit 79). -/
def dMake (x : BitVec 80) : BitVec 80 := bset 79 1 x (popCount (bf 0 79 x) % 2)

/-- Both copies of a directory entry take x in one marker cycle (R74), and Waitos's record of it (R73). -/
def setDir (s : State) (d : Nat) (x : BitVec 80) : State :=
  { s with marker := { s.marker with dirA := sput 0 s.marker.dirA d (dMake x), dirB := sput 0 s.marker.dirB d (dMake x),
                                     dirRec := sput 0 s.marker.dirRec d (dMake x) } }

/-- The partition field of a key in table t. -/
def partField (s : State) (t : Nat) (key : BitVec 192) : BitVec 16 :=
  ((key >>> tPartLo s t).setWidth 16) &&& BitVec.ofNat 16 (2 ^ tPartW s t - 1)

/-- A directory entry matches a key of table t. -/
def dMatches (s : State) (t : Nat) (key : BitVec 192) (x : BitVec 80) : Bool :=
  dValid x && decide (dTnum x = t) && (dPcare x &&& (dPval x ^^^ partField s t key) == 0)

/-- The directory indexes listed in either copy, ascending in copy A. -/
def dirIndexes (s : State) : List Nat :=
  s.marker.dirA.map (·.1) ++ (s.marker.dirB.map (·.1)).filter (fun d => !(s.marker.dirA.map (·.1)).contains d)

/-- The entry that the two copies of a directory entry give (R73): both alike, or the one with correct parity; none when
they differ and both are correct or both are wrong. -/
def dirInForce (s : State) (d : Nat) : Option (BitVec 80) :=
  let a := dirEntry s d
  let b := sget 0 s.marker.dirB d
  if a = b then some a
  else if dParityOk a && !dParityOk b then some a
  else if !dParityOk a && dParityOk b then some b
  else none

/-- The first directory index whose entry matches (R70): the entry in force, or either of two copies that differ with equal
parity (R73). -/
def dirLookup (s : State) (t : Nat) (key : BitVec 192) : Option Nat :=
  (dirIndexes s).find? (fun d => match dirInForce s d with
    | some x => dMatches s t key x
    | none => dMatches s t key (dirEntry s d) || dMatches s t key (sget 0 s.marker.dirB d))

/-- The bank at place i of the bank list. -/
def listAt (s : State) (i : Nat) : Nat := sget 0 s.marker.list i
/-- The banks of replica i of a directory entry (R67). -/
def replicaBanks (s : State) (x : BitVec 80) (i : Nat) : List Nat :=
  (List.range (dSpan x)).map (fun j => listAt s (dList x + i * dSpan x + j))

/-- The pattern of a directory entry intersects an entry's pattern over the partition field (R77). -/
def dIntersects (s : State) (t : Nat) (care val : BitVec 192) (x : BitVec 80) : Bool :=
  dValid x && decide (dTnum x = t) &&
    (dPcare x &&& partField s t care &&& (dPval x ^^^ partField s t val) == 0)

/-- The directory entries of table t that an entry intersects, in ascending index. -/
def dirsFor (s : State) (t : Nat) (care val : BitVec 192) : List Nat :=
  (s.marker.dirA.map (·.1)).filter (fun d => dIntersects s t care val (dirEntry s d))

end Sys2Proof.Machine
end

