-- ==== Sys2Proof/Machine/StoreLayout.lean ====
section
/-! DEFINITION. The store's layouts: the dies of a pair, store locations, journal record bytes, page headers, superblock bytes (R414, R417, R420, R424 to R426, R434). -/

namespace Sys2Proof.Machine

open Sys2Proof

/-! ## Dies and store locations (R414, R417) -/

/-- Die 2p + copy of the store: its channel S0 to S7, and its number in that channel (R414). -/
def storeDie (p copy : Nat) : Nat × Nat := (p % 4 + 4 * copy, p / 4)

/-- A store location (R417): band, unit, page within the unit. -/
def slocOf (band unit page : Nat) : BitVec 32 := bput 32 0 (band % 2 ^ 15) ||| bput 32 15 (unit % 2 ^ 7) ||| bput 32 22 (page % 2 ^ 4)

/-- Where a store location lies with n pairs (R417): pair, block, and the byte offset in the block. -/
def slocPlace (n : Nat) (x : BitVec 32) : Nat × Nat × Nat :=
  (bn 15 7 x % n, bn 0 15 x, bn 15 7 x / n * 65536 + bn 22 4 x * 4096)

/-- The location of a journal page: 16 pages to a unit, so that its number gives its place in the unit. -/
def JPage.sloc (p : JPage) : BitVec 32 := slocOf p.band p.unit (p.num % 16)

/-- The location of a checkpoint page. -/
def CkPage.sloc (p : CkPage) : BitVec 32 := slocOf p.band p.unit (p.num % 16)

/-- The location of a segment: its first page's. -/
def Seg.sloc (x : Seg) : BitVec 32 := (x.pages.head?.map CkPage.sloc).getD 0

/-! ## Journal records (R424 to R426) -/

/-- TYPE and SZ of a record. -/
def recType : JRec → Nat × Bool
  | .iword .. => (1, false)
  | .entry .. => (2, true)
  | .move .. => (3, true)
  | .del .. => (4, false)
  | .extMask _ => (5, true)
  | .extWide .. => (6, true)
  | .life .. => (8, true)
  | .alloc .. => (9, false)
  | .bank .. => (10, false)
  | .cursor .. => (11, false)
  | .live .. => (12, true)
  | .livedata _ => (13, true)
  | .time _ => (14, false)
  | .hole _ => (15, false)
  | .void _ => (16, false)
  | .seal _ => (17, false)

/-- Byte 1 of a record (R425, R426). -/
def recByte1 : JRec → Nat
  | .iword t w _ _ => t + 32 * w
  | .entry t h _ _ _ _ _ ext _ => t + 32 * h + 128 * (if ext then 1 else 0)
  | .move t h sh _ _ _ _ _ _ ext _ => t + 32 * h + 64 * sh + 128 * (if ext then 1 else 0)
  | .del t h _ => t + 32 * h
  | .life opc _ _ _ _ _ _ => opc.toNat
  | .alloc l _ _ => l
  | .bank a _ _ _ _ => a
  | .cursor opc _ _ _ _ _ => opc.toNat
  | .live sec _ _ _ => sec
  | .hole f => if f.isSome then 1 else 0
  | _ => 0

/-- Bytes 4 on of a record (R425, R426). -/
def recBody : JRec → List Byte
  | .iword _ _ row v => bytesOfNat 3 row ++ [0] ++ toBytes 8 v
  | .entry _ _ addr tag val _ _ _ res => bytesOfNat 3 addr ++ bytesOfNat 1 (tag % 128) ++ bytesOfNat 5 0 ++ toBytes 12 (bf 0 96 val) ++ toBytes 8 res
  | .move _ _ _ dst src tag val _ _ _ res =>
    bytesOfNat 3 dst ++ bytesOfNat 1 (tag % 128) ++ bytesOfNat 3 src ++ [0, 0] ++ toBytes 12 (bf 0 96 val) ++ toBytes 8 res
  | .del _ _ addr => bytesOfNat 3 addr
  | .extMask care => toBytes 12 care
  | .extWide val care => toBytes 12 val ++ toBytes 12 care
  | .life _ x port fw rsrc be _ =>
    (toBytes 32 x).drop 4 |>.take 20 |> (· ++ bytesOfNat 1 (port % 8 + if fw then 8 else 0) ++ bytesOfNat 1 (if rsrc then 1 else 0) ++ toBytes 2 be)
  | .alloc _ block port => bytesOfNat 3 block ++ bytesOfNat 1 (port % 8)
  | .bank _ lb second cursor st => bytesOfNat 2 lb ++ bytesOfNat 2 second ++ bytesOfNat 2 cursor ++ bytesOfNat 1 (st % 16)
  | .cursor _ addr _ _ first _ => bytesOfNat 3 addr ++ [0] ++ toBytes 8 first
  | .live _ off ver d => bytesOfNat 4 off ++ bytesOfNat 2 d.length ++ toBytes 2 ver
  | .livedata d => d
  | .time t => bytesOfNat 4 0 ++ toBytes 8 t
  | .hole f => bytesOfNat 4 0 ++ toBytes 8 (f.getD 0)
  | .void j => bytesOfNat 4 0 ++ toBytes 8 j
  | .seal t => bytesOfNat 4 0 ++ toBytes 8 t

/-- A record as it stands in its page: the common word (R424), byte 4 on, zeros to 16 or 32 bytes. -/
def recBytes (e : JEntry) : List Byte :=
  let k := recType e.body
  slice (bytesOfNat 1 (k.1 + (if k.2 then 64 else 0) + (if e.more then 128 else 0)) ++ bytesOfNat 1 (recByte1 e.body) ++ toBytes 2 (bf 0 16 e.jsn) ++ recBody e.body)
    0 (if k.2 then 32 else 16)

/-- The full JSN of a record from the BASE of its page and its own low 16 bits (R424). -/
def jsnFull (base : Word) (low : BitVec 16) : Word := base + (low - bf 0 16 base).setWidth 64

/-- The first 8 bytes of a record, which a HOLE keeps where they can be read (R425). -/
def firstBytes (e : JEntry) : Word := ofBytes 64 ((recBytes e).take 8)

/-- The table, the row or entry address and the half that the first 8 bytes of a lost record name: of an IWORD, ENTRY, MOVE or
DEL (R425, R426, R446). -/
def firstNames (x : Word) : Option (Nat × Nat × Nat) :=
  match bn 0 6 x with
  | 1 => some (bn 8 5 x, bn 32 24 x, 0)
  | 2 => some (bn 8 5 x, bn 32 24 x, bn 13 1 x)
  | 3 => some (bn 8 5 x, bn 32 24 x, bn 13 1 x)
  | 4 => some (bn 8 5 x, bn 32 24 x, bn 13 1 x)
  | _ => none

/-! ## Pages (R420) -/

/-- BASE of a journal page. -/
def JPage.base (p : JPage) : Word := (p.recs.head?.map (·.jsn)).getD 0

/-- The data of a journal page: its records, then PAD, which is zero (R425, R428). -/
def JPage.data (p : JPage) : List Byte := slice (p.recs.flatMap recBytes) 0 4096

/-- The header in the spare area of a page: KIND, BASE, SEG, PIDX, LEN, CRC (R420). -/
def pageHeader (kind : Nat) (base : Word) (seg pidx len : Nat) (crc : BitVec 32) : List Byte :=
  bytesOfNat 1 kind ++ bytesOfNat 3 0 ++ toBytes 8 base ++ bytesOfNat 3 (seg % 2 ^ 20) ++ bytesOfNat 1 pidx ++ bytesOfNat 2 len ++ bytesOfNat 2 0 ++ toBytes 4 crc

/-- The header of a journal page. -/
def JPage.header (p : JPage) : List Byte := pageHeader 1 p.base 0 0 4096 (crc32c p.data)

/-- The header of page i of a checkpoint segment, or of the directory, of generation g, over its data. -/
def Seg.header (x : Seg) (g : Word) (i : Nat) (data : List Byte) : List Byte :=
  pageHeader (if x.kind = 3 then 3 else 2) g x.num i (min 4096 (x.len - 4096 * i)) (crc32c data)

/-! ## Superblocks (R434) -/

/-- A REMAP entry: die, retired block, spare block. -/
def remapWord (r : Nat × Nat × Nat) : BitVec 32 := bput 32 0 (r.1 % 16) ||| bput 32 4 (r.2.1 % 2 ^ 15) ||| bput 32 19 ((r.2.2 - 32256) % 2 ^ 9)

/-- Bytes 0 to 4,091 of a superblock. -/
def Superblock.body (b : Superblock) : List Byte :=
  slice (bytesOfNat 4 0x545A5342 ++ bytesOfNat 2 1 ++ bytesOfNat 2 0 ++ toBytes 8 b.sbgen ++ toBytes 8 b.ckgen ++ toBytes 8 b.rfjsn ++ toBytes 4 b.ckdir ++ toBytes 4 b.jloc
    ++ toBytes 8 b.sealJsn ++ bytesOfNat 1 (if b.saved then 2 else 1) ++ bytesOfNat 1 b.pairs ++ bytesOfNat 1 b.dpc ++ toBytes 1 b.pstate ++ toBytes 2 b.imgver ++ bytesOfNat 2 0
    ++ toBytes 8 b.dtime ++ toBytes 2 b.epoch ++ bytesOfNat 6 0 ++ slice (b.remap.flatMap (fun r => toBytes 4 (remapWord r))) 0 3968) 0 4092

/-- A superblock's page: its CRC stands last. -/
def Superblock.bytes (b : Superblock) : List Byte := b.body ++ toBytes 4 (crc32c b.body)

/-- The header of a superblock's page. -/
def Superblock.header (b : Superblock) : List Byte := pageHeader 4 b.sbgen 0 0 4096 (crc32c b.bytes)

/-- A page whose MAGIC and CRC are those of a superblock (R435). -/
def superReads (bs : List Byte) : Bool := decide (natAt bs 0 4 = 0x545A5342) && decide (ofBytes 32 (slice bs 4092 4) = crc32c (slice bs 0 4092))

end Sys2Proof.Machine
end

