-- ==== Sys2Proof/Machine/Journal.lean ====
section
/-! DEFINITION. The journal buffer: record groups, JSNs, page frames, the applied mark (R31 to R33, R421 to R429, R433, R439). -/

namespace Sys2Proof.Machine

open Sys2Proof

/-- Size of a record in units of 16 B (R425). -/
def recUnits : JRec → Nat
  | .iword .. => 1
  | .entry .. => 2
  | .move .. => 2
  | .extMask _ => 2
  | .extWide .. => 2
  | .del .. => 1
  | .life .. => 2
  | .alloc .. => 1
  | .bank .. => 1
  | .cursor .. => 1
  | .live .. => 2
  | .livedata _ => 2
  | .time _ => 1
  | .hole _ => 1
  | .void _ => 1
  | .seal _ => 1

/-- The extension records of an entry (R426): EXT_MASK where the care pattern does not follow from TAG, EXT_WIDE for 192 trits. -/
def extRecs (val care : BitVec 192) (wide ext : Bool) : List JRec :=
  (if ext then [.extMask (bf 0 96 care)] else []) ++ (if wide then [.extWide (bf 96 96 val) (bf 96 96 care)] else [])

/-- The payload of a LIVE record cut into LIVEDATA records of at most 28 bytes (R425). -/
def liveData (d : List Byte) : List JRec := (List.range ((d.length + 27) / 28)).map (fun i => .livedata ((d.drop (28 * i)).take 28))

/-- A record of a change with the records that complete it behind it (R423, R425, R426). -/
def expandRec (r : JRec) : List JRec :=
  match r with
  | .entry _ _ _ _ val care wide ext _ => r :: extRecs val care wide ext
  | .move _ _ _ _ _ _ val care wide ext _ => r :: extRecs val care wide ext
  | .live _ _ _ d => r :: liveData d
  | _ => [r]

/-- Units of the records of a change, extension records among them. -/
def recsUnits (rs : List JRec) : Nat := (rs.flatMap expandRec).foldl (fun n r => n + recUnits r) 0

/-- A page frame with nothing in it. -/
def Frame.fresh (t : Nat) : Frame where
  recs := []
  used := 0
  closed := false
  drained := false
  openedAt := t

/-- BASE of a frame's page: the JSN of its first record (R420). -/
def Frame.base (f : Frame) (e : JEntry) : Word := (f.recs.head?.map (·.jsn)).getD e.jsn

/-- A frame takes a record: it is open, the record fits, and its JSN lies less than 65,536 above BASE (R424, R428). -/
def Frame.takes (f : Frame) (e : JEntry) : Bool :=
  !f.closed && decide (f.used + recUnits e.body ≤ 256) && decide ((e.jsn - f.base e).toNat < 65536)

/-- A frame with one more record; full, it is closed (R428). -/
def Frame.push (f : Frame) (e : JEntry) : Frame :=
  { f with recs := f.recs ++ [e], used := f.used + recUnits e.body, closed := decide (256 ≤ f.used + recUnits e.body) }

/-- A record enters the buffer: in the open frame when it fits there, else that frame closes and a new one opens (R428).
The frames stand oldest first; the last one is the open one. -/
def framePush (t : Nat) (e : JEntry) : List Frame → List Frame
  | [] => [(Frame.fresh t).push e]
  | [f] => if f.takes e then [f.push e] else [{ f with closed := true }, (Frame.fresh t).push e]
  | f :: g :: fs => f :: framePush t e (g :: fs)

/-- Records of one JSN with their MORE bits (R424). -/
def markMore (jsn : Word) : List JRec → List JEntry
  | [] => []
  | [r] => [⟨jsn, false, r⟩]
  | r :: rs => ⟨jsn, true, r⟩ :: markMore jsn rs

/-- The records of one group, extension records among them, with their MORE bits (R423, R424). -/
def groupOf (jsn : Word) (rs : List JRec) : List JEntry := markMore jsn (rs.flatMap expandRec)

/-- The frames after a group has entered. -/
def framesWith (t : Nat) (es : List JEntry) (fs : List Frame) : List Frame := es.foldl (fun fs e => framePush t e fs) fs

/-- The applied mark AMARK (R429): every group at or below it has completed its table writes. -/
def amark (s : State) : Word :=
  match s.journal.open_ with
  | [] => s.journal.last
  | j :: js => (js.foldl (fun m x => if x.toNat < m.toNat then x else m) j) - 1

/-- A frame may be freed: written to the store, and every record at or below the applied mark (R428). -/
def frameFree (mark : Word) (f : Frame) : Bool := f.closed && f.drained && f.recs.all (fun e => decide (e.jsn.toNat ≤ mark.toNat))

/-- Frames that may be freed leave the buffer (R428). -/
def freeFrames (s : State) : State :=
  { s with journal := { s.journal with frames := s.journal.frames.filter (fun f => !frameFree (amark s) f) } }

/-- Store counter i (R454). -/
def countStore (s : State) (i n : Nat) : State := count s (0x0B0100 + 8 * i) n

/-- Bytes of journal at which updates are refused (R433). -/
def ceilingBytes : Nat := 256 * 2 ^ 20

/-- Whether groups of these records find room in the 2,048 frames. -/
def jFits (s : State) (groups : List (List JRec)) : Bool :=
  decide ((groups.foldl (fun fs g => framesWith 0 (groupOf 0 g) fs) s.journal.frames).length ≤ 2048)

/-- Whether the journal buffer takes the groups of a change: not sealed (R439), below the ceiling (R433), and with room
(R33); a refusal is counted. -/
def jAdmit (s : State) (groups : List (List JRec)) : Bool × State :=
  if s.journal.sealed then (false, s)
  else if s.journal.since.toNat ≥ ceilingBytes then (false, countStore s 3 1)
  else if jFits s groups then (true, s)
  else (false, countStore s 2 1)

/-- A group enters the journal buffer under the next JSN (R32); applied says that its table writes complete with it. -/
def jCommit (s : State) (rs : List JRec) (applied : Bool) : Word × State :=
  let j := s.journal.last + 1
  let jr := s.journal
  let s := { s with journal := { jr with last := j, frames := framesWith (now s) (groupOf j rs) jr.frames,
                                          since := jr.since + BitVec.ofNat 64 (16 * recsUnits rs),
                                          open_ := if applied then jr.open_ else jr.open_ ++ [j] } }
  (j, countStore s 0 1)

/-- Whether the journal buffer takes a record that is no commit of its own: not sealed (R439), and with room. -/
def jRoom (s : State) (r : JRec) : Bool := !s.journal.sealed && jFits s [[r]]

/-- A record that is no commit of its own enters: TIME, VOID, SEAL, CURSOR (R425, R427, R447). -/
def jPut (s : State) (r : JRec) : State :=
  let jr := s.journal
  { s with journal := { jr with frames := framesWith (now s) [⟨jr.last, false, r⟩] jr.frames,
                                since := jr.since + BitVec.ofNat 64 (16 * recUnits r) } }

/-- Such a record, where the buffer takes it (R33, R439). -/
def jNote (s : State) (r : JRec) : State := if jRoom s r then jPut s r else s

/-- The table writes of group j have completed: the applied mark may move, and frames may be freed (R428, R429). -/
def jApplied (s : State) (j : Word) : State :=
  freeFrames { s with journal := { s.journal with open_ := s.journal.open_.filter (· ≠ j) } }

/-- A change of Waitos's own, made only when the journal takes its group (R439): the group enters, and f makes the
change under its JSN. One that it does not take is no update answered, and is not counted (R454). -/
def jChange (s : State) (rs : List JRec) (f : State → State) : State :=
  if (jAdmit s [rs]).1 then f (jCommit s rs true).2 else s

end Sys2Proof.Machine
end

