-- ==== Sys2Proof/Machine/PortOps.lean ====
section
/-! DEFINITION. What every part of the die asks of a port: sending slots, credits, tags, and answering a table command. -/

namespace Sys2Proof.Machine

open Sys2Proof

/-! ## Message classes (R263) -/

abbrev cSRCH : Nat := 1
abbrev cSRSP : Nat := 2
abbrev cTCMD : Nat := 3
abbrev cTRSP : Nat := 4
abbrev cEVT : Nat := 5
abbrev cTEMP : Nat := 6
abbrev cBULK : Nat := 7
abbrev cNOTE : Nat := 8
abbrev cCRED : Nat := 9
abbrev cMGMT : Nat := 10
/-- Kinds of cascade messages (R343), as this model numbers them beside the classes. -/
abbrev cFWD : Nat := 17
abbrev cPROBE : Nat := 18
abbrev cFANS : Nat := 19
abbrev cPANS : Nat := 20
/-- The ingress of HELLO notes, which need no credit (R274). -/
abbrev cHELLO : Nat := 21

/-- A slot's class (R263). -/
def slotClass (x : Slot) : Nat := bn 0 4 x

/-- Port states of PSTAT (R296). -/
abbrev pOFF : BitVec 3 := 0
abbrev pTRAINING : BitVec 3 := 1
abbrev pHELLO : BitVec 3 := 2
abbrev pACTIVE : BitVec 3 := 3
abbrev pRETRAIN : BitVec 3 := 4
abbrev pRESET : BitVec 3 := 5
abbrev pDOWN : BitVec 3 := 6

/-- A cascade port (R331): C0 to C2 are 8 to 10. -/
def isCascade (p : Nat) : Bool := decide (8 ≤ p)

/-- The kind of a slot on port p: its class, and on a cascade port the OP beside it; 0 for none (R263, R343). -/
def slotKind (p : Nat) (x : Slot) : Nat :=
  let c := slotClass x
  if isCascade p then
    if c = 1 then (if bn 4 2 x = 0 then cFWD else if bn 4 2 x = 1 then cPROBE else 0)
    else if c = 2 then (if bn 4 2 x = 0 then cFANS else if bn 4 2 x = 1 then cPANS else 0)
    else if c = cNOTE ∨ c = cCRED then c
    else 0
  else c

/-- The credit code of a kind (R263, R344); none for a kind that needs no credit. -/
def creditOf (k : Nat) : Option Nat :=
  if k = cFWD then some 1
  else if k = cPROBE then some 3
  else if k = cFANS ∨ k = cPANS ∨ k = cSRSP ∨ k = cTRSP ∨ k = cCRED ∨ k = cHELLO then none
  else some k

/-- A slot of this kind leaves only with a credit that the other side granted (R263, R343). -/
def needsCredit (k : Nat) : Bool := decide (k = cEVT ∨ k = cBULK ∨ k = cNOTE ∨ k = cFWD ∨ k = cPROBE)

/-- HELLO is a NOTE that needs no credit (R274). -/
def isHello (x : Slot) : Bool := decide (slotClass x = cNOTE) && decide (bn 8 8 x = 6)

def getGrant (x : Port) (c : Nat) : Grant := sget .reset x.grants c
def setGrant (x : Port) (c : Nat) (g : Grant) : Port := { x with grants := sput .reset x.grants c g }
def getHeld (x : Port) (c : Nat) : Held := sget .reset x.helds c
def setHeld (x : Port) (c : Nat) (h : Held) : Port := { x with helds := sput .reset x.helds c h }

/-- The link carries flits: HELLO or ACTIVE (R286). -/
def linkUp (x : Port) : Bool := x.st == pHELLO || x.st == pACTIVE

/-- A slot from its parts: class and byte 0's upper bits, then fields placed by bit. -/
def mkSlot (fields : List (Nat × Nat)) : Slot := fields.foldl (fun acc f => acc ||| bput 256 f.1 f.2) 0

/-! ## Flits that leave (R258, R259, R279) -/

/-- The credit entries of a flit: classes whose count changed first, then the others, at most six (R279). A port grants six
classes at most, so no rotation is needed to repeat every count. -/
def creditEntries (x : Port) (changed : List Nat) : List (Nat × BitVec 16) :=
  ((changed ++ (x.grants.map (·.1)).filter (fun c => !changed.contains c)).take 6).map (fun c => (c, (getGrant x c).cum))

/-- A flit header with credit entries and no message (R259, R279). -/
def headerSlot (hold : Bool) (es : List (Nat × BitVec 16)) : Slot :=
  es.zipIdx.foldl (fun acc e => acc ||| bput 256 (32 + 24 * e.2) e.1.1 ||| bput 256 (40 + 24 * e.2) e.1.2.toNat) (mkSlot [(0, 1), (16, if hold then 1 else 0)])

/-- Bits 1 to n of a byte, for slots 1 to n of a flit. -/
def slotBits (n : Nat) : Nat := 2 ^ (n + 1) - 2

/-- A flit of at most seven messages (R258, R259): its header with SV, HOLD, the counts of its credits and PSN for every
message when the sender knows them corrupt (R285), then slots 1 to 7. -/
def mkFlit (x : Port) (psn : Bool) (ms : List Slot) : List Slot :=
  (headerSlot x.hold (creditEntries x []) ||| mkSlot [(8, slotBits ms.length), (16, if psn then slotBits ms.length else 0)]) :: ms

/-- Messages that leave together fill flits in their order (R283; log entry 57). -/
def flitsOf (x : Port) (ms : List Slot) : List (List Slot) :=
  (List.range ((ms.length + 6) / 7)).map (fun i => mkFlit x false ((ms.drop (7 * i)).take 7))

/-- Waiting slots leave while the link is up and, where their class needs one, a credit is in hand; each class keeps its
order (R273, R274, R283). What leaves is listed; what waits stays in egress. -/
def drainSlots (p : Nat) : List Slot → Port → Port × List Slot
  | [], x => (x, [])
  | m :: ms, x =>
    let k := slotKind p m
    let c := (creditOf k).getD 0
    let h := getHeld x c
    if needsCredit k && !isHello m then
      if h.avail = 0 then drainSlots p ms { x with egress := x.egress ++ [m] }
      else
        let (y, out) := drainSlots p ms (setHeld x c { h with avail := h.avail - 1 })
        (y, m :: out)
    else
      let (y, out) := drainSlots p ms x
      (y, m :: out)

/-- The tags whose answers are among slots that leave: a search tag returns to its pool when its SRSP is sent, a command tag with
its TRSP (R145, R282). -/
def freeTags (out : List Slot) (x : Port) : Port :=
  { x with tags := out.foldl (fun l m => if slotClass m = cSRSP then l.erase (bn 16 12 m) else l) x.tags,
           ctags := out.foldl (fun l m => if slotClass m = cTRSP then l.erase (bn 16 10 m) else l) x.ctags }

/-- Egress of a port: everything that may leave leaves, in flits. -/
def flushPort (p : Nat) (x : Port) : Port :=
  if linkUp x then
    let (y, out) := drainSlots p x.egress { x with egress := [] }
    let y := { y with tx := y.tx ++ flitsOf y out }
    if isCascade p then y else freeTags out y
  else x

/-- Slots are handed to a port's egress. A port whose domain is off is sent nothing, and nothing is counted (R41). -/
def send (s : State) (p : Nat) (ms : List Slot) : State :=
  if (getPort s p).st = pOFF then s
  else modPort s p (fun x => flushPort p { x with egress := x.egress ++ ms })

/-- A NOTE from the TZ8 (R267). -/
def note (op : Nat) (fields : List (Nat × Nat)) : Slot := mkSlot ((0, cNOTE) :: (8, op) :: fields)

/-! ## Credits that the TZ8 grants (R274, R276, R279) -/

/-- The pool id of the credits of class c that port p grants (R323, R344). -/
def creditPool (p c : Nat) : BitVec 16 :=
  if p < 8 then BitVec.ofNat 16 (0x3000 + 8 * p + ([cSRCH, cTCMD, cBULK, cTEMP, cMGMT, cNOTE].idxOf c))
  else BitVec.ofNat 16 (0xD000 + 8 * (p - 8) + ([1, 3, 8, 0xB, 0xC, 0xD].idxOf c))

/-- The four counts of a pool (R323, R327): free, held, in flight, and its capacity. -/
structure Counts where
  free : Nat
  held : Nat
  infl : Nat
  cap : Nat
deriving DecidableEq, Repr

/-- The invariant of R323. -/
def Counts.ok (c : Counts) : Bool := decide (c.free + c.held + c.infl = c.cap)

/-- The counts of a pool whose held and moving units State lists: the rest is free. -/
def countsOf (cap held infl : Nat) : Counts := ⟨cap - held - infl, held, infl, cap⟩

/-- Credits that the TZ8 grants: free until returned, held while the other side may spend them, in flight from arrival to
consumption (R323). A pool that is not yet granted is free. -/
def grantCounts (x : Port) (c cap : Nat) : Counts :=
  if x.grants.any (fun e => e.1 == c) then let g := getGrant x c; ⟨g.freed, g.avail, g.queued, cap⟩ else ⟨cap, 0, 0, cap⟩

/-- The classes of pool type 0x3, by k: credit code and capacity (R274, R323). -/
def grantClass (k : Nat) : Option (Nat × Nat) := [(cSRCH, 64), (cTCMD, 64), (cBULK, 64), (cTEMP, 8), (cMGMT, 32), (cNOTE, 4)][k]?
/-- The credit classes of pool type 0xD, by k (R344). -/
def cascadeClass (k : Nat) : Option (Nat × Nat) := [(1, 128), (3, 64), (8, 8), (0xB, 64), (0xC, 32), (0xD, 4)][k]?

/-- The capacity of the pool of credits of class c that port p grants (R274, R344). -/
def creditCap (p c : Nat) : Nat :=
  ((List.range 6).findSome? (fun k => (if p < 8 then grantClass k else cascadeClass k).bind (fun x => if x.1 = c then some x.2 else none))).getD 0

/-- Counts as the four words of VREC and TVAL. -/
def countWords (c : Counts) : List Reg := [BitVec.ofNat 32 c.free, BitVec.ofNat 32 c.held, BitVec.ofNat 32 c.infl, BitVec.ofNat 32 c.cap]

/-- The first violation (R326): recorded, admission stopped, and FW and SB told. -/
def violation (s : State) (id : Nat) (c : Counts) : State :=
  if s.tally.viol then s
  else
    let s := trace { s with tally := { s.tally with viol := true, admstop := true, poolId := BitVec.ofNat 16 id, vrec := countWords c } } 4
    event s [qFW, qSB] 0xF001 id 0

/-- A move that the tally does not permit is not made; it is a violation of its pool at once (R324, R326). Units of the other pools
move only where State shows one to move: an arbiter's holder, a gate, a selector, a token, a tag that its list holds. -/
def refuseMove (s : State) (id : Nat) (c : Counts) : State := violation s id c

/-- A consumed slot frees its credit, to be returned in a flit header: a move from in flight to free, which needs a unit in
flight (R324). -/
def freeCredit (s : State) (p c n : Nat) : State :=
  let g := getGrant (getPort s p) c
  if g.queued < n then refuseMove s (creditPool p c).toNat (grantCounts (getPort s p) c (creditCap p c))
  else modPort s p (fun x => setGrant x c { g with queued := g.queued - n, freed := g.freed + n })

/-- The head of a kind's ingress. -/
def ingressHead (s : State) (p c : Nat) : Option Slot := (sget [] (getPort s p).ingress c).head?

/-- The head of a kind's ingress is taken and its credit freed. -/
def takeHead (s : State) (p c : Nat) : State :=
  let s := modPort s p (fun x => { x with ingress := smod [] x.ingress c (List.drop 1) })
  match creditOf c with
  | some k => freeCredit s p k 1
  | none => s

/-- The grantor makes d credits of a class available from its pool, as its first cumulative entry after HELLO (R277). -/
def grant (x : Port) (c n : Nat) : Port := setGrant x c { avail := n, queued := 0, freed := 0, cum := BitVec.ofNat 16 n }

/-- A slot of port p's BAD_SLOT counter, with SLOT_ERROR to the port's owner: for a cascade port, FW (R264, R359). -/
def badSlot (s : State) (p : Nat) : State :=
  event (countPort s p 4 1) [if p < 8 then p else qFW] 0x1004 p 4

/-! ## Answers to table commands (R146, R190) -/

def statusNum : Status → Nat
  | .ok => 0 | .miss => 1 | .deny => 2 | .poison => 3 | .noRoom => 4 | .recentlyHit => 5 | .notOwner => 6 | .locked => 7
  | .exhausted => 8 | .stillReferenced => 9 | .staleVersion => 10 | .late => 11 | .busyRetry => 12 | .malformed => 13
  | .internal => 14

/-- An answer with a status and nothing else. -/
def TRsp.of (st : Status) : TRsp where
  st := st
  existed := false
  latehit := false
  chain := false
  ctag := 0
  opc := 0
  addr := 0
  half := false
  jsn := 0
  res := 0
  moves := 0
  tag := 0
  hit := false
  cont := []

/-- DETAIL: TRSP bytes 24-25 (R146). R54 sends a half-select with the entry address and R146 gives it no bit: it stands in
bit 13, which R188 shows in DETAIL too (DESIGN CHOICE, log entry 102). -/
def rspDetail (r : TRsp) : BitVec 16 :=
  bput 16 0 r.moves.toNat ||| bput 16 5 r.tag.toNat ||| bflag 16 12 r.hit ||| bflag 16 13 r.half

/-- The slots of a TRSP (R146). -/
def packTrsp (r : TRsp) : List Slot :=
  let n := r.cont.length
  let s0 := mkSlot [(0, cTRSP), (4, n), (8, statusNum r.st), (12, if r.existed then 1 else 0), (13, if r.latehit then 1 else 0), (14, if r.chain then 1 else 0), (16, r.ctag.toNat), (32, r.opc.toNat), (40, r.addr.toNat), (64, r.jsn.toNat), (128, r.res.toNat), (192, (rspDetail r).toNat)]
  s0 :: r.cont.map (fun x => x ||| mkSlot [(0, cTRSP), (16, r.ctag.toNat)])

/-- A BULK reject slot (R181, R272). -/
def bulkReject (k seq : Nat) (st : Status) : Slot :=
  mkSlot [(0, cBULK), (6, 1), (8, statusNum st), (16, k), (18, seq)]

def getStream (s : State) (p k : Nat) : Stream := sget .reset s.update.streams (p * 4 + k)
def setStream (s : State) (p k : Nat) (x : Stream) : State :=
  { s with update := { s.update with streams := sput .reset s.update.streams (p * 4 + k) x } }

/-- The output registers of a register set, then DONE and not BUSY (R190). -/
def finishSet (x : RegSet) (r : TRsp) : RegSet :=
  let key : BitVec 192 := match r.cont with
    | a :: b :: _ => (bf 64 96 b) ++ (bf 64 96 a)
    | [a] => (bf 64 96 a).setWidth 192
    | [] => x.key
  let mask : BitVec 192 := match r.cont with
    | a :: b :: _ => (bf 160 96 b) ++ (bf 160 96 a)
    | [a] => (bf 160 96 a).setWidth 192
    | [] => x.mask
  let isI := decide (r.opc = 0x10)
  { x with addr := r.addr, pfx := r.tag, result := r.res, jseq := r.jsn, detail := rspDetail r,
           key := if isI then x.key else key, mask := if isI then x.mask else mask,
           opnd := if isI then
               (match r.cont with
                | a :: _ => ((bf 64 192 a) ++ r.res : BitVec 256)
                | [] => r.res.setWidth 256)
             else x.opnd,
           st := BitVec.ofNat 4 (statusNum r.st),
           rflags := bflag 4 0 r.existed ||| bflag 4 1 r.latehit ||| bflag 4 2 r.chain,
           done := true, busy := false }

/-- Egress discards a response of an older incarnation and counts it (R294). -/
def sendAs (s : State) (p : Nat) (incarn : BitVec 16) (ms : List Slot) : State :=
  if (getPort s p).incarn = incarn then send s p ms else countPort s p 8 1

/-- The tag of an answer is in flight on its port; one that is not is a move that is not made (R145, R282, R324). -/
def tagHeld (s : State) (p : Nat) (incarn : BitVec 16) (held : Port → List Nat) (pool cap t : Nat) : State :=
  let x := getPort s p
  if x.incarn ≠ incarn ∨ (held x).contains t = true then s else refuseMove s (pool + p) (countsOf cap (held x).length 0)

/-- The bulk reject of a record, or its commit, on the stream it came on (R181, R183). A record answered OK that committed
nothing, with JSN 0 (R146), is neither. -/
def bulkAnswer (s : State) (p k seq : Nat) (r : TRsp) : State :=
  let x := getStream s p k
  if r.st = .ok then (if r.jsn = 0 then s else setStream s p k { x with committed := x.committed + 1 })
  else send (setStream s p k { x with rejected := x.rejected + 1 }) p [bulkReject k seq r.st]

/-- The JSN of an update from a port that has been answered: the greatest is the last accepted, whatever the order of the answers
(R267). -/
def accepted (s : State) (p : Nat) (j : Word) : State :=
  modPort s p (fun x => if x.lastJsn.toNat < j.toNat then { x with lastJsn := j } else x)

/-- A table command is answered once, the way it came (R143, R146, R181, R190). -/
def answer (s : State) (v : Via) (r : TRsp) : State :=
  match v with
  | .port p inc => sendAs (accepted (tagHeld s p inc (·.ctags) 0x1000 1024 r.ctag.toNat) p r.jsn) p inc (packTrsp r)
  | .regset n =>
    if n = 0 then { s with update := { s.update with set0 := finishSet s.update.set0 r } }
    else { s with update := { s.update with set1 := finishSet s.update.set1 r } }
  | .bulk p k seq => bulkAnswer (accepted s p r.jsn) p k seq r
  | .none => s

end Sys2Proof.Machine
end

