-- ==== Sys2Proof/Machine/TableOps.lean ====
section
/-! DEFINITION. What the update engines do with entries: exact probe, placement, relocation chains, commit gates, reference links (R77 to R84, R150 to R172). -/

namespace Sys2Proof.Machine

open Sys2Proof

/-! ## Frozen banks (R312, R313) -/

/-- A freeze bit holds the bank's group (R312): group g holds bank sites 32g to 32g + 31. -/
def bankFrozen (s : State) (site : Nat) : Bool := bit (site / 32) s.arbs.dfrz

/-- Bank b of table t is frozen, or the odd bank of its 192-trit pair: no engine, clone or scrub is granted it (R312). -/
def frozenAt (s : State) (t b : Nat) : Bool := decide (s.arbs.dfrz ≠ 0) && (bankFrozen s (siteOf s b) || (decide (tWidth s t = 2) && bankFrozen s (siteOf s (b + 1))))

/-! ## Small lists -/

/-- The elements of l in rising order of f, without repeats of f. -/
def insertBy (x : Nat) : List Nat → List Nat
  | [] => [x]
  | y :: ys => if x < y then x :: y :: ys else if x = y then y :: ys else y :: insertBy x ys

/-- A list of numbers in rising order without repeats. -/
def sortNat (l : List Nat) : List Nat := l.foldr insertBy []

/-- Queues of a table's reports: its owner and FW, each once (R87, R90). -/
def ownerFW (s : State) (t : Nat) : List Nat :=
  let o := tOwner s t
  if o < 10 ∧ o ≠ qFW then [o, qFW] else [qFW]

/-- TCAM_REJECT of an entry, with its cause (R564; log entry 12 on the place of the half in OBJECT). -/
def tcamReject (s : State) (t b r h : Nat) (st : Status) (cause : Nat) : State :=
  event s (ownerFW s t) 0x2001 (t + 256 * (b * 4096 + r + h * 2 ^ 24)) (statusNum st + 16 * cause)

/-- Maintenance counter i of table t (R191). -/
def countT (s : State) (t i n : Nat) : State := count s (0x041000 + 0x80 * t + 8 * i) n

/-! ## Places and copies -/

/-- Place of slot r, half h in the slot order of width code w (R52), and back. -/
def slotPos (w r h : Nat) : Nat := if w = 0 then 2 * r + h else r
def posRow (w p : Nat) : Nat := if w = 0 then p / 2 else p
def posHalf (w p : Nat) : Nat := if w = 0 then p % 2 else 0
def nSlots (w : Nat) : Nat := if w = 0 then 8192 else 4096

/-- Where an entry stands: directory index, span position, slot and half; the same in every replica and twin (R72, R85). -/
structure Loc where
  d : Nat
  j : Nat
  r : Nat
  h : Nat
deriving DecidableEq, Repr

/-- The banks of removed replicas of partition d that hold span position j and are not released yet: a step that selected one may
still probe it, and sees what has been committed since (R76, R110, R140). -/
def releasedAt (s : State) (t d j : Nat) : List Nat :=
  (s.marker.releases.filter (fun r => decide (r.1 = d))).flatMap (fun r => if tPaired s t then (r.2.2.drop (2 * j)).take 2 else (r.2.2.drop j).take 1)

/-- The banks that hold span position j of partition d: every replica, and twins when the table is paired; those of a removed
replica until their release. -/
def copyBanks (s : State) (t d j : Nat) : List Nat :=
  let x := dirEntry s d
  (List.range (dRepl x)).flatMap (fun i =>
    let b := listAt s (dList x + i * dSpan x + j)
    if tPaired s t then [b, twinOf b] else [b]) ++ releasedAt s t d j

/-- The primary bank of a place: replica 0, below its twin. -/
def primaryBank (s : State) (l : Loc) : Nat := listAt s (dList (dirEntry s l.d) + l.j)

/-- Every copy of an entry that stands at the places ls: bank, slot, half. -/
def copiesOf (s : State) (t : Nat) (ls : List Loc) : List (Nat × Nat × Nat) :=
  ls.flatMap (fun l => (copyBanks s t l.d l.j).map (fun b => (b, l.r, l.h)))

/-- The entry address of a place (R7). -/
def locAddr (s : State) (l : Loc) : Nat := primaryBank s l * 4096 + l.r

/-- An answer with the entry address of a place and its half-select (R54, R146). -/
def TRsp.withLoc (r : TRsp) (s : State) (l : Loc) : TRsp := { r with addr := BitVec.ofNat 24 (locAddr s l), half := decide (l.h = 1) }

/-- The table that maps granules to crew ranks (R192, R336). -/
abbrev tRTE : Nat := 2

/-- A change of this entry is made under a commit gate: a paired table, a replicated partition, a straddling entry
(R81), and every write of RTE (R336). -/
def isGated (s : State) (t : Nat) (ds : List Nat) : Bool :=
  tPaired s t || decide (t = tRTE) || decide (1 < ds.length) ||
    ds.any (fun d => decide (1 < dRepl (dirEntry s d)) || s.marker.releases.any (fun r => decide (r.1 = d)))

/-- A key cut to the width of a table. -/
def cutKey (s : State) (t : Nat) (k : BitVec 192) : BitVec 192 := k &&& ones192 (widthBits (tWidth s t))

/-! ## Result slots -/

/-- A word of a result slot is written, and in the slot that a COPY clone's destination keeps (R178). A MOVE keeps the
logical number and so the slot. -/
def putSlotCw (s : State) (b r h j : Nat) (c : Cw) : State :=
  (mirrorsOf s b).foldl (fun s d => if d.2 then putCw s (kSlot d.1 r h j) c else s) (putCw s (kSlot b r h j) c)

/-- A result slot is written. -/
def putSlot (s : State) (b r h : Nat) (res chk : Word) : State :=
  putSlotCw (putSlotCw s b r h 0 (secEnc res)) b r h 1 (secEnc chk)

/-- LIVE of a result slot is cleared (R55). -/
def clearLive (s : State) (b r h : Nat) : State :=
  (mirrorsOf s b).foldl (fun s d => if d.2 then rmw s (kSlot d.1 r h 1) (bput 64 23 1) 0 else s) (rmw s (kSlot b r h 1) (bput 64 23 1) 0)

/-! ## Finding an entry (R150, R151) -/

/-- The gates that are open now (R79). -/
def openMask (s : State) : BitVec 64 :=
  s.marker.gates.foldl (fun m e => if e.2.opened then m ||| (1 <<< e.1) else m) 0

/-- An entry is the one that a command names (R150). -/
def sameEntry (s : State) (b : Nat) (care val : BitVec 192) (tag : Nat) (e : Entry) : Bool :=
  e.side.v && gateAdmits s (openMask s) b e.side.g && e.care == care && (e.val &&& care) == (val &&& care) && decide (e.side.tag.toNat = tag)

/-- The slots of bank b at which an exact probe finds the entry, lowest first. -/
def exactIn (s : State) (t b : Nat) (care val : BitVec 192) (tag : Nat) : List (Nat × Nat) :=
  ((liveEntries s t b).filter (fun (_, _, e) => sameEntry s b care val tag e)).map (fun (r, h, _) => (r, h))

/-- An entry as an update engine writes it elsewhere: value 0 under every don't-care trit (R48), which restores a faulted one
and leaves its parity as it was made (R50). -/
def Entry.masked (e : Entry) : Entry := { e with val := e.val &&& e.care }

/-- A result slot is carried to another: its two words, read and written. -/
def carrySlot (s : State) (b r h b2 r2 h2 : Nat) : State :=
  [0, 1].foldl (fun s j => let x := carried s (kSlot b r h j); putSlotCw x.2 b2 r2 h2 j x.1) s

/-- An entry is copied, trits, side fields and result slot, from one bank to another at the same slot (R88, R89): no
journal record; dropped when either side belongs to a gated change. -/
def copyEntry (s : State) (t src dst r h : Nat) : State :=
  let w := tWidth s t
  let e := getEntry s w src r h
  if e.side.g ≠ 0 ∨ (getEntry s w dst r h).side.g ≠ 0 then s
  else
    let s := carrySlot s src r h dst r h
    setEntry s w dst r h { e.masked with side := { e.side with h := false } }

/-- A second copy that an exact probe found is reported and passed to the scrub path (R151). -/
def rejectSecond (s : State) (t b : Nat) (second : List (Nat × Nat)) : State :=
  second.foldl (fun s (r, h) => queueBad (tcamReject s t b r h .ok 3) (.entry b r h)) s

/-- The exact probe of one span bank and its twin: the place found, with the repair of the twin that lacks it. Where both twins hold
the entry, at different slots, R151 does not say which slot stands: the first twin's does, and is copied over (DESIGN CHOICE, log
entry 127). -/
def findInBank (s : State) (t d j : Nat) (care val : BitVec 192) (tag : Nat) : Option Loc × State :=
  let b := listAt s (dList (dirEntry s d) + j)
  let fa := exactIn s t b care val tag
  if tPaired s t then
    let b2 := twinOf b
    let fb := exactIn s t b2 care val tag
    let s := rejectSecond (rejectSecond s t b (fa.drop 1)) t b2 (fb.drop 1)
    match fa, fb with
    | (r, h) :: _, (r2, h2) :: _ => if (r, h) = (r2, h2) then (some ⟨d, j, r, h⟩, s) else (some ⟨d, j, r, h⟩, copyEntry s t b b2 r h)
    | (r, h) :: _, [] => (some ⟨d, j, r, h⟩, copyEntry s t b b2 r h)
    | [], (r, h) :: _ => (some ⟨d, j, r, h⟩, copyEntry s t b2 b r h)
    | [], [] => (none, s)
  else
    match fa with
    | (r, h) :: rest => (some ⟨d, j, r, h⟩, rejectSecond s t b rest)
    | [] => (none, s)

/-- The exact probe over partition d's span (R150). -/
def findInDir (s : State) (t d : Nat) (care val : BitVec 192) (tag : Nat) : List Nat → Option Loc × State
  | [] => (none, s)
  | j :: js =>
    match findInBank s t d j care val tag with
    | (some l, s) => (some l, s)
    | (none, s) => findInDir s t d care val tag js

/-- Every place at which the entry stands, in every partition that it intersects, without repairs: the copies whose H bits
R146 joins. -/
def placesOf (s : State) (t : Nat) (care val : BitVec 192) (tag : Nat) : List Loc :=
  (dirsFor s t care val).flatMap (fun d => (List.range (dSpan (dirEntry s d))).flatMap (fun j =>
    (exactIn s t (listAt s (dList (dirEntry s d) + j)) care val tag).map (fun x => ⟨d, j, x.1, x.2⟩)))

/-- The exact probe over every partition the entry intersects (R150, R77). -/
def findEntry (s : State) (t : Nat) (care val : BitVec 192) (tag : Nat) : List Nat → List Loc × State
  | [] => ([], s)
  | d :: ds =>
    let (l, s) := findInDir s t d care val tag (List.range (dSpan (dirEntry s d)))
    let (ls, s) := findEntry s t care val tag ds
    (l.toList ++ ls, s)

/-! ## Placement (R152 to R155) -/

/-- The occupied places of a bank in slot order, with their TAGs. -/
def occupied (s : State) (t b : Nat) : List (Nat × Nat) :=
  (liveEntries s t b).map (fun (r, h, e) => (slotPos (tWidth s t) r h, e.side.tag.toNat))

/-- Two lists of occupied places merged in slot order; where both hold a place, the first list's TAG stands. -/
def mergeOcc : List (Nat × Nat) → List (Nat × Nat) → List (Nat × Nat)
  | [], ys => ys
  | x :: xs, ys => ys.takeWhile (fun y => decide (y.1 < x.1)) ++ x :: mergeOcc xs (ys.dropWhile (fun y => decide (y.1 ≤ x.1)))

/-- The occupied places of span position j of partition d: a place is free when it is free in every bank that holds a
copy, since every copy of an entry stands in the same place (R72, R85; log entry 29). -/
def occupiedAt (s : State) (t d j : Nat) : List (Nat × Nat) :=
  (copyBanks s t d j).foldl (fun o b => mergeOcc o (occupied s t b)) []

/-- The lowest place from a on, below b, that is not in the rising list. -/
def lowFree : List Nat → Nat → Nat → Option Nat
  | [], a, b => if a < b then some a else none
  | p :: ps, a, b => if p < a then lowFree ps a b else if p = a then lowFree ps (a + 1) b else if a < b then some a else none

/-- The highest place below b, from a on, that is not in the falling list. -/
def highFree : List Nat → Nat → Nat → Option Nat
  | [], a, b => if a < b then some (b - 1) else none
  | p :: ps, a, b => if b ≤ p then highFree ps a b else if p + 1 = b then highFree ps a p else if a < b then some (b - 1) else none

/-- The window of prefix length L (R152): its first place, and the place after its last. -/
def windowOf (occ : List (Nat × Nat)) (n L : Nat) : Nat × Nat :=
  (occ.foldl (fun lo (p, g) => if L < g then p + 1 else lo) 0,
   match occ.find? (fun (_, g) => decide (g < L)) with
   | some (p, _) => p
   | none => n)

/-- How many free places a window holds. -/
def windowFree (occ : List (Nat × Nat)) (w : Nat × Nat) : Nat :=
  (w.2 - w.1) - (occ.filter (fun (p, _) => decide (w.1 ≤ p ∧ p < w.2))).length

/-- The place of a new entry with TAG L (R153). -/
def placeIn (occ : List (Nat × Nat)) (n L : Nat) : Option Nat :=
  let w := windowOf occ n L
  let ps := occ.map (·.1)
  let own := (occ.filter (fun (_, g) => g == L)).map (·.1)
  match own with
  | [] => lowFree ps w.1 w.2
  | f :: _ =>
    match lowFree ps ((own.getLast?).getD f + 1) w.2 with
    | some p => some p
    | none =>
      match highFree ps.reverse w.1 f with
      | some p => some p
      | none => lowFree ps w.1 w.2

/-- The first entry of each run of equal TAGs. -/
def runFirsts : List (Nat × Nat) → Option Nat → List Nat
  | [], _ => []
  | (p, g) :: xs, prev => if prev = some g then runFirsts xs prev else p :: runFirsts xs (some g)

/-- Moves that walk a hole through the places ps: from place, to place; and where the hole ends. -/
def walkHole : List Nat → Nat → List (Nat × Nat) × Nat
  | [], hole => ([], hole)
  | p :: ps, hole => let (ms, h) := walkHole ps p; ((p, hole) :: ms, h)

/-- The relocation chain of plan_chain: its moves in order, and the hole inside the window (R154, R155). -/
def planChain (occ : List (Nat × Nat)) (n L : Nat) : Option (List (Nat × Nat) × Nat) :=
  let w := windowOf occ n L
  let ps := occ.map (·.1)
  let down := (lowFree ps w.2 n).map (fun f =>
    let firsts := runFirsts (occ.filter (fun (p, _) => decide (w.2 ≤ p ∧ p < f))) none
    (firsts.length, walkHole firsts.reverse f))
  let up := (highFree ps.reverse 0 w.1).map (fun g =>
    let lasts := runFirsts (occ.filter (fun (p, _) => decide (g < p ∧ p < w.1))).reverse none
    (lasts.length, walkHole lasts.reverse g))
  let pick := match down, up with
    | some a, some b => if a.1 ≤ b.1 then some a else some b
    | some a, none => some a
    | none, some b => some b
    | none, none => none
  match pick with
  | some (k, r) => if k ≤ 16 then some r else none
  | none => none

/-- A placement in one partition: the place, and the moves that free it. -/
structure Plan where
  loc : Loc
  moves : List (Nat × Nat)
deriving DecidableEq, Repr

/-- The span position with the most free places in the window, earliest first (R154). -/
def bestSpan (s : State) (t d L : Nat) : Option (Nat × Nat) :=
  let n := nSlots (tWidth s t)
  ((List.range (dSpan (dirEntry s d))).foldl (fun (best : Option (Nat × Nat × Nat)) j =>
    let b := listAt s (dList (dirEntry s d) + j)
    if bankState s b ≠ 1 then best
    else
      let occ := occupiedAt s t d j
      let k := windowFree occ (windowOf occ n L)
      match placeIn occ n L, best with
      | some p, none => some (j, p, k)
      | some p, some (_, _, k0) => if k0 < k then some (j, p, k) else best
      | none, _ => best) none).map (fun (j, p, _) => (j, p))

/-- The first span position for which a chain exists (R154). -/
def chainSpan (s : State) (t d L : Nat) : List Nat → Option (Nat × List (Nat × Nat) × Nat)
  | [] => none
  | j :: js =>
    let b := listAt s (dList (dirEntry s d) + j)
    if bankState s b ≠ 1 then chainSpan s t d L js
    else
      match planChain (occupiedAt s t d j) (nSlots (tWidth s t)) L with
      | some (ms, hole) => some (j, ms, hole)
      | none => chainSpan s t d L js

/-- The placement in one partition (R153 to R155). -/
def planOne (s : State) (t L : Nat) (nochain : Bool) (d : Nat) : Option Plan :=
  let w := tWidth s t
  match bestSpan s t d L with
  | some (j, p) => some ⟨⟨d, j, posRow w p, posHalf w p⟩, []⟩
  | none =>
    if nochain then none
    else (chainSpan s t d L (List.range (dSpan (dirEntry s d)))).map (fun (j, ms, hole) => ⟨⟨d, j, posRow w hole, posHalf w hole⟩, ms⟩)

/-- The placement in every partition, or in none (R157). -/
def planAll (s : State) (t L : Nat) (nochain : Bool) : List Nat → Option (List Plan)
  | [] => some []
  | d :: ds =>
    match planOne s t L nochain d, planAll s t L nochain ds with
    | some p, some ps => some (p :: ps)
    | _, _ => none

/-- V, H and G of an entry are cleared, then LIVE (R55, R82). -/
def clearEntry (s : State) (w b r h : Nat) : State :=
  let e := getEntry s w b r h
  clearLive (setEntry s w b r h { e with side := { e.side with v := false, h := false, g := 0 } }) b r h

/-- The G field of an entry is written. -/
def setG (s : State) (w b r h : Nat) (g : BitVec 2) : State :=
  let e := getEntry s w b r h
  setEntry s w b r h { e with side := { e.side with g := g } }

/-- An update engine writes the H bit of an entry; a running clone's destination takes the write too (R66, R178). -/
def writeH (s : State) (w b r h : Nat) (v : Bool) : State :=
  let e := getEntry s w b r h
  setEntry s w b r h { e with side := { e.side with h := v } }

/-- The OR of the H bits of copies. -/
def anyH (s : State) (w : Nat) (cs : List (Nat × Nat × Nat)) : Bool := cs.any (fun (b, r, h) => (getEntry s w b r h).side.h)

/-! ## Commit gates (R79 to R84) -/

/-- No lookup step is still probing under a snapshot that shows gate g open. An engine takes no other gate for a change:
the step's probe point precedes the change, and the bit it holds is of the gate's change before (R79, R140; log entry 103). -/
def gateUnseen (s : State) (g : Nat) : Bool :=
  s.search.tokens.all (fun e => match e.2 with
    | some tk => tk.steps.all (fun x => !((x.ph == .issued || x.ph == .disagree) && bit g x.snap))
    | none => true)

/-- A free gate among the eight that engine e owns. -/
def freeGate (s : State) (e : Nat) : Option Nat :=
  ((List.range 8).map (8 * e + ·)).find? (fun g => (getGate s g).st == .free && gateUnseen s g)

/-- How many selectors of a bank are free (R83). -/
def freeSels (s : State) (b : Nat) : Nat :=
  (if sget none s.tcam.sels (2 * b) = none then 1 else 0) + (if sget none s.tcam.sels (2 * b + 1) = none then 1 else 0)

/-- Engine e can start a gated change that needs k selectors in each of these banks (R83). -/
def canGate (s : State) (e k : Nat) (banks : List Nat) : Bool := (freeGate s e).isSome && banks.all (fun b => decide (k ≤ freeSels s b))

def setSel (s : State) (k : Nat) (v : Option (Nat × Bool)) : State :=
  { s with tcam := { s.tcam with sels := sput none s.tcam.sels k v } }

/-- The selector of bank b that governs for gate g with this sense: one already set to it, or a free one. -/
def selFor (s : State) (b g : Nat) (ins : Bool) : Bool :=
  if sget none s.tcam.sels (2 * b) = some (g, ins) then false
  else if sget none s.tcam.sels (2 * b + 1) = some (g, ins) then true
  else sget none s.tcam.sels (2 * b) ≠ none

/-- Copies come under gate g with a sense: selectors set and the copies listed (R82). -/
def armCopies (s : State) (g : Nat) (ins : Bool) : List (Nat × Nat × Nat) → State × List GCopy
  | [] => (s, [])
  | (b, r, h) :: cs =>
    let gb := selFor s b g ins
    let s := setSel s (2 * b + (if gb then 1 else 0)) (some (g, ins))
    let (s, l) := armCopies s g ins cs
    (s, ⟨b, r, h, ins, gb⟩ :: l)

/-- The G code of a governed copy. -/
def gCode (c : GCopy) : BitVec 2 := if c.gb then 2 else 1

/-- A new entry is written in every copy: result slot first, then trits with V set (R55, R154). -/
def writeCopies (s : State) (t : Nat) (care val : BitVec 192) (tag : Nat) (res : Word) (g : GCopy → BitVec 2) (cs : List GCopy) : State :=
  let chk := mkCheck s t care val tag
  cs.foldl (fun s c =>
    setEntry (putSlot s c.bank c.slot c.half res chk) (tWidth s t) c.bank c.slot c.half
      (mkEntry care val (BitVec.ofNat 7 tag) true (g c))) s

/-- Copies without a gate. -/
def plainCopies (cs : List (Nat × Nat × Nat)) : List GCopy := cs.map (fun (b, r, h) => ⟨b, r, h, true, false⟩)

/-- A copy of RTE as the route mirror holds it: value, care, TAG and the rank that its result word names (R333). -/
def mirrorItem (s : State) (c : GCopy) : BitVec 96 × BitVec 96 × Nat × Nat :=
  let e := getEntry s (tWidth s tRTE) c.bank c.slot c.half
  (bf 0 96 e.val, bf 0 96 e.care, e.side.tag.toNat, bn 0 2 (secDec (cell s (kSlot c.bank c.slot c.half 0))).data)

/-- The route mirror takes a write of RTE in the marker cycle that opens its gate (R336): each entry once, however many
copies of it the gate governs. -/
def mirrorTake (s : State) (cs : List GCopy) : State :=
  let gone := ((cs.filter (fun c => !c.ins)).map (mirrorItem s)).dedup
  let come := ((cs.filter (fun c => c.ins)).map (mirrorItem s)).dedup
  { s with marker := { s.marker with mirror := gone.foldl List.erase s.marker.mirror ++ come } }

/-- Gate g opens: the commit point (R82). -/
def openGate (s : State) (g : Nat) (x : Gate) : State :=
  let q := s.marker.seq + 1
  let s := if x.table = tRTE then mirrorTake s x.copies else s
  setGate { s with marker := { s.marker with seq := q } } g { x with st := .draining, opened := true, seq := q }

/-! ## Reference links (R172) -/

/-- Fields of a table's reference link. -/
def lkPtr (l : BitVec 80) : Nat × Nat := (bn 0 8 l, bn 8 8 l + 1)
def lkKind (l : BitVec 80) : Nat × Nat := (bn 16 8 l, bn 24 8 l + 1)
def lkMask (l : BitVec 80) : BitVec 16 := bf 32 16 l
def lkShift (l : BitVec 80) : Nat := bn 48 8 l
def lkTable (l : BitVec 80) : Nat := bn 56 8 l
def lkCount (l : BitVec 80) : Nat × Nat := (bn 64 8 l, bn 72 8 l + 1)

/-- The row that an entry with this result word counts in, if any. -/
def linkRow (s : State) (t : Nat) (res : Word) : Option Nat :=
  let l := tLink s t
  if l = 0 then none
  else if bit (bn (lkKind l).1 (lkKind l).2 res) (lkMask l) then some (bn (lkPtr l).1 (lkPtr l).2 res / 2 ^ lkShift l)
  else none

/-- A field of a row of an index table. -/
def fieldOf (s : State) (t row lsb w : Nat) : Nat := bn (lsb % 64) w (peek s (rowKey s t row (lsb / 64))).data

/-- The word of a row after a field of it is set. -/
def fieldWord (s : State) (t row lsb w v : Nat) : Word := bset (lsb % 64) w (peek s (rowKey s t row (lsb / 64))).data v

/-- The entries of a coalescer that belong to one macro (R386). -/
def macroOf (key : Nat) : Nat := (addrAt key).toNat / 8192

/-- The coalescer entry of a word is issued as one read-modify-write transfer, the commit point of every write merged in it (R175,
R386): each takes a JSN and an IWORD record, and each is answered, or refused and counted (R454). An uncorrectable word takes no
write (R385), unless the whole word is replaced (R400); a journal that takes no record refuses them all (R33). -/
def issueCoal (s : State) (key : Nat) : State :=
  match sget none s.sram.coal key with
  | none => s
  | some c =>
    let s := { s with sram := { s.sram with coal := sput none s.sram.coal key none } }
    let t := (tableOfPlace key).getD 0
    let w := (key - kIndex t 0) % rowWords s t
    let row := (key - kIndex t 0) / rowWords s t
    let old := peek s key
    if old.bad && c.mask != BitVec.allOnes 64 then c.waits.foldl (fun s a => answer s a.1 { a.2 with st := .poison }) (touchQ s key)
    else
      let v := (old.data &&& ~~~ c.mask) ||| (c.val &&& c.mask)
      let rec_ := JRec.iword t w row v
      let gs := c.waits.map (fun _ => [rec_])
      let (ok, s) := jAdmit s gs
      if ok then
        let s := putWord (if c.mask = BitVec.allOnes 64 then s else touch s key) key v
        c.waits.foldl (fun s a => let (j, s) := jCommit s [rec_] true; answer s a.1 { a.2 with jsn := j }) s
      else c.waits.foldl (fun s a => answer (countT s t 8 1) a.1 { a.2 with st := .busyRetry }) ((c.waits.drop 1).foldl (fun s _ => (jAdmit s gs).2) s)

/-- The coalescer entries of a row are issued before an arithmetic or conditional transfer on it (R387). -/
def issueRow (s : State) (t row : Nat) : State := (rowKeys s t row).foldl issueCoal s

/-- A field of a row is written as a read-modify-write (R385). -/
def putField (s : State) (t row lsb w v : Nat) : State :=
  rmw s (rowKey s t row (lsb / 64)) (bset (lsb % 64) w 0 (2 ^ w - 1)) (bset (lsb % 64) w 0 v)

/-- The journal record of a field write: the word it leaves (R422). -/
def fieldRec (s : State) (t row lsb w v : Nat) : JRec := .iword t (lsb / 64) row (fieldWord s t row lsb w v)

/-- The count of a linked row. -/
def linkCount (s : State) (t row : Nat) : Nat := fieldOf s (lkTable (tLink s t)) row (lkCount (tLink s t)).1 (lkCount (tLink s t)).2
def linkMax (s : State) (t : Nat) : Nat := 2 ^ (lkCount (tLink s t)).2 - 1
/-- The row lies beyond the end of the linked table. -/
def linkOut (s : State) (t row : Nat) : Bool := decide (tCap s (lkTable (tLink s t)) ≤ row)
def linkRec (s : State) (t row v : Nat) : JRec := fieldRec s (lkTable (tLink s t)) row (lkCount (tLink s t)).1 (lkCount (tLink s t)).2 v
def linkPut (s : State) (t row v : Nat) : State := putField s (lkTable (tLink s t)) row (lkCount (tLink s t)).1 (lkCount (tLink s t)).2 v

/-- The word of a linked row that holds its count. -/
def linkKey (s : State) (t row : Nat) : Nat := rowKey s (lkTable (tLink s t)) row ((lkCount (tLink s t)).1 / 64)
/-- A link row reads uncorrectable (R371). -/
def linkBad (s : State) (t row : Nat) : Bool := (peek s (linkKey s t row)).bad

/-- An uncorrectable count is reported and queued, and its write skipped (R371). A decrement below zero is adjusted to zero with
CONFIG_FATAL, DETAIL 3, to FW and SB (R172). -/
def linkDec (s : State) (t row : Nat) : State :=
  let s := issueRow s (lkTable (tLink s t)) row
  if linkBad s t row then touchQ s (linkKey s t row)
  else if linkCount s t row = 0 then event s [qFW, qSB] 0xF007 0 3 else linkPut s t row (linkCount s t row - 1)

/-- A row that an open gate is still to lower stays reserved until then (R158, R228). -/
def rowHeld (s : State) (row : Nat) : Bool := s.marker.gates.any (fun e => e.2.refDec.contains row)
def lblkHeld (s : State) (l : Nat) : Bool := s.marker.gates.any (fun e => e.2.basteDec.contains l)

/-! ## The drain of a gate (R82) -/

/-- A lookup step that holds a snapshot taken before seq and is still probing. -/
def stepBefore (q : Nat) (x : StepRun) : Bool := (x.ph == .issued || x.ph == .disagree) && decide (x.seq < q)

/-- No step that holds an older snapshot is still probing (R82). -/
def drained (s : State) (q : Nat) : Bool :=
  s.search.tokens.all (fun e => match e.2 with | some tk => tk.steps.all (fun x => !stepBefore q x) | none => true)

/-- One copy is finalised: G cleared; a delete-sense copy also V and LIVE cleared (R82). -/
def finalCopy (s : State) (w : Nat) (c : GCopy) : State :=
  if c.ins then setG s w c.bank c.slot c.half 0 else clearEntry s w c.bank c.slot c.half

/-- The selectors that gate g holds are released. -/
def releaseSels (s : State) (g : Nat) : State :=
  { s with tcam := { s.tcam with sels := s.tcam.sels.filter (fun e => match e.2 with | some (x, _) => decide (x ≠ g) | none => true) } }

/-- A copy's key in hmoves: bank, slot and half as one number. -/
def copyKey (b r h : Nat) : Nat := (b * 4096 + r) * 2 + h

/-- The H bit of an old copy that is set is set in the new one (R161). -/
def carryH (s : State) (w : Nat) (m : Nat × Nat) : State :=
  if (getEntry s w (m.1 / 8192) (m.1 / 2 % 4096) (m.1 % 2)).side.h then
    writeH s w (m.2 / 8192) (m.2 / 2 % 4096) (m.2 % 2) true
  else s

/-- The places of BMAP's basting count and of the tables of the reference structure (R192, R200). -/
abbrev tBMAP : Nat := 8
abbrev tBINF : Nat := 9
abbrev tCTX : Nat := 10
abbrev tMIG : Nat := 11
abbrev tSHT : Nat := 12
abbrev tDRIFT : Nat := 13
abbrev tHEAT : Nat := 16
abbrev tPOOL : Nat := 20
abbrev tOVL : Nat := 1

/-- A basting count falls by one (R230), unless it reads uncorrectable (R371), after the row's pending coalescer entries (R387). -/
def basteDec (s : State) (l : Nat) : State :=
  let s := issueRow s tBMAP l
  let v := fieldOf s tBMAP l 28 8
  if (peek s (rowKey s tBMAP l 0)).bad then touchQ s (rowKey s tBMAP l 0)
  else if v = 0 then s else putField s tBMAP l 28 8 (v - 1)

/-- The answer that waits for the drain: LATEHIT of a DELETE_IF_IDLE is read then (R167). -/
def drainAnswer (s : State) (x : Gate) (late : Bool) : State :=
  match x.reply with
  | some (v, r) =>
    if x.dii && late then answer (countT s x.table 7 1) v { r with latehit := true } else answer s v r
  | none => s

/-- Gate g is finalised and freed (R82, R161, R167, R172, R230, R429). -/
def finishGate (s : State) (g : Nat) : State :=
  let x := getGate s g
  let w := tWidth s x.table
  let late := x.dii && anyH s w ((x.copies.filter (fun c => !c.ins)).map (fun c => (c.bank, c.slot, c.half)))
  let s := x.hmoves.foldl (fun s m => carryH s w m) s
  let s := x.copies.foldl (fun s c => finalCopy s w c) s
  let s := x.refDec.foldl (fun s r => linkDec s x.table r) s
  let s := x.basteDec.foldl basteDec s
  let s := setGate (releaseSels s g) g Gate.reset
  drainAnswer (jApplied s x.jsn) x late

/-! ## Relocation (R160, R161) -/

/-- Whether an entry's care pattern follows from its TAG alone (R426). -/
def careFollows (s : State) (t : Nat) (care : BitVec 192) (tag : Nat) : Bool :=
  let wb := widthBits (tWidth s t)
  care == (ones192 wb &&& ~~~ ones192 (tOrigin s t + 1 - tag))

/-- The journal record of an entry at a place (R426). -/
def entryRec (s : State) (t : Nat) (l : Loc) (care val : BitVec 192) (tag : Nat) (res : Word) : JRec :=
  .entry t l.h (locAddr s l) tag val care (tWidth s t == 2) (!careFollows s t care tag) res

/-- The move record of an entry (R160, R426). -/
def moveRec (s : State) (t : Nat) (l : Loc) (src dst : Nat) : JRec :=
  let w := tWidth s t
  let b := primaryBank s l
  let c := ((copyBanks s t l.d l.j).find? (fun c => (getEntry s w c (posRow w src) (posHalf w src)).side.v)).getD b
  let e := getEntry s w c (posRow w src) (posHalf w src)
  .move t (posHalf w dst) (posHalf w src) (b * 4096 + posRow w dst) (b * 4096 + posRow w src) e.side.tag.toNat e.val e.care (w == 2) (!careFollows s t e.care e.side.tag.toNat) (peek s (kSlot c (posRow w src) (posHalf w src) 0)).data

/-- The copy of a bank's entry at another place of the bank (R55, R160): result slot first, then the trits with H clear,
under the gate code g. -/
def moveCopy (s : State) (w b src dst : Nat) (g : BitVec 2) : State :=
  let e := getEntry s w b (posRow w src) (posHalf w src)
  let s := carrySlot s b (posRow w src) (posHalf w src) b (posRow w dst) (posHalf w dst)
  setEntry s w b (posRow w dst) (posHalf w dst) { e.masked with side := { e.side with h := false, g := g } }

/-- The result word that a relocation would read and finds uncorrectable (R371). -/
def moveBad (s : State) (t : Nat) (m : Loc × Nat × Nat) : Option Nat :=
  let w := tWidth s t
  (copyBanks s t m.1.d m.1.j).findSome? (fun c =>
    let k := kSlot c (posRow w m.2.1) (posHalf w m.2.1) 0
    if (getEntry s w c (posRow w m.2.1) (posHalf w m.2.1)).side.v && (peek s k).bad then some k else none)

/-- The copies at a place in the slot order, in every copy bank of a span position. -/
def copiesAt (s : State) (t : Nat) (l : Loc) (p : Nat) : List (Nat × Nat × Nat) :=
  (copyBanks s t l.d l.j).map (fun b => (b, posRow (tWidth s t) p, posHalf (tWidth s t) p))

/-- A relocation move may begin: both selectors of every bank are free, and the entry belongs to no gated change (R83, R158). -/
def moveReady (s : State) (t : Nat) (l : Loc) (m : Nat × Nat) : Bool :=
  (copiesAt s t l m.1).all (fun c => decide (freeSels s c.1 = 2) && decide ((getEntry s (tWidth s t) c.1 c.2.1 c.2.2).side.g = 0))

/-- The first commit of a move (R160): the copy at the destination under insert sense, which gate g1 makes match. Its record
has entered the journal buffer; gate g2 completes the group. -/
def openMoveTo (s : State) (t : Nat) (l : Loc) (m : Nat × Nat) (g1 : Nat) : State :=
  let w := tWidth s t
  let (s, gi) := armCopies s g1 true (copiesAt s t l m.2)
  let s := gi.foldl (fun s c => moveCopy s w c.bank m.1 m.2 (gCode c)) s
  openGate s g1 { Gate.reset with copies := gi, table := t }

/-- The second commit of a move (R160, R161): the original under delete sense, which gate g2 stops from matching, and whose
H bits go to the copy at the drain. -/
def openMoveFrom (s : State) (t : Nat) (l : Loc) (m : Nat × Nat) (g2 : Nat) (j : Word) : State :=
  let w := tWidth s t
  let (s, gd) := armCopies s g2 false (copiesAt s t l m.1)
  let s := gd.foldl (fun s c => setG s w c.bank c.slot c.half (gCode c)) s
  openGate s g2 { Gate.reset with copies := gd, table := t, jsn := j, hmoves := ((copiesAt s t l m.1).zip (copiesAt s t l m.2)).map (fun (a, b) => (copyKey a.1 a.2.1 a.2.2, copyKey b.1 b.2.1 b.2.2)) }

/-- A gate whose drain has come is finalised (R82), when no bank that it writes is frozen (R312). -/
def settleGate (s : State) (g : Nat) : State :=
  if (getGate s g).st = .draining ∧ drained s (getGate s g).seq = true ∧ (getGate s g).copies.any (fun c => frozenAt s (getGate s g).table c.bank) = false then finishGate s g else s

/-- Every gate whose drain has come. -/
def settleGates (s : State) : State := (List.range 64).foldl settleGate s

/-- One relocation move (R160): its record, its two commits under two gates of engine e, and their drain when it comes at
once. None: it cannot begin yet. The flag says that both gates are free again. -/
def relocate (s : State) (e t : Nat) (l : Loc) (m : Nat × Nat) : Option (State × Bool) :=
  if !moveReady s t l m then none
  else
    match freeGate s e with
    | none => none
    | some g1 =>
      let (j, s) := jCommit s [moveRec s t l m.1 m.2] false
      let s := openMoveTo s t l m g1
      match freeGate s e with
      | none => none
      | some g2 =>
        let s := countT (openMoveFrom s t l m g2 j) t 3 1
        let s := settleGate (settleGate s g2) g1
        some (s, (getGate s g1).st == .free && (getGate s g2).st == .free)

/-- The moves of a chain in order, as far as they go: each begins when the one before has drained (R83, R158). The state, how many
were made, and whether all were made and drained. -/
def relocateAll (e t : Nat) : List (Loc × Nat × Nat) → Nat → State → State × Nat × Bool
  | [], n, s => (s, n, true)
  | m :: ms, n, s =>
    match relocate s e t m.1 m.2 with
    | none => (s, n, false)
    | some (s, true) => relocateAll e t ms (n + 1) s
    | some (s, false) => (s, n + 1, false)

/-- The moves of placements, in order. -/
def planMoves (ps : List Plan) : List (Loc × Nat × Nat) := ps.flatMap (fun p => p.moves.map (fun m => (p.loc, m)))

/-- The journal groups that moves take: one record each, of at most 4 units. -/
def moveGroups (s : State) (t : Nat) (ms : List (Loc × Nat × Nat)) : List (List JRec) := ms.map (fun m => [moveRec s t m.1 m.2.1 m.2.2])

end Sys2Proof.Machine
end

