-- ==== Sys2Proof/Machine/Operands.lean ====
section
/-! DEFINITION. Operand forms: the fields of a table command and of a register set, and the engine a command goes to (R34, R143, R173, R188, R227, R228). -/

namespace Sys2Proof.Machine

open Sys2Proof

/-! ## Fields of a table command (R143, R169, R173, R177, R227) -/

def cOpc (c : TCmd) : Nat := bn 8 8 c.s0
def cTag (c : TCmd) : BitVec 10 := bf 16 10 c.s0
def cCont (c : TCmd) : Nat := bn 4 2 c.s0
def cReplace (c : TCmd) : Bool := bit 26 c.s0
def cNochain (c : TCmd) : Bool := bit 27 c.s0
def cHalf (c : TCmd) : Nat := bn 28 1 c.s0
def cCmpw (c : TCmd) : Bool := bit 29 c.s0
def cTable (c : TCmd) : Nat := bn 32 5 c.s0
def cAddr (c : TCmd) : Nat := bn 40 24 c.s0
def cByKey (c : TCmd) : Bool := decide (cAddr c = 0xFFFFFF)
def cPlen (c : TCmd) : Nat := bn 8 7 c.s1
def cRes (c : TCmd) : Word := bf 64 64 c.s1
/-- Key and mask of an entry command, with the upper half of a 192-trit entry from slot 2. -/
def cKey (s : State) (c : TCmd) : BitVec 192 := cutKey s (cTable c) ((bf 64 96 c.s2) ++ (bf 64 96 c.s0))
def cMask (s : State) (c : TCmd) : BitVec 192 := cutKey s (cTable c) ((bf 160 96 c.s2) ++ (bf 160 96 c.s0))
/-- Scope key and mask over key bits [95:0] (R166, R169). -/
def cScopeKey (c : TCmd) : BitVec 192 := (bf 64 96 c.s0).setWidth 192
def cScopeMask (c : TCmd) : BitVec 192 := (bf 160 96 c.s0).setWidth 192

/-- The row of an index command, and its field operands (R173). -/
def cRow (c : TCmd) : Nat := cAddr c
def cRowData (c : TCmd) : BitVec 256 := (bf 64 64 c.s1) ++ (bf 64 192 c.s0)
def cLsb (c : TCmd) : Nat := bn 64 8 c.s0
def cWid (c : TCmd) : Nat := bn 72 6 c.s0 + 1
def cVal (c : TCmd) : Word := bf 128 64 c.s0
def cNew (c : TCmd) : Word := bf 192 64 c.s0

/-- Bank commands (R177, R179). -/
def cBank (c : TCmd) : Nat := bn 64 16 c.s0
def cBank2 (c : TCmd) : Nat := bn 80 16 c.s0
def cMode (c : TCmd) : Nat := bn 96 2 c.s0

/-- Stream commands (R180, R183). -/
def cStream (c : TCmd) : Nat := bn 64 2 c.s0
def cDir (c : TCmd) : Nat := bn 66 2 c.s0
def cStreamReplace (c : TCmd) : Bool := bit 68 c.s0

/-- Lifecycle fields (R227). -/
def cLblk (c : TCmd) : Nat := bn 40 23 c.s0
def cPA (c : TCmd) : Nat := bn 64 24 c.s0
def cPB (c : TCmd) : Nat := bn 88 24 c.s0
def cV (c : TCmd) : Nat := bn 112 16 c.s0
def cE (c : TCmd) : Nat := bn 128 16 c.s0
def cMember (c : TCmd) : Nat := bn 144 5 c.s0
def cFail (c : TCmd) : Bool := bit 152 c.s0
def cHeat (c : TCmd) : Nat := bn 153 2 c.s0
def cRsrc (c : TCmd) : Bool := bit 155 c.s0

/-! ## Slot counts (R144, R147, R227) -/

/-- Continuation slots that an opcode requires, for a table of width code w and row width rw; none for an opcode that
does not exist. -/
def contOf (opc w rw : Nat) (byKey : Bool) : Option Nat :=
  let e := if w = 2 then 2 else 1
  if opc = 1 ∨ opc = 2 ∨ opc = 3 ∨ opc = 4 then some e
  else if opc = 5 then some (if byKey then e else 0)
  else if opc = 6 then some 2
  else if opc = 7 ∨ opc = 8 ∨ opc = 9 ∨ opc = 0x0A ∨ opc = 0x0B ∨ opc = 0x10 then some 0
  else if opc = 0x11 then some (if rw > 192 then 1 else 0)
  else if opc = 0x12 ∨ opc = 0x13 ∨ opc = 0x14 then some 0
  else if 0x40 ≤ opc ∧ opc ≤ 0x51 then some 0
  else if opc = 0x58 ∨ opc = 0x59 then some 1
  else none

/-- Continuation slots that a command requires. -/
def cNeed (s : State) (c : TCmd) : Option Nat := contOf (cOpc c) (tWidth s (cTable c)) (tRowW s (cTable c)) (cByKey c)

/-! ## Routing (R34, R228) -/

/-- The first bank of the first partition that an entry intersects, as the marker names it. -/
def firstBank (s : State) (t : Nat) (care val : BitVec 192) : Option Nat :=
  (dirsFor s t care val).head?.map (fun d => listAt s (dList (dirEntry s d)))

/-- The update engine that a command goes to: READ and WRITE may name their entry by address, every other entry command by key
(R143). Where the marker names no bank for an entry command, R34 names no engine, and the command goes where the table's own
commands go (log entry 14). -/
def routeOf (s : State) (c : TCmd) : Nat :=
  let o := cOpc c
  let t := cTable c
  if o = 1 ∨ o = 2 ∨ o = 3 ∨ o = 4 ∨ o = 5 ∨ o = 0x58 ∨ o = 0x59 then
    if cByKey c ∨ (o ≠ 4 ∧ o ≠ 5) then
      match firstBank s t (cMask s c) (cKey s c) with
      | some b => octantOf b % 8
      | none => t % 8
    else octantOf (cAddr c / 4096) % 8
  else if o = 6 ∨ o = 7 ∨ o = 0x0A ∨ o = 0x0B then t % 8
  else if o = 8 ∨ o = 9 then octantOf (cBank c) % 8
  else if o = 0x10 ∨ o = 0x11 ∨ o = 0x12 ∨ o = 0x13 then cRow c % 8
  else if o = 0x14 then 0
  else if 0x40 ≤ o ∧ o ≤ 0x48 then cLblk c % 8
  else cPA c % 8

/-- A command enters the queue of its engine (R149). -/
def enqueue (s : State) (c : TCmd) : State :=
  let e := routeOf s c
  let x := getEng s e
  setEng s e { x with queue := x.queue ++ [c] }

/-! ## Register sets (R188 to R190) -/

/-- The slots that a register set's staging registers stand for. The register names of R188 take the places of the same
fields in R143, R169, R173 and R177; a lifecycle command of FW takes its bytes 8 to 31 from KEY and MASK, and its CMPW, for which
CTRL has no bit, is 0 (log entry 15). -/
def setCmd (n : Nat) (x : RegSet) : TCmd :=
  let o := x.opc.toNat
  let viaOpnd := decide (o = 8 ∨ o = 9 ∨ o = 0x0A ∨ o = 0x0B ∨ o = 0x11 ∨ o = 0x12 ∨ o = 0x13 ∨ o = 0x14)
  let hdr := mkSlot [(0, cTCMD), (8, o), (26, if x.replace then 1 else 0), (27, if x.nochain then 1 else 0), (28, if x.half then 1 else 0), (32, x.tnum.toNat), (40, x.addr.toNat)]
  let body : Slot := if viaOpnd then ((bf 0 192 x.opnd).setWidth 256) <<< 64 else (((bf 0 96 x.key).setWidth 256) <<< 64) ||| (((bf 0 96 x.mask).setWidth 256) <<< 160)
  let s1 : Slot :=
    if o = 6 then mkSlot [(64, bn 192 12 x.opnd), (128, bn 0 64 x.opnd), (192, bn 64 64 x.opnd)]
    else if o = 0x11 then mkSlot [(64, bn 192 64 x.opnd)]
    else mkSlot [(8, x.pfx.toNat), (64, x.result.toNat)]
  let s2 : Slot :=
    if o = 6 then mkSlot [(64, bn 128 64 x.opnd), (128, bn 208 32 x.opnd)]
    else (((bf 96 96 x.key).setWidth 256) <<< 64) ||| (((bf 96 96 x.mask).setWidth 256) <<< 160)
  { issuer := if n = 0 then qFW else qSB, via := .regset n, s0 := hdr ||| body, s1 := s1, s2 := s2 }

/-- The operands of a REPOINT or LOG_REPOINT (R169, R230). -/
structure RpSpec where
  table : Nat
  scopeKey : BitVec 192
  scopeMask : BitVec 192
  lsb : Nat
  wid : Nat
  slo : Nat
  shi : Nat
  tbase : Nat
  kmask : BitVec 16
  klsb : Nat
  kwid : Nat
deriving DecidableEq, Repr

def rpSpec (c : TCmd) : RpSpec :=
  if cOpc c = 0x4C then ⟨tOVL, 0, 0, 0, 24, cPA c, cPA c + 1, cPB c, 6, 60, 4⟩
  else ⟨cTable c, cScopeKey c, cScopeMask c, bn 64 6 c.s1, bn 70 6 c.s1 + 1, bn 128 64 c.s1, bn 192 64 c.s1, bn 64 64 c.s2, bf 128 16 c.s2, bn 144 6 c.s2, bn 152 2 c.s2 + 1⟩

/-- The result word's field lies in the source range and its kind passes the filter (R169). -/
def rpHits (p : RpSpec) (res : Word) : Bool :=
  let f := bn p.lsb p.wid res
  decide (p.slo ≤ f ∧ f < p.shi) && (p.kmask == 0 || bit (bn p.klsb p.kwid res) p.kmask)

/-- The rewritten result word (R169). -/
def rpNew (p : RpSpec) (res : Word) : Word := bset p.lsb p.wid res (bn p.lsb p.wid res - p.slo + p.tbase)

/-- A running REPOINT on table t has this result word in its source range (R171). -/
def rpBlocks (s : State) (t : Nat) (res : Word) : Bool :=
  s.update.eng.any (fun e => match e.2.repoint with
    | some r => decide ((rpSpec r.cmd).table = t) && decide ((rpSpec r.cmd).slo ≤ bn (rpSpec r.cmd).lsb (rpSpec r.cmd).wid res) && decide (bn (rpSpec r.cmd).lsb (rpSpec r.cmd).wid res < (rpSpec r.cmd).shi)
    | none => false)

/-- An entry's key intersects a scope (R166, R169). -/
def inScope (scopeKey scopeMask : BitVec 192) (e : Entry) : Bool := (e.care &&& scopeMask &&& (e.val ^^^ scopeKey)) == 0

end Sys2Proof.Machine
end

