-- ==== Sys2Proof/Machine/Flags.lean ====
section
/-! DEFINITION. How a status is chosen: R148 for commands, R122 for searches; and the shared run of a table command. -/

namespace Sys2Proof.Machine

open Sys2Proof

/-- The first rule that applies gives the status (R122, R148). -/
def firstStatus : List (Bool × Status) → Option Status
  | [] => none
  | (b, st) :: rs => if b then some st else firstStatus rs

/-- What running a command gives: it waits; it has made n relocation moves and waits for their gates to drain; or it ends,
with an answer now or at a later drain. -/
inductive Ran where
  | wait
  | stays (s : State) (n : Nat)
  | ends (s : State) (r : Option TRsp)

/-- A command ends at once with a status; BUSY_RETRY is counted on its table (R191). -/
def ended (s : State) (t : Nat) (st : Status) : Ran :=
  .ends (if st = .busyRetry then countT s t 8 1 else s) (some (TRsp.of st))

/-- The command at the head of engine e's queue, if it has this opcode. -/
def headCmd (s : State) (e opc : Nat) : Option TCmd :=
  match (getEng s e).queue with
  | c :: _ => if cOpc c = opc then some c else none
  | [] => none

/-- The head of engine e's queue is done, and its reservations are released. -/
def popQueue (s : State) (e : Nat) : State :=
  let x := getEng s e
  setEng s e { x with queue := x.queue.drop 1, moves := 0, held := [], restarts := 0 }

/-- Engine e has done with a bulk record, and its reservations are released. -/
def dropRecordOf (s : State) (e : Nat) : State := setEng s e { getEng s e with moves := 0, restarts := 0, record := none, held := [] }

/-! ## Repair writes (R88, R89) -/

/-- The answering copy still holds what the resolution read, its parity bits among it (R88). -/
def repairHolds (s : State) (t : Nat) (r : Repair) : Bool :=
  let e := getEntry s (tWidth s t) r.src r.slot r.half
  e.care == r.care && e.val == r.val && e.side.v == r.side.v && e.side.tag == r.side.tag && e.side.pc == r.side.pc && e.side.pv == r.side.pv &&
    (peek s (kSlot r.src r.slot r.half 0)).data == r.rword && (peek s (kSlot r.src r.slot r.half 1)).data == r.chk

/-- A repair waits at a frozen bank (R312). -/
def repairFrozen (s : State) (r : Repair) : Bool :=
  match bankTable s r.src with
  | some t => frozenAt s t r.src || frozenAt s t r.dst
  | none => false

/-- The first repair in engine e's repair queue that waits at no frozen bank is made, or dropped when the answering copy has changed
or either copy belongs to a gated change (R88). -/
def repairWrite (s : State) (e : Nat) : State :=
  match (sget [] s.tcam.repairs e).find? (fun r => !repairFrozen s r) with
  | none => s
  | some r =>
    let s := { s with tcam := { s.tcam with repairs := smod [] s.tcam.repairs e (fun l => l.erase r) } }
    match bankTable s r.src with
    | none => s
    | some t =>
      let w := tWidth s t
      let free := decide ((getEntry s w r.src r.slot r.half).side.g = 0) && decide ((getEntry s w r.dst r.slot r.half).side.g = 0)
      if repairHolds s t r && free then
        let s := copyEntry s t r.src r.dst r.slot r.half
        if r.scrub then countI s 12 else s
      else s

/-- The repairs that wait at engine e, which go before a partner's table command (R89). -/
def serveRepairs (s : State) (e : Nat) : State := iter (sget [] s.tcam.repairs e).length (fun s => repairWrite s e) s

/-! ## Reservations (R158, R228, R321)

A reservation is one number, so that the global order of R321 is the order of the numbers: index rows by table and row,
then banks. A command that completes in one step takes and releases its reservations within it; one that waits keeps them in
its engine's held. -/

def resRow (t r : Nat) : Nat := t * 2 ^ 32 + r
def resBank (b : Nat) : Nat := 2 ^ 40 + b

/-- An engine other than e holds a reservation. -/
def resTaken (s : State) (e r : Nat) : Bool := s.update.eng.any (fun x => decide (x.1 ≠ e) && x.2.held.contains r)

/-- Engine e holds a reservation that ranks above one it needs and does not hold: it must start again (R321). -/
def mustRestart (x : Engine) (need : List Nat) : Bool :=
  need.any (fun r => !x.held.contains r && x.held.any (fun h => decide (r < h)))

/-- Every bank of the partitions that an entry intersects, its twins and its replicas (R158). -/
def resBanks (s : State) (t : Nat) (ds : List Nat) : List Nat :=
  (ds.flatMap (fun d => (List.range (dSpan (dirEntry s d))).flatMap (fun j => copyBanks s t d j))).map resBank

/-- The linked row of a result word as a reservation (R228). -/
def resLink (s : State) (t : Nat) (res : Word) : List Nat := ((linkRow s t res).map (resRow (lkTable (tLink s t)))).toList

/-- The reservations of a command on one entry: the rows that its old and new result words count in, then its banks. -/
def entryNeed (s : State) (c : TCmd) : List Nat :=
  let t := cTable c
  let ls := placesOf s t (cMask s c) (cKey s c) (cPlen c)
  let old := ls.flatMap (fun l => resLink s t (peek s (kSlot (primaryBank s l) l.r l.h 0)).data)
  sortNat ((if cOpc c = 1 ∨ cOpc c = 4 ∨ cOpc c = 0x58 then resLink s t (cRes c) else []) ++ old ++ resBanks s t (dirsFor s t (cMask s c) (cKey s c)))

/-- The reservation of a command on one index row. -/
def rowNeed (_ : State) (c : TCmd) : List Nat := [resRow (cTable c) (cRow c)]

/-- A command that writes no table row and no bank's entries. -/
def noNeed (_ : State) (_ : TCmd) : List Nat := []

/-- Where bank b stands in table t's directory: directory index and span position, whichever replica or twin. -/
def locateBank (s : State) (t b : Nat) : Option (Nat × Nat) :=
  ((s.marker.dirA.map (·.1)).filter (fun d => dValid (dirEntry s d) && decide (dTnum (dirEntry s d) = t))).findSome? (fun d =>
    ((List.range (dSpan (dirEntry s d))).find? (fun j => (copyBanks s t d j).contains b)).map (fun j => (d, j)))

/-- Every bank of a table. -/
def tableBanks (s : State) (t : Nat) : List Nat :=
  ((s.marker.dirA.map (·.1)).filter (fun d => dValid (dirEntry s d) && decide (dTnum (dirEntry s d) = t))).flatMap (fun d =>
    (List.range (dSpan (dirEntry s d))).flatMap (fun j => copyBanks s t d j))

/-- Every bank of the partitions that an entry intersects, its twins and its replicas. -/
def keyBanks (s : State) (t : Nat) (care val : BitVec 192) : List Nat :=
  (dirsFor s t care val).flatMap (fun d => (List.range (dSpan (dirEntry s d))).flatMap (fun j => copyBanks s t d j))

/-- The banks that a command on entries reads or writes: every copy of the partitions of its key, or the copies of the bank that
its address names; every bank of the table of an HSWEEP (R158, R312). -/
def touchedBanks (s : State) (c : TCmd) : List Nat :=
  let o := cOpc c
  let t := cTable c
  let keyed := keyBanks s t (cMask s c) (cKey s c)
  let named := match locateBank s t (cAddr c / 4096) with
    | some (d, j) => copyBanks s t d j
    | none => []
  if o = 1 ∨ o = 2 ∨ o = 3 ∨ o = 0x58 ∨ o = 0x59 then keyed
  else if o = 4 then (if cByKey c then keyed else keyed ++ named)
  else if o = 5 then (if cByKey c then keyed else named)
  else if o = 7 then tableBanks s t
  else []

/-- A command waits at a bank whose group is frozen, holding its reservations and no grant (R158, R312, R313). -/
def waitsFrozen (s : State) (c : TCmd) : Bool := decide (s.arbs.dfrz ≠ 0) && (touchedBanks s c).any (frozenAt s (cTable c))

/-- Bytes 5 to 7 of an answer (R146): the row for an index command, the PA for a lifecycle command other than OVL_PUT
and OVL_DROP, unless the command put a block or a refused entry there; else an entry address or 0. -/
def rspAddr (c : TCmd) (a : BitVec 24) : BitVec 24 :=
  let o := cOpc c
  if 0x10 ≤ o ∧ o ≤ 0x13 then BitVec.ofNat 24 (cRow c)
  else if 0x40 ≤ o ∧ o ≤ 0x51 ∧ a = 0 then BitVec.ofNat 24 (cPA c)
  else a

/-- Tag, opcode and address of the command go into its answer (R146). -/
def fill (c : TCmd) (r : TRsp) : TRsp := { r with ctag := cTag c, opc := BitVec.ofNat 8 (cOpc c), addr := rspAddr c r.addr }

/-- The engine has executed a command: it leaves the queue with a trace entry of its source (log entry 9), and is answered.
MOVES and CHAIN count the moves of its earlier steps too (R146). -/
def finishHead (s : State) (e : Nat) (c : TCmd) (moved : Nat) (r : Option TRsp) : State :=
  let s := trace (popQueue s e) (if cOpc c ≥ 0x40 then 1 else 0)
  match r with
  | some r => answer s c.via (fill c { r with moves := r.moves + BitVec.ofNat 5 moved, chain := r.chain || (decide (moved ≠ 0) && (cOpc c == 1 || cOpc c == 0x58)) })
  | none => s

/-- BUSY_RETRY of a command is counted on the table that it names; byte 4 of a lifecycle command names none (R191, R227). -/
def countBusy (s : State) (c : TCmd) : State := if cOpc c < 0x40 ∨ cOpc c = 0x58 ∨ cOpc c = 0x59 then countT s (cTable c) 8 1 else s

/-- The command at the head of engine e's queue waits and holds its reservations, up to the first that another engine holds. -/
def holdHead (s : State) (e moved restarts : Nat) (need : List Nat) : State :=
  setEng s e { getEng s e with moves := (getEng s e).moves + moved, restarts := restarts, held := need.takeWhile (fun r => !resTaken s e r) }

/-- A command that holds its reservations runs; where it must wait for gates that have drained, they are finalised first
(R82, R83). -/
def runHeld (s : State) (e : Nat) (c : TCmd) (restarts : Nat) (need : State → TCmd → List Nat) (f : State → TCmd → Ran) : State :=
  let go := fun (s : State) (x : Ran) => match x with
    | .wait => holdHead s e 0 restarts (need s c)
    | .stays s n => holdHead s e n restarts (need s c)
    | .ends s r => finishHead s e c (getEng s e).moves r
  match f s c with
  | .wait => match f (settleGates s) c with
    | .wait => go s .wait
    | x => go s x
  | x => go s x

/-- Engine e executes the command of this opcode at the head of its queue, and answers it; waiting repairs go before a
partner's (R89). A reservation that another engine holds makes it wait (R158); the fourth new start ends it BUSY_RETRY
(R321). It waits at a frozen bank (R312), and behind a bulk record that the engine has begun (R34). With no such command there,
nothing changes. -/
def runHead (s : State) (e opc : Nat) (need : State → TCmd → List Nat) (f : State → TCmd → Ran) : State :=
  match headCmd s e opc with
  | none => s
  | some c =>
    let s := if c.issuer < 8 then serveRepairs s e else s
    if (getEng s e).record.isSome then s
    else if waitsFrozen s c then holdHead s e 0 (getEng s e).restarts (need s c)
    else if s.update.eng.all (fun x => x.2.held.isEmpty) then runHeld s e c 0 need f
    else
      let x := getEng s e
      let ns := need s c
      let n := if mustRestart x ns then x.restarts + 1 else x.restarts
      if 4 ≤ n then finishHead (countBusy s c) e c x.moves (some (TRsp.of .busyRetry))
      else if ns.any (resTaken s e) then holdHead s e 0 n ns
      else runHeld s e c n need f

/-- Rules 1 to 3 of R148 for an entry command on a TCAM table: format and range, the command's own among them; permission;
lock. -/
def entryRefusal (s : State) (c : TCmd) (bad : Bool) (mayIssue : List Nat) (writes : Bool) : Option Status :=
  let t := cTable c
  firstStatus
    [(decide (tKind s t ≠ 1) || decide (cNeed s c ≠ some (cCont c)) || bad, .malformed),
     (decide (c.issuer ≠ tOwner s t) && !mayIssue.contains c.issuer, .notOwner),
     (writes && tProt s t && s.prot.locked, .locked)]

/-- Rules 1 to 3 for a command on an index table. The kinds of table that it may name are 2, an index table, and for a read
also 3, counters, and 4, an allocator, whose lists only allocation steps and lifecycle commands write (R176). -/
def indexRefusal (s : State) (c : TCmd) (bad : Bool) (mayIssue : List Nat) (writes : Bool) : Option Status :=
  let t := cTable c
  firstStatus
    [(!(tKind s t == 2 || (!writes && (tKind s t == 3 || tKind s t == 4))) || decide (cNeed s c ≠ some (cCont c)) || decide (tCap s t ≤ cRow c) || bad, .malformed),
     (decide (c.issuer ≠ tOwner s t) && !mayIssue.contains c.issuer, .notOwner),
     (writes && tProt s t && s.prot.locked, .locked)]

end Sys2Proof.Machine
end

