-- ==== Sys2Proof/Machine/CrewOps.lean ====
section
/-! DEFINITION. What the crew asks of a die: ranks and paths, relayed slots, crew messages, and what a lost cascade port does (R329 to R365). -/

namespace Sys2Proof.Machine

open Sys2Proof

/-! ## Ranks and paths (R329, R330, R358) -/

/-- The rank and the size of the crew, as the straps gave them (R329). -/
def rank (s : State) : Nat := s.power.crewRk.toNat
def crewSize (s : State) : Nat := s.power.crewSz.toNat + 1

/-- The cascade port that reaches a rank, and the rank that a cascade port reaches (R330). -/
def portTo (s : State) (r : Nat) : Nat := 7 + (rank s ^^^ r)
def rankAt (s : State) (p : Nat) : Nat := rank s ^^^ (p - 7)

def portActive (s : State) (p : Nat) : Bool := (getPort s p).st == pACTIVE

/-- The other ranks of the crew. -/
def otherRanks (s : State) : List Nat := (List.range (crewSize s)).filter (fun r => r ≠ rank s)

/-- A rank is reached directly: the port to it is ACTIVE (R358). -/
def direct (s : State) (r : Nat) : Bool := portActive s (portTo s r)

/-- Rank t reports an active link to rank r (R358). -/
def linkReported (s : State) (t r : Nat) : Bool := bit ((t ^^^ r) - 1) (sget 0 s.crew.links t)

/-- The lowest rank through which rank r is reached by relay, in a crew of 4 (R358). -/
def relayVia (s : State) (r : Nat) : Option Nat :=
  if crewSize s = 4 then
    (otherRanks s).find? (fun t => decide (t ≠ r) && direct s t && linkReported s t (rank s) && linkReported s t r)
  else none

/-- The cascade port by which a die sends to rank r: directly when it can, else through the lowest relay (R358). -/
def pathTo (s : State) (r : Nat) : Option Nat :=
  if direct s r then some (portTo s r) else (relayVia s r).map (portTo s)

/-- Rank r takes part in routing: it is reached and its CREW_READY has come (R351). -/
def reaches (s : State) (r : Nat) : Bool := (pathTo s r).isSome && bit r s.crew.readyFrom

/-! ## Slots that leave a cascade port, direct or relayed (R344, R358, R359) -/

/-- The credit code that a relaying die grants for a kind of slot (R344). -/
def relayCode (k : Nat) : Option Nat :=
  if k = cFWD then some 0xB else if k = cPROBE then some 0xC else if k = cNOTE then some 0xD else none

/-- A relayed flit of one slot (R259, R359): byte 3 of its header sets bit 2 and names the destination. -/
def relayFlit (x : Port) (dest : Nat) (m : Slot) : List Slot :=
  match mkFlit x false [m] with
  | h :: ms => (h ||| mkSlot [(24, dest), (26, 1)]) :: ms
  | [] => []

/-- A relayed slot has left: its relay credit is freed and the port counts it (R344, R363). -/
def relayLeft (s : State) (q : Nat) (m : Relay) : State :=
  match m.src with
  | none => s
  | some sp =>
    let s := countPort s q 3 1
    match relayCode (slotKind q m.slot) with
    | some c => freeCredit s sp c 1
    | none => s

/-- Slots of a cascade port leave as their credits allow, in order. A slot for the port's own rank spends a credit of its
own class; a slot for a rank behind it spends a relay credit (R344, R359). -/
def relaySlots (q : Nat) : List Relay → State → State
  | [], s => s
  | m :: ms, s =>
    let x := getPort s q
    let k := slotKind q m.slot
    let near := decide (m.dest = rankAt s q)
    let code := if near then creditOf k else relayCode k
    let c := code.getD 0
    let h := getHeld x c
    if needsCredit k && decide (h.avail = 0) then
      relaySlots q ms (setPort s q { x with relay := x.relay ++ [m] })
    else
      let x := if needsCredit k then setHeld x c { h with avail := h.avail - 1 } else x
      let out := if near && m.src.isNone then mkFlit x false [m.slot] else relayFlit x m.dest m.slot
      relaySlots q ms (relayLeft (setPort s q { x with tx := x.tx ++ [out] }) q m)

/-- Every slot that may leave cascade port q leaves. -/
def relayOut (s : State) (q : Nat) : State :=
  let x := getPort s q
  if linkUp x then relaySlots q x.relay (setPort s q { x with relay := [] }) else s

/-- The port to a rank retrains its link, which was active: what is to leave by it waits (R285, R331). -/
def retraining (s : State) (r : Nat) : Bool := (getPort s (portTo s r)).st == pRETRAIN && (getPort s (portTo s r)).hello

/-- The port that slots for a rank go to: its path, or with none the port to it while that port retrains. -/
def wayTo (s : State) (r : Nat) : Option Nat :=
  match pathTo s r with
  | some q => some q
  | none => if r < crewSize s ∧ r ≠ rank s ∧ retraining s r = true then some (portTo s r) else none

/-- Slots are sent to a rank; with no way nothing is sent. -/
def sendRank (s : State) (r : Nat) (ms : List Slot) : State :=
  match wayTo s r with
  | none => s
  | some q => relayOut (modPort s q (fun x => { x with relay := x.relay ++ ms.map (fun m => ⟨r, none, m⟩) })) q

/-- A slot for rank r leaves by cascade port q, which carries the tag that it answers or takes: directly, or by the relay behind the
port. It waits while that port retrains (R285, R331). -/
def sendBy (s : State) (q r : Nat) (ms : List Slot) : State :=
  if portActive s q || ((getPort s q).st == pRETRAIN && (getPort s q).hello) then
    relayOut (modPort s q (fun x => { x with relay := x.relay ++ ms.map (fun m => ⟨r, none, m⟩) })) q
  else s

/-! ## Crew messages (R343) -/

/-- FWD (R337, R343): two slots. -/
def fwdSlots (profile : Nat) (l0 nosample : Bool) (tag : Nat) (ver : BitVec 16) (origin : Nat) (key : BitVec 192) (cx : Word) : List Slot :=
  [mkSlot [(0, 1), (4, 0), (6, 1), (8, profile), (14, if l0 then 1 else 0), (15, if nosample then 1 else 0), (16, tag), (32, ver.toNat), (48, origin)] ||| ((key.setWidth 256) <<< 64),
   mkSlot [(0, 1), (4, 0), (16, tag), (64, cx.toNat)]]

/-- PROBE (R341, R343). -/
def probeSlot (table tag origin : Nat) (key : BitVec 192) : Slot :=
  mkSlot [(0, 1), (4, 1), (8, table), (16, tag), (32, origin)] ||| ((key.setWidth 256) <<< 64)

/-- FANS: status, step-hit mask, flags and result words (R343). -/
def fansSlot (st : Status) (hits : BitVec 4) (tag : Nat) (flags : Nat) (w0 w1 w2 : Word) : Slot :=
  mkSlot [(0, 2), (4, 0), (8, statusNum st), (12, hits.toNat), (16, tag), (32, flags), (64, w0.toNat), (128, w1.toNat), (192, w2.toNat)]

/-- PANS: status, probe tag, and the winner (R343). -/
def pansSlot (st : Status) (tag : Nat) (w : Option Share) (rsv : Bool) : Slot :=
  match w with
  | some x => mkSlot [(0, 2), (4, 1), (8, statusNum st), (16, tag), (32, x.tag), (39, x.half), (40, x.addr), (64, x.rword.toNat), (128, if rsv then 1 else 0)]
  | none => mkSlot [(0, 2), (4, 1), (8, statusNum st), (16, tag), (128, if rsv then 1 else 0)]

/-- A status from its code; every other code stands for INTERNAL (R20, R343). -/
def statusOf (n : Nat) : Status :=
  match n with
  | 0 => .ok | 1 => .miss | 2 => .deny | 3 => .poison | 4 => .noRoom | 5 => .recentlyHit | 6 => .notOwner | 7 => .locked
  | 8 => .exhausted | 9 => .stillReferenced | 10 => .staleVersion | 11 => .late | 12 => .busyRetry | 13 => .malformed
  | _ => .internal

/-- A search response (R266, R125). -/
def srspSlot (st : Status) (hits : BitVec 4) (tag client : Nat) (ver : BitVec 16) (flags : Nat) (w0 w1 w2 : Word) : Slot :=
  mkSlot [(0, cSRSP), (8, statusNum st), (12, hits.toNat), (16, tag), (32, client), (40, ver.toNat), (56, flags), (64, w0.toNat), (128, w1.toNat), (192, w2.toNat)]

/-! ## Outcomes of a lookup step that shares answer (R105, R341) -/

/-- A step with every outcome word zero and nothing run. -/
def StepRun.blank : StepRun where
  ph := .idle
  hit := false
  o0 := 0
  o1 := 0
  o2 := 0
  o3 := 0
  snap := 0
  seq := 0
  dir := 0
  banks := []
  await := []
  unsent := []
  shares := []
  fail := none

/-- The status that ends a step, when two apply: POISON takes precedence among the answers of shares (R341). -/
def worse (a : Option Status) (b : Status) : Option Status := if a = some .poison then a else some b

/-- Share a is chosen before share b: larger TAG, lower rank, lower entry address (R341). -/
def shareBefore (a b : Share) : Bool :=
  decide (b.tag < a.tag) || (decide (a.tag = b.tag) && (decide (a.rank < b.rank) || (decide (a.rank = b.rank) && decide (a.addr ≤ b.addr))))

/-- The winner among the shares of a step (R341). -/
def bestShare : List Share → Option Share
  | [] => none
  | x :: xs =>
    match bestShare xs with
    | some y => if shareBefore x y then some x else some y
    | none => some x

/-- A step whose shares have all answered ends with its outcome words (R105, R341). A ROUTE step gives word 0 only. -/
def settle (route broadcast : Bool) (x : StepRun) : StepRun :=
  if x.ph = .remote ∧ x.await = [] then
    match x.fail, bestShare x.shares with
    | some _, _ => { x with ph := .ended }
    | none, some w =>
      let o1 : Word := bput 64 0 w.addr ||| bput 64 24 w.half ||| bput 64 25 w.tag ||| bput 64 32 (if broadcast then w.rank else 0)
      { x with ph := .ended, hit := true, o0 := w.rword, o1 := if route then 0 else o1 }
    | none, none => { x with ph := .ended }
  else x

/-- Element i of a list is changed. -/
def modAt {α : Type} (f : α → α) : List α → Nat → List α
  | [], _ => []
  | x :: xs, 0 => f x :: xs
  | x :: xs, i + 1 => x :: modAt f xs i

/-- A token is changed, if it is there. -/
def modTok (s : State) (t : Nat) (f : Token → Token) : State :=
  match getTok s t with
  | some x => setTok s t (some (f x))
  | none => s

/-- A rank's share of a broadcast step answers (R341). -/
def shareAnswers (s : State) (tok step r : Nat) (st : Status) (w : Option Share) (rsv : Bool) : State :=
  modTok s tok (fun tk =>
    { tk with rsv := tk.rsv || rsv,
              steps := modAt (fun (x : StepRun) =>
                settle false true { x with await := x.await.filter (fun k => k ≠ r), shares := x.shares ++ w.toList,
                                           fail := if st = .ok ∨ st = .miss then x.fail else worse x.fail st }) tk.steps step })

/-- The step-hit mask (R111). -/
def hitMask (tk : Token) : BitVec 4 :=
  (List.range 4).foldl (fun (m : BitVec 4) i => if ((tk.steps[i]?).getD .blank).hit then m ||| (1 <<< i) else m) 0

/-- The slots of this die's FWD with a tag still wait to leave port q. -/
def fwdWaits (x : Port) (q tag : Nat) : Bool := x.relay.any (fun m => m.src.isNone && decide (slotKind q m.slot = cFWD) && decide (bn 16 11 m.slot = tag))

/-- A forwarded search is answered INTERNAL by the loss of its port (R361), with the hits of the steps that ran here (R111). FWD is
set when the forward had left, since the peer then may have run the search (R125; log entry 128). -/
def awayFails (s : State) (tok : Nat) (sent : Bool) : State :=
  modTok s tok (fun tk =>
    if tk.ph = .away then { tk with ph := .resolved, st := .internal, hits := hitMask tk, w0 := 0, w1 := 0, w2 := 0, away := none, fwdFlag := sent } else tk)

/-- A cascade port leaves ACTIVE: every FWD and PROBE outstanding on it, direct or relayed, counts as answered INTERNAL,
and its tags are free (R347, R361). -/
def cascadeDown (s : State) (p : Nat) : State :=
  if isCascade p then
    let x := getPort s p
    let s := setPort s p { x with fwdTags := [], probeTags := [], relay := [] }
    let s := x.fwdTags.foldl (fun s e => awayFails s e.2 (!fwdWaits x p e.1)) s
    let s := x.probeTags.foldl (fun s e => shareAnswers s e.2.1 (e.2.2 / 4) (e.2.2 % 4) .internal none false) s
    x.relay.foldl (fun s m => match m.src, relayCode (slotKind p m.slot) with | some sp, some c => freeCredit s sp c 1 | _, _ => s) s
  else s

/-- A rank that no way reaches any more leaves routing until its CREW_READY comes again (R351). -/
def dropUnreached (s : State) : State :=
  { s with crew := { s.crew with readyFrom := (List.range 4).foldl (fun m r => if (wayTo s r).isNone then bset r 1 m 0 else m) s.crew.readyFrom } }

/-- The lowest tag below 2,048 that is free. -/
def freeTag (used : List Nat) : Option Nat := (List.range 2048).find? (fun t => !used.contains t)

end Sys2Proof.Machine
end

