-- ==== Sys2Proof/Machine/Profiles.lean ====
section
/-! DEFINITION. Profile slots, field references, the field map, step descriptors and the composer (R99 to R129). -/

namespace Sys2Proof.Machine

open Sys2Proof

/-! ## Profile buffers (R99) -/

/-- The 34 words of buffer f of slot n. -/
def profKeys (n f : Nat) : List Nat := (List.range 34).map (kProf n f)
def profWord (s : State) (n f i : Nat) : Word := (peek s (kProf n f i)).data
/-- A word of the buffer is uncorrectable (R371). -/
def profBad (s : State) (n f : Nat) : Bool := (profKeys n f).any (fun k => (peek s k).bad)
/-- The 128 bits from word i. -/
def prof128 (s : State) (n f i : Nat) : BitVec 128 := profWord s n f (i + 1) ++ profWord s n f i

def activeBuf (s : State) (n : Nat) : Nat := sget 0 s.search.active n

/-- Header fields. -/
def header (s : State) (n f : Nat) : BitVec 128 := prof128 s n f 0
def hEn (h : BitVec 128) : Bool := bit 6 h
def hHen (h : BitVec 128) : Bool := bit 7 h
def hNstep (h : BitVec 128) : Nat := bn 8 3 h
def hNops (h : BitVec 128) : Nat := bn 11 4 h
def hVer (h : BitVec 128) : BitVec 16 := bf 16 16 h
def hPorts (h : BitVec 128) : BitVec 8 := bf 32 8 h
def hAdvpos (h : BitVec 128) : Nat := bn 40 7 h
def hHfld (h : BitVec 128) : BitVec 17 := bf 48 17 h

/-- Field map entry e, step descriptor d, composer operation o. -/
def mapEntry (s : State) (n f e : Nat) : Word := profWord s n f (2 + e)
def stepDesc (s : State) (n f d : Nat) : BitVec 128 := prof128 s n f (10 + 2 * d)
def compOp (s : State) (n f o : Nat) : BitVec 128 := prof128 s n f (18 + 2 * o)

/-! ## Field references (R100, R101) -/

def frReg (r : BitVec 17) : Nat := bn 0 5 r
def frLsb (r : BitVec 17) : Nat := bn 5 6 r
def frW (r : BitVec 17) : Nat := bn 11 6 r + 1

/-- The value of a field reference over a register file (R100). -/
def frVal (rf : Nat → Word) (r : BitVec 17) : Nat :=
  if frReg r = 27 then frLsb r else if frReg r = 31 then 0 else bn (frLsb r) (frW r) (rf (frReg r))

/-! ## The field map (R102) -/

/-- One entry of a field map over a request key and CX: the two keys after it. -/
def applyMap (e : Word) (key : BitVec 192) (cx : Word) (lk : BitVec 192 × BitVec 192) : BitVec 192 × BitVec 192 :=
  let src := bn 0 2 e
  let slsb := bn 4 8 e
  let dlsb := bn 12 8 e
  let w := bn 20 7 e + 1
  let v := if src = 0 then bn slsb w key else if src = 1 then bn slsb w cx else bn 32 32 e % 2 ^ w
  if src = 3 then lk
  else if bit 2 e then (lk.1, bset dlsb w lk.2 v)
  else (bset dlsb w lk.1 v, lk.2)

/-- LK0 and LK1 of a buffer (R102). -/
def fieldMap (s : State) (n f : Nat) (key : BitVec 192) (cx : Word) : BitVec 192 × BitVec 192 :=
  (List.range 8).foldl (fun lk e => applyMap (mapEntry s n f e) key cx lk) (0, 0)

/-- The route key: the route field map of the crew section, which builds LK0 (R333). -/
def routeKey (s : State) (key : BitVec 192) (cx : Word) : BitVec 192 :=
  ((List.range 8).foldl (fun lk e => applyMap (bf (64 * e) 64 s.str.routeMap) key cx lk) (0, 0)).1

/-! ## Step descriptors -/

def sKind (d : BitVec 128) : Nat := bn 0 3 d
def sLevel (d : BitVec 128) : Nat := bn 3 2 d
def sTable (d : BitVec 128) : Nat := bn 5 5 d
def sLksel (d : BitVec 128) : Bool := bit 10 d
def sCsense (d : BitVec 128) : Bool := bit 11 d
def sRow (d : BitVec 128) : BitVec 17 := bf 12 17 d
def sCond (d : BitVec 128) : BitVec 17 := bf 29 17 d
def sAtable (d : BitVec 128) : Nat := bn 46 5 d
def sArow (d : BitVec 128) : BitVec 17 := bf 51 17 d

/-- Step i's descriptor for a token: a probed token runs one MATCH on the table that its PROBE named (R341). -/
def tokDesc (s : State) (tk : Token) (i : Nat) : BitVec 128 :=
  match tk.kind with
  | .probed _ _ _ t => if i = 0 then bput 128 0 2 ||| bput 128 5 t else 0
  | _ => if i < hNstep (header s tk.profile tk.buf) then stepDesc s tk.profile tk.buf i else 0

/-- The key that a step compares. -/
def stepKey (s : State) (tk : Token) (i : Nat) : BitVec 192 := if sLksel (tokDesc s tk i) then tk.lk1 else tk.lk0

/-- Step i of a token. -/
def stepAt (tk : Token) (i : Nat) : StepRun := (tk.steps[i]?).getD .blank
def setStep (tk : Token) (i : Nat) (x : StepRun) : Token := { tk with steps := modAt (fun _ => x) tk.steps i }

/-- The operand registers that a step may read: outcomes, the request key and CX (R106). -/
def stepReg (tk : Token) (r : Nat) : Word :=
  if r < 16 then
    let x := stepAt tk (r / 4)
    (match r % 4 with | 0 => x.o0 | 1 => x.o1 | 2 => x.o2 | _ => x.o3)
  else if r < 19 then bf (64 * (r - 16)) 64 tk.key
  else if r = 19 then tk.cx
  else 0

/-- The condition of a step holds (R107, R108): COND is not zero, or with CSENSE zero. -/
def condHolds (tk : Token) (d : BitVec 128) : Bool :=
  if sCsense d then decide (frVal (stepReg tk) (sCond d) = 0) else decide (frVal (stepReg tk) (sCond d) ≠ 0)

/-! ## Composer tables (R119 to R121, R371) -/

/-- The value of a row word in a generation. -/
def genWord (s : State) (gen key : Nat) : Word := sget 0 (if gen = s.search.gen then s.search.cur else s.search.prev) key

/-- What composer c reads in its own copy: the generation's word with the error that the copy holds. -/
def compRead (s : State) (c gen t row w : Nat) : SecRead :=
  let e := cellInj s (kComp c (gen % 2) t row w)
  let v := secEnc (genWord s gen (rowKey s t row w))
  secDec ⟨v.data ^^^ e.data, v.chk ^^^ e.chk⟩

/-- The reports of such a read (R370, R371): an uncorrectable word is queued, and Waitos rewrites every copy in the next generation
(R399). -/
def compTouch (s : State) (c gen t row w : Nat) : State :=
  let r := compRead s c gen t row w
  let k := kComp c (gen % 2) t row w
  let s := consumeInj s k
  if r.bad then queueBad (countI (event s [qFW] 0x4003 (addrAt k).toNat r.syn.toNat) 1) (.word k)
  else if r.syn = 0 then s
  else countI (report s k r.syn) 0

/-! ## The composer (R116 to R118) -/

/-- The composer's own registers: W0 to W2, S0 to S3, the flags, the composed status, and whether a composer-table
entry was uncorrectable. -/
structure Comp where
  w0 : Word
  w1 : Word
  w2 : Word
  s0 : Word
  s1 : Word
  s2 : Word
  s3 : Word
  f : BitVec 4
  st : Status
  bad : Bool

/-- The composer at its start (R116). -/
def Comp.start : Comp where
  w0 := 0
  w1 := 0
  w2 := 0
  s0 := 0
  s1 := 0
  s2 := 0
  s3 := 0
  f := 0
  st := .ok
  bad := false

/-- Any operand register, in the composer. -/
def compReg (tk : Token) (c : Comp) (r : Nat) : Word :=
  match r with
  | 20 => c.s0 | 21 => c.s1 | 22 => c.s2 | 23 => c.s3 | 24 => c.w0 | 25 => c.w1 | 26 => c.w2
  | _ => stepReg tk r

/-- A destination field takes the low bits of a value (R101); REG 31 is none. -/
def compSet (c : Comp) (r : BitVec 17) (v : Nat) : Comp :=
  let put := fun (x : Word) => bset (frLsb r) (frW r) x v
  match frReg r with
  | 20 => { c with s0 := put c.s0 } | 21 => { c with s1 := put c.s1 } | 22 => { c with s2 := put c.s2 }
  | 23 => { c with s3 := put c.s3 } | 24 => { c with w0 := put c.w0 } | 25 => { c with w1 := put c.w1 }
  | 26 => { c with w2 := put c.w2 }
  | _ => c

/-- Flag i takes a value. -/
def compFlag (c : Comp) (i : Nat) (v : Bool) : Comp := { c with f := bset i 1 c.f (if v then 1 else 0) }

/-- A predicate holds: always, step hit, step not hit, flag 1, flag 0. -/
def predHolds (tk : Token) (c : Comp) (p : Nat) : Bool :=
  if p = 0 then true
  else if 4 ≤ p ∧ p < 8 then (stepAt tk (p - 4)).hit
  else if 8 ≤ p ∧ p < 12 then !(stepAt tk (p - 8)).hit
  else if 12 ≤ p ∧ p < 16 then bit (p - 12) c.f
  else if 16 ≤ p ∧ p < 20 then !bit (p - 16) c.f
  else false

/-- The relation of CMPC (R117). -/
def relHolds (m a b : Nat) : Bool :=
  match m with
  | 0 => decide (a < b) | 1 => decide (a ≤ b) | 2 => decide (a = b) | 3 => decide (a ≠ b) | 4 => decide (b ≤ a) | 5 => decide (b < a)
  | _ => false

/-- The words of entry i of composer table t in a composer's copy, low word first: two of a 128-bit entry (R119). -/
def tableEntry (s : State) (eng gen t i : Nat) : List SecRead :=
  (List.range (rowWords s t)).map (fun w => compRead s eng gen t i w)

/-- The value of an entry's words. -/
def entryVal (ws : List SecRead) : Nat := ws.foldr (fun r n => r.data.toNat + 2 ^ 64 * n) 0

/-- The reports of the reads of entry i. -/
def entryTouch (s : State) (eng gen t i : Nat) : State :=
  (List.range (rowWords s t)).foldl (fun s w => compTouch s eng gen t i w) s

/-- LOOK (R117): the composer after it, and the state with the reports of its reads. IMM[8] takes the upper half of a 128-bit
entry only; MODE 2 counts entries of the table, by their whole value. -/
def lookOp (s : State) (tk : Token) (c : Comp) (op : BitVec 128) (a b : Nat) : Comp × State :=
  let t := bn 14 5 op
  let mode := bn 11 3 op
  let imm := bn 70 32 op
  let fd := bn 9 2 op
  let dst := bf 19 17 op
  if mode = 2 then
    let rs := (List.range (min (imm % 256) (tCap s t))).map (fun i => (i, tableEntry s tk.eng tk.gen t i))
    let n := (rs.filter (fun r => decide (entryVal r.2 ≤ a))).length
    let s := rs.foldl (fun s r => entryTouch s tk.eng tk.gen t r.1) s
    (compFlag { compSet c dst n with bad := c.bad || rs.any (fun r => r.2.any (fun x => x.bad)) } fd false, s)
  else
    let i := if mode = 0 then a else a * (imm % 256) + b
    if tCap s t ≤ i then (compFlag c fd true, s)
    else
      let w := if imm / 256 % 2 = 1 ∧ 64 < tRowW s t then 1 else 0
      let r := compRead s tk.eng tk.gen t i w
      (compFlag { compSet c dst r.data.toNat with bad := c.bad || r.bad } fd false, compTouch s tk.eng tk.gen t i w)

/-- One composer operation (R117). SEL whose B is a constant of 16 to 63 names no bit of IMM[15:0]: it is not refused and selects a 0
(DESIGN CHOICE, log entry 129). -/
def compStep (tk : Token) (cs : Comp × State) (op : BitVec 128) : Comp × State :=
  let (c, s) := cs
  let ra := bf 36 17 op
  let rb := bf 53 17 op
  let a := frVal (compReg tk c) ra
  let b := frVal (compReg tk c) rb
  let imm := bn 70 32 op
  let dst := bf 19 17 op
  let fd := bn 9 2 op
  let mode := bn 11 3 op
  if !predHolds tk c (bn 4 5 op) then (c, s)
  else
    match bn 0 4 op with
    | 1 => (compSet c dst a, s)
    | 2 =>
      let v := decide (b < 16) && bit b (BitVec.ofNat 16 imm)
      let c := compFlag c fd v
      (if v then compSet c dst a else c, s)
    | 3 =>
      let v := relHolds mode a b
      let c := compFlag c fd v
      (if v then compSet c dst imm else c, s)
    | 4 => lookOp s tk c op a b
    | 5 =>
      let r := a % (imm % 256)
      let c := compSet c dst r
      (if frReg rb = 31 then c else compSet c (bf 8 17 (BitVec.ofNat 32 imm)) (if r ≤ b then b + 1 else b), s)
    | 6 => (compSet c dst (if mode = 0 then a + b + imm else ((BitVec.ofNat 64 a) - (BitVec.ofNat 64 b) + (BitVec.ofNat 64 imm)).toNat), s)
    | 7 => (compSet c dst (a * (imm % 65536) + b), s)
    | 8 => (if c.st = .ok then { c with st := statusOf (imm % 16) } else c, s)
    | _ => (c, s)

/-- The composer runs its operations in order, once each (R116). -/
def compose (s : State) (tk : Token) : Comp × State :=
  (List.range (hNops (header s tk.profile tk.buf))).foldl (fun cs o => compStep tk cs (compOp s tk.profile tk.buf o)) (Comp.start, s)

end Sys2Proof.Machine
end

