-- ==== Sys2Proof/Machine/SearchOps.lean ====
section
/-! DEFINITION. The marker's part of a search, the banks' answers and their resolution, and the issue of a level (R57 to R90, R105 to R115). -/

namespace Sys2Proof.Machine

open Sys2Proof

/-! ## The marker (R70 to R74, R110) -/

/-- Requests of the classes other than searches at a bank's arbiter, whose number is its site's, each counted once, and the
holder of such a class (R71, R299). -/
def arbWaiting (s : State) (b : Nat) : Nat :=
  let a := getArb s (siteOf s b)
  (List.range 5).foldl (fun n i => n + (sget ArbClass.reset a.classes (11 + i)).waits.length + (if a.holder = some (11 + i) then 1 else 0)) 0

/-- How many requests stand at a bank: steps issued to it and not answered, those that still read back or reprobe there among
them, one request each, and those of the other classes (R71). -/
def bankWaiting (s : State) (b : Nat) : Nat :=
  s.search.tokens.foldl (fun n e => match e.2 with
    | some tk => n + (tk.steps.filter (fun x => x.banks.any (fun k => k.bank == b && (decide (x.ph = .issued) || (decide (x.ph = .disagree) && k.resolve))))).length
    | none => n) (arbWaiting s b)

/-- The replica with the fewest requests at its first span bank, a tie going to the lowest index (R71). -/
def leastWaiting (s : State) (x : BitVec 80) : Nat :=
  ((List.range (dRepl x)).foldl (fun (best : Option (Nat × Nat)) i =>
    let w := bankWaiting s (listAt s (dList x + i * dSpan x))
    match best with
    | none => some (i, w)
    | some (j, v) => if w < v then some (i, w) else some (j, v)) none |>.map (·.1)).getD 0

/-- The replica that a MATCH step takes, and the rotation after it (R71). -/
def pickReplica (s : State) (d : Nat) : Nat × State :=
  let x := dirEntry s d
  if dSel x then (leastWaiting s x, s)
  else
    let i := sget 0 s.marker.rot d % dRepl x
    (i, { s with marker := { s.marker with rot := sput 0 s.marker.rot d ((i + 1) % dRepl x) } })

/-- The two copies of directory entry d are compared (R73): the entry's one good copy rewrites the other and the event is
counted; two copies that differ with equal parity end the step, and Waitos rewrites the entry from its record (REDERIVE;
log entry 101). -/
def dirCheck (s : State) (t d : Nat) : Bool × State :=
  if sget 0 s.marker.dirA d = sget 0 s.marker.dirB d then (true, s)
  else
    match dirInForce s d with
    | some x =>
      (true, { s with marker := { s.marker with dirA := sput 0 s.marker.dirA d x, dirB := sput 0 s.marker.dirB d x, dirFixed := s.marker.dirFixed + 1 } })
    | none => (false, queueBad (event s [qFW] 0xE007 (t + 65536 * d) 0) (.dir d))

/-- The count of MATCH steps of a directory entry, saturating (R74). -/
def countMatch (s : State) (d : Nat) : State :=
  { s with marker := { s.marker with count := smod 0 s.marker.count d satInc } }

/-- A bank of an issued step. The sites are filled in when the step is issued (R98). -/
def probeBankOf (s : State) (t b : Nat) : ProbeBank where
  bank := b
  site := 0
  odd := 0
  twin := if tPaired s t then some (twinOf b, 0, 0) else none
  a := none
  b := none
  resolve := false
  out := none

/-- The marker resolves the directory entry and the replica of one MATCH step (R110): no entry, no bank (R70). -/
def markerLookup (s : State) (t : Nat) (key : BitVec 192) : StepRun × State :=
  match dirLookup s t key with
  | none => (.blank, s)
  | some d =>
    let (ok, s) := dirCheck s t d
    if !ok then ({ StepRun.blank with dir := d, fail := some .internal }, s)
    else
      let (i, s) := pickReplica s d
      let s := countMatch s d
      ({ StepRun.blank with dir := d, banks := (replicaBanks s (dirEntry s d) i).map (probeBankOf s t) }, s)

/-- A table whose steps are broadcast in the crew (R341, R484): CREW code 1. -/
def isBroadcast (s : State) (t : Nat) : Bool := decide (tCrew s t = 1) && decide (1 < crewSize s)

/-- The ranks that a key's share map entry names (R340). -/
def shareRanks (s : State) (t : Nat) (key : BitVec 192) : BitVec 4 :=
  let top := (partField s t key).toNat / 2 ^ (tPartW s t - 4)
  bf (4 * (top % 16)) 4 (sget 0 s.str.shareMaps t)

/-- A step searches this die's own share. -/
def localShare (s : State) (t : Nat) (key : BitVec 192) : Bool := !isBroadcast s t || bit (rank s) (shareRanks s t key)

/-- The marker's work for every MATCH, MATCH_IF and ROUTE step of a token (R110); a forwarded search evaluates no ROUTE
step (R115). -/
def markerAll (s : State) (tk : Token) : Token × State :=
  (List.range tk.steps.length).foldl (fun (ts : Token × State) i =>
    let d := tokDesc ts.2 ts.1 i
    let routes := match ts.1.kind with | .partner => true | _ => false
    if sKind d = 2 ∨ sKind d = 3 ∨ (sKind d = 4 ∧ routes = true) then
      if localShare ts.2 (sTable d) (stepKey ts.2 ts.1 i) then
        let (x, s) := markerLookup ts.2 (sTable d) (stepKey ts.2 ts.1 i)
        (setStep ts.1 i x, s)
      else ts
    else ts) (tk, s)

/-! ## Losing a path (R360) -/

/-- A search cannot reach a rank: counted on the port to it, and raised to the search's own port and FW. -/
def unreach (s : State) (eng r : Nat) : State :=
  event (countPort s (portTo s r) 7 1) (if eng < 8 then [eng, qFW] else [qFW]) 0x1006 r eng

/-! ## Issuing a level (R105, R107, R110, R341) -/

/-- The step ends INTERNAL at once: a rank that its share map names has no path (R360). -/
def probeFails (x : StepRun) : StepRun := { x with ph := .ended, banks := [], await := [], unsent := [], fail := some .internal }

/-- A PROBE is sent to rank r for a step, unless the step has ended for want of a path (R360). With no probe tag free the search
waits for one (R345): the rank stays unsent until PANS frees a tag, and the watchdog bounds the wait (R131). -/
def sendProbe (s : State) (tok i t : Nat) (key : BitVec 192) (eng : Nat) (x : StepRun) (r : Nat) : StepRun × State :=
  if x.ph = .ended then (x, s) else
  match (if reaches s r then pathTo s r else none) with
  | none => (probeFails x, unreach s eng r)
  | some q =>
    match freeTag ((getPort s q).probeTags.map (·.1)) with
    | none => ({ x with await := x.await ++ [r], unsent := x.unsent ++ [r] }, s)
    | some g =>
      let s := modPort s q (fun p => { p with probeTags := p.probeTags ++ [(g, tok, i * 4 + r)] })
      ({ x with await := x.await ++ [r] }, sendBy s q r [probeSlot t g (rank s) key])

/-- The probes of step i of a token that still wait for a tag are sent, as far as tags are free. -/
def retryProbes (s : State) (tok : Nat) (tk : Token) (i : Nat) : State :=
  let x := stepAt tk i
  let (y, s) := x.unsent.foldl (fun (ys : StepRun × State) r =>
    sendProbe ys.2 tok i (sTable (tokDesc s tk i)) (stepKey s tk i) tk.eng { ys.1 with await := ys.1.await.erase r } r) ({ x with unsent := [] }, s)
  modTok s tok (fun tk => setStep tk i (settle false true y))

/-- Every probe that waits for a tag is tried again: a probe tag may be free (R345). -/
def retryAll (s : State) : State :=
  s.search.tokens.foldl (fun s e => match e.2 with
    | some tk => ((List.range tk.steps.length).filter (fun i => !(stepAt tk i).unsent.isEmpty)).foldl (fun s i =>
        match getTok s e.1 with | some tk => retryProbes s e.1 tk i | none => s) s
    | none => s) s

/-- One step is issued: its snapshot is taken and its banks fixed, its condition decides whether it runs, and on a broadcast table
the other ranks are probed; where one of them has no path the step ends INTERNAL at once (R360). -/
def issueStep (s : State) (tok : Nat) (tk : Token) (i : Nat) : Token × State :=
  let d := tokDesc s tk i
  let x := stepAt tk i
  let key := stepKey s tk i
  let t := sTable d
  if sKind d = 1 then (setStep tk i { x with ph := .issued }, s)
  else if sKind d = 3 ∧ condHolds tk d = false then (setStep tk i { StepRun.blank with ph := .ended }, s)
  else if x.fail.isSome then (setStep tk i { x with ph := .ended }, s)
  else
    let sited := x.banks.map (fun b => { b with site := siteOf s b.bank, odd := siteOf s (b.bank + 1), twin := b.twin.map (fun y => (y.1, siteOf s y.1, siteOf s (y.1 + 1))) })
    let y := { x with ph := if sited.isEmpty then .remote else .issued, snap := openMask s, seq := s.marker.seq, banks := sited }
    let probed := match tk.kind with | .probed .. => true | _ => false
    let (y, s) :=
      if isBroadcast s t && !probed then
        let rs := (setBits (shareRanks s t key)).filter (fun r => decide (r ≠ rank s))
        match rs.find? (fun r => !(reaches s r && (pathTo s r).isSome)) with
        | some r => (probeFails y, unreach s tk.eng r)
        | none => rs.foldl (fun (ys : StepRun × State) r => sendProbe ys.2 tok i t key tk.eng ys.1 r) (y, s)
      else (y, s)
    (setStep tk i (settle (sKind d == 4) (isBroadcast s t) y), s)

/-- Every step of level n is issued together (R105). -/
def issueLevel (s : State) (tok n : Nat) : State :=
  match getTok s tok with
  | none => s
  | some tk =>
    let (tk, s) := (List.range tk.steps.length).foldl (fun (ts : Token × State) i =>
      let d := tokDesc ts.2 ts.1 i
      if sKind d ≠ 0 ∧ sLevel d = n then issueStep ts.2 tok ts.1 i else ts) ({ tk with level := n }, s)
    setTok s tok (some tk)

/-! ## What the banks answer (R60, R66, R86) -/

/-- One bank's search cycle at its snapshot's sites (R98): the lowest matching slot, whose H bit is set at the cycle's end (R66). -/
def searchCycle (s : State) (w b site site2 : Nat) (snap : BitVec 64) (key : BitVec 192) (mask : Option (Nat × Nat)) : Option Win × State :=
  match probe s w b site site2 snap key mask with
  | none => (none, s)
  | some x =>
    let e := entryAt s w site site2 x.slot x.half
    (some x, setEntryAt s w site site2 x.slot x.half { e with side := { e.side with h := true } })

/-- A winner with what its read-back and its result slot show (R57, R87). -/
structure Seen where
  bank : Nat
  site : Nat
  odd : Nat
  win : Win
  ok : Bool
  par : Bool
  bad : Bool
  res : Word
  chk : Word
  entry : Entry

/-- A winner is read back and validated with the TAG of the entry read back (R87); par tells whether its trits' parity is good. -/
def look (s : State) (t w : Nat) (key : BitVec 192) (b site site2 : Nat) (x : Win) : Seen :=
  let e := entryAt s w site site2 x.slot x.half
  let tag := e.side.tag.toNat
  let r := peek s (kSlot b x.slot x.half 0)
  let c := peek s (kSlot b x.slot x.half 1)
  { bank := b, site := site, odd := site2, win := { x with tag := tag }, par := parityOk e, bad := r.bad || c.bad, res := r.data, chk := c.data, entry := e,
    ok := !r.bad && !c.bad && validSlot s t c.data tag key }

/-- The reports of the reads of a winner's result slot (R370, R371). -/
def lookTouch (s : State) (x : Seen) : State :=
  touchQ (touchQ s (kSlot x.bank x.win.slot x.win.half 0)) (kSlot x.bank x.win.slot x.win.half 1)

/-- A validated winner as a share of this die. -/
def toShare (s : State) (x : Seen) : Share :=
  { tag := x.win.tag, rank := rank s, addr := x.bank * 4096 + x.win.slot, half := x.win.half, rword := x.res }

/-! ## Disagreements (R87, R88, R405, R409) -/

/-- DISAGTHR of the EVENTS section (R573). -/
def disagThr (s : State) : Nat := bn 80 8 s.str.events

/-- One disagreement is counted on a bank, in the period that device time stands in, whether or not EPOCH has come (R409); at the
threshold the bank signals Waitos for a self-test (R405). -/
def countDisag (s : State) (b : Nat) : State :=
  let s := newEpoch s
  let n := satInc (sget 0 s.tcam.disag b)
  let hit := decide (n.toNat = disagThr s) && decide (sget 0 s.tcam.disag b ≠ n) && !s.integ.selfTest.contains b
  let s := { s with tcam := { s.tcam with disag := sput 0 s.tcam.disag b n } }
  if hit then { s with integ := { s.integ with selfTest := s.integ.selfTest ++ [b] } } else s

/-- A repair write is issued to the update engine of the twin's octant (R89). -/
def issueRepair (s : State) (x : Seen) (dst : Nat) (scrub : Bool) : State :=
  let e := octantOf (siteOf s dst) % 8
  let r : Repair := { src := x.bank, dst := dst, slot := x.win.slot, half := x.win.half, care := x.entry.care, val := x.entry.val, side := x.entry.side, rword := x.res, chk := x.chk, scrub := scrub }
  { s with tcam := { s.tcam with repairs := smod [] s.tcam.repairs e (· ++ [r]) } }

/-- How one bank or twin pair resolves: no winner, POISON, or a validated winner. -/
inductive Resolved where
  | miss
  | poison
  | won (x : Share)
deriving DecidableEq, Repr

/-- A rejected entry is reported with the status that the bank resolved to, and its cause (R87, R564). -/
def rejectSeen (s : State) (t : Nat) (st : Status) (x : Seen) : State :=
  tcamReject s t x.bank x.win.slot x.win.half st (if x.par then 1 else 2)

/-- A winner on an unpaired table that failed validation (R90): one reprobe with the slot masked; the rejected entry is
reported and queued for re-derivation. -/
def resolveOne (s : State) (t w : Nat) (snap : BitVec 64) (key : BitVec 192) (x : Seen) : Resolved × State :=
  let (y, s) := searchCycle s w x.bank x.site x.odd snap key (some (x.win.slot, x.win.half))
  let z := y.map (look s t w key x.bank x.site x.odd)
  let s := match z with | some v => lookTouch s v | none => s
  let out := match z with | some v => if v.ok then Resolved.won (toShare s v) else .poison | none => .poison
  let st := match out with | .won _ => Status.ok | _ => .poison
  (out, queueBad (rejectSeen s t st x) (.entry x.bank x.win.slot x.win.half))

/-- Candidate a goes before b: TAG descending, then slot ascending (R87). -/
def seenBefore (w : Nat) (a b : Seen) : Bool :=
  decide (b.win.tag < a.win.tag) || (decide (a.win.tag = b.win.tag) && decide (slotPos w a.win.slot a.win.half ≤ slotPos w b.win.slot b.win.half))

/-- The first of the candidates. -/
def firstSeen (w : Nat) : List Seen → Option Seen
  | [] => none
  | x :: xs =>
    match firstSeen w xs with
    | some y => if seenBefore w x y then some x else some y
    | none => some x

/-- A twin's copy differs from the answer: another place, or other contents there, TAG and parity bits among them. H and G are
each copy's own. -/
def differs (a : Option Seen) (x : Seen) : Bool :=
  match a with
  | none => true
  | some y => decide (y.win.slot ≠ x.win.slot ∨ y.win.half ≠ x.win.half) || y.res != x.res || y.chk != x.chk || y.entry.care != x.entry.care || y.entry.val != x.entry.val ||
      y.entry.side.tag != x.entry.side.tag || y.entry.side.pc != x.entry.side.pc || y.entry.side.pv != x.entry.side.pv

/-- The resolution of a twin pair (R87). fa and fb are what the twins returned; reprobe reprobes one twin with one slot masked;
scrub marks the repairs that a scrub read issues, whose words it has reported itself. Two points are open and chosen (DESIGN
CHOICE, log entry 110): with no candidate W no disagreement is counted, since the last line of R87 counts against W; and the
POISON branch's further TCAM_REJECT names the rejected first winners again and the first reprobe's winner, one event each. -/
def resolvePair (s : State) (t w ba bb : Nat) (fa fb : Option Seen) (reprobe : State → Seen → Option Seen × State) (scrub : Bool) : Resolved × State :=
  let firsts := fa.toList ++ fb.toList
  let s := if scrub then s else firsts.foldl lookTouch s
  let good := fun (x : Seen) => x.ok && x.par
  let same := match fa, fb with | some x, some y => good x && good y && x.res == y.res && x.chk == y.chk | _, _ => false
  if firsts.any (fun x => x.bad) then (.poison, s)
  else if same then (match fa with | some x => (.won (toShare s x), s) | none => (.miss, s))
  else
    let bad := firsts.filter (fun x => !good x)
    let (again, s) := bad.foldl (fun (zs : List Seen × State) x =>
      let (y, s) := reprobe zs.2 x
      (zs.1 ++ y.toList, match y with | some v => if scrub then s else lookTouch s v | none => s)) ([], s)
    if again.any (fun x => x.bad) then (.poison, bad.foldl (fun s x => rejectSeen s t .poison x) s)
    else
      match firstSeen w ((firsts ++ again).filter good) with
      | none =>
        if again.isEmpty then (.miss, bad.foldl (fun s x => rejectSeen s t .miss x) s)
        else
          let s := (bad ++ again.take 1).foldl (fun s x => rejectSeen s t .poison x) s
          (.poison, bad.foldl (fun s x => queueBad s (.entry x.bank x.win.slot x.win.half)) s)
      | some x =>
        let s := bad.foldl (fun s y => rejectSeen s t .ok y) s
        let other := if x.bank = ba then bb else ba
        let s := issueRepair s x other scrub
        let s := if differs fa x then countDisag s ba else s
        let s := if differs fb x then countDisag s bb else s
        (.won (toShare s x), s)

/-! ## A MATCH step (R62, R86 to R90) -/

/-- One span bank or twin pair is searched: what each returned, whether it must be resolved, and its validated winner. -/
def searchBank (s : State) (t w : Nat) (snap : BitVec 64) (key : BitVec 192) (k : ProbeBank) : ProbeBank × Option Status × State :=
  let (wa, s) := searchCycle s w k.bank k.site k.odd snap key none
  match k.twin with
  | none =>
    match wa with
    | none => ({ k with a := none }, none, s)
    | some x =>
      let v := look s t w key k.bank k.site k.odd x
      let s := lookTouch s v
      if v.bad then ({ k with a := wa }, some .poison, s)
      else if v.ok then ({ k with a := wa, out := some (toShare s v) }, none, s)
      else ({ k with a := wa, resolve := true }, none, s)
  | some (b2, site2, odd2) =>
    let (wb, s) := searchCycle s w b2 site2 odd2 snap key none
    let k := { k with a := wa, b := wb }
    let agree := (wa.map (fun x => (x.slot, x.half))) == (wb.map (fun x => (x.slot, x.half)))
    if !agree then ({ k with resolve := true }, none, s)
    else
      match wa with
      | none => (k, none, s)
      | some x =>
        let v := look s t w key k.bank k.site k.odd x
        let s := lookTouch s v
        if v.bad then (k, some .poison, s)
        else if v.ok then ({ k with out := some (toShare s v) }, none, s)
        else ({ k with resolve := true }, none, s)

/-- The validated winner with the largest TAG, the earlier span bank on a tie (R62). -/
def spanBest : List ProbeBank → Option Share
  | [] => none
  | k :: ks =>
    match k.out, spanBest ks with
    | some x, some y => if y.tag ≤ x.tag then some x else some y
    | some x, none => some x
    | none, y => y

/-- A step whose banks have all been resolved waits for the other ranks, if any, and ends. -/
def stepDone (s : State) (d : BitVec 128) (x : StepRun) : StepRun :=
  let local_ := if x.fail.isSome then none else spanBest x.banks
  settle (sKind d == 4) (isBroadcast s (sTable d)) { x with ph := .remote, shares := x.shares ++ local_.toList }

/-- Every bank of an issued step is searched under its snapshot (R79, R86). -/
def searchStep (s : State) (d : BitVec 128) (key : BitVec 192) (x : StepRun) : StepRun × State :=
  let t := sTable d
  let w := tWidth s t
  let (ks, f, s) := x.banks.foldl (fun (acc : List ProbeBank × Option Status × State) k =>
    let (k, f, s) := searchBank acc.2.2 t w x.snap key k
    (acc.1 ++ [k], (match f with | some st => worse acc.2.1 st | none => acc.2.1), s)) ([], x.fail, s)
  let y := { x with banks := ks, fail := f }
  if ks.any (fun k => k.resolve) then ({ y with ph := .disagree }, s) else (stepDone s d y, s)

/-- One bank or twin pair that disagreed or failed validation is resolved (R87, R90). -/
def resolveBank (s : State) (t w : Nat) (snap : BitVec 64) (key : BitVec 192) (k : ProbeBank) : Resolved × State :=
  match k.twin with
  | none =>
    match k.a with
    | some x => resolveOne s t w snap key (look s t w key k.bank k.site k.odd x)
    | none => (.miss, s)
  | some (b2, site2, odd2) =>
    let fa := k.a.map (look s t w key k.bank k.site k.odd)
    let fb := k.b.map (look s t w key b2 site2 odd2)
    resolvePair s t w k.bank b2 fa fb (fun s x =>
      let (y, s) := searchCycle s w x.bank x.site x.odd snap key (some (x.win.slot, x.win.half))
      (y.map (look s t w key x.bank x.site x.odd), s)) false

/-- Every bank of a step that needs it is resolved; one bank that resolves to POISON ends the step POISON (R62). -/
def resolveStep (s : State) (d : BitVec 128) (key : BitVec 192) (x : StepRun) : StepRun × State :=
  let t := sTable d
  let w := tWidth s t
  let (ks, f, s) := x.banks.foldl (fun (acc : List ProbeBank × Option Status × State) k =>
    if k.resolve then
      let (r, s) := resolveBank acc.2.2 t w x.snap key k
      (acc.1 ++ [{ k with resolve := false, out := match r with | .won y => some y | _ => none }],
       (if r = .poison then some .poison else acc.2.1), s)
    else (acc.1 ++ [k], acc.2.1, acc.2.2)) ([], x.fail, s)
  (stepDone s d { x with banks := ks, fail := f }, s)

end Sys2Proof.Machine
end

