-- ==== Sys2Proof/Machine/SearchCmds.lean ====
section
/-! DEFINITION. The life of a search: admission, lookup steps, levels, resolution, the answer, the watchdog (R24 to R26, R105 to R138, R333 to R347). -/

namespace Sys2Proof.Machine

open Sys2Proof

/-! ## Fields of a search request (R265, R126) -/

def qOp (x : Slot) : Nat := bn 4 2 x
def qHead (x : Slot) : Nat := bn 6 2 x * 4 + bn 38 2 x
def qProfile (x : Slot) : Nat := bn 8 6 x
def qVchk (x : Slot) : Bool := bit 14 x
def qNosample (x : Slot) : Bool := bit 15 x
def qTag (x : Slot) : Nat := bn 16 12 x
def qClient (x : Slot) : Nat := bn 28 4 x * 4 + bn 32 2 x
def qSpace (x : Slot) : Nat := bn 34 4 x
def qQual (x : Slot) : Nat := bn 40 24 x
def qKey (x : Slot) : BitVec 192 := bf 64 192 x

/-- The search context word, fixed at admission. -/
def ctxWord (s : State) (p : Nat) (x : Slot) : Word :=
  bput 64 0 s.clock.epoch.toNat ||| bput 64 16 p ||| bput 64 19 (qClient x) ||| bput 64 25 (qSpace x) ||| bput 64 29 (qHead x) |||
    bput 64 33 (qQual x) ||| bput 64 57 (rank s)

/-- The voltage factor is below 1 (R125, R280, R296). -/
def lowV (s : State) : Bool := s.power.vfact != 0

/-- Searches are admitted: from ready until the ports stop, and after a 112 °C save no more (R44, R438, R442, R471). -/
def admitting (s : State) : Bool :=
  decide (s.boot.phase = .ready) && decide (s.holdup.ph ≠ 5) && (!s.therm.tripped || decide (s.holdup.ph = 1 ∨ s.holdup.ph = 2))

/-- Response flags of a token (R125). -/
def tokFlags (tk : Token) : Nat := (if tk.rsv then 1 else 0) + (if tk.fwdFlag then 2 else 0) + (if tk.lowv then 4 else 0)

/-! ## The heat sampler (R127, R209, R210, R338, R574) -/

/-- Counter index of sketch row r for a value: bits [20:0] of CRC-32C over its 8 bytes and r (R209). -/
def heatIndex (r v : Nat) : Nat := r * 2097152 + bn 0 21 (crc32c (bytesOfNat 8 v ++ [BitVec.ofNat 8 r]))

/-- The 16-bit counter at an index, four to a word. -/
def heatGet (s : State) (i : Nat) : Nat := bn (16 * (i % 4)) 16 (peek s (kIndex tHEAT (i / 4))).data

/-- A counter is incremented, saturating (R209). -/
def heatInc (s : State) (i : Nat) : State :=
  let v := heatGet s i
  rmw s (kIndex tHEAT (i / 4)) (bput 64 (16 * (i % 4)) 0xFFFF) (bput 64 (16 * (i % 4)) (if v = 0xFFFF then v else v + 1))

/-- The smallest of the line's three counters (R210). -/
def heatLine (s : State) (x : Nat) : Nat := min (heatGet s (heatIndex 0 x)) (min (heatGet s (heatIndex 1 x)) (heatGet s (heatIndex 2 x)))

/-- One sample of x (R209), which may raise HOT_LINE or HOT_BLOCK to the partner and FW (R574). -/
def heatSample (s : State) (eng x : Nat) : State :=
  let l0 := heatLine s x
  let b0 := heatGet s (heatIndex 3 (x / 65536))
  let s := heatInc (heatInc (heatInc (heatInc s (heatIndex 0 x)) (heatIndex 1 x)) (heatIndex 2 x)) (heatIndex 3 (x / 65536))
  let l1 := heatLine s x
  let b1 := heatGet s (heatIndex 3 (x / 65536))
  let line := bn 96 16 s.str.events
  let block := bn 112 16 s.str.events
  let who := if eng < 8 then [eng, qFW] else [qFW]
  let s := if l0 < line ∧ line ≤ l1 then event s who 0x2003 x (8 * l1) else s
  if b0 < block ∧ block ≤ b1 then event s who 0x2004 (x / 65536) (8 * b1) else s

/-- A resolved search that is eligible counts toward its engine's eighth, which is sampled (R127, R338). Counting it here and not at
its admission leaves out the searches that end LATE, and those that a peer runs and counts (log entry 53). An HFLD that names a
composer register, which no search holds when it is sampled, yields 0 (DESIGN CHOICE, log entry 53). -/
def heatCount (s : State) (tk : Token) : State :=
  let h := header s tk.profile tk.buf
  if hHen h && !tk.nosample then
    let n := (sget 0 s.search.sample tk.eng + 1) % 8
    let s := { s with search := { s.search with sample := sput 0 s.search.sample tk.eng n } }
    if n = 0 then heatSample s tk.eng (frVal (stepReg tk) (hHfld h)) else s
  else s

/-! ## Tokens -/

/-- A token without its request. -/
def Token.blank : Token where
  eng := 0
  kind := .partner
  incarn := 0
  tag := 0
  client := 0
  profile := 0
  buf := 0
  ver := 0
  gen := 0
  key := 0
  cx := 0
  lk0 := 0
  lk1 := 0
  level := 0
  steps := []
  resv := []
  rsv := false
  fwdFlag := false
  lowv := false
  ph := .running
  st := .ok
  hits := 0
  w0 := 0
  w1 := 0
  w2 := 0
  t0 := 0
  nosample := false
  away := none

/-- The tokens that an engine holds, of a sort. -/
def tokensOf (s : State) (eng : Nat) (p : Token → Bool) : Nat :=
  (s.search.tokens.filter (fun e => match e.2 with | some tk => decide (tk.eng = eng) && p tk | none => false)).length

def isProbed (tk : Token) : Bool := match tk.kind with | .probed .. => true | _ => false

/-- The inactive buffer of a slot that a search still holds; a PROBE holds none (R136). -/
def bufferHeld (s : State) (n : Nat) : Bool :=
  s.search.tokens.any (fun e => match e.2 with | some tk => decide (tk.profile = n ∧ tk.buf = 1 - activeBuf s n) && !isProbed tk | none => false)

/-- A token enters under the next number. -/
def addTok (s : State) (tk : Token) : Nat × State :=
  let n := s.search.next
  (n, setTok { s with search := { s.search with next := n + 1 } } n (some tk))

/-- The first level that has steps is issued; a profile without steps goes straight to its composer (R105). -/
def startLevels (s : State) (tok : Nat) (tk : Token) (first : Nat) : State :=
  let (tk, s) := markerAll s tk
  issueLevel (setTok s tok (some tk)) tok first

/-- The search is forwarded to rank r (R114, R333, R347). None: no forward tag is free, so it waits. -/
def forward (s : State) (tok : Nat) (tk : Token) (r : Nat) (l0 : Bool) : Option State :=
  match pathTo s r with
  | none => none
  | some q =>
    match freeTag ((getPort s q).fwdTags.map (·.1)) with
    | none => none
    | some g =>
      let s := setTok s tok (some { tk with ph := .away, away := some (g, q) })
      let s := modPort s q (fun x => { x with fwdTags := x.fwdTags ++ [(g, tok)] })
      some (sendBy s q r (fwdSlots tk.profile l0 tk.nosample g tk.ver (rank s) tk.key tk.cx))

/-- A token ends with a status found before its composer (R122 rules 4 to 6, R123). -/
def Token.endWith (tk : Token) (st : Status) : Token := { tk with ph := .resolved, st := st, w0 := 0, w1 := 0, w2 := 0 }

/-! ## Admission (R24, R25, R122, R333) -/

/-- The rank that owns a routed search: the route mirror's winner with the largest TAG, or none (R333). -/
def ownerRank (s : State) (key : BitVec 192) (cx : Word) : Option Nat :=
  let k : BitVec 96 := bf 0 96 (routeKey s key cx)
  (s.marker.mirror.foldl (fun (best : Option (Nat × Nat)) m =>
    if m.2.1 &&& (m.1 ^^^ k) = 0 then
      (match best with
       | some b => if b.1 < m.2.2.1 then some (m.2.2.1, m.2.2.2) else best
       | none => some (m.2.2.1, m.2.2.2))
    else best) none).map (·.2)

/-- The search leaves admission with an answer and no step run (R122 rules 2 and 3, R265, R371). Its tag is in flight until the
answer is sent (R24, R282). -/
def answerAtAdmission (s : State) (p : Nat) (x : Slot) (st : Status) (ver : BitVec 16) : State :=
  send (modPort s p (fun y => { y with tags := y.tags ++ [qTag x] })) p [srspSlot st 0 (qTag x) (qClient x) ver (if lowV s then 4 else 0) 0 0 0]

/-- The status that admission itself gives, if any, by the order of R122: rules 2 and 3 need the header's first word, where EN, PORTS
and VER stand, and a bad word elsewhere in the buffer comes after them (R371). -/
def admissionStatus (s : State) (p : Nat) (x : Slot) : Option Status :=
  let n := qProfile x
  let h := header s n (activeBuf s n)
  firstStatus
    [(decide (qOp x ≠ 0), .malformed), ((peek s (kProf n (activeBuf s n) 0)).bad, .internal),
     (!hEn h || !bit p (hPorts h), .malformed),
     (qVchk x && decide (qQual x % 65536 ≠ (hVer h).toNat), .staleVersion), (profBad s n (activeBuf s n), .internal)]

/-- The token of an admitted search. -/
def admitToken (s : State) (p : Nat) (x : Slot) : Token :=
  let n := qProfile x
  let f := activeBuf s n
  let cx := ctxWord s p x
  let lk := fieldMap s n f (qKey x) cx
  { Token.blank with eng := p, incarn := (getPort s p).incarn, tag := qTag x, client := qClient x, profile := n, buf := f,
                     ver := hVer (header s n f), gen := s.search.gen, key := qKey x, cx := cx, lk0 := lk.1, lk1 := lk.2,
                     steps := List.replicate 4 .blank, lowv := lowV s, t0 := now s, nosample := qNosample x }

/-- Both header words of slot n's active buffer read well: HEN and HFLD stand in them. -/
def headerRead (s : State) (n : Nat) : Bool := ((profKeys n (activeBuf s n)).take 2).all (fun k => !(peek s k).bad)

/-- The admitted search starts: here, or at the rank that owns it (R333); with no path it is answered INTERNAL (R360).
None: no forward tag is free. -/
def startSearch (s : State) (p tok : Nat) (tk : Token) : Option State :=
  let s0 := setTok s tok (some tk)
  let owner := if 1 < crewSize s ∧ bit tk.profile s.str.routed = true then ownerRank s tk.key tk.cx else none
  match owner with
  | none => some (startLevels s0 tok tk 0)
  | some r =>
    if r = rank s then some (startLevels s0 tok tk 0)
    else if !reaches s r then some (heatCount (setTok (unreach s0 p r) tok (some (tk.endWith .internal))) tk)
    else forward s0 tok tk r true

/-- SRCH (R24): the request at the head of port p's ingress is admitted, answered at admission, or discarded (R25). It
waits in ingress while the engine has no token free. -/
def admitSearch (s : State) (p : Nat) : State :=
  match ingressHead s p cSRCH with
  | none => s
  | some x =>
    if !admitting s then s
    else if (getPort s p).tags.contains (qTag x) then
      event (countPort (takeHead s p cSRCH) p 2 1) [p] 0x1001 p (qTag x)
    else if 8192 ≤ tokensOf s p (fun _ => true) then s
    else
      let s1 := countPort (takeHead s p cSRCH) p 0 1
      match admissionStatus s p x with
      | some st =>
        let n := qProfile x
        let s1 := if profBad s n (activeBuf s n) then (profKeys n (activeBuf s n)).foldl touchQ s1 else s1
        let s1 := if st = .internal ∧ headerRead s n = true then heatCount s1 (admitToken s p x) else s1
        answerAtAdmission s1 p x st (hVer (header s n (activeBuf s n)))
      | none =>
        let s1 := modPort s1 p (fun y => { y with tags := y.tags ++ [qTag x] })
        let s1 := (profKeys (qProfile x) (activeBuf s (qProfile x))).foldl touch s1
        let tk := admitToken s p x
        let (tok, s1) := addTok s1 tk
        (startSearch s1 p tok tk).getD s

def execSrch (p : Fin 8) (s : State) : Host.Outcome State Fault Refusal := .next (admitSearch s p.val)

/-! ## Lookup steps -/

/-- A ROUTE winner that names another rank forwards the search there for levels 1 to 3 (R114). None: it must wait. -/
def routeOn (s : State) (tok i : Nat) : Option State :=
  match getTok s tok with
  | none => some s
  | some tk =>
    let x := stepAt tk i
    let r := bn 0 2 x.o0
    let here := match tk.kind with | .partner => true | _ => false
    if sKind (tokDesc s tk i) = 4 ∧ x.ph = .ended ∧ x.hit = true ∧ x.fail = none ∧ here = true ∧ 1 < crewSize s ∧ r ≠ rank s then
      if !reaches s r then some (setTok (unreach s tk.eng r) tok (some (setStep tk i { x with fail := some .internal })))
      else forward s tok tk r false
    else some s

/-- A bank that a step probes stands in a frozen group; of a 192-trit table, its odd bank too (R312). -/
def frozenProbe (s : State) (w : Nat) (bs : List ProbeBank) : Bool :=
  bs.any (fun b => bankFrozen s b.site || (decide (w = 2) && bankFrozen s b.odd) ||
    (match b.twin with | some y => bankFrozen s y.2.1 || (decide (w = 2) && bankFrozen s y.2.2) | none => false))

/-- MATCH_STEP (R86): the banks of an issued step return their winners, or the step waits at a frozen bank (R312). -/
def matchStep (s : State) (tok i : Nat) : State :=
  match getTok s tok with
  | none => s
  | some tk =>
    let x := stepAt tk i
    let d := tokDesc s tk i
    if tk.ph ≠ .running ∨ x.ph ≠ .issued ∨ sKind d < 2 then s
    else if frozenProbe s (tWidth s (sTable d)) x.banks = true then s
    else
      let (y, s1) := searchStep s d (stepKey s tk i) x
      (routeOn (setTok s1 tok (some (setStep tk i y))) tok i).getD s

def execMatchStep (tok : Nat) (step : Fin 4) (s : State) : Host.Outcome State Fault Refusal := .next (matchStep s tok step.val)

/-- DISAGREEMENT_RESOLUTION (R87, R90): the step's banks that disagreed or failed validation are resolved; RSV is set. -/
def disagreement (s : State) (tok i : Nat) : State :=
  match getTok s tok with
  | none => s
  | some tk =>
    let x := stepAt tk i
    let d := tokDesc s tk i
    if tk.ph ≠ .running ∨ x.ph ≠ .disagree ∨ frozenProbe s (tWidth s (sTable d)) (x.banks.filter (·.resolve)) = true then s
    else
      let (y, s1) := resolveStep s d (stepKey s tk i) x
      (routeOn (setTok s1 tok (some { setStep tk i y with rsv := true })) tok i).getD s

/-- REPAIR_WRITE (R88): the repair at the head of engine e's repair queue is made or dropped. -/
def execRepairWrite (e : Fin 8) (s : State) : Host.Outcome State Fault Refusal := .next (repairWrite s e.val)

/-- The outcome words of an INDEX step (R108, R212): words beyond the row's width are zero. -/
def indexWords (s : State) (t row : Nat) (x : StepRun) : StepRun :=
  let v := rowVal s t row
  { x with ph := .ended, hit := true, o0 := bf 0 64 v, o1 := bf 64 64 v, o2 := bf 128 64 v, o3 := bf 192 64 v }

/-- A reference names a step outcome (R109). -/
def fromOutcome (r : BitVec 17) : Bool := decide (frReg r < 16)

/-- Reservations in flight of the searches of an engine: each may come to stand in its port's in-hand set (R113). -/
def reserving (s : State) (eng : Nat) : Nat :=
  s.search.tokens.foldl (fun n e => match e.2 with | some tk => if tk.eng = eng then n + tk.resv.length else n | none => n) 0

/-- An allocation (R112, R221, R234): the head of the named list is reserved, while the port's in-hand set has room for it beside
the reservations in flight (R233). alt says that the alternate condition held. A search that ROUTE forwarded allocates at the peer
under its cascade engine's number, 8 to 10, as if that were the port (DESIGN CHOICE, log entry 111). -/
def allocate (s : State) (tk : Token) (d : BitVec 128) (list : Nat) (alt : Bool) (x : StepRun) : StepRun × List Resv × State :=
  if list = 17 ∧ alt = true then
    ({ x with ph := .ended, o0 := (stepAt tk (frReg (sCond d) / 4)).o0 }, [], s)
  else if 1024 ≤ (sget [] s.life.inhand tk.eng).length + reserving s tk.eng then
    ({ x with ph := .ended, fail := some .malformed }, [], event s [tk.eng] 0x1007 tk.eng 0)
  else
    match sget [] s.life.lists list with
    | [] => ({ x with ph := .ended }, [], s)
    | pa :: rest =>
      ({ x with ph := .ended, hit := true, o0 := bput 64 0 pa ||| bput 64 24 list ||| bput 64 63 1 }, [⟨list, pa⟩],
       { s with life := { s.life with lists := sput [] s.life.lists list rest } })

/-- INDEX_STEP (R108, R109, R112): the step reads its row, or that of the alternate table, or allocates. The end of an allocator
table is its capacity, descriptor bytes 8 to 11, as of every other table; the list count of R484 is not consulted (DESIGN CHOICE,
log entry 112). -/
def indexStep (s : State) (tok i : Nat) : State :=
  match getTok s tok with
  | none => s
  | some tk =>
    let x := stepAt tk i
    let d := tokDesc s tk i
    if tk.ph ≠ .running ∨ x.ph ≠ .issued ∨ sKind d ≠ 1 then s
    else
      let alt := decide (frReg (sCond d) ≠ 31) && condHolds tk d
      let t := if alt then sAtable d else sTable d
      let ref := if alt then sArow d else sRow d
      let row := frVal (stepReg tk) ref
      if tCap s t ≤ row then
        let out := fromOutcome ref
        let s := if out then event s [qFW] 0x2009 (tk.profile + 256 * t) row else s
        setTok s tok (some (setStep tk i { x with ph := .ended, fail := some (if out then .internal else .malformed) }))
      else if tKind s t = 4 then
        let (y, rs, s) := allocate s tk d row alt x
        setTok s tok (some { setStep tk i y with resv := tk.resv ++ rs })
      else if rowBad s t row then
        setTok ((rowKeys s t row).foldl touchQ s) tok (some (setStep tk i { x with ph := .ended, fail := some .poison }))
      else setTok (touchAll s (rowKeys s t row)) tok (some (setStep tk i (indexWords s t row x)))

def execIndexStep (tok : Nat) (step : Fin 4) (s : State) : Host.Outcome State Fault Refusal := .next (indexStep s tok step.val)

/-! ## Levels and resolution (R105, R113, R122 to R124, R253) -/

/-- Reserved blocks go back to the heads of their lists, the last taken first (R113). -/
def returnResv (s : State) (rs : List Resv) : State :=
  rs.foldr (fun r s => { s with life := { s.life with lists := smod [] s.life.lists r.list (fun l => r.block :: l) } }) s

/-- The reservations of a resolved search commit (R113): their records enter the journal buffer and the blocks enter the
port's in-hand set; an allocation from the reserve makes its refill due (R211). -/
def commitResv (s : State) (eng : Nat) (rs : List Resv) : State :=
  let s := (jCommit s (rs.map (fun r => JRec.alloc r.list r.block eng)) true).2
  let s := { s with life := { s.life with inhand := smod [] s.life.inhand eng (· ++ rs.map (fun r => (r.block, r.list))),
                                          refillDue := s.life.refillDue || rs.any (fun r => decide (r.list = 16)) } }
  s

/-- The status by rules 4 and 5 of R122 among the steps of a level: rule 4 before rule 5, in step order. -/
def levelFail (xs : List StepRun) : Option Status :=
  let fs := xs.filterMap (·.fail)
  match fs.find? (fun f => f ≠ .poison) with
  | some f => some f
  | none => fs.head?

/-- A step of the token is an allocation, from its table or from its alternate one (R108, R112). -/
def hasAlloc (s : State) (tk : Token) : Bool :=
  (List.range 4).any (fun i =>
    let d := tokDesc s tk i
    decide (sKind d = 1) && (decide (tKind s (sTable d) = 4) || (decide (frReg (sCond d) ≠ 31) && decide (tKind s (sAtable d) = 4))))

/-- The end-of-life advisory in W2 of a response whose status comes from rule 7 (R124). -/
def withAdvisory (s : State) (tk : Token) (w2 : Word) : Word :=
  let adv := hAdvpos (header s tk.profile tk.buf)
  if s.life.advisory && decide (adv < 64) then bset adv 1 w2 1 else w2

/-- An allocation was answered EXHAUSTED: the advisory is set, and FW and every partner are told (R253). -/
def exhausted (s : State) : State :=
  event { (count s (0x042000 + 8 * 9) 1) with life := { s.life with advisory := true } } [0, 1, 2, 3, 4, 5, 6, 7, qFW] 0xE00A 0 0

/-- The composer runs and the search is resolved (R113, R116, R122 rules 5 to 7, R124). -/
def composed (s : State) (tok : Nat) (tk : Token) : State :=
  let (c, s) := compose s tk
  let tk := { tk with hits := hitMask tk }
  if c.bad then setTok (returnResv s tk.resv) tok (some { tk.endWith .poison with resv := [] })
  else
    let (ok, s) := if tk.resv.isEmpty then (true, s) else jAdmit s [tk.resv.map (fun r => JRec.alloc r.list r.block tk.eng)]
    if !ok then setTok (returnResv s tk.resv) tok (some { tk.endWith .busyRetry with resv := [] })
    else
      let s := if tk.resv.isEmpty then s else commitResv s tk.eng tk.resv
      let s := if c.st = .exhausted ∧ hasAlloc s tk = true then exhausted s else s
      setTok s tok (some { tk with ph := .resolved, st := c.st, w0 := c.w0, w1 := c.w1, w2 := withAdvisory s tk c.w2, resv := [] })

/-- A probed token's answer: its one step's share (R341). -/
def probedDone (s : State) (tok : Nat) (tk : Token) : State :=
  let x := stepAt tk 0
  let st := match x.fail with | some f => f | none => if x.hit then .ok else .miss
  setTok s tok (some { tk with ph := .resolved, st := st })

/-- LEVEL_END (R105): when every step of the running level has ended, the next level is issued or the search is resolved. -/
def levelEnd (s : State) (tok : Nat) : State :=
  match getTok s tok with
  | none => s
  | some tk =>
    let at_ := fun n => (List.range tk.steps.length).filter (fun i => decide (sKind (tokDesc s tk i) ≠ 0) && decide (sLevel (tokDesc s tk i) = n))
    let xs := (at_ tk.level).map (stepAt tk)
    if tk.ph ≠ .running ∨ xs.any (fun x => x.ph ≠ .ended) = true then s
    else if isProbed tk then probedDone s tok tk
    else
      match levelFail xs with
      | some st => heatCount (setTok (returnResv s tk.resv) tok (some { ({ tk with hits := hitMask tk }).endWith st with resv := [] })) tk
      | none => if (at_ (tk.level + 1)).isEmpty then heatCount (composed s tok tk) tk else issueLevel s tok (tk.level + 1)

def execLevelEnd (tok : Nat) (s : State) : Host.Outcome State Fault Refusal := .next (levelEnd s tok)

/-! ## The answer (R26, R266, R294, R346) -/

/-- The answer of a token with a status goes out the way its request came, once; one of an older incarnation is discarded and counted
(R294). While its port retrains it waits, and its tag stays in flight until it is sent (R282, R285). -/
def sendAnswer (s : State) (tk : Token) : State :=
  match tk.kind with
  | .partner =>
    sendAs (tagHeld s tk.eng tk.incarn (·.tags) 0 4096 tk.tag) tk.eng tk.incarn
      [srspSlot tk.st tk.hits tk.tag tk.client tk.ver (tokFlags tk) tk.w0 tk.w1 tk.w2]
  | .fwdd k tag origin _ =>
    if (getPort s k).incarn = tk.incarn then sendBy s k origin [fansSlot tk.st tk.hits tag (tokFlags tk) tk.w0 tk.w1 tk.w2]
    else countPort s k 8 1
  | .probed k tag origin _ =>
    if (getPort s k).incarn = tk.incarn then
      sendBy s k origin [pansSlot tk.st tag (if tk.st = .ok then bestShare (stepAt tk 0).shares else none) tk.rsv]
    else countPort s k 8 1

/-- SRSP (R266): the response of a resolved search is sent, or discarded under R294. -/
def sendSrsp (s : State) (tok : Nat) : State :=
  match getTok s tok with
  | none => s
  | some tk => if tk.ph = .resolved then sendAnswer (setTok s tok (some { tk with ph := .answered })) tk else s

def execSrsp (tok : Nat) (s : State) : Host.Outcome State Fault Refusal := .next (sendSrsp s tok)

/-! ## The watchdog (R131 to R133, R347) -/

/-- The step that was waiting when a search expired: the first of its level that has not ended (R132). -/
def waitingStep (s : State) (tk : Token) : Nat :=
  ((List.range tk.steps.length).find? (fun i =>
    decide (sKind (tokDesc s tk i) ≠ 0) && decide (sLevel (tokDesc s tk i) = tk.level) && decide ((stepAt tk i).ph ≠ .ended))).getD 0

/-- A message that has not left is withdrawn and its tag freed; the tag of one that has left stays held (R347). -/
def withdraw (q kind tag : Nat) (probe : Bool) (x : Port) : Port :=
  let mine := fun (m : Relay) => m.src.isNone && decide (slotKind q m.slot = kind) && decide (bn 16 11 m.slot = tag)
  if x.relay.any mine then
    let y := { x with relay := x.relay.filter (fun m => !mine m) }
    if probe then { y with probeTags := y.probeTags.filter (fun e => e.1 ≠ tag) } else { y with fwdTags := y.fwdTags.filter (fun e => e.1 ≠ tag) }
  else x

/-- Messages of an expired token are withdrawn. -/
def withdrawAll (s : State) (tok : Nat) : State :=
  [8, 9, 10].foldl (fun s q =>
    let x := getPort s q
    let y := (x.fwdTags.filter (fun e => e.2 = tok)).foldl (fun y e => withdraw q cFWD e.1 false y) x
    let z := (x.probeTags.filter (fun e => e.2.1 = tok)).foldl (fun y e => withdraw q cPROBE e.1 true y) y
    setPort s q z) s

/-- LATE_WATCHDOG (R131, R132): 1 µs after admission an unresolved search is answered LATE, its waiting requests and reservations
are withdrawn, and its port's LATE counter and event follow. FWD is set when its forward had left (R125; log entry 128). -/
def lateWatchdog (s : State) (tok : Nat) : State :=
  match getTok s tok with
  | none => s
  | some tk =>
    if tk.ph = .running ∨ tk.ph = .away then
      let left := (tk.away.map (fun (a : Nat × Nat) => !fwdWaits (getPort s a.2) a.2 a.1)).getD tk.fwdFlag
      let dead := { tk with ph := .answered, st := .late, hits := 0, w0 := 0, w1 := 0, w2 := 0, resv := [], away := none, fwdFlag := left,
                            steps := tk.steps.map (fun x => { x with ph := .ended, banks := [], await := [], unsent := [] }) }
      let s1 := withdrawAll (returnResv s tk.resv) tok
      let s1 := setTok s1 tok (some dead)
      let s1 := event (countPort s1 tk.eng 1 1) (if tk.eng < 8 then [tk.eng, qFW] else [qFW]) 0x1002 tk.eng
                  (tk.profile + 64 * tk.level + 256 * waitingStep s tk)
      sendAnswer s1 dead
    else s

def execLateWatchdog (tok : Nat) (s : State) : Host.Outcome State Fault Refusal := .next (lateWatchdog s tok)

/-- TOKEN_RETIRE (R131, R133): an answered token leaves when its last outstanding request has returned. -/
def tokenRetire (s : State) (tok : Nat) : State :=
  match getTok s tok with
  | none => s
  | some tk => if tk.ph = .answered then setTok s tok none else s

def execTokenRetire (tok : Nat) (s : State) : Host.Outcome State Fault Refusal := .next (tokenRetire s tok)

/-! ## Replicas and refresh (R76, R91 to R95) -/

/-- A bank that a live lookup step has selected. -/
def bankHeld (s : State) (b : Nat) : Bool :=
  s.search.tokens.any (fun e => match e.2 with
    | some tk => tk.steps.any (fun x => decide (x.ph ≠ .ended) && x.banks.any (fun k => decide (k.bank = b) || (match k.twin with | some y => decide (y.1 = b) | none => false)))
    | none => false)

/-- Bank b gives its entries up and is FREE, of no table (R76, R545). -/
def freeBank (s : State) (b : Nat) : State :=
  let site := siteOf s b
  { setBankState s b 0 with tcam := { (setBankState s b 0).tcam with table := sput 0 s.tcam.table b 0, rows := sdrop s.tcam.rows (fun k => decide (k / 4096 = site)) } }

/-- REPLICA_RELEASE (R76): the banks of a removed replica of directory entry d are released, once every step that
selected them has finished its probe. -/
def replicaRelease (s : State) (d : Nat) : State :=
  match s.marker.releases.find? (fun r => r.1 = d) with
  | none => s
  | some r =>
    if r.2.2.any (bankHeld s) then s
    else
      let s := r.2.2.foldl freeBank s
      { s with marker := { s.marker with releases := s.marker.releases.erase r } }

def execReplicaRelease (d : Nat) (s : State) : Host.Outcome State Fault Refusal := .next (replicaRelease s d)

end Sys2Proof.Machine
end

