-- ==== Sys2Proof/Machine/Ports.lean ====
section
/-! DEFINITION. Flits, credits, bring-up, lanes and port resets (R256 to R297, R331, R332, R344, R359, R361, R626). -/

namespace Sys2Proof.Machine

open Sys2Proof

/-- The queues that a port's own reports go to: the port's owner, and for a cascade port FW (R501). -/
def portOwner (p : Nat) : List Nat := if p < 8 then [p] else [qFW]

/-! ## Flit headers and credits (R259, R276 to R280, R344) -/

/-- A header-only flit that returns credits leaves (R260, R279). -/
def emitCredits (x : Port) (changed : List Nat) : Port :=
  if changed.isEmpty then x else { x with tx := x.tx ++ [[headerSlot x.hold (creditEntries x changed)]] }

/-- How many freed credits of a class may be returned now: SRCH credits of a partner are paced, and none is returned once
admission has stopped (R280, R442). -/
def mayReturn (s : State) (p c : Nat) (x : Port) : Nat :=
  let g := getGrant x c
  if c = 1 ∧ p < 8 then (if admitting s then min g.freed (x.credlim.toNat - x.strokeRet) else 0) else g.freed

/-- Freed credits of one class are returned: its cumulative count rises and the other side may spend them (R276). -/
def returnClass (s : State) (p c : Nat) (x : Port) : Port :=
  let n := mayReturn s p c x
  let g := getGrant x c
  let x := setGrant x c { g with freed := g.freed - n, avail := g.avail + n, cum := g.cum + BitVec.ofNat 16 n }
  if c = 1 ∧ p < 8 then { x with strokeRet := x.strokeRet + n } else x

/-- CREDIT_RETURN (R279): every freed credit of port p that may be returned is returned in a flit header. -/
def creditReturn (s : State) (p : Nat) : State :=
  let x := getPort s p
  if !linkUp x then s
  else
    let cs := (x.grants.map (·.1)).filter (fun c => decide (0 < mayReturn s p c x))
    let y := emitCredits (cs.foldl (fun y c => returnClass s p c y) x) cs
    let s := setPort s p y
    { s with power := { s.power with peak := max s.power.peak y.strokeRet } }

def execCreditReturn (p : Fin 11) (s : State) : Host.Outcome State Fault Refusal := .next (creditReturn s p.val)

/-- Pools granted at HELLO and at READY, or on an active cascade port: credit code and size (R274, R286, R344). -/
def helloPools (p : Nat) : List (Nat × Nat) := if p < 8 then [(cNOTE, 4), (cBULK, 64), (cMGMT, 32)] else [(cNOTE, 8)]
def readyPools : List (Nat × Nat) := [(cSRCH, 64), (cTCMD, 64), (cTEMP, 8)]
def activePools : List (Nat × Nat) := [(1, 128), (3, 64), (0xB, 64), (0xC, 32), (0xD, 4)]

/-- Pools are granted: the first entries after HELLO raise the cumulative counts to the pool sizes (R277). -/
def grantPools (x : Port) (ps : List (Nat × Nat)) : Port := emitCredits (ps.foldl (fun x c => grant x c.1 c.2) x) (ps.map (·.1))

/-! ## READY (R275, R286, R351) -/

/-- Every rank that this die reaches has sent CREW_READY, or the 100 ms have passed, and no switch is half made (R351). -/
def crewSettled (s : State) : Bool :=
  (decide (crewSize s = 1) || s.crew.timedOut || (otherRanks s).all (fun r => (pathTo s r).isNone || bit r s.crew.readyFrom)) && decide (s.crew.phase ≠ 3)

/-- READY may be sent at all: the device is ready, in no save and not tripped. -/
def deviceReady (s : State) : Bool := decide (s.boot.phase = .ready) && decide (s.holdup.ph = 0) && !s.therm.tripped && crewSettled s

/-- READY (R267). -/
def readyNote (s : State) (p : Nat) : Slot :=
  note 4 [(64, s.clock.time.toNat), (128, s.clock.epoch.toNat), (144, rank s), (146, crewSize s - 1), (152, p), (160, (getPort s p).incarn.toNat), (176, s.boot.strver.toNat)]

/-- The partner's grants reach the minimums (R275). -/
def grantsMeet (x : Port) : Bool := decide (16 ≤ (getHeld x cEVT).total ∧ 16 ≤ (getHeld x cBULK).total ∧ 4 ≤ (getHeld x cNOTE).total)

/-- READY is sent on port p once all it needs holds, and SRCH, TCMD and TEMP credits are granted; a partner that grants
too few is reported once in its incarnation (R275, R286). -/
def tryReady (s : State) (p : Nat) : State :=
  let x := getPort s p
  if p < 8 ∧ x.st = pACTIVE ∧ x.ready = false ∧ deviceReady s = true then
    if grantsMeet x then
      let s := send s p [readyNote s p]
      modPort s p (fun y => grantPools { y with ready := true } readyPools)
    else if x.short then s
    else event (modPort s p (fun y => { y with short := true })) [qFW] 0x1003 p 2
  else s

/-- READY is tried on every partner port. -/
def tryReadyAll (s : State) : State := (List.range 8).foldl tryReady s

/-! ## Credit entries that arrive (R276, R566) -/

/-- The first n sent records leave a queue. -/
def freeSent : Nat → List EvRec → List EvRec
  | 0, rs => rs
  | _, [] => []
  | k + 1, r :: rs => if r.sent then freeSent k rs else r :: freeSent (k + 1) rs

/-- An EVT credit increase of d frees the oldest sent records, at most d of them (R566). -/
def freeEvents (s : State) (p d : Nat) : State :=
  let n := min d (getPort s p).evtSent
  let s := modPort s p (fun x => { x with evtSent := x.evtSent - n })
  let q := getQueue s p
  setQueue s p { q with recs := freeSent n q.recs }

/-- One credit entry is applied, or ignored (R276). -/
def creditEntry (s : State) (p c : Nat) (v : BitVec 16) : State :=
  if c = 0 then s
  else
    let x := getPort s p
    let h := getHeld x c
    let d := (v - h.a).toNat
    if d = 0 then s
    else if 32768 ≤ d then countPort s p 14 1
    else
      let s := setPort s p (setHeld x c { avail := h.avail + d, a := v, total := h.total + d, cap := max h.cap (h.avail + d) })
      if c = cEVT ∧ p < 8 then freeEvents s p d else s

/-- Entries k of a slot whose first stands at bit lo: each of three bytes (R259, R278). -/
def entriesAt (x : Slot) (lo n : Nat) : List (Nat × BitVec 16) :=
  (List.range n).map (fun k => (bn (lo + 24 * k) 4 x, bf (lo + 8 + 24 * k) 16 x))

/-- Credits have come: waiting slots leave, and READY may be due. -/
def afterCredits (s : State) (p : Nat) : State :=
  let s := modPort s p (flushPort p)
  if isCascade p then relayOut s p else tryReady s p

/-- CRED (R278): the CRED message at the head of port p is applied. -/
def doCred (s : State) (p : Nat) : State :=
  match ingressHead s p cCRED with
  | none => s
  | some x =>
    afterCredits ((entriesAt x 16 (min (bn 8 4 x) 9)).foldl (fun s e => creditEntry s p e.1 e.2) (takeHead s p cCRED)) p

def execCred (p : Fin 11) (s : State) : Host.Outcome State Fault Refusal := .next (doCred s p.val)

/-! ## Flits (R258 to R264, R281, R283, R326, R359) -/

/-- A slot arrives with no credit of its class (R281). -/
def overrun (s : State) (p : Nat) : State :=
  let s := countPort s p 6 1
  let x := getPort s p
  if x.overSet && decide (now s < x.overAt + 10000000) then s
  else event (modPort s p (fun x => { x with overAt := now s, overSet := true })) (portOwner p) 0x1004 p 6

/-- A slot spends a credit that the TZ8 granted. None: it has none. -/
def takeCredit (s : State) (p c : Nat) : Option State :=
  let g := getGrant (getPort s p) c
  if g.avail = 0 then none
  else some (modPort s p (fun x => setGrant x c { g with avail := g.avail - 1, queued := g.queued + 1 }))

/-- Slots stand in the ingress of a kind. -/
def pushIngress (s : State) (p k : Nat) (xs : List Slot) : State :=
  modPort s p (fun x => { x with ingress := smod [] x.ingress k (· ++ xs) })

/-- TCMD slots as a command of a partner. -/
def tcmdOf (p : Nat) (incarn : BitVec 16) (xs : List Slot) : TCmd :=
  { issuer := p, via := .port p incarn, s0 := xs.headD 0, s1 := (xs.drop 1).headD 0, s2 := (xs.drop 2).headD 0 }

/-- A whole TCMD is taken: discarded when its tag is in flight (R145), answered at intake when it is no command or its
continuation carries another tag (R144, R147) or the tally has stopped admission (R326), else queued at its engine. -/
def intake (s : State) (p : Nat) (xs : List Slot) : State :=
  let s := freeCredit s p cTCMD xs.length
  let x := getPort s p
  let c := tcmdOf p x.incarn xs
  let tag := (cTag c).toNat
  if x.ctags.contains tag then event (countPort s p 3 1) [p] 0x1001 (p + 256) tag
  else
    let s := setPort s p { x with ctags := x.ctags ++ [tag] }
    let bad := (cNeed s c).isNone || (xs.drop 1).any (fun y => bf 16 10 y != cTag c)
    if s.tally.admstop then answer s c.via (fill c (TRsp.of .internal))
    else if bad then answer s c.via (fill c (TRsp.of .malformed))
    else enqueue s c

/-- A search that arrives once the tally has stopped admission is answered INTERNAL at intake (R326); one whose tag is in flight is
discarded (R25). -/
def refuseSrch (s : State) (p : Nat) (x : Slot) : State :=
  let s := freeCredit s p cSRCH 1
  if (getPort s p).tags.contains (qTag x) then event (countPort s p 2 1) [p] 0x1001 p (qTag x)
  else send (modPort s p (fun y => { y with tags := y.tags ++ [qTag x] })) p [srspSlot .internal 0 (qTag x) (qClient x) 0 0 0 0 0]

/-- A FWD or PROBE that arrives then is answered INTERNAL too (R326). -/
def refuseFwd (s : State) (p : Nat) (xs : List Slot) : State :=
  let x := xs.headD 0
  let s := freeCredit s p 1 2
  sendBy s p (bn 48 2 x) [fansSlot .internal 0 (bn 16 11 x) 0 0 0 0]

def refuseProbe (s : State) (p : Nat) (x : Slot) : State :=
  sendBy (freeCredit s p 3 1) p (bn 32 2 x) [pansSlot .internal (bn 16 11 x) none false]

/-- How many slots follow slot 0 of a record: its CONT for TCMD and BULK, one for FWD (R143, R343). -/
def followers (c : Nat) (x0 : Slot) : Nat := if c = 1 then 1 else bn 4 2 x0

/-- A slot of a record is discarded, and with it the record (R281): its earlier slots are dropped and their credits returned,
and as many slots as it still lacks are to be discarded as they come. -/
def dropRecordSlots (s : State) (p c : Nat) (x : Slot) (part : List Slot) (set : List Slot → Port → Port) : State :=
  let left := if 0 < sget 0 (getPort s p).skip c then sget 0 (getPort s p).skip c - 1 else followers c (part.headD x) - part.length
  freeCredit (modPort s p (fun y => set [] { y with skip := sput 0 y.skip c left })) p c part.length

/-- A slot of a record that spans slots: TCMD, BULK, or FWD. The record goes on once its last slot has come; a slot
without a credit discards the whole record (R281). part holds the slots that have come. -/
def recordSlot (s : State) (p c : Nat) (x : Slot) (part : Port → List Slot) (set : List Slot → Port → Port) (whole : State → List Slot → State) : State :=
  match takeCredit s p c with
  | none => overrun (dropRecordSlots s p c x (part (getPort s p)) set) p
  | some s =>
    if 0 < sget 0 (getPort s p).skip c then freeCredit (dropRecordSlots s p c x [] set) p c 1
    else
      let xs := part (getPort s p) ++ [x]
      if xs.length ≤ followers c (xs.headD 0) then modPort s p (set xs) else whole (modPort s p (set [])) xs

/-- The unfinished slots of a TCMD or FWD record, and of a BULK record. -/
def setPart (l : List Slot) (y : Port) : Port := { y with part := l }
def setBulkPart (l : List Slot) (y : Port) : Port := { y with bulkPart := l }

/-- A slot that its sender or the ingress buffer knows to be corrupt (R285): discarded without response, counted and raised.
The credit that it spent returns, of its class or, in a relayed flit for another rank, of its relay code (R344); HELLO spent none
(R274). A record that it belongs to goes with it (R281; log entry 114). -/
def psnSlot (s : State) (p : Nat) (relayed : Bool) (x : Slot) : State :=
  let s := event (countPort s p 5 1) (portOwner p) 0x1004 p 5
  let k := slotKind p x
  let c := if relayed then (relayCode k).getD 0 else if k = cNOTE ∧ isHello x = true then 0 else (creditOf k).getD 0
  match takeCredit s p c with
  | none => s
  | some s =>
    let s := freeCredit s p c 1
    if relayed then s
    else if k = cTCMD ∨ k = cFWD then dropRecordSlots s p c x (getPort s p).part setPart
    else if k = cBULK then dropRecordSlots s p c x (getPort s p).bulkPart setBulkPart
    else s

/-- A NOTE opcode that the other side sends on this port (R267, R343). -/
def noteOk (p op : Nat) : Bool := if p < 8 then decide (op = 3 ∨ op = 5) else decide (0x10 ≤ op ∧ op ≤ 0x15)

/-- One message slot is taken (R263, R264, R281). -/
def takeSlot (s : State) (p : Nat) (x : Slot) : State :=
  let k := slotKind p x
  if k = cTCMD then recordSlot s p cTCMD x (·.part) setPart (fun s xs => intake s p xs)
  else if k = cBULK then recordSlot s p cBULK x (·.bulkPart) setBulkPart (fun s xs => pushIngress s p cBULK xs)
  else if k = cFWD then recordSlot s p 1 x (·.part) setPart (fun s xs => if s.tally.admstop then refuseFwd s p xs else pushIngress s p cFWD xs)
  else if k = cNOTE ∧ isHello x = true then pushIngress s p cHELLO [x]
  else if k = cCRED ∨ k = cFANS ∨ k = cPANS then pushIngress s p k [x]
  else if k = cSRCH ∨ k = cTEMP ∨ k = cMGMT ∨ k = cNOTE ∨ k = cPROBE then
    match takeCredit s p ((creditOf k).getD 0) with
    | none => overrun s p
    | some s =>
      if k = cNOTE ∧ noteOk p (bn 8 8 x) = false then badSlot (freeCredit s p cNOTE 1) p
      else if k = cSRCH ∧ s.tally.admstop = true then refuseSrch s p x
      else if k = cPROBE ∧ s.tally.admstop = true then refuseProbe s p x
      else pushIngress s p k [x]
  else badSlot s p

/-- A slot of a relayed flit for another rank is placed in a relay buffer, or passed through when it is an answer (R359). -/
def relaySlot (s : State) (p dest : Nat) (x : Slot) : State :=
  let k := slotKind p x
  let q := portTo s dest
  let put := fun (s : State) => relayOut (modPort s q (fun y => { y with relay := y.relay ++ [⟨dest, some p, x⟩] })) q
  if k = cFANS ∨ k = cPANS then put s
  else
    match relayCode k with
    | none => badSlot s p
    | some c =>
      match takeCredit s p c with
      | none => overrun s p
      | some s => put s

/-- A die linked to rank r, by a port that is ACTIVE or retrains (R358, R359). -/
def linked (s : State) (r : Nat) : Bool := decide (r < crewSize s) && (direct s r || retraining s r)

/-- FLIT (R259, R260): a flit handed over by the adapter of a port that carries flits. Its credit entries are applied on
arrival, then its messages are taken in slot order; a slot that its sender marked corrupt, or that the ingress buffer finds
uncorrectable (bit i of ecc), is discarded (R285). A relayed flit for a rank that is neither this die's nor linked to it is
discarded and counted once (R359). -/
def flit (s : State) (p : Nat) (f : BitVec 2048) (ecc : BitVec 8) : State :=
  let h : Slot := bf 0 256 f
  if !linkUp (getPort s p) then s
  else if bn 0 4 h ≠ 1 then badSlot s p
  else
    let s := (entriesAt h 32 6).foldl (fun s e => creditEntry s p e.1 e.2) s
    let nums := (List.range 8).filter (fun i => decide (0 < i) && bit (8 + i) h)
    let slot := fun i => (bf (256 * i) 256 f : Slot)
    let psn := fun i => bit (16 + i) h || bit i ecc
    let dense := decide (p < 8) && decide (6 < (nums.filter (fun i => decide (slotClass (slot i) = cSRCH))).length)
    let s := if dense then countPort s p 7 1 else s
    let relayed := isCascade p && bit 26 h
    let dest := bn 24 2 h
    let s := if relayed && decide (dest ≠ rank s) && !linked s dest then badSlot s p else nums.foldl (fun s i =>
      if psn i then psnSlot s p (relayed && decide (dest ≠ rank s)) (slot i)
      else if relayed && decide (dest ≠ rank s) then relaySlot s p dest (slot i)
      else takeSlot s p (slot i)) s
    afterCredits s p

def execFlit (p : Fin 11) (bytes : RxFlit) (s : State) : Host.Outcome State Fault Refusal :=
  .next (flit s p.val bytes.bytes bytes.ecc)

/-! ## Port reset (R293, R294, R626) -/

/-- Responses among the slots that wait in egress: SRSP, TRSP by its first slot, and the last segment of a MGMT response. -/
def countResponses : List Slot → Nat → Nat
  | [], _ => 0
  | x :: xs, skip =>
    if 0 < skip then countResponses xs (skip - 1)
    else if slotClass x = cSRSP then 1 + countResponses xs 0
    else if slotClass x = cTRSP then 1 + countResponses xs (bn 4 2 x)
    else if slotClass x = cMGMT ∧ bit 9 x = true then 1 + countResponses xs 0
    else countResponses xs 0

/-- A port in its next incarnation, with fresh pools and no holder (R293 steps 1 and 2, R327), in training (R286 step 2). -/
def freshPort (x : Port) (maxRate : BitVec 2) : Port :=
  { Port.reset with st := pTRAINING, rate := 3, trying := maxRate, incarn := x.incarn + 1, txRed := x.txRed, rxRed := x.rxRed,
                    pass := x.pass, lmsg := x.lmsg, calen := x.calen, skipped := x.skipped, rseq := x.rseq, rseqSet := x.rseqSet, credlim := x.credlim, hold := x.hold, tx := x.tx, overAt := x.overAt, overSet := x.overSet,
                    fenced := x.fenced, flushed := x.flushed, lastJsn := x.lastJsn }

/-- PROLE of a port, and the highest rate that training tries (R287, R296, R331): 32 GT/s on a cascade port. -/
def prole (s : State) (p : Nat) : Reg := sget 0 s.prot.prole p
def maxRate (s : State) (p : Nat) : BitVec 2 := if p < 8 then bf 2 2 (prole s p) else 2

/-- The in-hand set of a port goes back to the heads of its lists, the block taken last first (R236). -/
def returnInhand (s : State) (p : Nat) : State :=
  let bs := sget [] s.life.inhand p
  let lists := bs.foldr (fun b m => smod [] m b.2 (fun l => b.1 :: l)) s.life.lists
  { s with life := { s.life with lists := lists, inhand := sput [] s.life.inhand p [] } }

/-- The port's streams close (R183), and an engine that has begun a record of one lets it go. -/
def closeStreams (s : State) (p : Nat) : State :=
  (List.range 4).foldl (fun s k =>
    let s := (List.range 8).foldl (fun s e => if (getEng s e).record = some (p * 4 + k) then dropRecordOf s e else s) s
    setStream s p k .reset) s

/-- Records sent and not credited return to the head of the port's queue (R293 step 4, R566). -/
def requeueSent (s : State) (p : Nat) : State :=
  let q := getQueue s p
  setQueue s p { q with recs := q.recs.map (fun r => { r with sent := false }) }

/-- Steps 1 to 4 of R293, and step 5 begun: what every reset of a port's link does. -/
def renewPort (s : State) (p : Nat) : State :=
  let x := getPort s p
  let s := countPort s p 8 (countResponses x.egress 0)
  let s := cascadeDown s p
  let s := modPort s p (fun x => freshPort x (maxRate s p))
  let s := if isCascade p then dropUnreached s else s
  let s := returnInhand s p
  if p < 8 then requeueSent (closeStreams s p) p else s

/-- LINKS goes to every active neighbour, on a change (R358). -/
def linksMask (s : State) : Nat := (if portActive s 8 then 1 else 0) + (if portActive s 9 then 2 else 0) + (if portActive s 10 then 4 else 0)
def sendLinks (s : State) : State :=
  ([8, 9, 10].filter (portActive s)).foldl (fun s q => send s q [note 0x14 [(64, linksMask s)]]) s

/-- A port reset with its trigger and, for RESET_REQ, the partner's reason (R292, R293, R626). A port whose domain is off
has nothing to reset (R41), nor has one that stopped after a save (R45). A running BANK_CLONE goes on: R187's table restarts one
without a move record and its closing sentence says that a port reset alone stops nothing on the engines (log entry 144). -/
def portReset (s : State) (p trig reason : Nat) : State :=
  let was := portActive s p
  if (getPort s p).st = pOFF ∨ s.holdup.ph = 5 then s
  else
    let s := event (countPort s p 15 1) [qFW, qSB] 0x1003 p (trig + 256 * reason)
    let s := resetDebug (trace (renewPort s p) 2)
    if isCascade p && was then sendLinks s else s

/-- RESET_REQ (R292). -/
def resetReq (s : State) (p : Nat) : State :=
  match ingressHead s p cNOTE with
  | some x => if bn 8 8 x = 5 then portReset (takeHead s p cNOTE) p 4 (bn 64 8 x) else s
  | none => s

def execResetReq (p : Fin 8) (s : State) : Host.Outcome State Fault Refusal := .next (resetReq s p.val)

/-- LINK_RESET (R292): the partner starts a link reset on the UCIe sideband. -/
def execLinkReset (p : Fin 11) (s : State) : Host.Outcome State Fault Refusal := .next (portReset s p.val 5 0)

/-- PRESET (R292, R296): a write of 1 by the cores or the sideband (R581). -/
def execPreset (who : Requester) (p : Fin 11) (s : State) : Host.Outcome State Fault Refusal :=
  .next (if mayTrigger s who true then portReset s p.val 6 0 else s)

/-! ## Bring-up (R286 to R289, R332) -/

/-- Our HELLO (R267, R332); the image version is that of the booted image (R505). -/
def helloNote (s : State) (p : Nat) : Slot :=
  note 6 ([(64, 0x0100), (80, if p < 8 then 0 else 2), (88, p), (96, bn 0 32 s.fuses.dieId)] ++
    (if p < 8 then [] else [(128, rank s), (136, crewSize s - 1), (144, s.boot.imgver.toNat)]))

/-- Lanes of one direction lie within the redundant lanes: at most two of each group of 32 (R256, R289). -/
def lanesOk (ls : List (Fin 64)) : Bool :=
  decide ((ls.dedup.filter (fun l => decide (l.val < 32))).length ≤ 2) && decide ((ls.dedup.filter (fun l => decide (32 ≤ l.val))).length ≤ 2)

/-- Training failed at the rate being tried: the next lower rate is tried, or the port is DOWN (R257, R287). -/
def trainFail (s : State) (p : Nat) : State :=
  let x := getPort s p
  if x.st ≠ pTRAINING then s
  else if x.trying = 0 then event (setPort s p { x with st := pDOWN }) [qFW, qSB] 0x1003 p 0
  else setPort s p { x with trying := x.trying - 1 }

def execTrainingFailure (p : Fin 11) (s : State) : Host.Outcome State Fault Refusal := .next (trainFail s p.val)

/-- The redundant lanes that repaired lanes take: in each group of 32 redundant lane 0, then 1 (R289; log entry 113). -/
def redOf (ls : List (Fin 64)) : BitVec 4 :=
  let n := fun (g : Nat) => (ls.dedup.filter (fun l => decide (l.val / 32 = g))).length
  bflag 4 0 (decide (1 ≤ n 0)) ||| bflag 4 1 (decide (2 ≤ n 0)) ||| bflag 4 2 (decide (1 ≤ n 1)) ||| bflag 4 3 (decide (2 ≤ n 1))

/-- The lanes that a training repaired are recorded and counted (R289). -/
def repairLanes (s : State) (p : Nat) (tx rx : List (Fin 64)) : State :=
  let s := modPort s p (fun x => { x with txRed := redOf tx, rxRed := redOf rx })
  countPort s p 11 (tx.dedup.length + rx.dedup.length)

/-- Training completed in bring-up: HELLO is sent and the first credits are granted (R286 step 3). -/
def trained (s : State) (p : Nat) (rate : BitVec 2) : State :=
  let s := modPort s p (fun x => { x with st := pHELLO, rate := rate, helds := [], grants := [] })
  let s := send s p [helloNote s p]
  modPort s p (fun x => grantPools x (helloPools p))

/-- LINKS goes out when cascade port p has become ACTIVE, or no longer is (R343, R358). -/
def linksFrom (was : Bool) (s : State) (p : Nat) : State := if isCascade p && portActive s p != was then sendLinks s else s

/-- LINK_TRAINED (R286, R289): bring-up goes on at step 3, or a retrained link is active again (R285). Lanes beyond the
redundant ones leave the port untrained at this rate (R257), and without PHYREF no port trains (R612). -/
def linkTrained (s : State) (p : Nat) (rate : BitVec 2) (tx rx : List (Fin 64)) : State :=
  let x := getPort s p
  if s.pins.phyref = false then s
  else if x.st = pTRAINING ∧ rate ≤ x.trying then
    if lanesOk tx && lanesOk rx then trained (repairLanes s p tx rx) p rate else trainFail s p
  else if x.st = pRETRAIN ∧ rate < 3 ∧ (lanesOk tx && lanesOk rx) = true then
    linksFrom (portActive s p) (afterCredits (modPort (repairLanes s p tx rx) p (fun y => { y with st := if y.hello then pACTIVE else pHELLO, rate := rate })) p) p
  else s

def execLinkTrained (p : Fin 11) (rate : BitVec 2) (tx rx : List (Fin 64)) (s : State) : Host.Outcome State Fault Refusal :=
  .next (linkTrained s p.val rate tx rx)

/-- TRAINING_RETRY (R287, R288): a DOWN port trains again from its maximum rate. -/
def execTrainingRetry (p : Fin 11) (s : State) : Host.Outcome State Fault Refusal :=
  .next (if (getPort s p.val).st = pDOWN ∧ s.holdup.ph ≠ 5 then modPort s p.val (fun x => { x with st := pTRAINING, rate := 3, trying := maxRate s p.val }) else s)

/-- A HELLO is acceptable on this port (R288, R332). -/
def helloOk (s : State) (p : Nat) (x : Slot) : Bool :=
  decide (bn 64 16 x = 0x0100) &&
    (if p < 8 then decide (bn 80 8 x = 1)
     else decide (bn 80 8 x = 2) && decide (bn 88 8 x = p) && decide (bn 128 8 x = rankAt s p) && decide (bn 136 8 x = crewSize s - 1) && (bf 144 16 x == s.boot.imgver))

/-- CREW_READY (R350). -/
def crewReadyNote (s : State) : Slot :=
  let reach := (otherRanks s).foldl (fun m r => if (pathTo s r).isSome then m + 2 ^ r else m) 0
  note 0x10 [(64, s.clock.time.toNat), (128, rank s), (136, reach)]

/-- A port becomes ACTIVE: a partner's may be READY; a cascade port grants its credits, and the crew hears of it. -/
def portUp (s : State) (p : Nat) : State :=
  let s := modPort s p (fun x => { x with st := pACTIVE, hello := true })
  if p < 8 then tryReady s p
  else
    let s := sendLinks (modPort s p (fun x => grantPools x activePools))
    if s.boot.phase = .ready then send s p [crewReadyNote s] else s

/-- HELLO (R274, R288, R332): in HELLO state it is checked; on an ACTIVE port it starts a port reset, also when the link
retrains by the time it is processed. One that meets a retrain before the check waits for it, and on a port that is not
trained it has no effect. -/
def hello (s : State) (p : Nat) : State :=
  match ingressHead s p cHELLO with
  | none => s
  | some x =>
    let st := (getPort s p).st
    let hi := (getPort s p).hello
    let s0 := s
    let s := takeHead s p cHELLO
    if st = pACTIVE ∨ (st = pRETRAIN ∧ hi = true) then portReset s p 7 0
    else if st = pRETRAIN then s0
    else if st ≠ pHELLO then s
    else if helloOk s p x then portUp s p
    else
      let s := modPort s p (fun y => { y with st := pDOWN, rate := 3 })
      if p < 8 then event s [qFW, qSB] 0x1003 p 1 else event s [qFW, qSB] 0xF007 0 2

def execHello (p : Fin 11) (s : State) : Host.Outcome State Fault Refusal := .next (hello s p.val)

/-! ## Link errors (R285) -/

/-- FLIT_CRC_ERROR: the adapter replays; every flit is delivered once. -/
def execFlitCrcError (p : Fin 11) (s : State) : Host.Outcome State Fault Refusal :=
  .next (if linkUp (getPort s p.val) then countPort s p.val 9 1 else s)

/-- RETRAIN: responses wait in their slots while the link retrains. -/
def execRetrain (p : Fin 11) (s : State) : Host.Outcome State Fault Refusal :=
  .next (if linkUp (getPort s p.val) then
           linksFrom (portActive s p.val) (countPort (modPort s p.val (fun x => { x with st := pRETRAIN, rate := 3 })) p.val 10 1) p.val
         else s)

/-- RETRAIN_LIMIT: the retrain has not ended within 50 µs. -/
def execRetrainLimit (p : Fin 11) (s : State) : Host.Outcome State Fault Refusal :=
  .next (if (getPort s p.val).st = pRETRAIN then portReset s p.val 3 0 else s)

/-! ## Notes and event records (R268, R566) -/

/-- Every port that had sent READY before PFAIL_N has sent FLUSHED since SAVE_FENCE (R268). -/
def allFlushed (s : State) : Bool := (List.range 8).all (fun p => !(getPort s p).fenced || (getPort s p).flushed)

/-- A record as its 32 B (R563). -/
def packEvent (q : Nat) (r : EvRec) : Slot :=
  mkSlot [(0, cEVT), (4, r.sev.toNat), (6, if 1 < r.count.toNat then 1 else 0), (7, if r.mobj then 1 else 0), (8, q), (16, r.code.toNat), (32, r.qseq.toNat), (64, r.tfirst.toNat), (128, r.count.toNat), (160, r.tspan.toNat), (176, r.obj.toNat), (224, r.detail.toNat)]

/-- EVT (R566, R568): the next record of port p's queue is sent, closed by the start of its transmission, and spends one
EVT credit. One that egress finds uncorrectable goes with PSN set, and its COUNT is lost (R285, R569). -/
def sendEvt (s : State) (p : Nat) (bad : Bool) : State :=
  let x := getPort s p
  let q := getQueue s p
  match q.recs.find? (fun r => !r.sent) with
  | none => s
  | some r =>
    let h := getHeld x cEVT
    if x.st = pACTIVE ∧ x.ready = true ∧ 0 < h.avail then
      let s := setPort s p { setHeld x cEVT { h with avail := h.avail - 1 } with tx := x.tx ++ [mkFlit x bad [packEvent p r]], evtSent := x.evtSent + 1 }
      let q := { q with recs := updFirst (fun r => !r.sent) (fun r => { r with sent := true, isOpen := false }) q.recs }
      setQueue s p (if bad then evLose s.clock.time r.count.toNat q else q)
    else s

def execEvt (p : EvtSend) (s : State) : Host.Outcome State Fault Refusal := .next (sendEvt s p.port.val p.bad)

/-! ## Rolling calibration (R290, R291) -/

/-- The redundant lanes of a direction in use, and the change of that set. -/
def redSet (x : Port) (rx : Bool) : BitVec 4 := if rx then x.rxRed else x.txRed
def useRed (x : Port) (rx : Bool) (g q : Nat) : Port :=
  if rx then { x with rxRed := x.rxRed ||| (1 <<< (2 * g + q)) } else { x with txRed := x.txRed ||| (1 <<< (2 * g + q)) }

/-- Lanes of one direction that stand on redundant lanes, as LANES counts them (R296). -/
def lanesUsed (x : Port) (rx : Bool) : Nat := ((List.range 4).filter (fun i => bit i (redSet x rx))).length

/-- The lowest free redundant lane of a group of 32 (R256, R290). -/
def freeRed (x : Port) (rx : Bool) (g : Nat) : Option Nat := (List.range 2).find? (fun q => !bit (2 * g + q) (redSet x rx))

/-- The progress of a LANE_CAL that holds port p's lanes (R535): one more lane calibrated (0), left on its redundant lane (1)
or skipped (2). -/
def laneProgress (s : State) (p i : Nat) : State :=
  match s.waitos.ops.find? (fun e => match e.2 with | some x => x.state == 0 && decide (x.obj = (4, p)) | none => false) with
  | some (h, some x) => setOp s h (some { x with progress := x.progress + BitVec.ofNat 64 (2 ^ (8 * i)) })
  | _ => s

/-- A sideband message of the calibration under way (R290): its flit count lies at least 256 flits ahead. -/
def laneMessage (x : Port) (back : Bool) (c : LaneRun) : Port :=
  { x with lmsg := x.lmsg ++ [⟨back, c.lane, c.rx, c.red, x.tx.length + 256 + (Config.laneAhead c.lane).toNat⟩] }

/-- The pass of rolling calibration comes to a lane; one that it has come to already begins the next pass (log entry 113). -/
def passTo (x : Port) (i : Nat) : Port :=
  if bit i x.pass then { x with pass := 1 <<< i, skipped := 0 } else { x with pass := x.pass ||| (1 <<< i) }

/-- A group of 32 of a direction as a bit number. -/
def groupBit (rx : Bool) (g : Nat) : Nat := 2 * b2n rx + g

/-- The LANE_CAL that runs, with its handle and the lanes that are still to run (R535). -/
def laneOp (s : State) : Option (Nat × Op) :=
  match s.waitos.ops.find? (fun e => match e.2 with | some x => x.state == 0 && x.cmd == 0x0303 | none => false) with
  | some (h, some x) => some (h, x)
  | _ => none

/-- Calibration of a lane may begin now: while a LANE_CAL runs, only of the lane that is its next (R535). -/
def laneTurn (s : State) (p i : Nat) : Bool :=
  match laneOp s with
  | some (_, x) => decide (x.obj = (4, p)) && decide (x.data.head? = some i)
  | none => true

/-- The lane that a LANE_CAL has come to is none of those still to run. -/
def laneTaken (s : State) : State :=
  match laneOp s with
  | some (h, x) => setOp s h (some { x with data := x.data.tail })
  | none => s

/-- LANE_SHIFT (R290): calibration of lane L begins with free redundant lane Q of its group of 32, on one port at a time across
the device. A group with no free redundant lane is not calibrated, and is counted once per pass (R291). The lanes of a LANE_CAL run
before the routine pass goes on (R535). -/
def laneShift (s : State) (p lane : Nat) (rx : Bool) : State :=
  let x := getPort s p
  let i := 64 * b2n rx + lane
  if x.st ≠ pACTIVE ∨ x.calen = false ∨ s.ports.any (fun e => e.2.cal.isSome) = true ∨ laneTurn s p i = false then s
  else
    let y := if (laneOp s).isSome then x else passTo x i
    let s := laneTaken s
    let g := groupBit rx (lane / 32)
    match freeRed x rx (lane / 32) with
    | none =>
      let s := laneProgress (setPort s p { y with skipped := bset g 1 y.skipped 1 }) p 2
      if bit g y.skipped then s else countPort s p 13 1
    | some q =>
      let c : LaneRun := ⟨lane, rx, q, 0, now s⟩
      setPort s p { laneMessage y false c with cal := some c }

def execLaneShift (p : Fin 11) (lane : Fin 64) (rx : Bool) (s : State) : Host.Outcome State Fault Refusal := .next (laneShift s p.val lane.val rx)

/-- LANE_SHIFT_ACK (R290): the acknowledgement of LANE_SHIFT puts the traffic on Q; that of LANE_RETURN puts it back on L, and
the calibration is done. -/
def laneAck (s : State) (p : Nat) : State :=
  match (getPort s p).cal with
  | none => s
  | some c =>
    if c.ph = 0 then modPort s p (fun x => { x with cal := some { c with ph := 1 } })
    else if c.ph = 2 then laneProgress (countPort (modPort s p (fun x => { x with cal := none })) p 12 1) p 0
    else s

def execLaneShiftAck (p : Fin 11) (s : State) : Host.Outcome State Fault Refusal := .next (laneAck s p.val)

/-- LANE_CAL_TIMEOUT (R291): no acknowledgement within 10 µs. The calibration is abandoned and the lane stays where it is: on
L before the shift, on Q before the return (log entry 113). -/
def laneTimeout (s : State) (p : Nat) : State :=
  match (getPort s p).cal with
  | none => s
  | some c =>
    if c.ph = 0 then modPort s p (fun x => { x with cal := none })
    else if c.ph = 2 then modPort s p (fun x => { useRed x c.rx (c.lane / 32) c.red with cal := none })
    else s

def execLaneCalTimeout (p : Fin 11) (s : State) : Host.Outcome State Fault Refusal := .next (laneTimeout s p.val)

/-- LANE_CALIBRATED (R290, R291): with a margin at or above the port policy's threshold LANE_RETURN goes out; below it the lane
stays on Q, which is counted and raised. -/
def laneCalibrated (s : State) (p : Nat) (margin : BitVec 8) : State :=
  match (getPort s p).cal with
  | none => s
  | some c =>
    if c.ph ≠ 1 then s
    else if (bf 8 8 (sget 0 s.str.portPol p)).toNat ≤ margin.toNat then
      modPort s p (fun x => { laneMessage x true c with cal := some { c with ph := 2 } })
    else
      let s := modPort s p (fun x => { useRed x c.rx (c.lane / 32) c.red with cal := none })
      event (laneProgress (countPort s p 11 1) p 1) (portOwner p) 0x1005 p (c.lane + 64 * b2n c.rx)

def execLaneCalibrated (p : Fin 11) (margin : BitVec 8) (s : State) : Host.Outcome State Fault Refusal := .next (laneCalibrated s p.val margin)

end Sys2Proof.Machine
end

