-- ==== Sys2Proof/Machine/EntryCmds.lean ====
section
/-! DEFINITION. Inserting, deleting and rewriting entries (R148 to R172), shared by table commands, bulk records and lifecycle commands. -/

namespace Sys2Proof.Machine

open Sys2Proof

/-- What else an entry change carries: journal records before its own, a change made before its commit point, rows whose
basting count falls after its drain, and whether its answer waits for the drain. -/
structure Extra where
  recs : List JRec
  pre : List (Nat × Nat)
  baste : List Nat
  defer : Option Via

/-- Nothing else. -/
def Extra.none : Extra := ⟨[], [], [], Option.none⟩

/-- The basting counts that a change raises before its commit point: logical stripe-block and new count (R200, R230). -/
def raiseBaste (s : State) (l : List (Nat × Nat)) : State := l.foldl (fun s m => putField s tBMAP m.1 28 8 m.2) s

/-- The answer of a command that found an entry: its TAG, and its address where the command names no other (R146). -/
def foundAt (s : State) (ls : List Loc) (tag : Nat) (x : Ran) : Ran :=
  match ls, x with
  | l :: _, .ends s2 (some r) =>
    let r := { r with tag := BitVec.ofNat 7 tag }
    .ends s2 (some (if r.addr = 0 then r.withLoc s l else r))
  | _, x => x

/-- The place of the result word of the entry at l. -/
def resKey (s : State) (l : Loc) : Nat := kSlot (primaryBank s l) l.r l.h 0

/-- The result word of the entry at a place. -/
def resAt (s : State) (l : Loc) : SecRead := peek s (resKey s l)

/-- An update of the counts that leaves row a for row b (R172): equal rows leave them as they are. -/
def rowsDiffer (a b : Option Nat) : Bool := decide (a ≠ b)

/-- The coalescer entries of the rows that a change of a result word counts in are issued first (R387). -/
def issueLinks (s : State) (t : Nat) (rows : List Nat) : State := rows.foldl (fun s r => issueRow s (lkTable (tLink s t)) r) s

/-- The refusals that a new result word meets (R171, R172): a running REPOINT, a pointer out of range, a full count. -/
def wordRefusal (s : State) (t : Nat) (old new : Option Nat) (res : Word) : Option Status :=
  match new with
  | some r =>
    if rpBlocks s t res then some .busyRetry
    else if linkOut s t r then some .malformed
    else if rowsDiffer old new && linkBad s t r then some .poison
    else if rowsDiffer old new && decide (linkMax s t ≤ linkCount s t r) then some .noRoom
    else none
  | none => if rpBlocks s t res then some .busyRetry else none

/-- A command ends with a refusal of its new result word; an uncorrectable link row is reported and queued (R371). -/
def refuseWord (s : State) (t : Nat) (new : Option Nat) (st : Status) : Ran :=
  ended (if st = .poison then new.toList.foldl (fun s r => touchQ s (linkKey s t r)) s else s) t st

/-- The count of a new row rises before the commit point (R172). -/
def linkInc (s : State) (t : Nat) (old new : Option Nat) : State :=
  match new with
  | some r => if rowsDiffer old new then linkPut s t r (linkCount s t r + 1) else s
  | none => s

/-- The journal record of that rise (R422). -/
def linkIncRec (s : State) (t : Nat) (old new : Option Nat) : List JRec :=
  match new with
  | some r => if rowsDiffer old new then [linkRec s t r (linkCount s t r + 1)] else []
  | none => []

/-- The row that falls after the drain, and its record (R172, R423). -/
def linkFall (old new : Option Nat) : List Nat := if rowsDiffer old new then old.toList else []
def linkFallRec (s : State) (t : Nat) (rows : List Nat) : List JRec := rows.map (fun r => linkRec s t r (linkCount s t r - 1))

/-- A placement of a rewritten entry in the bank that already holds it (R163); an INSERT with NOCHAIN relocates nothing
(R143). -/
def planIn (s : State) (t L : Nat) (nochain : Bool) (l : Loc) : Option Plan :=
  let w := tWidth s t
  let occ := occupiedAt s t l.d l.j
  match placeIn occ (nSlots w) L with
  | some p => some ⟨⟨l.d, l.j, posRow w p, posHalf w p⟩, []⟩
  | none =>
    if nochain then none
    else (planChain occ (nSlots w) L).map (fun (ms, hole) => ⟨⟨l.d, l.j, posRow w hole, posHalf w hole⟩, ms⟩)

/-- Placements for every place, or none. -/
def planIns (s : State) (t L : Nat) (nochain : Bool) : List Loc → Option (List Plan)
  | [] => some []
  | l :: ls =>
    match planIn s t L nochain l, planIns s t L nochain ls with
    | some p, some ps => some (p :: ps)
    | _, _ => none

/-- Rows of a change that another change's drain still holds (R158). -/
def rowsHeld (s : State) (rows : List Nat) (lblks : List Nat) : Bool := rows.any (rowHeld s) || lblks.any (lblkHeld s)

/-- A place after relocation moves of plan p: an entry that moved stands where it went. -/
def movedLoc (w : Nat) (p : Plan) (l : Loc) : Loc :=
  match p.moves.find? (fun m => m.1 == slotPos w l.r l.h) with
  | some m => { l with r := posRow w m.2, h := posHalf w m.2 }
  | none => l

/-- The journal takes a command's groups; once the command has moved entries its room is kept, and it waits (R33, R158). -/
def admitFor (s : State) (e t : Nat) (groups : List (List JRec)) (f : State → Ran) : Ran :=
  let (ok, s1) := jAdmit s groups
  if ok then f s1
  else if (getEng s e).moves = 0 then ended s1 t .busyRetry
  else .wait

/-- The moves of placements are made; when all have drained, f goes on, told how many there were. An uncorrectable result word
ends the command before its commit point (R371). -/
def afterMoves (s : State) (e t : Nat) (ps : List Plan) (f : State → Nat → Ran) : Ran :=
  match (planMoves ps).findSome? (moveBad s t) with
  | some k => ended (touchQ s k) t .poison
  | none =>
    match relocateAll e t (planMoves ps) 0 s with
    | (s, n, true) => f s n
    | (_, 0, false) => .wait
    | (s, n, false) => .stays s n

/-- A gated rewrite (R163): the replacement copies ps under insert sense and the copies at lm under delete sense of one gate. -/
def rewriteGated (s : State) (e t : Nat) (care val : BitVec 192) (tag : Nat) (res : Word) (lm : List Loc) (ps : List Plan)
    (old new : Option Nat) (recs : List JRec) (rsp : TRsp) : Ran :=
  let w := tWidth s t
  let oldC := copiesOf s t lm
  let newC := copiesOf s t (ps.map (·.loc))
  match freeGate s e with
  | none => .wait
  | some g =>
    if !canGate s e 2 (oldC.map (·.1)) then .wait
    else
      let s := linkInc s t old new
      let (s, gi) := armCopies s g true newC
      let (s, gd) := armCopies s g false oldC
      let s := writeCopies s t care val tag res gCode gi
      let s := gd.foldl (fun s c => setG s w c.bank c.slot c.half (gCode c)) s
      let (j, s) := jCommit s recs false
      let s := openGate s g { Gate.reset with copies := gi ++ gd, table := t, jsn := j, hmoves := (oldC.zip newC).map (fun (a, b) => (copyKey a.1 a.2.1 a.2.2, copyKey b.1 b.2.1 b.2.2)), refDec := linkFall old new }
      let rsp := match ps with | p :: _ => rsp.withLoc s p.loc | [] => rsp
      .ends s (some { rsp with jsn := j })

/-- A rewrite whose commit point is the write cycle of the result slot (R163). -/
def rewritePlain (s : State) (e t : Nat) (res : Word) (ls : List Loc) (l0 : Loc) (old new : Option Nat) (recs : List JRec) (rsp : TRsp) : Ran :=
  admitFor s e t [recs] (fun s =>
    let s := linkInc s t old new
    let (j, s) := jCommit s recs true
    let s := (copiesOf s t ls).foldl (fun s c => putSlotCw s c.1 c.2.1 c.2.2 0 (secEnc res)) s
    let s := (linkFall old new).foldl (fun s r => linkDec s t r) s
    .ends s (some { rsp.withLoc s l0 with jsn := j }))

/-- Rows whose counts a change will lower are read before its commit point: an uncorrectable one ends the command (R371). -/
def soundLinks (s : State) (t : Nat) (rows : List Nat) (f : State → Ran) : Ran :=
  if rows.any (linkBad s t) then ended (rows.foldl (fun s r => touchQ s (linkKey s t r)) s) t .poison else f s

/-- The old result word of a rewrite is read (R163, R370, R371), and the refusals of the new one come (R171, R172), the rows
that its counts need being free (R228): f goes on with the previous word and the rows. -/
def rewriteWord (s : State) (t : Nat) (res : Word) (l0 : Loc) (f : State → Word → Option Nat → Option Nat → Ran) : Ran :=
  let o := resAt s l0
  let s := touchQ s (resKey s l0)
  if o.bad then ended s t .poison
  else
    let old := linkRow s t o.data
    let new := linkRow s t res
    let s := issueLinks s t (old.toList ++ new.toList)
    if rowsHeld s (linkFall old new ++ new.toList) [] then .wait
    else
      match wordRefusal s t old new res with
      | some st => refuseWord s t new st
      | none => soundLinks s t (linkFall old new) (fun s => f s o.data old new)

/-- The result word of an installed entry is rewritten (R163): under a gate with a replacement copy, or in place. The
entry stands at ls; ex is what the command carries beside it; ins says that an INSERT found the entry (R146). -/
def rewrite (s : State) (e t : Nat) (care val : BitVec 192) (tag : Nat) (res : Word) (ls : List Loc) (ex : Extra) (ins nochain : Bool) : Ran :=
  match ls with
  | [] => ended s t .miss
  | l0 :: _ =>
    rewriteWord s t res l0 (fun s prev old new =>
      let rsp : TRsp := { TRsp.of .ok with existed := ins, res := prev, tag := BitVec.ofNat 7 tag }
      let links := linkIncRec s t old new ++ linkFallRec s t (linkFall old new)
      if isGated s t (ls.map (·.d)) then
        match planIns s t tag nochain ls with
        | none => ended s t .noRoom
        | some ps =>
          let lm := (ps.zip ls).map (fun (p, l) => movedLoc (tWidth s t) p l)
          let recs := ex.recs ++ (ps.zip lm).map (fun (p, l) =>
              JRec.move t p.loc.h l.h (locAddr s p.loc) (locAddr s l) tag val care (tWidth s t == 2) (!careFollows s t care tag) res)
            ++ links
          admitFor s e t (moveGroups s t (planMoves ps) ++ [recs]) (fun s =>
            afterMoves s e t ps (fun s n =>
              rewriteGated s e t care val tag res lm ps old new recs { rsp with chain := ins && decide (0 < n), moves := BitVec.ofNat 5 n }))
      else rewritePlain s e t res ls l0 old new (ex.recs ++ ls.map (fun l => entryRec s t l care val tag res) ++ links) rsp)

/-- A WRITE by address of the entry that its slot already holds (R164): the whole entry is written where it stands, in every
copy, under a gate on a gated table. A gate would hide the entry from a search that still probes under an older snapshot, so the
engine waits until none does (log entry 104). -/
def overwrite (s : State) (e t : Nat) (care val : BitVec 192) (tag : Nat) (res : Word) (ls : List Loc) (l0 : Loc) : Ran :=
  rewriteWord s t res l0 (fun s prev old new =>
    let cs := copiesOf s t ls
    let rsp : TRsp := { (TRsp.of .ok).withLoc s l0 with res := prev, tag := BitVec.ofNat 7 tag }
    let recs := ls.map (fun l => entryRec s t l care val tag res) ++ linkIncRec s t old new ++ linkFallRec s t (linkFall old new)
    if isGated s t (ls.map (·.d)) then
      match freeGate s e with
      | none => .wait
      | some g =>
        if !(canGate s e 1 (cs.map (·.1)) && drained s (s.marker.seq + 1)) then .wait
        else
          admitFor s e t [recs] (fun s =>
            let s := linkInc s t old new
            let (s, gs) := armCopies s g true cs
            let s := writeCopies s t care val tag res gCode gs
            let (j, s) := jCommit s recs false
            let s := openGate s g { Gate.reset with copies := gs, table := t, jsn := j, refDec := linkFall old new }
            .ends s (some { rsp with jsn := j }))
    else
      admitFor s e t [recs] (fun s =>
        let s := linkInc s t old new
        let (j, s) := jCommit s recs true
        let s := writeCopies s t care val tag res (fun _ => 0) (plainCopies cs)
        let s := (linkFall old new).foldl (fun s r => linkDec s t r) s
        .ends s (some { rsp with jsn := j })))

/-- The partition that last refused an insert (R545). -/
def noteRefused (s : State) (t : Nat) (ds : List Nat) : State :=
  let s := countT s t 2 1
  match ds with
  | d :: _ => { s with marker := { s.marker with refused := sput 0 s.marker.refused t (d + 1) } }
  | [] => s

/-- A new entry is written at its placements and committed (R154, R157, R162): under a gate, or at the write cycle. The moves
that free its places come first (R160). -/
def install (s : State) (e t : Nat) (care val : BitVec 192) (tag : Nat) (res : Word) (ds : List Nat) (ps : List Plan) (ex : Extra) : Ran :=
  let new := linkRow s t res
  let recs := ex.recs ++ ps.map (fun p => entryRec s t p.loc care val tag res) ++ linkIncRec s t none new
  let gated := isGated s t ds
  if gated && !canGate s e 1 ((copiesOf s t (ps.map (·.loc))).map (·.1)) then .wait
  else
    admitFor s e t (moveGroups s t (planMoves ps) ++ [recs]) (fun s =>
      afterMoves s e t ps (fun s n =>
        let s := raiseBaste (linkInc s t none new) ex.pre
        let cs := copiesOf s t (ps.map (·.loc))
        let rsp : TRsp := { TRsp.of .ok with chain := decide (0 < n), moves := BitVec.ofNat 5 n }
        let rsp := match ps with | p :: _ => rsp.withLoc s p.loc | [] => rsp
        if gated then
          match freeGate s e with
          | none => .wait
          | some g =>
            let (s, gs) := armCopies s g true cs
            let s := writeCopies s t care val tag res gCode gs
            let (j, s) := jCommit s recs false
            let s := openGate s g { Gate.reset with copies := gs, table := t, jsn := j }
            .ends s (some { rsp with jsn := j })
        else
          let (j, s) := jCommit s recs true
          let s := writeCopies s t care val tag res (fun _ => 0) (plainCopies cs)
          .ends s (some { rsp with jsn := j })))

/-- What an INSERT or a LOAD record counts at its end (R191): its commit, or a refusal for want of room. -/
def countOf (t : Nat) (ds : List Nat) (st : Status) (s : State) : State :=
  if st = .ok then countT s t 0 1 else if st = .noRoom then noteRefused s t ds else s

/-- An INSERT of a new entry with what it counts. -/
def countInsert (t : Nat) (ds : List Nat) (x : Ran) : Ran :=
  match x with
  | .ends s (some r) => .ends (countOf t ds r.st s) (some r)
  | x => x

/-- The entry that an INSERT names stands at ls already (R154): EXISTED, and with REPLACE its result word is rewritten. -/
def insertExisting (s : State) (e t : Nat) (care val : BitVec 192) (tag : Nat) (res : Word) (replace nochain : Bool) (ds : List Nat) (ls : List Loc) (ex : Extra) : Ran :=
  if replace then
    match foundAt s ls tag (rewrite s e t care val tag res ls { ex with recs := ex.recs.take 1, pre := [] } true nochain) with
    | .ends s2 (some r) => .ends (countOf t ds r.st (countT s2 t 1 1)) (some r)
    | x => x
  else
    foundAt s ls tag (.ends (countT s t 1 1) (some { TRsp.of .ok with existed := true }))

/-- An entry is inserted (R154 to R158, R171, R172). Its rows are reserved before its checks read them (R228). -/
def insertEntry (s : State) (e t : Nat) (care val : BitVec 192) (tag : Nat) (res : Word) (replace nochain : Bool) (ex : Extra) : Ran :=
  let ds := dirsFor s t care val
  let new := linkRow s t res
  match findEntry (issueLinks s t new.toList) t care val tag ds with
  | (l :: ls, s1) => insertExisting s1 e t care val tag res replace nochain ds (l :: ls) ex
  | ([], s1) =>
    if rowsHeld s1 new.toList (ex.pre.map (·.1)) then .wait
    else
      countInsert t ds
        (match wordRefusal s1 t none new res with
         | some st => refuseWord s1 t new st
         | none =>
           match (if ds.isEmpty then none else planAll s1 t tag nochain ds) with
           | none => ended s1 t .noRoom
           | some ps => install s1 e t care val tag res ds ps ex)

/-- The entries that stand at ls are removed (R162, R167): under a gate, or by one write cycle. A copy that another gated change
still governs keeps the engine waiting until that gate has drained (R83, R158). No rule names a result of a
DELETE: bytes 16 to 23 of its answer carry the deleted entry's result word (DESIGN CHOICE, log entry 105). -/
def remove (s : State) (e t : Nat) (ls : List Loc) (dii : Bool) (c : TCmd) (ex : Extra) : Ran :=
  match ls with
  | [] => ended (countT s t 5 1) t .miss
  | l0 :: _ =>
    let o := resAt s l0
    let s := touchQ s (resKey s l0)
    if o.bad then ended s t .poison
    else
      let w := tWidth s t
      let cs := copiesOf s t ls
      let falls := (linkRow s t o.data).toList
      let s := issueLinks s t falls
      let recs := ex.recs ++ ls.map (fun l => JRec.del t l.h (locAddr s l)) ++ linkFallRec s t falls
      let rsp : TRsp := { (TRsp.of .ok).withLoc s l0 with res := o.data, tag := BitVec.ofNat 7 (cPlen c) }
      if rowsHeld s falls ex.baste || cs.any (fun k => decide ((getEntry s w k.1 k.2.1 k.2.2).side.g ≠ 0)) then .wait
      else if dii && anyH s w cs then ended (countT s t 6 1) t .recentlyHit
      else if falls.any (linkBad s t) then ended (falls.foldl (fun s r => touchQ s (linkKey s t r)) s) t .poison
      else if dii || ex.defer.isSome || isGated s t (ls.map (·.d)) then
        if !canGate s e 1 (cs.map (·.1)) then .wait
        else
          match freeGate s e with
          | none => .wait
          | some g =>
            let (ok, s1) := jAdmit s [recs]
            if !ok then ended s1 t .busyRetry
            else
              let (s, gs) := armCopies s1 g false cs
              let s := gs.foldl (fun s c => setG s w c.bank c.slot c.half (gCode c)) s
              let (j, s) := jCommit s recs false
              let late := dii || ex.defer.isSome
              let rsp := { rsp with jsn := j }
              let s := openGate s g { Gate.reset with copies := gs, table := t, jsn := j, refDec := falls, basteDec := ex.baste, dii := dii, reply := if late then some (c.via, fill c rsp) else none }
              .ends (countT s t 4 1) (if late then none else some rsp)
      else
        let (ok, s1) := jAdmit s [recs]
        if !ok then ended s1 t .busyRetry
        else
          let (j, s) := jCommit s1 recs true
          let s := cs.foldl (fun s c => clearEntry s w c.1 c.2.1 c.2.2) s
          let s := falls.foldl (fun s r => linkDec s t r) s
          .ends (countT s t 4 1) (some { rsp with jsn := j })

/-! ## The entry commands -/

/-- The checks of form that an INSERT or a WRITE by address meets under rule 1 of R148: the care pattern and TAG of R58, and
at most 64 copies (R77). -/
def formBad (s : State) (c : TCmd) : Bool :=
  !careOk s (cTable c) (cMask s c) (cPlen c) || decide (64 < (dirsFor s (cTable c) (cMask s c) (cKey s c)).length)

/-- INSERT, and a LOAD record (R154). -/
def runInsert (e : Nat) (s : State) (c : TCmd) : Ran :=
  match entryRefusal s c (formBad s c) [] true with
  | some st => .ends s (some (TRsp.of st))
  | none => insertEntry s e (cTable c) (cMask s c) (cKey s c) (cPlen c) (cRes c) (cReplace c) (cNochain c) Extra.none

/-- DELETE and DELETE_IF_IDLE, and a DELETE record (R162, R167). -/
def runDelete (dii : Bool) (e : Nat) (s : State) (c : TCmd) : Ran :=
  match entryRefusal s c false [] true with
  | some st => .ends s (some (TRsp.of st))
  | none =>
    let t := cTable c
    let (ls, s) := findEntry s t (cMask s c) (cKey s c) (cPlen c) (dirsFor s t (cMask s c) (cKey s c))
    foundAt s ls (cPlen c) (remove s e t ls dii c Extra.none)

/-- The placements of a WRITE by address of a new entry: the named slot in its partition, and a place of R153 in every other
partition that the entry intersects (R77, R157). -/
def planAt (s : State) (t L : Nat) (l : Loc) (ds : List Nat) : Option (List Plan) :=
  (planAll s t L false (ds.filter (fun d => decide (d ≠ l.d)))).map (fun ps => ⟨l, []⟩ :: ps)

/-- WRITE by address writes a whole entry at the named slot (R164), and at its places in the other partitions that it
intersects. -/
def writeByAddr (s : State) (e : Nat) (c : TCmd) : Ran :=
  let t := cTable c
  let w := tWidth s t
  let care := cMask s c
  let val := cKey s c
  let tag := cPlen c
  let ds := dirsFor s t care val
  match locateBank s t (cAddr c / 4096) with
  | none => .ends s (some (TRsp.of .malformed))
  | some (d, j) =>
    let l : Loc := ⟨d, j, cAddr c % 4096, if w = 0 then cHalf c else 0⟩
    let b := primaryBank s l
    let win := windowOf (occupiedAt s t d j) (nSlots w) tag
    let pos := slotPos w l.r l.h
    let x := getEntry s w b l.r l.h
    if !ds.contains d then ended s t .malformed
    else if sameEntry s b care val tag x then
      let rest := (findEntry s t care val tag (ds.filter (fun y => decide (y ≠ d))))
      foundAt rest.2 [l] tag (overwrite rest.2 e t care val tag (cRes c) (l :: rest.1) l)
    else if (copiesOf s t [l]).any (fun k => (getEntry s w k.1 k.2.1 k.2.2).side.v) || !decide (win.1 ≤ pos ∧ pos < win.2) then ended s t .malformed
    else
      let new := linkRow s t (cRes c)
      let s := issueLinks s t new.toList
      if rowsHeld s new.toList [] then .wait
      else
        match wordRefusal s t none new (cRes c) with
        | some st => refuseWord s t new st
        | none =>
          match planAt s t tag l ds with
          | none => ended s t .noRoom
          | some ps => install s e t care val tag (cRes c) ds ps Extra.none

/-- An address that names no bank of the command's table: a range check that fails, under rule 1 of R148. -/
def noBank (s : State) (c : TCmd) : Bool := (locateBank s (cTable c) (cAddr c / 4096)).isNone

/-- WRITE by key or by address (R163, R164). -/
def runWrite (e : Nat) (s : State) (c : TCmd) : Ran :=
  match entryRefusal s c (!cByKey c && (formBad s c || noBank s c)) [] true with
  | some st => .ends s (some (TRsp.of st))
  | none =>
    if cByKey c then
      let t := cTable c
      let (ls, s) := findEntry s t (cMask s c) (cKey s c) (cPlen c) (dirsFor s t (cMask s c) (cKey s c))
      foundAt s ls (cPlen c) (rewrite s e t (cMask s c) (cKey s c) (cPlen c) (cRes c) ls Extra.none false false)
    else writeByAddr s e c

/-- The continuation slots of a READ: key and mask (R146). -/
def readCont (w : Nat) (x : Entry) : List Slot :=
  let a : Slot := (((bf 0 96 x.val).setWidth 256) <<< 64) ||| (((bf 0 96 x.care).setWidth 256) <<< 160)
  let b : Slot := (((bf 96 96 x.val).setWidth 256) <<< 64) ||| (((bf 96 96 x.care).setWidth 256) <<< 160)
  if w = 2 then [a, b] else [a]

/-- Every copy of an entry of table t that stands at place l: there, and in every other partition that it intersects (R146). -/
def everyCopy (s : State) (t : Nat) (l : Loc) (x : Entry) : List (Nat × Nat × Nat) :=
  copiesOf s t (l :: placesOf s t x.care x.val x.side.tag.toNat)

/-- One read-back of the entry of place l in bank b (R165); HIT joins the H bits of every copy (R146). -/
def readEntry (s : State) (t b : Nat) (l : Loc) : Ran :=
  let w := tWidth s t
  let x := getEntry s w b l.r l.h
  let rsp := fun (st : Status) => { TRsp.of st with addr := BitVec.ofNat 24 (b * 4096 + l.r), half := decide (l.h = 1), tag := x.side.tag }
  let key := kSlot b l.r l.h 0
  if !x.side.v then ended s t .miss
  else if !parityOk x then .ends (tcamReject s t b l.r l.h .poison 2) (some (rsp .poison))
  else if (peek s key).bad then .ends (touchQ s key) (some (rsp .poison))
  else .ends (touch s key) (some { rsp .ok with res := (peek s key).data, hit := anyH s w (everyCopy s t l x), cont := readCont w x })

/-- READ by key or by address (R165). -/
def runRead (s : State) (c : TCmd) : Ran :=
  match entryRefusal s c (!cByKey c && noBank s c) [qFW, qSB] false with
  | some st => .ends s (some (TRsp.of st))
  | none =>
    let t := cTable c
    if cByKey c then
      match findEntry s t (cMask s c) (cKey s c) (cPlen c) (dirsFor s t (cMask s c) (cKey s c)) with
      | ([], s) => ended s t .miss
      | (l :: _, s) => readEntry s t (primaryBank s l) l
    else
      match locateBank s t (cAddr c / 4096) with
      | none => .ends s (some (TRsp.of .malformed))
      | some (d, j) => readEntry s t (cAddr c / 4096) ⟨d, j, cAddr c % 4096, if tWidth s t = 0 then cHalf c else 0⟩

/-- The primary banks of table t with their places in the directory, by rising bank number. -/
def primaryBanks (s : State) (t : Nat) : List (Nat × Nat × Nat) :=
  let all := ((s.marker.dirA.map (·.1)).filter (fun d => dValid (dirEntry s d) && decide (dTnum (dirEntry s d) = t))).flatMap (fun d =>
    (List.range (dSpan (dirEntry s d))).map (fun j => (listAt s (dList (dirEntry s d) + j), d, j)))
  (sortNat (all.map (·.1))).filterMap (fun b => all.find? (fun x => x.1 == b))

/-- Every entry of table t in ascending entry address (R170, R182): its place and its contents. -/
def tableEntries (s : State) (t : Nat) : List (Loc × Entry) :=
  (primaryBanks s t).flatMap (fun (b, d, j) => (liveEntries s t b).map (fun (r, h, e) => (⟨d, j, r, h⟩, e)))

/-- The reservations of HSWEEP: every bank of its table (R158). -/
def sweepNeed (s : State) (c : TCmd) : List Nat := sortNat ((tableBanks s (cTable c)).map resBank)

/-- HSWEEP (R166): H of every copy of every entry in scope is cleared; the answer counts the entries found with H set,
a straddling entry once. -/
def runHsweep (s : State) (c : TCmd) : Ran :=
  match entryRefusal s c false [qFW] false with
  | some st => .ends s (some (TRsp.of st))
  | none =>
    let t := cTable c
    let w := tWidth s t
    let es := (tableEntries s t).filter (fun x => inScope (cScopeKey c) (cScopeMask c) x.2)
    let hit := es.filter (fun x => anyH s w (copiesOf s t [x.1]))
    let n := (hit.map (fun x => (x.2.care, x.2.val, x.2.side.tag))).dedup.length
    let s := es.foldl (fun s x => (copiesOf s t [x.1]).foldl (fun s k => writeH s w k.1 k.2.1 k.2.2 false) s) s
    .ends s (some { TRsp.of .ok with res := BitVec.ofNat 64 n })

def execInsert (e : Fin 8) (s : State) : Host.Outcome State Fault Refusal := .next (runHead s e.val 1 entryNeed (runInsert e.val))
def execDelete (e : Fin 8) (s : State) : Host.Outcome State Fault Refusal := .next (runHead s e.val 2 entryNeed (runDelete false e.val))
def execDeleteIfIdle (e : Fin 8) (s : State) : Host.Outcome State Fault Refusal := .next (runHead s e.val 3 entryNeed (runDelete true e.val))
def execWrite (e : Fin 8) (s : State) : Host.Outcome State Fault Refusal := .next (runHead s e.val 4 entryNeed (runWrite e.val))
def execRead (e : Fin 8) (s : State) : Host.Outcome State Fault Refusal := .next (runHead s e.val 5 noNeed runRead)
def execHsweep (e : Fin 8) (s : State) : Host.Outcome State Fault Refusal := .next (runHead s e.val 7 sweepNeed runHsweep)

/-- GATE_DRAINED (R82): once no older snapshot is probing, the gate's copies are finalised and the gate is freed. -/
def execGateDrained (g : Fin 64) (s : State) : Host.Outcome State Fault Refusal :=
  .next (settleGate s g.val)

end Sys2Proof.Machine
end

