-- ==== Sys2Proof/Machine/IndexCmds.lean ====
section
/-! DEFINITION. Index-table commands, the update coalescer and LEARN_NOTE (R119 to R121, R173 to R176, R184, R386). -/

namespace Sys2Proof.Machine

open Sys2Proof

/-- A composer-table row write (R120): its journal group enters, with the records pre of its command first (R423), the home row
is written, and the new contents wait for a generation (R121) with the answer. The write is a list of words: word within the
row and value. -/
def composerWrite (s : State) (pre : List JRec) (t row : Nat) (ws : List (Nat × Word)) (reply : Option (Via × TRsp)) : Word × State :=
  let (j, s) := jCommit s (pre ++ ws.map (fun w => JRec.iword t w.1 row w.2)) true
  let s := ws.foldl (fun s w => putWord s (rowKey s t row w.1) w.2) s
  let last := ws.length - 1
  (j, { s with search := { s.search with waiting := s.search.waiting ++ (ws.zipIdx.map (fun (w, i) =>
      { key := rowKey s t row w.1, val := w.2, reply := if i = last then reply.map (fun r => (r.1, { r.2 with jsn := j })) else none })) } })

/-- IREAD of a table of counters: the row is one counter, and a word holds as many as fit (R209, R484; log entry 106). -/
def readCounter (s : State) (t r : Nat) : Ran :=
  let k := 64 / max 1 (tRowW s t)
  let key := kIndex t (r / k)
  if (peek s key).bad then ended (touchQ s key) t .poison
  else .ends (touch s key) (some { TRsp.of .ok with addr := BitVec.ofNat 24 r, res := BitVec.ofNat 64 (bn (tRowW s t * (r % k)) (tRowW s t) (peek s key).data) })

/-- IREAD (R176): the row as stored; an uncorrectable word answers POISON. A row of an allocator table is one of its lists:
the spec gives it no stored form, so the data word is a free value (log entry 106). -/
def runIread (s : State) (c : TCmd) : Ran :=
  match indexRefusal s c false [qFW, qSB] false with
  | some st => .ends s (some (TRsp.of st))
  | none =>
    let t := cTable c
    let r := cRow c
    if tKind s t = 3 then readCounter s t r
    else if tKind s t = 4 then
      let (v, s) := fresh s
      .ends s (some { TRsp.of .ok with addr := BitVec.ofNat 24 r, res := v })
    else if rowBad s t r then ended ((rowKeys s t r).foldl touchQ s) t .poison
    else
      let v := rowVal s t r
      let rest : Slot := ((bf 64 192 v).setWidth 256) <<< 64
      .ends (touchAll s (rowKeys s t r)) (some { TRsp.of .ok with addr := BitVec.ofNat 24 r, res := bf 0 64 v, cont := if tRowW s t > 64 then [rest] else [] })

/-- The words of an IWRITE merge into the coalescer entries that wait for them, which are then issued as one write each: the
later write's bits stand (R386). -/
def mergeRow (s : State) (t r : Nat) (ws : List (Nat × Word)) : State :=
  let s := ws.foldl (fun s w =>
    let key := rowKey s t r w.1
    match sget none s.sram.coal key with
    | some c => { s with sram := { s.sram with coal := sput none s.sram.coal key (some { c with mask := BitVec.allOnes 64, val := w.2 }) } }
    | none => s) s
  issueRow s t r

/-- The journal groups that the waiting writes of a row's coalescer entries take. -/
def coalGroups (s : State) (t r : Nat) (ws : List (Nat × Word)) : List (List JRec) :=
  ws.flatMap (fun w => match sget none s.sram.coal (rowKey s t r w.1) with
    | some c => c.waits.map (fun _ => [JRec.iword t w.1 r w.2])
    | none => [])

/-- The 8 coalescer entries of the word's macro are in use by other words (R386, R388). -/
def coalFull (s : State) (key : Nat) : Bool :=
  sget none s.sram.coal key == none && decide (8 ≤ (s.sram.coal.filter (fun e => macroOf e.1 == macroOf key)).length)

/-- IWRITE writes a whole row (R173). Its words pass through the coalescers, waiting for an entry where all are in use (R386,
R388). -/
def runIwrite (s : State) (c : TCmd) : Ran :=
  match indexRefusal s c false [] true with
  | some st => .ends s (some (TRsp.of st))
  | none =>
    let t := cTable c
    let r := cRow c
    let v := cRowData c &&& BitVec.ofNat 256 (2 ^ tRowW s t - 1)
    let ws : List (Nat × Word) := (List.range (rowWords s t)).map (fun j => (j, bf (64 * j) 64 v))
    let recs := ws.map (fun w => JRec.iword t w.1 r w.2)
    if (rowsHeld s [r] [] && decide (t = tBINF)) || (!tComposer s t && (rowKeys s t r).any (coalFull s)) then .wait
    else
      let (ok, s) := jAdmit s (coalGroups s t r ws ++ [recs])
      if !ok then ended s t .busyRetry
      else if tComposer s t then
        let (_, s) := composerWrite s [] t r ws (some (c.via, fill c { TRsp.of .ok with addr := BitVec.ofNat 24 r }))
        .ends s none
      else
        let s := mergeRow s t r ws
        let (j, s) := jCommit s recs true
        let s := ws.foldl (fun s w => putWord s (rowKey s t r w.1) w.2) s
        .ends s (some { TRsp.of .ok with addr := BitVec.ofNat 24 r, jsn := j })

/-- A field lies within one 64-bit word of the row (R174). -/
def fieldOk (s : State) (c : TCmd) : Bool :=
  decide (cLsb c + cWid c ≤ tRowW s (cTable c) ∧ cLsb c / 64 = (cLsb c + cWid c - 1) / 64)

/-- The mask of the field within its word. -/
def fieldMask (c : TCmd) : Word := bset (cLsb c % 64) (cWid c) 0 (2 ^ cWid c - 1)

/-- IFIELD (R175): the write merges into the coalescer entry of its word, and the command is answered at the cycle that
writes the merged word. A field of a composer table goes the way of R120. -/
def runIfield (s : State) (c : TCmd) : Ran :=
  match indexRefusal s c (!fieldOk s c) [] true with
  | some st => .ends s (some (TRsp.of st))
  | none =>
    let t := cTable c
    let r := cRow c
    let key := rowKey s t r (cLsb c / 64)
    if (peek s key).bad then ended (touchQ s key) t .poison
    else
      let rsp : TRsp := { TRsp.of .ok with addr := BitVec.ofNat 24 r }
      if tComposer s t then
        let v := fieldWord s t r (cLsb c) (cWid c) (cVal c).toNat
        let (ok, s) := jAdmit s [[JRec.iword t (cLsb c / 64) r v]]
        if !ok then ended s t .busyRetry
        else
          let (_, s) := composerWrite s [] t r [(cLsb c / 64, v)] (some (c.via, fill c rsp))
          .ends s none
      else if coalFull s key then .wait
      else
        let x := (sget none s.sram.coal key).getD ⟨0, 0, []⟩
        let m := fieldMask c
        let v := bset (cLsb c % 64) (cWid c) (0 : Word) (cVal c).toNat
        let y : Coal := { mask := x.mask ||| m, val := (x.val &&& ~~~ m) ||| v, waits := x.waits ++ [(c.via, fill c rsp)] }
        .ends { s with sram := { s.sram with coal := sput none s.sram.coal key (some y) } } none

/-- ICAS (R174): one read-modify-write, after the word's coalescer entry is issued (R387). -/
def runIcas (s : State) (c : TCmd) : Ran :=
  match indexRefusal s c (!fieldOk s c) [] true with
  | some st => .ends s (some (TRsp.of st))
  | none =>
    let t := cTable c
    let r := cRow c
    let s := issueRow s t r
    let key := rowKey s t r (cLsb c / 64)
    let cur := fieldOf s t r (cLsb c) (cWid c)
    if (peek s key).bad then ended (touchQ s key) t .poison
    else if rowsHeld s [r] [] && decide (t = tBINF) then .wait
    else if cur ≠ (cVal c).toNat % 2 ^ cWid c then
      .ends (touch s key) (some { TRsp.of .staleVersion with addr := BitVec.ofNat 24 r, res := BitVec.ofNat 64 cur })
    else
      let v := fieldWord s t r (cLsb c) (cWid c) (cNew c).toNat
      let recs := [JRec.iword t (cLsb c / 64) r v]
      let (ok, s) := jAdmit s [recs]
      if !ok then ended s t .busyRetry
      else if tComposer s t then
        let (_, s) := composerWrite s [] t r [(cLsb c / 64, v)] (some (c.via, fill c { TRsp.of .ok with addr := BitVec.ofNat 24 r, res := BitVec.ofNat 64 cur }))
        .ends s none
      else
        let (j, s) := jCommit s recs true
        .ends (putWord (touch s key) key v) (some { TRsp.of .ok with addr := BitVec.ofNat 24 r, jsn := j, res := BitVec.ofNat 64 cur })

/-- A LEARN_NOTE of kind 1 raises its line's count; the fourth report raises LINE_RECUR and sets it back (R184). -/
def learn (s : State) (p line : Nat) : State :=
  let n := (((s.update.learn.find? (fun x => x.1 == line)).map (·.2)).getD 0) + 1
  let rest := s.update.learn.filter (fun x => x.1 ≠ line)
  let v := if n ≥ 4 then 0 else n
  let s := { s with update := { s.update with learn := ((line, v) :: rest).take 16384 } }
  if n ≥ 4 then event s [p] 0x2005 line 4 else s

/-- LEARN_NOTE (R184). With every core lost it is accepted and nothing is learned from it (R42). -/
def runLearn (s : State) (c : TCmd) : Ran :=
  let kind := bn 64 8 c.s0
  let st := (firstStatus [(decide (cCont c ≠ 0 ∨ (kind ≠ 1 ∧ kind ≠ 2)), .malformed), (decide (8 ≤ c.issuer), .notOwner)]).getD .ok
  if st = .ok then .ends (if kind = 1 then (if coresServe s then learn s c.issuer (bn 128 48 c.s0) else s) else trace s 5) (some (TRsp.of .ok))
  else .ends s (some (TRsp.of st))

def execIread (e : Fin 8) (s : State) : Host.Outcome State Fault Refusal := .next (runHead s e.val 0x10 noNeed runIread)
def execIwrite (e : Fin 8) (s : State) : Host.Outcome State Fault Refusal := .next (runHead s e.val 0x11 rowNeed runIwrite)
def execIfield (e : Fin 8) (s : State) : Host.Outcome State Fault Refusal := .next (runHead s e.val 0x12 rowNeed runIfield)
def execIcas (e : Fin 8) (s : State) : Host.Outcome State Fault Refusal := .next (runHead s e.val 0x13 rowNeed runIcas)
def execLearnNote (e : Fin 8) (s : State) : Host.Outcome State Fault Refusal := .next (runHead s e.val 0x14 noNeed runLearn)

/-- COALESCER_ISSUE (R386): the coalescer entry of the word at a place is issued. -/
def execCoalescerIssue (key : Nat) (s : State) : Host.Outcome State Fault Refusal := .next (issueCoal s key)

/-- A place of a composer's copy of a generation's parity. -/
def isCompOf (par key : Nat) : Bool := decide (2 ^ 43 ≤ key ∧ key < 2 ^ 44) && decide ((key - 2 ^ 43) / 16384 % 2 = par)

/-- A word of a composer's copy is to be rewritten (R399): the contents of its home row wait for the next generation, which every
copy takes anew (R120); no row changes, so no record is made. Where the home row cannot be read either, the last contents given
to a generation stand. -/
def rewriteCopy (s : State) (key : Nat) : State :=
  let i := (key - 2 ^ 43) % 16384
  let k := rowKey s (i / 512) (i / 2 % 256) (i % 2)
  let last := ((s.search.waiting.reverse.find? (fun w => decide (w.key = k))).map (·.val)).getD (sget 0 s.search.cur k)
  let v := if (peek s k).bad then last else (peek s k).data
  { s with search := { s.search with waiting := s.search.waiting ++ [{ key := k, val := v, reply := none }] } }

/-- The current generation takes the waiting writes, and each is answered (R120, R121). The pending generation has been written
whole in every copy, so no copy of it holds an error. -/
def commitGeneration (s : State) : State :=
  let ws := s.search.waiting
  let cur := ws.foldl (fun m w => sput 0 m w.key w.val) s.search.cur
  let s := { s with search := { s.search with prev := s.search.cur, cur := cur, gen := s.search.gen + 1, waiting := [] },
                    sram := { s.sram with words := sdrop s.sram.words (isCompOf ((s.search.gen + 1) % 2)) } }
  ws.foldl (fun s w => match w.reply with | some (v, r) => answer s v r | none => s) s

/-- A token that has not retired latched the generation before the current one (R121). -/
def prevHeld (s : State) : Bool :=
  s.search.tokens.any (fun e => match e.2 with | some tk => decide (tk.gen < s.search.gen) | none => false)

/-- COMPOSER_GENERATION_COMMIT (R121): every waiting write commits in the next generation, once the previous one has no
holder. -/
def execComposerGenerationCommit (s : State) : Host.Outcome State Fault Refusal :=
  .next (if s.search.waiting.isEmpty || prevHeld s then s else commitGeneration s)

end Sys2Proof.Machine
end

