-- ==== Sys2Proof/Machine/BankCmds.lean ====
section
/-! DEFINITION. REPOINT, bank clones and retirement, and bulk streams (R75, R96 to R98, R169, R170, R177 to R183, R404). -/

namespace Sys2Proof.Machine

open Sys2Proof

/-! ## REPOINT (R169, R170, R187) -/

/-- The first entry of the table at or above a cursor: entry address × 2 + half. -/
def nextEntry (s : State) (t cursor : Nat) : Option (Loc × Entry) :=
  (tableEntries s t).find? (fun x => decide (cursor ≤ locAddr s x.1 * 2 + x.1.h))

def setRepoint (s : State) (e : Nat) (x : Option Repoint) : State := setEng s e { getEng s e with repoint := x }

/-- The cursor record of a REPOINT (R170): last entry address visited with its half, whether the command has ended, and the
JSN of its first group. -/
def cursorRec (x : Repoint) (done : Bool) : JRec :=
  .cursor (BitVec.ofNat 8 (cOpc x.cmd)) ((x.cursor - 1) / 2) ((x.cursor - 1) % 2) done x.jsn x.cmd

/-- A cursor record is placed: the point from which a reset resumes the command (R170, R187). -/
def placeCursor (s : State) (x : Repoint) : State × Repoint :=
  if jRoom s (cursorRec x false) then (jNote s (cursorRec x false), { x with saved := x.cursor }) else (s, x)

/-- A REPOINT ends: its answer, or after a reset CMD_DONE to its requester (R187). Of its many commits the answer carries the
first rewrite's JSN (DESIGN CHOICE, log entry 46). -/
def rpEnd (s : State) (e : Nat) (x : Repoint) (r : TRsp) : State :=
  let s := setRepoint (popQueue s e) e none
  let r := { r with res := BitVec.ofNat 64 x.count, jsn := x.jsn }
  if x.resumed then
    let q := if cOpc x.cmd = 0x4C then x.cmd.issuer else tOwner s (rpSpec x.cmd).table
    event s [q] 0x2008 ((rpSpec x.cmd).table + 256 * cOpc x.cmd) x.count
  else answer s x.cmd.via (fill x.cmd r)

/-- The reservations of one rewrite of a REPOINT (R158, R228). -/
def rpNeed (s : State) (p : RpSpec) (en : Entry) (old : Word) : List Nat :=
  resLink s p.table old ++ resLink s p.table (rpNew p old) ++ resBanks s p.table (dirsFor s p.table en.care en.val)

/-- The index rows that a REPOINT holds from before its checks to its end: of LOG_REPOINT the BINF rows of its two blocks (R228). -/
def rpRows (c : TCmd) : List Nat := if cOpc c = 0x4C then sortNat [resRow tBINF (cPA c), resRow tBINF (cPB c)] else []

/-- A REPOINT waits with the reservations of its rewrite beside its rows, up to the first that another engine holds (R158, R321). -/
def rpHold (s : State) (e : Nat) (c : TCmd) (need : List Nat) : State :=
  setEng s e { getEng s e with held := (sortNat (rpRows c ++ need)).takeWhile (fun r => !resTaken s e r) }

/-- The rewrite of the entry that stands at l as a WRITE by key (R169); an entry that a WRITE by key does not find is none of
the table's any more, and is passed over. -/
def rpWrite (s : State) (e : Nat) (x : Repoint) (en : Entry) (old : Word) : Option Ran :=
  let p := rpSpec x.cmd
  let tag := en.side.tag.toNat
  match findEntry (setRepoint s e none) p.table en.care en.val tag (dirsFor s p.table en.care en.val) with
  | ([], _) => none
  | (ls, s0) => some (rewrite s0 e p.table en.care en.val tag (rpNew p old) ls Extra.none false false)

/-- The entry of a REPOINT has been rewritten, or refused (R170): the cursor goes on, with its record after every 1,024
rewrites; or the command ends with the refusal and the entry's address. -/
def rpDone (s1 : State) (e : Nat) (x : Repoint) (l : Loc) (here : Nat) (r : TRsp) : State × Repoint × Option TRsp :=
  let s1 := setEng s1 e { getEng s1 e with moves := 0, held := rpRows x.cmd }
  if r.st = .ok then
    let y := { x with cursor := here + 1, count := x.count + 1, jsn := if x.jsn = 0 then r.jsn else x.jsn }
    let s1 := countT s1 (rpSpec x.cmd).table 9 1
    let (s1, y) := if y.count % 1024 = 0 then placeCursor s1 y else (s1, y)
    (setRepoint s1 e (some y), y, none)
  else (setRepoint s1 e (some x), x, some ((TRsp.of r.st).withLoc s1 l))

/-- What a REPOINT does after the rewrite of one entry: passes an entry that was not found, waits, or ends the entry. While moves
drain it starts again at the entry, which may itself have moved below the cursor. -/
def rpAfter (s : State) (e : Nat) (x : Repoint) (l : Loc) (en : Entry) (need : List Nat) (w : Option Ran) : State × Repoint × Option TRsp × Bool :=
  let here := locAddr s l * 2 + l.h
  match w with
  | none => (rpHold s e x.cmd [], { x with cursor := here + 1 }, none, false)
  | some .wait => (rpHold s e x.cmd need, x, none, true)
  | some (.stays s1 n) =>
    let low := (placesOf s1 (rpSpec x.cmd).table en.care en.val en.side.tag.toNat).foldl (fun m k => min m (locAddr s1 k * 2 + k.h)) here
    let y : Repoint := { x with cursor := low }
    (setRepoint (rpHold (setEng s1 e { getEng s1 e with moves := (getEng s1 e).moves + n }) e x.cmd need) e (some y), y, none, true)
  | some (.ends s1 r) =>
    match rpDone s1 e x l here (r.getD (TRsp.of .ok)) with
    | (s2, y, r2) => (s2, y, r2, false)

/-- The visit of one entry: skipped, or rewritten as a WRITE by key with its own commit. It gives the state, the cursor, and the
answer of a refusal; the flag says that the engine must wait. An entry whose result word is uncorrectable is reported and
passed over, as one whose field cannot be read (DESIGN CHOICE, log entry 46). -/
def rpVisit (s : State) (e : Nat) (x : Repoint) (l : Loc) (en : Entry) : State × Repoint × Option TRsp × Bool :=
  let p := rpSpec x.cmd
  let o := resAt s l
  let here := locAddr s l * 2 + l.h
  let past := { x with cursor := here + 1 }
  if o.bad then (touchQ s (resKey s l), past, none, false)
  else
    let s := touch s (resKey s l)
    if !(inScope p.scopeKey p.scopeMask en && rpHits p o.data) then (s, past, none, false)
    else
      let need := rpNeed s p en o.data
      if need.any (resTaken s e) || (keyBanks s p.table en.care en.val).any (frozenAt s p.table) then (rpHold s e x.cmd need, x, none, true)
      else
        match rpWrite s e x en o.data with
        | some .wait => rpAfter (settleGates s) e x l en need (rpWrite (settleGates s) e x en o.data)
        | w => rpAfter s e x l en need w

/-- At most budget further entries of the running REPOINT of engine e. -/
def rpRun (e : Nat) : Nat → State → Repoint → State
  | 0, s, x => setRepoint s e (some x)
  | k + 1, s, x =>
    match nextEntry s (rpSpec x.cmd).table x.cursor with
    | none => rpEnd (jNote s (cursorRec x true)) e x (TRsp.of .ok)
    | some (l, en) =>
      match rpVisit s e x l en with
      | (s, y, _, true) => setRepoint s e (some y)
      | (s, y, none, false) => rpRun e k s y
      | (s, y, some r, false) => rpEnd (if y.saved = 0 then s else jNote s (cursorRec y true)) e y r

/-- Engine e holds the index rows of a REPOINT, or takes them now (R228); none where another engine or a drain holds one. -/
def rpTake (s : State) (e : Nat) (c : TCmd) : Option State :=
  if (rpRows c).all (getEng s e).held.contains then some s
  else if (rpRows c).any (resTaken s e) || rowsHeld s [cPA c, cPB c] [] then none
  else some (setEng s e { getEng s e with held := rpRows c })

/-- A REPOINT starts or goes on (R170), holding its rows. check says why it may not start, with what its reads report; first is
what its first group holds. -/
def rpStep (s : State) (e opc budget : Nat) (check : State → TCmd → Option Status × State) (first : State → TCmd → List JRec) : State :=
  match headCmd s e opc with
  | none => s
  | some c =>
    let s := if c.issuer < 8 then serveRepairs s e else s
    if (getEng s e).record.isSome then s else
    match rpTake s e c, (getEng s e).repoint with
    | none, _ => rpHold s e c []
    | some s, some x => rpRun e budget s x
    | some s, none =>
      match check s c with
      | (some st, s) => answer (popQueue (if st = .busyRetry then countBusy s c else s) e) c.via (fill c (TRsp.of st))
      | (none, s) =>
        let recs := first s c
        if recs.isEmpty then rpRun e budget s ⟨c, 0, 0, 0, 0, false⟩
        else
          let (ok, s) := jAdmit s [recs]
          if !ok then answer (popQueue (countBusy s c) e) c.via (fill c (TRsp.of .busyRetry))
          else
            let (j, s) := jCommit s recs true
            rpRun e budget s ⟨c, 0, 0, 0, j, false⟩

/-- The refusals of REPOINT by rules 1 to 3: its fields lie within the result word. -/
def rpCheck (s : State) (c : TCmd) : Option Status × State :=
  (entryRefusal s c (decide (64 < (rpSpec c).lsb + (rpSpec c).wid ∨ 64 < (rpSpec c).klsb + (rpSpec c).kwid)) [] true, s)

/-- REPOINT: engine e runs the REPOINT at the head of its queue over at most budget further entries. -/
def execRepoint (e : Fin 8) (budget : Nat) (s : State) : Host.Outcome State Fault Refusal :=
  .next (rpStep s e.val 6 budget rpCheck (fun _ _ => []))

/-! ## Bank clones (R96 to R98, R177, R178) -/

/-- The bank belongs to a table of 192-trit entries, whose banks go in pairs (R53). -/
def isPair (s : State) (b : Nat) : Bool :=
  match bankTable s b with
  | some t => decide (tKind s t = 1 ∧ tWidth s t = 2)
  | none => false

/-- The banks that a bank command names: both of a 192-trit pair (R177). -/
def bankPair (s : State) (b : Nat) : List Nat := if isPair s b then [b, b + 1] else [b]

/-- Banks that running operations on other banks than b have taken (R561). -/
def claimed (s : State) (b : Nat) : List Nat :=
  s.waitos.ops.flatMap (fun e => match e.2 with | some x => if x.state = 0 ∧ x.data.contains b = false then x.data else [] | none => [])

/-- Every bank of a replacement that starts at x is taken by no other operation, and stands in the octant of bank b and in this
state (R96, R97). -/
def replaces (s : State) (b : Nat) (st : BitVec 4) (x : Nat) : Bool :=
  (if isPair s b then [x, x + 1] else [x]).all (fun y => decide (y < 2112) && !(claimed s b).contains y && octantOf (siteOf s y) == octantOf (siteOf s b) && bankState s y == st)

/-- The replacement bank of R96: the lowest-numbered SPARE of the octant, or else its lowest-numbered FREE bank. R96 names one
bank: the odd bank of a 192-trit pair goes to the bank beside the even one's destination, so the lowest-numbered one with such
a neighbour is taken (DESIGN CHOICE, log entry 107). -/
def replacement (s : State) (b : Nat) : Option Nat :=
  match (List.range 2112).find? (replaces s b 2) with
  | some x => some x
  | none => (List.range 2112).find? (replaces s b 0)

/-- A destination that BANK_CLONE admits (R177), and a source: IN_USE, and of a pair the even bank. -/
def cloneDestOk (s : State) (src dst : Nat) (copy : Bool) : Bool :=
  (bankPair s src).all (fun b => bankState s b == 1) && (!isPair s src || decide (src % 2 = 0)) &&
    (if copy then (if isPair s src then [dst, dst + 1] else [dst]).all (fun y => decide (y < 2112) && bankState s y == 0)
     else decide (replacement s src = some dst))

/-- The banks of a clone, each with its destination. -/
def clonePairs (s : State) (c : Clone) : List (Nat × Nat) := (bankPair s c.src).zipIdx.map (fun x => (x.1, c.dst + x.2))

/-- The save stops clones, scrub, self-tests, sparing and re-derivation (R438). -/
def saving (s : State) : Bool := decide (s.holdup.ph ≠ 0)

/-- The destination of a clone takes every write of its source from here on, and is CLONE_DEST (R178). -/
def mirrorOn (s : State) (c : Clone) : State :=
  let s := { s with tcam := { s.tcam with mirror := smod [] s.tcam.mirror c.src (· ++ [(c.dst, c.copy)]) } }
  (bankPair s c.src).zipIdx.foldl (fun s x => setBankState s (c.dst + x.2) 3) s

/-- The state of a clone's destination, its mirror and the clone record, at the start of a clone (R178). -/
def startClone (s : State) (e : Nat) (c : Option TCmd) (src dst : Nat) (copy : Bool) : State :=
  let (j, s) := jCommit s [.bank 1 src dst 0 3] true
  let c : Clone := ⟨src, dst, copy, c, bankState s dst, bankState s (dst + 1), j, 0, false⟩
  setEng (mirrorOn s c) e { getEng s e with clone := some c }

/-- The first row from lo on of bank b with a valid entry of bad parity: a clone halts there (R404). -/
def badFrom (s : State) (t b lo : Nat) : Option Nat :=
  ((liveEntries s t b).find? (fun (r, _, e) => decide (lo ≤ r) && !parityOk e)).map (·.1)

/-- Rows lo to hi - 1 of site a replace those of site b, side fields with them (R178). -/
def copyRows (s : State) (a b lo hi : Nat) : State :=
  let kept := sdrop s.tcam.rows (fun k => decide (b * 4096 + lo ≤ k ∧ k < b * 4096 + hi))
  let rows := (siteRows s a).foldl (fun m (r, x) => if lo ≤ r ∧ r < hi then sput TRow.blank m (b * 4096 + r) x else m) kept
  { s with tcam := { s.tcam with rows := rows } }

/-- The result slots of bank a's rows lo to hi - 1 are copied to bank b's (R75, R178). -/
def copySlots (s : State) (t a b lo hi : Nat) : State :=
  ((bankEntries s (tWidth s t) (siteOf s a) (siteOf s (a + 1))).filter (fun x => decide (lo ≤ x.1 ∧ x.1 < hi))).foldl (fun s (r, h, _) =>
    [0, 1].foldl (fun s j => let x := carried s (kSlot a r h j); putCw x.2 (kSlot b r h j) x.1) s) s

/-- The cursor records of a clone: one after every 512 rows (R178). -/
def cloneCursors (s : State) (c : Clone) (hi : Nat) : State :=
  ((List.range 9).filter (fun k => decide (c.row < 512 * k ∧ 512 * k ≤ hi))).foldl (fun s k => jNote s (.bank 2 c.src c.dst (512 * k) 3)) s

/-- A bank of the clone stands in a frozen group, where it is granted nothing (R312). -/
def cloneFrozen (s : State) (c : Clone) : Bool :=
  decide (s.arbs.dfrz ≠ 0) && (clonePairs s c).any (fun x => bankFrozen s (siteOf s x.1) || bankFrozen s (siteOf s x.2))

/-- The clone of engine e copies rows in ascending order from its row cursor on, up to a row with bad parity (R178, R404); at a
frozen bank it waits. -/
def advanceClone (s : State) (e : Nat) : State :=
  match (getEng s e).clone with
  | none => s
  | some c =>
    if cloneFrozen s c then s else
    let t := (bankTable s c.src).getD 0
    let hi := (badFrom s t c.src c.row).getD 4096
    let s := (clonePairs s c).foldl (fun s x => copyRows s (siteOf s x.1) (siteOf s x.2) c.row hi) s
    let s := cloneCursors (if c.copy then copySlots s t c.src c.dst c.row hi else s) c hi
    setEng s e { getEng s e with clone := some { c with row := hi } }

/-- BANK_CLONE starts (R177, R178): writes are mirrored from here on, and the rows are copied, as far as they are sound. -/
def runClone (e : Nat) (s : State) (c : TCmd) : Ran :=
  let src := cBank c
  let dst := cBank2 c
  let copy := cMode c % 2 = 1
  match firstStatus [(decide (cCont c ≠ 0 ∨ 2112 ≤ src ∨ 2112 ≤ dst), .malformed), (decide (c.issuer ≠ qFW), .notOwner), (!cloneDestOk s src dst copy, .malformed)] with
  | some st => .ends s (some (TRsp.of st))
  | none =>
    if (getEng s e).clone.isSome || saving s then .wait
    else
      let (ok, s) := jAdmit s [[.bank 1 src dst 0 3]]
      if !ok then .ends s (some (TRsp.of .busyRetry))
      else .ends (advanceClone (startClone s e (some c) src dst copy) e) none

/-- The reservations of BANK_CLONE's start: the source, whose entries it reads, and the destination (R158). -/
def cloneNeed (s : State) (c : TCmd) : List Nat :=
  sortNat (((bankPair s (cBank c)) ++ (if isPair s (cBank c) then [cBank2 c, cBank2 c + 1] else [cBank2 c])).map resBank)

def execBankClone (e : Fin 8) (s : State) : Host.Outcome State Fault Refusal := .next (runHead s e.val 8 cloneNeed (runClone e.val))

/-- A clone's destination takes no more writes of its source. -/
def dropMirror (s : State) (dst : Nat) : State :=
  { s with tcam := { s.tcam with mirror := s.tcam.mirror.filterMap (fun m =>
      let l := m.2.filter (fun d => decide (d.1 ≠ dst))
      if l.isEmpty then none else some (m.1, l)) } }

/-- A bank that goes back to FREE or SPARE holds no entry any more, so that a later owner finds none (log entry 108). -/
def clearSite (s : State) (site : Nat) : State :=
  { s with tcam := { s.tcam with rows := sdrop s.tcam.rows (fun k => decide (k / 4096 = site)) } }

/-- A bank belongs to a table, or to none. -/
def setBankTable (s : State) (b : Nat) (t : Option Nat) : State :=
  { s with tcam := { s.tcam with table := sput 0 s.tcam.table b (match t with | some x => x + 1 | none => 0) } }

/-- Each H bit of site b is set whose counterpart at site a is set (R178). -/
def carrySiteH (s : State) (a b : Nat) : State :=
  (siteRows s a).foldl (fun s x =>
    let y := getRow s b x.1
    setRow s b x.1 { y with s0 := { y.s0 with h := y.s0.h || x.2.s0.h }, s1 := { y.s1 with h := y.s1.h || x.2.s1.h } }) s

/-- The records that end one bank's clone: in COPY mode a LIVE record on BANKS (R507), in MOVE mode the bank-map move, which
states the site that each of the two numbers has from now on, and the state of the destination's number (R422, R425). -/
def cloneRec (s : State) (t src dst : Nat) (copy : Bool) : List JRec :=
  if copy then [.live 2 (2 * dst) 0 (bytesOfNat 2 (t + 32))] else [.bank 3 src (siteOf s dst) 0 0, .bank 3 dst (siteOf s src) 0 0, .bank 4 dst 0 0 4]

/-- The end of one bank's clone (R178), its record first: in MOVE mode the bank map moves the logical number; in COPY mode the
destination belongs to the source's table, and goes on taking the source's writes until a directory write makes it a replica
(R75). -/
def endClone (s : State) (t src dst : Nat) (copy : Bool) : State :=
  let s := (jCommit s (cloneRec s t src dst copy) true).2
  if copy then setBankState (setBankTable s dst (some t)) dst 1 else swapSites s src dst

/-- An issued step still probes a site, or its odd bank where the step's entries take two (R98, R407). -/
def siteProbed (s : State) (pair : Bool) (a : Nat) : Bool :=
  let at_ := fun (x y : Nat) => decide (x = a) || (pair && decide (y = a))
  s.search.tokens.any (fun e => match e.2 with
    | some tk => tk.steps.any (fun x => (x.ph == .issued || x.ph == .disagree) && x.banks.any (fun k => at_ k.site k.odd || (match k.twin with | some y => at_ y.2.1 y.2.2 | none => false)))
    | none => false)

/-- The H bits that searches have set at the old site follow the number, and the old site is TESTING (R178). -/
def leaveSite (s : State) (src dst : Nat) : State := setBankState (carrySiteH s (siteOf s dst) (siteOf s src)) dst 4

/-- The last steps of a clone that has been written: once no search probes an old site (R407), they are left, and the command is
answered. -/
def cloneLeft (s : State) (e : Nat) (c : Clone) : State :=
  let ps := clonePairs s c
  if !c.copy && ps.any (fun x => siteProbed s (isPair s c.src) (siteOf s x.2)) then s
  else
    let s := if c.copy then s else ps.foldl (fun s x => leaveSite s x.1 x.2) s
    let s := setEng s e { getEng s e with clone := none }
    match c.cmd with
    | some m => answer s m.via (fill m { TRsp.of .ok with jsn := c.jsn })
    | none => s

/-- Nothing governs the source: no gated change holds its selectors. -/
def ungoverned (s : State) (b : Nat) : Bool := decide (freeSels s b = 2)

/-- CLONE_COMPLETE (R178): the rows that the cursor has not passed are copied; when every row has been, the clone of engine e
ends, with its answer. It waits while a gated change holds the source, while a row is bad (R404), and for room in the journal. -/
def cloneComplete (s : State) (e : Nat) : State :=
  if saving s then s
  else
    let s := advanceClone s e
    match (getEng s e).clone with
    | none => s
    | some c =>
      let t := (bankTable s c.src).getD 0
      let ps := clonePairs s c
      let (ok, s1) := jAdmit s (ps.map (fun x => cloneRec s t x.1 x.2 c.copy))
      if c.moved then cloneLeft s e c
      else if !ok || cloneFrozen s c || decide (c.row < 4096) || ps.any (fun x => !ungoverned s x.1) then s
      else
        let s := ps.foldl (fun s x => endClone s t x.1 x.2 c.copy) s1
        let s := if c.copy then s else dropMirror s c.dst
        let c := { c with moved := true, jsn := s.journal.last }
        cloneLeft (setEng s e { getEng s e with clone := some c }) e c

def execCloneComplete (e : Fin 8) (s : State) : Host.Outcome State Fault Refusal := .next (cloneComplete s e.val)

/-! ## Bank retirement (R179, R382 to R384) -/

/-- A field repair record with its CHK: XOR of bytes 0 to 6 (R383). -/
def withChk (r : Word) : Word :=
  let chk := (toBytes 7 r).foldl (· ^^^ ·) 0
  chk ++ (bf 0 56 r)

/-- Whether a copy of a field repair record has a correct CHK (R383). -/
def recValid (r : Word) : Bool := decide (bn 0 2 r ≠ 0) && withChk r == r

/-- The copy of a field repair record that counts (R383). -/
def recChosen (r : RepairRec) : Option Word := if recValid r.c0 then some r.c0 else if recValid r.c1 then some r.c1 else none

/-- The site map that bank-site records make from the factory numbering (R382): site of a logical bank. -/
def siteByRecs (rs : List Word) (b : Nat) : Nat :=
  rs.foldl (fun x r =>
    if bn 0 2 r = 3 then
      let a := bn 2 12 r
      let c := bn 14 12 r
      if x = a then c else if x = c then a else x
    else x) b

/-- The records in force: factory, then field, then those that wait to be programmed. -/
def allRecs (s : State) : List Word := s.fuses.factory ++ s.fuses.field.filterMap recChosen ++ s.integ.repairs

/-- The bank-site record of a retirement of bank b: its site, and the site that b would have without it. -/
def siteRec (s : State) (b : Nat) : Word :=
  withChk (bput 64 0 3 ||| bput 64 2 (siteOf s b) ||| bput 64 14 (siteByRecs (allRecs s) b) ||| bput 64 32 s.clock.epoch.toNat)

/-- A bank-list entry of a valid directory entry names the bank, as its own or as the twin of a paired table's (R69, R85); an entry
of the list that stands unused at 0 names none. -/
def bankNamed (s : State) (b : Nat) : Bool :=
  (s.marker.dirA.map (·.1)).any (fun d =>
    let x := dirEntry s d
    dValid x && (List.range (dRepl x * dSpan x)).any (fun i => let a := listAt s (dList x + i); decide (a = b) || (tPaired s (dTnum x) && decide (twinOf a = b)))) ||
  s.marker.list.any (fun e => e.2 == b)

/-- The state that BANK_RETIRE gives a bank in a mode; none where it is MALFORMED (R179). -/
def retireState (s : State) (b mode : Nat) : Option (BitVec 4) :=
  let st := bankState s b
  if mode = 0 then (if st = 4 ∨ st = 0 then some 5 else none)
  else if mode = 1 then (if st = 4 then some (if b ≥ 2048 then 2 else 0) else none)
  else if mode = 2 then
    (if st = 1 ∧ !bankNamed s b = true ∧ !(s.marker.releases.any (fun r => r.2.2.contains b)) = true then some 0 else none)
  else none

/-- A bank is retired or returned: its state, the record of a permanent retirement, and its table (R179). -/
def retireBank (s : State) (b mode : Nat) (st : BitVec 4) : State :=
  let s := (jCommit s [.bank 4 b 0 0 st.toNat] true).2
  let s := if mode = 0 then { s with integ := { s.integ with repairs := s.integ.repairs ++ [siteRec s b] } } else clearSite s (siteOf s b)
  setBankTable (setBankState (dropMirror s b) b st) b none

/-- BANK_RETIRE (R179). -/
def runRetire (s : State) (c : TCmd) : Ran :=
  let b := cBank c
  match firstStatus [(decide (cCont c ≠ 0) || !decide (b < 2112), .malformed), (decide (c.issuer ≠ qFW), .notOwner), ((retireState s b (cMode c)).isNone, .malformed)] with
  | some st => .ends s (some (TRsp.of st))
  | none =>
    let (ok, s) := jAdmit s [[.bank 4 b 0 0 0]]
    if !ok then .ends s (some (TRsp.of .busyRetry))
    else
      let s := retireBank s b (cMode c) ((retireState s b (cMode c)).getD 0)
      .ends s (some { TRsp.of .ok with jsn := s.journal.last })

def execBankRetire (e : Fin 8) (s : State) : Host.Outcome State Fault Refusal := .next (runHead s e.val 9 (fun _ c => [resBank (cBank c)]) runRetire)

/-! ## Bulk streams (R180 to R183) -/

/-- BULK_OPEN (R180). FW and SB open DUMP streams of their own numbering, which their register sets deliver (log entry 16). -/
def runBulkOpen (e : Nat) (s : State) (c : TCmd) : Ran :=
  match entryRefusal s c (cDir c = 3) (if cDir c = 2 then [qFW, qSB] else []) (cDir c ≠ 2) with
  | some st => .ends s (some (TRsp.of st))
  | none =>
    let x := getStream s c.issuer (cStream c)
    if x.isOpen then ended s (cTable c) .busyRetry
    else
      .ends (setStream s c.issuer (cStream c) { Stream.reset with isOpen := true, table := cTable c, dir := BitVec.ofNat 2 (cDir c), replace := cStreamReplace c, eng := e })
        (some (TRsp.of .ok))

def execBulkOpen (e : Fin 8) (s : State) : Host.Outcome State Fault Refusal := .next (runHead s e.val 0x0A noNeed (runBulkOpen e.val))

/-- BULK records of the port that have arrived and are not applied. -/
def bulkWaits (s : State) (p : Nat) : Bool := !((sget [] (getPort s p).ingress cBULK).isEmpty)

/-- BULK_CLOSE (R183), answered once every record received before it has been applied. -/
def runBulkClose (s : State) (c : TCmd) : Ran :=
  let x := getStream s c.issuer (cStream c)
  if cCont c ≠ 0 ∨ tKind s (cTable c) ≠ 1 ∨ x.isOpen = false ∨ x.table ≠ cTable c then .ends s (some (TRsp.of .malformed))
  else if c.issuer < 8 ∧ bulkWaits s c.issuer = true then .wait
  else
    .ends (setStream s c.issuer (cStream c) Stream.reset)
      (some { TRsp.of .ok with res := BitVec.ofNat 64 (x.committed % 2 ^ 32 + x.rejected % 2 ^ 32 * 2 ^ 32) })

def execBulkClose (e : Fin 8) (s : State) : Host.Outcome State Fault Refusal := .next (runHead s e.val 0x0B noNeed runBulkClose)

/-- The stream and record sequence number of a BULK slot (R181). -/
def bStream (x : Slot) : Nat := bn 16 2 x
def bSeq (x : Slot) : Nat := bn 18 14 x

/-- The command that a record of a stream stands for (R181): opcode by direction, flags of its own layout cleared. -/
def recordCmd (p : Nat) (st : Stream) (a b c : Slot) : TCmd :=
  let flags := mkSlot [(0, cTCMD), (4, bn 4 2 a), (8, if st.dir = 0 then 1 else 2), (26, if st.replace then 1 else 0)]
  { issuer := p, via := .bulk p (bStream a) (bSeq a), s0 := (a &&& ~~~ (bput 256 0 0xFFFFFFFF)) ||| flags, s1 := b, s2 := c }

/-- Slots of one class cut into records, each of as many slots as its first slot's CONT says; k bounds how many. -/
def cutRecords : Nat → List Slot → List (List Slot)
  | 0, _ => []
  | _, [] => []
  | k + 1, a :: rest => (a :: rest.take (bn 4 2 a)) :: cutRecords k (rest.drop (bn 4 2 a))

/-- The records of port p's BULK ingress, in arrival order. -/
def bulkRecords (s : State) (p : Nat) : List (List Slot) :=
  let q := sget [] (getPort s p).ingress cBULK
  cutRecords q.length q

/-- The i-th record of port p's BULK ingress is taken, and its credits freed (R274). -/
def takeBulk (s : State) (p i : Nat) : State :=
  let rs := bulkRecords s p
  freeCredit (modPort s p (fun x => { x with ingress := sput [] x.ingress cBULK (rs.eraseIdx i).flatten })) p cBULK (rs.getD i []).length

/-- How far a record's sequence number lies beyond the last one applied of its stream, modulo 16,384 (R181). -/
def seqAhead (x : Stream) (r : List Slot) : Nat := (bSeq (r.headD 0) + 16384 - x.seq % 16384) % 16384

/-- The waiting record of stream k that comes next in sequence order (R181). -/
def nextRecord (s : State) (p k : Nat) : Option (Nat × List Slot) :=
  let x := getStream s p k
  ((bulkRecords s p).zipIdx.filter (fun r => decide (bStream (r.1.headD 0) = k))).foldl (fun (best : Option (Nat × List Slot)) r =>
    match best with
    | none => some (r.2, r.1)
    | some b => if seqAhead x r.1 < seqAhead x b.2 then some (r.2, r.1) else some b) none

/-- The record of engine e of port p's stream k waits: it holds its reservations up to the first that another engine holds, and
the n moves more that it has committed are its (R158, R160). -/
def holdRecord (s : State) (e p k n restarts : Nat) (need : List Nat) : State :=
  setEng s e { getEng s e with moves := (getEng s e).moves + n, restarts := restarts, record := some (p * 4 + k), held := need.takeWhile (fun r => !resTaken s e r) }

/-- A record is the one that the engine has begun, or may begin: no other record and no command of its queue holds anything. -/
def recordTurn (x : Engine) (me : Nat) : Bool := x.record == some me || (x.record.isNone && x.held.isEmpty && x.moves == 0)

/-- A record's kind bits name an entry record, and each continuation slot is its stream's and sequence number's, as a TCMD's is of
its command tag (R144, R181, R272). -/
def recordWhole (r : List Slot) : Bool := decide (bn 6 2 (r.headD 0) = 0) && (r.drop 1).all (fun x => bn 16 16 x == bn 16 16 (r.headD 0))

/-- What running a record as its command gives. -/
def tryRecord (st : Stream) (c : TCmd) (whole : Bool) (s : State) : Ran :=
  if cTable c ≠ st.table || !whole then Ran.ends s (some (TRsp.of .malformed))
  else if st.dir = 0 then runInsert st.eng s c else runDelete false st.eng s c

/-- A record has been applied or rejected: it is taken from the port's ingress, and answered on its stream. -/
def endRecord (s : State) (p i : Nat) (st : Stream) (a : Slot) (c : TCmd) (r : TRsp) : State :=
  let s := takeBulk (dropRecordOf s st.eng) p i
  answer (setStream s p (bStream a) { getStream s p (bStream a) with seq := bSeq a + 1 }) c.via r

/-- A record that holds its reservations runs. -/
def heldRecord (s : State) (p i restarts : Nat) (st : Stream) (a : Slot) (c : TCmd) (whole : Bool) : State :=
  let hold := fun (s : State) (n : Nat) => holdRecord s st.eng p (bStream a) n restarts (entryNeed s c)
  let fin := fun (s : State) (x : Ran) => match x with
    | .wait => hold s 0
    | .stays s n => hold s n
    | .ends s r => endRecord s p i st a c (r.getD (TRsp.of .ok))
  match tryRecord st c whole s with
  | .wait => let s := settleGates s; fin s (tryRecord st c whole s)
  | x => fin s x

/-- Record i of port p's BULK ingress, of stream st, is run as its command by the stream's engine (R34), which takes its reservations
as for a command (R158, R321) and waits at a frozen bank (R312). A record that is not whole is MALFORMED. -/
def runRecord (s : State) (p i : Nat) (st : Stream) (r : List Slot) : State :=
  let a := r.headD 0
  let c := recordCmd p st a (r.getD 1 0) (r.getD 2 0)
  let s := serveRepairs s st.eng
  let x := getEng s st.eng
  let ns := entryNeed s c
  let n := if mustRestart x ns then x.restarts + 1 else x.restarts
  if !recordTurn x (p * 4 + bStream a) then s
  else if 4 ≤ n then endRecord (countBusy s c) p i st a c (TRsp.of .busyRetry)
  else if ns.any (resTaken s st.eng) || waitsFrozen s c then holdRecord s st.eng p (bStream a) 0 n ns
  else heldRecord s p i n st a c (recordWhole r)

/-- BULK_RECORD (R181): of the stream whose record stands at the head of port p's BULK ingress, the waiting record that comes
next in sequence order is applied as its command; the record at the head is discarded when its stream is not open. -/
def bulkRecord (s : State) (p : Nat) : State :=
  match bulkRecords s p with
  | [] => s
  | r :: _ =>
    let k := bStream (r.headD 0)
    let st := getStream s p k
    if !st.isOpen || st.dir = 2 then badSlot (takeBulk s p 0) p
    else
      match nextRecord s p k with
      | none => s
      | some (i, x) => runRecord s p i st x

def execBulkRecord (p : Fin 8) (s : State) : Host.Outcome State Fault Refusal := .next (bulkRecord s p.val)

/-- The end-of-dump slot (R272). -/
def endOfDump (k n : Nat) : Slot := mkSlot [(0, cBULK), (6, 2), (16, k), (64, n)]

/-- A DUMP entry record: a READ TRSP with class BULK and the stream and sequence number (R272). -/
def dumpSlots (k seq : Nat) (r : TRsp) : List Slot :=
  (packTrsp r).map (fun x => (x &&& ~~~ (bput 256 0 0xF) &&& ~~~ (bput 256 16 0xFFFF)) ||| mkSlot [(0, cBULK), (16, k), (18, seq % 16384)])

/-- The register set of FW or SB, codes 8 and 9. -/
def dumpSet (s : State) (p : Nat) : RegSet := if p = qFW then s.update.set0 else s.update.set1

/-- A DUMP stream delivers an entry: on its port as a record, to FW and SB as a READ answers their register set, which takes the
next one when it is not BUSY (R182, R190; log entry 16). -/
def dumpOut (s : State) (p k seq : Nat) (r : TRsp) : State :=
  if p < 8 then send s p (dumpSlots k seq { r with opc := 5 }) else answer s (.regset (p - 8)) { r with opc := 5 }

/-- DUMP_ENTRY (R182): the stream sends its next entry from its own read-back, or closes itself after the last. A bad
entry halts the channel, which CHANNEL_HALT completes (R404). -/
def dumpEntry (s : State) (p k : Nat) : State :=
  let x := getStream s p k
  if !x.isOpen || x.dir ≠ 2 || (decide (8 ≤ p) && (dumpSet s p).busy) then s
  else
    match nextEntry s x.table x.pos with
    | none =>
      let s := setStream s p k Stream.reset
      if p < 8 then send s p [endOfDump k x.sent] else s
    | some (l, en) =>
      let b := primaryBank s l
      if !parityOk en || (peek s (kSlot b l.r l.h 0)).bad || frozenAt s x.table b then s
      else
        match readEntry s x.table b l with
        | .ends s (some r) =>
          dumpOut (setStream s p k { x with pos := locAddr s l * 2 + l.h + 1, sent := x.sent + 1, seq := x.seq + 1 }) p k x.seq r
        | _ => s

def execDumpEntry (p : Fin 10) (k : Fin 4) (s : State) : Host.Outcome State Fault Refusal := .next (dumpEntry s p.val k.val)

end Sys2Proof.Machine
end

