-- ==== Sys2Proof/Machine/Lifecycle.lean ====
section
/-! DEFINITION. Media lifecycle commands: binding, migration, log blocks, conditioning, refresh, rebuild, overlays (R192 to R255). -/

namespace Sys2Proof.Machine

open Sys2Proof

/-! ## Rows of the reference structure (R203 to R206, R231) -/

/-- The partner port of a stripe group and of a physical stripe-block (R223). -/
def portOfGroup (g : Nat) : Nat := g / 30
def portOfBlock (pa : Nat) : Nat := portOfGroup (pa / 2 ^ 15)

def bmap (s : State) (l : Nat) : Word := (peek s (rowKey s tBMAP l 0)).data
def bmPsb (x : Word) : Nat := bn 0 24 x
def bmState (x : Word) : Nat := bn 24 4 x
def bmBaste (x : Word) : Nat := bn 28 8 x
def bmRot (x : Word) : Nat := bn 36 12 x

/-- A block that is never allocated, and stands RETIRED: block 0 (R205) and block index 0x7FFF of every stripe group (R225). -/
def unusable (pa : Nat) : Bool := decide (pa = 0) || decide (pa % 2 ^ 15 = 0x7FFF)

def binf (s : State) (pa : Nat) : Word := (peek s (rowKey s tBINF pa 0)).data
def biWear (x : Word) : Nat := bn 0 24 x
def biEpoch (x : Word) : BitVec 16 := bf 24 16 x
def biState (x : Word) : Nat := bn 40 4 x
def biRef (x : Word) : Nat := bn 48 16 x
def setBiState (x : Word) (st : Nat) : Word := bset 40 4 x st
def setBiEpoch (x : Word) (e : BitVec 16) : Word := bset 24 16 x e.toNat

def mig0 (s : State) (r : Nat) : Word := (peek s (rowKey s tMIG r 0)).data
def mig1 (s : State) (r : Nat) : Word := (peek s (rowKey s tMIG r 1)).data
def miSrc (x : Word) : Nat := bn 0 24 x
def miStep (x : Word) : Nat := bn 40 4 x
def miTgt (y : Word) : Nat := bn 0 23 y
def miCursor (y : Word) : Nat := bn 23 13 y

def sht (s : State) (g : Nat) : Word := (peek s (rowKey s tSHT g 0)).data
def shFmem (x : Word) : Nat := bn 0 5 x
def shSpare (x : Word) : Nat := bn 5 4 x
def shRblk (x : Word) : Nat := bn 9 15 x
def shNosp (x : Word) : Bool := bit 28 x

/-- A side record that holds nothing. -/
def MigSide.zero : MigSide := ⟨0, false, 0, 0, 0, 0⟩
def migSide (s : State) (r : Nat) : MigSide := sget MigSide.zero s.life.mig r
def setMigSide (s : State) (r : Nat) (x : MigSide) : State := { s with life := { s.life with mig := sput MigSide.zero s.life.mig r x } }

/-! ## Lists, in-hand sets and condition queues (R211, R233, R244) -/

def freeList (s : State) (i : Nat) : List Nat := sget [] s.life.lists i
def setList (s : State) (i : Nat) (l : List Nat) : State := { s with life := { s.life with lists := sput [] s.life.lists i l } }
def inhand (s : State) (p : Nat) : List (Nat × Nat) := sget [] s.life.inhand p
def setInhand (s : State) (p : Nat) (l : List (Nat × Nat)) : State := { s with life := { s.life with inhand := sput [] s.life.inhand p l } }
def condq (s : State) (p : Nat) : List Nat := sget [] s.life.condq p
def setCondq (s : State) (p : Nat) (l : List Nat) : State := { s with life := { s.life with condq := sput [] s.life.condq p l } }

/-- A block that has become FREE_DIRTY joins its partner's condition queue while that has room (R244). -/
def queueDirty (s : State) (pa : Nat) : State :=
  let p := portOfBlock pa
  if (condq s p).length < 8192 ∧ !(condq s p).contains pa = true then setCondq s p (condq s p ++ [pa]) else s

/-- A block leaves its partner's condition queue. -/
def unqueue (s : State) (pa : Nat) : State := setCondq s (portOfBlock pa) ((condq s (portOfBlock pa)).filter (· ≠ pa))

/-- A block leaves every free list (R233). -/
def dropFree (s : State) (pa : Nat) : State :=
  { s with life := { s.life with lists := s.life.lists.filterMap (fun e => let l := e.2.filter (· ≠ pa); if l.isEmpty then none else some (e.1, l)) } }

/-- A block may be bound by this issuer (R233): in a partner's own in-hand set, or for FW in nobody's. Blocks that are never
allocated, those of groups 240 to 255 among them, may not (R205, R225, R230). -/
def mayBind (s : State) (who pa : Nat) : Bool :=
  if unusable pa || decide (240 ≤ pa / 2 ^ 15) then false
  else if who < 8 then (inhand s who).any (fun x => x.1 == pa)
  else (List.range 11).all (fun p => !(inhand s p).any (fun x => x.1 == pa))

/-- A block is bound: out of the in-hand set, or for FW off its free list. -/
def bindBlock (s : State) (who pa : Nat) : State :=
  if who < 8 then setInhand s who ((inhand s who).filter (fun x => x.1 ≠ pa)) else dropFree s pa

/-- Lifecycle counter i (R255). -/
def countL (s : State) (i n : Nat) : State := count s (0x042000 + 8 * i) n

/-- The bin of a WEAR: how many boundaries are at or below it (R246). -/
def binOf (s : State) (wear : Nat) : Nat := (s.life.bins.filter (fun b => decide (b ≤ wear))).length

/-! ## The shared run of a lifecycle command (R148, R228, R229) -/

/-- A write of one index word: table, row, word in the row, value. -/
abbrev RowWrite := Nat × Nat × Nat × Word

/-- What a lifecycle command does once its rows are read: a refusal; an answer with nothing written; its writes and
what follows them; or a composer-table write, answered with its generation. -/
inductive LifeOut where
  | refuse (st : Status) (res : Word)
  | nothing (r : TRsp)
  | writes (ws : List RowWrite) (post : State → State) (r : TRsp)
  | composer (row : Nat) (v : Word) (post : State → State) (r : TRsp)

/-- The LIFE record of a command (R425). -/
def lifeRec (s : State) (c : TCmd) (block : Nat) : JRec :=
  .life (BitVec.ofNat 8 (cOpc c)) c.s0 (c.issuer % 8) (decide (c.issuer = qFW)) (cRsrc c) s.clock.epoch block

/-- The rows lie in tables that are defined and are within them. -/
def rowsOk (s : State) (rows : List (Nat × Nat)) : Bool := rows.all (fun x => decide (tKind s x.1 = 2) && decide (x.2 < tCap s x.1))

/-- A lifecycle command: format and range, permission, its rows reserved and read, its own checks, the journal, then its
writes in order (R148, R228 to R230). rows may read the state for rows named by other rows. -/
def lifeRun (rows : State → TCmd → List (Nat × Nat)) (perm : State → TCmd → Bool) (f : State → TCmd → LifeOut) (s : State) (c : TCmd) : Ran :=
  let rs := rows s c
  match firstStatus [(decide (cNeed s c ≠ some (cCont c)) || !rowsOk s rs, .malformed), (decide (c.issuer = qSB) || !perm s c, .notOwner)] with
  | some st => .ends s (some (TRsp.of st))
  | none =>
    let s := rs.foldl (fun s x => issueRow s x.1 x.2) s
    if rowsHeld s (rs.filterMap (fun x => if x.1 = tBINF then some x.2 else none)) (rs.filterMap (fun x => if x.1 = tBMAP then some x.2 else none)) then .wait
    else if rs.any (fun x => rowBad s x.1 x.2) then
      .ends (rs.dedup.foldl (fun s x => (rowKeys s x.1 x.2).foldl touchQ s) s) (some (TRsp.of .poison))
    else
      let s := rs.dedup.foldl (fun s x => touchAll s (rowKeys s x.1 x.2)) s
      match f s c with
      | .refuse st res => .ends (if st = .stillReferenced then countL s 7 1 else s) (some { TRsp.of st with addr := BitVec.ofNat 24 (cPA c), res := res })
      | .nothing r => .ends s (some r)
      | .writes ws post r =>
        let recs := lifeRec s c r.addr.toNat :: ws.map (fun w => JRec.iword w.1 w.2.2.1 w.2.1 w.2.2.2)
        let (ok, s) := jAdmit s [recs]
        if !ok then .ends s (some { TRsp.of .busyRetry with addr := BitVec.ofNat 24 (cPA c) })
        else
          let (j, s) := jCommit s recs true
          let s := ws.foldl (fun s w => putWord s (rowKey s w.1 w.2.1 w.2.2.1) w.2.2.2) s
          .ends (post s) (some { r with jsn := j })
      | .composer row v post r =>
        let (ok, s) := jAdmit s [[lifeRec s c r.addr.toNat, JRec.iword tSHT 0 row v]]
        if !ok then .ends s (some { TRsp.of .busyRetry with addr := BitVec.ofNat 24 (cPA c) })
        else
          let (_, s) := composerWrite s [lifeRec s c r.addr.toNat] tSHT row [(0, v)] (some (c.via, fill c r))
          .ends (post s) none

/-- The reservations of a lifecycle command: every row that it reads or writes, in the order of R228. -/
def lifeNeed (rows : State → TCmd → List (Nat × Nat)) (s : State) (c : TCmd) : List Nat := sortNat ((rows s c).map (fun x => resRow x.1 x.2))

/-- Engine e executes the lifecycle command of an opcode at the head of its queue. -/
def lifeHead (s : State) (e opc : Nat) (rows : State → TCmd → List (Nat × Nat)) (perm : State → TCmd → Bool) (f : State → TCmd → LifeOut) : State :=
  runHead s e opc (lifeNeed rows) (lifeRun rows perm f)

/-- An answer OK whose entry address field carries the command's PA (R146). -/
def okPA (c : TCmd) : TRsp := { TRsp.of .ok with addr := BitVec.ofNat 24 (cPA c) }

def permAny (_ : State) (_ : TCmd) : Bool := true
def permPA (_ : State) (c : TCmd) : Bool := decide (c.issuer = qFW ∨ c.issuer = portOfBlock (cPA c))
def permPsb (s : State) (c : TCmd) : Bool := decide (c.issuer = qFW ∨ c.issuer = portOfBlock (bmPsb (bmap s (cLblk c))))
/-- The holder of the migration that BMAP's ROT names (R230, R231). -/
def permHolder (s : State) (c : TCmd) : Bool := decide (c.issuer = qFW ∨ c.issuer = (migSide s (bmRot (bmap s (cLblk c)))).holder.toNat)

/-! ## Binding (R230, R233) -/

/-- The rotation offset of a logical stripe-block (R203). -/
def rotOf (l : Nat) : Nat := bn 0 12 (crc32c (bytesOfNat 3 l))

/-- MAP_BIND. -/
def doMapBind (s : State) (c : TCmd) : LifeOut :=
  let l := cLblk c
  let pa := cPA c
  let b := bmap s l
  let i := binf s pa
  if bmState b ≠ 0 ∧ bmState b ≠ 2 then .refuse .malformed 0
  else if !mayBind s c.issuer pa || biState i ≠ 0 then .refuse .malformed 0
  else
    let i' := bset 48 16 (setBiEpoch (setBiState i 3) s.clock.epoch) 0
    let b' := bset 48 2 (bset 36 12 (bset 24 4 (bset 0 24 b pa) 1) (rotOf l)) (cHeat c)
    .writes [(tBINF, pa, 0, i'), (tBMAP, l, 0, b')] (fun s => countL (bindBlock s c.issuer pa) 0 1) (okPA c)

/-- MAP_RELEASE. -/
def doMapRelease (s : State) (c : TCmd) : LifeOut :=
  let l := cLblk c
  let b := bmap s l
  let pa := bmPsb b
  if bmState b = 1 then
    if bmBaste b ≠ 0 then .refuse .stillReferenced 0
    else .writes [(tBMAP, l, 0, bset 24 4 b 2), (tBINF, pa, 0, setBiState (binf s pa) 1)] (fun s => countL (queueDirty s pa) 1 1) (okPA c)
  else if bmState b = 3 then .writes [(tBMAP, l, 0, bset 24 4 b 2)] (fun s => countL s 1 1) (okPA c)
  else if bmState b = 8 then .refuse .busyRetry 0
  else .refuse .malformed 0

/-- MAP_POISON. -/
def doMapPoison (s : State) (c : TCmd) : LifeOut :=
  let l := cLblk c
  let b := bmap s l
  let pa := bmPsb b
  if bmState b = 1 then
    .writes [(tBMAP, l, 0, bset 24 4 b 3), (tBINF, pa, 0, setBiState (binf s pa) 1)] (fun s => countL (queueDirty s pa) 1 1) (okPA c)
  else if bmState b = 8 then .refuse .busyRetry 0
  else .refuse .malformed 0

/-- HEAT_SET. -/
def doHeatSet (s : State) (c : TCmd) : LifeOut :=
  let b := bmap s (cLblk c)
  if bmState b = 0 then .refuse .malformed 0
  else .writes [(tBMAP, cLblk c, 0, bset 48 2 b (cHeat c))] id (okPA c)

/-! ## Migration (R203, R204, R230, R231, R237, R238) -/

/-- The rows of a migration command: BMAP, then the MIG row it names, then the blocks (R228). -/
def migRows (s : State) (c : TCmd) : List (Nat × Nat) :=
  let r := bmRot (bmap s (cLblk c))
  [(tBMAP, cLblk c), (tMIG, r)]

/-- With the blocks that the MIG row names. -/
def migRowsAll (s : State) (c : TCmd) : List (Nat × Nat) :=
  let r := bmRot (bmap s (cLblk c))
  migRows s c ++ [(tBINF, miSrc (mig0 s r)), (tBINF, miTgt (mig1 s r))]

/-- A row of the granule that an active REBALANCE moves, or of its partner granule, which has the same rows (R202, R353). -/
def rowOfRebal (s : State) (l : Nat) : Bool := decide (s.crew.phase ≠ 0) && decide (l / 64 = s.crew.gran.toNat % 2 ^ 17)

/-- Refused patches are forgotten: those of logical stripe-block l, which MIG_BEGIN with RSRC counts (R242, R255). -/
def forgetPatches (s : State) (l : Nat) : State := { s with life := { s.life with noPatch := s.life.noPatch.filter (fun k => decide (bn 51 23 k ≠ l)) } }

/-- MIG_BEGIN; refused BUSY_RETRY for every row of a granule on the move (R356). -/
def doMigBegin (s : State) (c : TCmd) : LifeOut :=
  let l := cLblk c
  let b := bmap s l
  let pa := cPA c
  let src := bmPsb b
  let r := bmRot b
  let m := mig0 s r
  let side := migSide s r
  if rowOfRebal s l then .refuse .busyRetry 0
  else if bmState b ≠ 1 then .refuse .malformed 0
  else if !mayBind s c.issuer pa || biState (binf s pa) ≠ 0 then .refuse .malformed 0
  else if !(miStep m = 0 || (miStep m = 3 && decide (side.since + 4000 ≤ now s))) then .refuse .busyRetry 0
  else
    let m' := bput 64 0 src ||| bput 64 24 (biEpoch (binf s src)).toNat ||| bput 64 40 1
    let y' := bput 64 0 pa
    let side' : MigSide := { holder := BitVec.ofNat 3 (portOfBlock src), rsrc := cRsrc c, bepoch := s.clock.epoch, switched := side.switched, since := side.since, lblk := l }
    .writes [(tMIG, r, 0, m'), (tMIG, r, 1, y'), (tBINF, pa, 0, setBiState (binf s pa) 7), (tBINF, src, 0, setBiState (binf s src) 6), (tBMAP, l, 0, bset 24 4 b 8)]
      (fun s =>
        let s := bindBlock (setMigSide s r side') c.issuer pa
        countL (if cRsrc c then countL (forgetPatches s l) 8 1 else s) 2 1) (okPA c)

/-- MIG_CURSOR. -/
def doMigCursor (s : State) (c : TCmd) : LifeOut :=
  let b := bmap s (cLblk c)
  let r := bmRot b
  let m := mig0 s r
  let y := mig1 s r
  if bmState b ≠ 8 ∨ miStep m ≠ 1 ∨ 4096 < cV c then .refuse .malformed 0
  else if cV c = miCursor y then .nothing (okPA c)
  else if cV c < miCursor y then .refuse .staleVersion (BitVec.ofNat 64 (miCursor y))
  else .writes [(tMIG, r, 1, bset 23 13 y (cV c))] id (okPA c)

/-- MIG_COPIED. -/
def doMigCopied (s : State) (c : TCmd) : LifeOut :=
  let b := bmap s (cLblk c)
  let r := bmRot b
  let m := mig0 s r
  if bmState b ≠ 8 ∨ miStep m ≠ 1 ∨ miCursor (mig1 s r) ≠ 4096 then .refuse .malformed 0
  else .writes [(tMIG, r, 0, bset 40 4 m 2)] id (okPA c)

/-- MAP_SWITCH. -/
def doMapSwitch (s : State) (c : TCmd) : LifeOut :=
  let l := cLblk c
  let b := bmap s l
  let r := bmRot b
  let m := mig0 s r
  let src := miSrc m
  let tgt := miTgt (mig1 s r)
  let side := migSide s r
  if bmState b ≠ 8 ∨ miStep m ≠ 2 then .refuse .malformed 0
  else
    .writes [(tBINF, tgt, 0, setBiEpoch (setBiState (binf s tgt) 3) side.bepoch), (tBMAP, l, 0, bset 24 4 (bset 0 24 b tgt) 1), (tMIG, r, 0, bset 40 4 m 3), (tBINF, src, 0, setBiState (binf s src) (if side.rsrc then 8 else 1))]
      (fun s =>
        let s := setMigSide s r { side with switched := s.clock.time, since := now s }
        countL (if side.rsrc then countL s 6 1 else queueDirty s src) 3 1) (okPA c)

/-- MIG_ABORT. -/
def doMigAbort (s : State) (c : TCmd) : LifeOut :=
  let l := cLblk c
  let b := bmap s l
  let r := bmRot b
  let m := mig0 s r
  let src := miSrc m
  let tgt := miTgt (mig1 s r)
  if bmState b ≠ 8 ∨ miStep m ≠ 1 ∨ miCursor (mig1 s r) ≠ 0 then .refuse .malformed 0
  else
    .writes [(tBINF, src, 0, setBiState (binf s src) 3), (tBMAP, l, 0, bset 24 4 b 1), (tMIG, r, 0, bset 40 4 m 0), (tBINF, tgt, 0, setBiState (binf s tgt) 1)]
      (fun s => countL (queueDirty s tgt) 4 1) (okPA c)

/-! ## Log blocks, conditioning, refresh (R230, R244, R246, R251) -/

/-- LOG_OPEN. -/
def doLogOpen (s : State) (c : TCmd) : LifeOut :=
  let pa := cPA c
  let i := binf s pa
  if !mayBind s c.issuer pa || biState i ≠ 0 then .refuse .malformed 0
  else .writes [(tBINF, pa, 0, bset 48 16 (setBiEpoch (setBiState i 4) s.clock.epoch) 0)] (fun s => bindBlock s c.issuer pa) (okPA c)

/-- LOG_CLOSE. -/
def doLogClose (s : State) (c : TCmd) : LifeOut :=
  let i := binf s (cPA c)
  if biState i ≠ 4 then .refuse .malformed 0 else .writes [(tBINF, cPA c, 0, setBiState i 5)] id (okPA c)

/-- LOG_FREE. -/
def doLogFree (s : State) (c : TCmd) : LifeOut :=
  let i := binf s (cPA c)
  if biState i ≠ 5 then .refuse .malformed 0
  else if biRef i ≠ 0 then .refuse .stillReferenced 0
  else .writes [(tBINF, cPA c, 0, setBiState i 1)] (fun s => queueDirty s (cPA c)) (okPA c)

/-- The block that CONDITION_BEGIN names: its PA, or the head of the requester's queue. -/
def condBlock (s : State) (c : TCmd) : Option Nat :=
  if cPA c = 0xFFFFFF then (if c.issuer < 8 then (condq s c.issuer).head? else none) else some (cPA c)

/-- CONDITION_BEGIN. -/
def doConditionBegin (s : State) (c : TCmd) : LifeOut :=
  match condBlock s c with
  | none => .refuse (if c.issuer < 8 then .miss else .malformed) 0
  | some pa =>
    let i := binf s pa
    let r : TRsp := { TRsp.of .ok with addr := BitVec.ofNat 24 pa }
    if biState i = 2 then .nothing r
    else if (3 ≤ biState i ∧ biState i ≤ 7) ∨ biRef i ≠ 0 then .refuse .stillReferenced 0
    else if biState i ≠ 1 then .refuse .malformed 0
    else .writes [(tBINF, pa, 0, setBiState i 2)] (fun s => unqueue s pa) r

/-- CONDITION_DONE (R246): WEAR rises by E; the block is RETIRED, or FREE_CONDITIONED in its bin. -/
def doConditionDone (s : State) (c : TCmd) : LifeOut :=
  let pa := cPA c
  let i := binf s pa
  if biState i ≠ 2 then .refuse .malformed 0
  else
    let wear := min (biWear i + cE c) (2 ^ 24 - 1)
    let i1 := bset 0 24 i wear
    if cFail c = true ∨ s.str.wearLimit.toNat ≤ wear then
      .writes [(tBINF, pa, 0, setBiState i1 8)] (fun s => countL s 6 1) (okPA c)
    else
      let k := binOf s wear
      .writes [(tBINF, pa, 0, bset 44 4 (setBiState i1 0) k)] (fun s => countL (setList s k (freeList s k ++ [pa])) 5 1) (okPA c)

/-- REFRESH_DONE (R251). -/
def doRefreshDone (s : State) (c : TCmd) : LifeOut :=
  let pa := cPA c
  let i := binf s pa
  let e := BitVec.ofNat 16 (cE c)
  if biState i = 6 ∨ biState i = 7 then .refuse .busyRetry 0
  else if biState i ≠ 3 ∧ biState i ≠ 4 ∧ biState i ≠ 5 then .refuse .malformed 0
  else if (s.clock.epoch - biEpoch i).toNat < (s.clock.epoch - e).toNat then .refuse .malformed 0
  else .writes [(tBINF, pa, 0, setBiEpoch i e)] (fun s => countL s 10 1) (okPA c)

/-! ## Rebuild (R248 to R250) -/

/-- The stripe group of PA (R227). -/
def cGroup (c : TCmd) : Nat := cPA c / 2 ^ 15

/-- A hot-spare die is held as SPARE by a group other than g (R248). -/
def spareTaken (s : State) (g die : Nat) : Bool :=
  (List.range 240).any (fun h => decide (h ≠ g) && decide (shFmem (sht s h) ≠ 31) && !shNosp (sht s h) && decide (shSpare (sht s h) = die) && decide (portOfGroup h = portOfGroup g))

/-- Every partner's queue and FW. -/
def qAll : List Nat := [0, 1, 2, 3, 4, 5, 6, 7, 8]

/-- MEMBER_FAIL. -/
def doMemberFail (s : State) (c : TCmd) : LifeOut :=
  let g := cGroup c
  let x := sht s g
  let p := portOfGroup g
  if 16 < cMember c then .refuse .malformed 0
  else if shFmem x = cMember c then .nothing (okPA c)
  else if shFmem x ≠ 31 then .refuse .noRoom 0
  else
    let y := bset 9 15 (bset 0 5 x (cMember c)) 0
    match [2 * p, 2 * p + 1].find? (fun d => !spareTaken s g d) with
    | some d => .composer g (bset 28 1 (bset 5 4 y d) 0) id (okPA c)
    | none => .composer g (bset 28 1 (bset 5 4 y 0) 1) (fun s => event s [qFW, p] 0xE00D g (cMember c)) { okPA c with res := 0xFF }

/-- REBUILD_ADVANCE. -/
def doRebuildAdvance (s : State) (c : TCmd) : LifeOut :=
  let g := cGroup c
  let x := sht s g
  if shFmem x = 31 then .refuse .malformed 0
  else if shNosp x then .refuse .noRoom 0
  else if cV c ≤ shRblk x then .refuse .staleVersion 0
  else if 0x7FFF < cV c then .refuse .malformed 0
  else .composer g (bset 9 15 x (cV c)) (fun s => countL s 11 (cV c - shRblk x)) (okPA c)

/-- The free blocks of stripe group g: FREE_CONDITIONED or FREE_DIRTY. -/
def freeBlocks (s : State) (g : Nat) : List Nat :=
  ((List.range (2 ^ 15)).map (fun i => g * 2 ^ 15 + i)).filter (fun pa => decide (pa < tCap s tBINF) && !rowBad s tBINF pa && decide (biState (binf s pa) ≤ 1))

/-- A block leaves every in-hand set (R233). -/
def dropHand (s : State) (pa : Nat) : State :=
  { s with life := { s.life with inhand := s.life.inhand.filterMap (fun e => let l := e.2.filter (fun x => x.1 ≠ pa); if l.isEmpty then none else some (e.1, l)) } }

/-- A block is RETIRED: off its list, out of an in-hand set and off its condition queue, its row written. -/
def retireBlock (s : State) (pa : Nat) : State :=
  countL (putWord (unqueue (dropHand (dropFree s pa) pa) pa) (rowKey s tBINF pa 0) (setBiState (binf s pa) 8)) 6 1

/-- FW moves the free blocks of a group that has lost two members to RETIRED (R250), in one journal group (log entry 109). -/
def retireGroup (s : State) (g : Nat) : State :=
  let bs := freeBlocks s g
  if bs.isEmpty then s
  else jChange s (bs.map (fun pa => JRec.iword tBINF 0 pa (setBiState (binf s pa) 8))) (fun s => bs.foldl retireBlock s)

/-- A second member failure raises MEMBER_DOUBLE to FW and every partner beside its refusal, and the group's free blocks are
RETIRED (R250). -/
def memberDouble (s : State) (c : TCmd) (r : Ran) : Ran :=
  match r with
  | .ends s' (some x) =>
    if x.st = .noRoom ∧ shFmem (sht s (cGroup c)) ≠ 31 then
      .ends (retireGroup (event s' ([qFW] ++ [0, 1, 2, 3, 4, 5, 6, 7]) 0xF006 (cGroup c) (cMember c)) (cGroup c)) (some x)
    else r
  | _ => r

/-! ## Overlays (R196 to R201, R239, R240) -/

/-- The logical stripe-blocks that an overlay of TAG L covers (R200, R239): line address in key bits [82:35], of which the entry
cares for the L upper ones. -/
def coveredBlocks (care val : BitVec 192) (L : Nat) : List Nat :=
  let first := bn 51 23 (val &&& care)
  if 32 ≤ L then [first] else (List.range (2 ^ (32 - L))).map (fun i => (first + i) % 2 ^ 23)

/-- The BINF row that an OVL_PUT of a LOG or a PATCH reads (R239). -/
def ovlTarget (c : TCmd) : List Nat := if bn 60 4 (cRes c) = 1 ∨ bn 60 4 (cRes c) = 2 then [bn 0 24 (cRes c)] else []

/-- Rules 1 and 2 of R148 for OVL_PUT and OVL_DROP, with the checks of R239; an uncorrectable target row is left to R371. -/
def ovlRefusal (s : State) (c : TCmd) (put : Bool) : Option Status :=
  let res := cRes c
  let kind := bn 60 4 res
  let L := cPlen c
  let tgt := binf s (bn 0 24 res)
  firstStatus
    [(decide (tKind s tOVL ≠ 1 ∨ cTable c ≠ tOVL ∨ cNeed s c ≠ some (cCont c)) || !rowsOk s [(tBMAP, 0), (tBINF, 0)] || (put && formBad s c), .malformed),
     (decide (c.issuer = qSB), .notOwner),
     (tProt s tOVL && s.prot.locked, .locked),
     (put && (decide (kind = 0 ∨ 5 < kind) || (if kind = 5 then decide (L < 16 ∨ 48 < L) else decide (L ≠ 48)) ||
        (decide (kind = 1 ∨ kind = 2) && (decide (tCap s tBINF ≤ bn 0 24 res) || (!rowBad s tBINF (bn 0 24 res) && decide (biState tgt ≠ 4)))) ||
        (decide (kind = 3 ∧ c.issuer < 8) && decide (bn 0 3 res ≠ c.issuer))), .malformed)]

/-- The reservations of OVL_PUT and OVL_DROP: the BMAP rows that the entry covers, the rows of its links, its banks (R228). -/
def ovlNeed (s : State) (c : TCmd) : List Nat :=
  sortNat ((coveredBlocks (cMask s c) (cKey s c) (cPlen c)).map (resRow tBMAP) ++ entryNeed s c)

/-- PATCH_FALLBACK (R253, R255): a patch refused for want of room is noted, and the SNAG that replaces it counts. -/
def patchNoted (s : State) (c : TCmd) (x : Ran) : Ran :=
  let k := cKey s c &&& cMask s c
  let kind := bn 60 4 (cRes c)
  match x with
  | .ends t (some r) =>
    if kind = 2 ∧ r.st = .noRoom then .ends { t with life := { t.life with noPatch := k :: t.life.noPatch.filter (fun y => decide (y ≠ k)) } } (some r)
    else if kind = 4 ∧ r.st = .ok ∧ r.jsn ≠ 0 ∧ t.life.noPatch.contains k then
      .ends (countL { t with life := { t.life with noPatch := t.life.noPatch.filter (fun y => decide (y ≠ k)) } } 8 1) (some r)
    else x
  | x => x

/-- OVL_PUT (R239, R240): the basting counts rise, then the entry is inserted under its gate. Rows that a drain is still to lower
are waited for before they are checked (R228). -/
def runOvlPut (e : Nat) (s : State) (c : TCmd) : Ran :=
  match ovlRefusal s c true with
  | some st => .ends s (some (TRsp.of st))
  | none =>
    let blks := coveredBlocks (cMask s c) (cKey s c) (cPlen c)
    let s := blks.foldl (fun s l => issueRow s tBMAP l) s
    let found := !(findEntry s tOVL (cMask s c) (cKey s c) (cPlen c) (dirsFor s tOVL (cMask s c) (cKey s c))).1.isEmpty
    let tgt := ovlTarget c
    if rowsHeld s [] blks then .wait
    else if tgt.any (rowBad s tBINF) then ended (tgt.foldl (fun s r => (rowKeys s tBINF r).foldl touchQ s) s) tOVL .poison
    else if !found && blks.any (fun l => rowBad s tBMAP l) then ended (blks.foldl (fun s l => (rowKeys s tBMAP l).foldl touchQ s) s) tOVL .poison
    else if !found && blks.any (fun l => decide (255 ≤ bmBaste (bmap s l))) then patchNoted s c (ended (noteRefused s tOVL []) tOVL .noRoom)
    else
      let s := tgt.foldl (fun s r => touchAll s (rowKeys s tBINF r)) s
      let pre := blks.map (fun l => (l, bmBaste (bmap s l) + 1))
      let recs := lifeRec s c 0 :: pre.map (fun m => fieldRec s tBMAP m.1 28 8 m.2)
      patchNoted s c (insertEntry s e tOVL (cMask s c) (cKey s c) (cPlen c) (cRes c) (cReplace c) (cNochain c) { recs := recs, pre := pre, baste := [], defer := none })

/-- OVL_DROP (R227, R230): the entry is deleted under its gate; its counts fall, and it is answered, after the drain. -/
def runOvlDrop (e : Nat) (s : State) (c : TCmd) : Ran :=
  match ovlRefusal s c false with
  | some st => .ends s (some (TRsp.of st))
  | none =>
    let blks := coveredBlocks (cMask s c) (cKey s c) (cPlen c)
    let s := blks.foldl (fun s l => issueRow s tBMAP l) s
    let (ls, s) := findEntry s tOVL (cMask s c) (cKey s c) (cPlen c) (dirsFor s tOVL (cMask s c) (cKey s c))
    match ls with
    | [] => ended (countT s tOVL 5 1) tOVL .miss
    | l :: _ =>
      let o := resAt s l
      if cCmpw c && !o.bad && o.data ≠ cRes c then
        .ends (touch s (resKey s l)) (some { TRsp.of .staleVersion with res := o.data, addr := BitVec.ofNat 24 (locAddr s l), tag := BitVec.ofNat 7 (cPlen c) })
      else if blks.any (fun l => rowBad s tBMAP l) then ended (blks.foldl (fun s l => (rowKeys s tBMAP l).foldl touchQ s) s) tOVL .poison
      else
        let recs := lifeRec s c 0 :: blks.map (fun b => fieldRec s tBMAP b 28 8 (bmBaste (bmap s b) - 1))
        foundAt s ls (cPlen c) (remove s e tOVL ls false c { recs := recs, pre := [], baste := blks, defer := some c.via })

/-! ## The commands -/

/-- The MIG row of a logical stripe-block must be named by a BMAP row in range before it is read. -/
def execMapBind (e : Fin 8) (s : State) : Host.Outcome State Fault Refusal :=
  .next (lifeHead s e.val 0x40 (fun _ c => [(tBMAP, cLblk c), (tBINF, cPA c)]) permAny doMapBind)
def execMapRelease (e : Fin 8) (s : State) : Host.Outcome State Fault Refusal :=
  .next (lifeHead s e.val 0x41 (fun s c => [(tBMAP, cLblk c), (tBINF, bmPsb (bmap s (cLblk c)))]) permAny doMapRelease)
def execMapPoison (e : Fin 8) (s : State) : Host.Outcome State Fault Refusal :=
  .next (lifeHead s e.val 0x42 (fun s c => [(tBMAP, cLblk c), (tBINF, bmPsb (bmap s (cLblk c)))]) permPsb doMapPoison)
def execHeatSet (e : Fin 8) (s : State) : Host.Outcome State Fault Refusal :=
  .next (lifeHead s e.val 0x43 (fun _ c => [(tBMAP, cLblk c)]) permAny doHeatSet)
def execMigBegin (e : Fin 8) (s : State) : Host.Outcome State Fault Refusal :=
  .next (lifeHead s e.val 0x44 (fun s c => migRows s c ++ [(tBINF, cPA c), (tBINF, bmPsb (bmap s (cLblk c)))]) permPsb doMigBegin)
def execMigCursor (e : Fin 8) (s : State) : Host.Outcome State Fault Refusal :=
  .next (lifeHead s e.val 0x45 migRows permHolder doMigCursor)
def execMigCopied (e : Fin 8) (s : State) : Host.Outcome State Fault Refusal :=
  .next (lifeHead s e.val 0x46 migRows permHolder doMigCopied)
def execMapSwitch (e : Fin 8) (s : State) : Host.Outcome State Fault Refusal :=
  .next (lifeHead s e.val 0x47 migRowsAll permHolder doMapSwitch)
def execMigAbort (e : Fin 8) (s : State) : Host.Outcome State Fault Refusal :=
  .next (lifeHead s e.val 0x48 migRowsAll permHolder doMigAbort)
def execLogOpen (e : Fin 8) (s : State) : Host.Outcome State Fault Refusal :=
  .next (lifeHead s e.val 0x49 (fun _ c => [(tBINF, cPA c)]) permPA doLogOpen)
def execLogClose (e : Fin 8) (s : State) : Host.Outcome State Fault Refusal :=
  .next (lifeHead s e.val 0x4A (fun _ c => [(tBINF, cPA c)]) permPA doLogClose)
def execLogFree (e : Fin 8) (s : State) : Host.Outcome State Fault Refusal :=
  .next (lifeHead s e.val 0x4B (fun _ c => [(tBINF, cPA c)]) permPA doLogFree)

/-- The refusals of LOG_REPOINT (R230): format, permission, then the states of its blocks, and two already running; the rows
that it reads are reported, an uncorrectable one queued too (R370, R371). -/
def logRepointCheck (s : State) (c : TCmd) : Option Status × State :=
  match firstStatus
    [(decide (cNeed s c ≠ some (cCont c)) || !rowsOk s [(tBINF, cPA c), (tBINF, cPB c)] || decide (tKind s tOVL ≠ 1), .malformed),
     (decide (c.issuer = qSB) || !permPA s c, .notOwner)] with
  | some st => (some st, s)
  | none =>
    let keys := [cPA c, cPB c].dedup.flatMap (rowKeys s tBINF)
    if rowBad s tBINF (cPA c) || rowBad s tBINF (cPB c) then (some .poison, keys.foldl touchQ s)
    else
      (firstStatus
        [(decide (biState (binf s (cPA c)) ≠ 5 ∨ biState (binf s (cPB c)) ≠ 4), .malformed),
         (decide (2 ≤ (s.update.eng.filter (fun e => match e.2.repoint with | some r => decide (cOpc r.cmd = 0x4C) | none => false)).length), .busyRetry)],
       touchAll s keys)

def execLogRepoint (e : Fin 8) (budget : Nat) (s : State) : Host.Outcome State Fault Refusal :=
  .next (rpStep s e.val 0x4C budget logRepointCheck (fun s c => [lifeRec s c 0]))

/-- The rows of CONDITION_BEGIN, and who may send it: any partner for a block of its own queue. -/
def condRows (s : State) (c : TCmd) : List (Nat × Nat) := match condBlock s c with | some pa => [(tBINF, pa)] | none => []
def permCond (s : State) (c : TCmd) : Bool := if cPA c = 0xFFFFFF then true else permPA s c
def execConditionBegin (e : Fin 8) (s : State) : Host.Outcome State Fault Refusal :=
  .next (lifeHead s e.val 0x4D condRows permCond doConditionBegin)
def execConditionDone (e : Fin 8) (s : State) : Host.Outcome State Fault Refusal :=
  .next (lifeHead s e.val 0x4E (fun _ c => [(tBINF, cPA c)]) permPA doConditionDone)
def execRefreshDone (e : Fin 8) (s : State) : Host.Outcome State Fault Refusal :=
  .next (lifeHead s e.val 0x4F (fun _ c => [(tBINF, cPA c)]) permPA doRefreshDone)
def execMemberFail (e : Fin 8) (s : State) : Host.Outcome State Fault Refusal :=
  .next (runHead s e.val 0x50 (lifeNeed (fun _ c => [(tSHT, cGroup c)])) (fun s c => memberDouble s c (lifeRun (fun _ c => [(tSHT, cGroup c)]) permPA doMemberFail s c)))
def execRebuildAdvance (e : Fin 8) (s : State) : Host.Outcome State Fault Refusal :=
  .next (lifeHead s e.val 0x51 (fun _ c => [(tSHT, cGroup c)]) permPA doRebuildAdvance)
def execOvlPut (e : Fin 8) (s : State) : Host.Outcome State Fault Refusal := .next (runHead s e.val 0x58 ovlNeed (runOvlPut e.val))
def execOvlDrop (e : Fin 8) (s : State) : Host.Outcome State Fault Refusal := .next (runHead s e.val 0x59 ovlNeed (runOvlDrop e.val))

/-! ## The lists that Waitos keeps (R211, R244, R247, R252, R210) -/

/-- The fullest bin, a tie going to the lowest list number (R211). -/
def fullestBin (s : State) : Option Nat :=
  ((List.range 16).foldl (fun (b : Option Nat) i => match b with
    | none => if (freeList s i).isEmpty then none else some i
    | some j => if (freeList s j).length < (freeList s i).length then some i else some j) none)

/-- At most k blocks move, each from the head of the fullest bin to the tail of the reserve (R211). -/
def refill : Nat → State → State
  | 0, s => s
  | k + 1, s =>
    if s.str.reserve.toNat ≤ (freeList s 16).length then s
    else
      match fullestBin s with
      | none => s
      | some i =>
        match freeList s i with
        | [] => s
        | pa :: rest => refill k (setList (setList s i rest) 16 (freeList s 16 ++ [pa]))

/-- SPARE_RESERVE_REFILL (R211): the reserve is filled to the policy's size; a full reserve ends the advisory (R253). -/
def spareRefill (s : State) : State :=
  let s := refill s.str.reserve.toNat s
  let s := { s with life := { s.life with refillDue := false } }
  if s.str.reserve.toNat ≤ (freeList s 16).length then { s with life := { s.life with advisory := false } } else s

def execSpareReserveRefill (s : State) : Host.Outcome State Fault Refusal := .next (if coresServe s then spareRefill s else s)

/-- The places of BINF that are written, ascending; every other row reads zero (R391). -/
def binfKeys (s : State) : List Nat :=
  (s.sram.words.filter (fun e => decide (kIndex tBINF 0 ≤ e.1 ∧ e.1 < kIndex tBINF (tCap s tBINF)))).map (·.1)

/-- The rows of BINF that are written and read good: row and word, ascending. -/
def binfRows (s : State) : List (Nat × Word) :=
  ((binfKeys s).filter (fun k => !(peek s k).bad)).map (fun k => (k - kIndex tBINF 0, (peek s k).data))

/-- The reports of a scan of BINF (R370, R371). -/
def scanBinf (s : State) : State := (binfKeys s).foldl touchQ s

/-- CONDITION_QUEUE_SCAN (R244): every FREE_DIRTY block without a queue entry is queued, in BINF order. -/
def execConditionQueueScan (s : State) : Host.Outcome State Fault Refusal :=
  .next (if coresServe s then (binfRows s).foldl (fun s x => if biState x.2 = 1 then queueDirty s x.1 else s) (scanBinf s) else s)

/-- REFRESH_SCAN (R252): REFRESH_DUE to the partner of every HOME or LOG block of the due age, REFRESH_OVERDUE to FW at
the critical age. -/
def execRefreshScan (s : State) : Host.Outcome State Fault Refusal :=
  .next (if coresServe s then (binfRows s).foldl (fun s x =>
      let age := (s.clock.epoch - biEpoch x.2).toNat
      if biState x.2 = 3 ∨ biState x.2 = 4 ∨ biState x.2 = 5 then
        let s := if s.str.dueAge.toNat ≤ age then event s [portOfBlock x.1] 0x3001 x.1 age else s
        if s.str.critAge.toNat ≤ age then event s [qFW] 0xE00B x.1 age else s
      else s) (scanBinf s) else s)

/-- A number put in its place in a rising list, repeats kept. -/
def insertNat (x : Nat) : List Nat → List Nat
  | [] => [x]
  | y :: ys => if x ≤ y then x :: y :: ys else y :: insertNat x ys

/-- A row of BINF that is a block which can be allocated: of groups 0 to 239, not the last of its group, not block 0 (R205, R225). -/
def isBlock (pa : Nat) : Bool := decide (pa / 2 ^ 15 < 240) && decide (pa % 2 ^ 15 ≠ 0x7FFF) && decide (pa ≠ 0)

/-- How many rows of BINF below n are such blocks. -/
def blocksBelow (n : Nat) : Nat := let m := min n (240 * 2 ^ 15); m - m / 2 ^ 15 - 1

/-- WEAR_BIN_UPDATE (R247): the 15 boundaries become the 1/16 to 15/16 quantiles of WEAR over the blocks that are not
RETIRED; a row never written counts with WEAR 0, and one that reads uncorrectable not at all (log entry 17 on the quantile). -/
def wearBins (s : State) : List Nat :=
  let rows := (binfRows s).filter (fun x => isBlock x.1)
  let zeros := blocksBelow (tCap s tBINF) - ((binfKeys s).filter (fun k => isBlock (k - kIndex tBINF 0))).length
  let ws := (rows.filter (fun x => biState x.2 ≠ 8)).foldl (fun l x => insertNat (biWear x.2) l) []
  let n := zeros + ws.length
  (List.range 15).map (fun i =>
    let k := (i + 1) * n / 16
    if k < zeros then 0 else (ws.drop (k - zeros)).headD 0)

def execWearBinUpdate (s : State) : Host.Outcome State Fault Refusal := .next (if coresServe s then scanBinf { s with life := { s.life with bins := wearBins s } } else s)

/-- Each of the four counters of a HEAT word is halved (R210). -/
def halveWord (x : Word) : Word := (x >>> 1) &&& 0x7FFF7FFF7FFF7FFF

/-- HEAT_HALVING (R210): every HEAT counter is halved; an uncorrectable word is zeroed (R385). -/
def execHeatHalving (s : State) : Host.Outcome State Fault Refusal :=
  .next (if coresServe s then (s.sram.words.filter (fun e => isHeat s e.1)).foldl (fun s e =>
      if (peek s e.1).bad then countI (putWord (consumeInj s e.1) e.1 0) 18 else putWord (touch s e.1) e.1 (halveWord (peek s e.1).data)) s else s)

end Sys2Proof.Machine
end

