-- ==== Sys2Proof/Machine/Image.lean ====
section
/-! DEFINITION. The structure image: the boot store, headers, sections, authentication, the checks of a load, and loading (R479 to R490, R501). -/

namespace Sys2Proof.Machine

open Sys2Proof

/-! ## Writes of the boot store (R479) -/

/-- A byte of the boot store takes a value. -/
def flashSet : List Host.Cell → Nat → Byte → List Host.Cell
  | [], a, v => if v = 0xFF then [] else [(a, v)]
  | (k, w) :: m, a, v =>
    if a < k then (if v = 0xFF then (k, w) :: m else (a, v) :: (k, w) :: m)
    else if a = k then (if v = 0xFF then m else (a, v) :: m)
    else (k, w) :: flashSet m a v

/-- Bytes are written in the boot store. -/
def flashWrite (s : State) (off : Nat) (bs : List Byte) : State :=
  { s with flash := bs.zipIdx.foldl (fun m b => flashSet m (off + b.2) b.1) s.flash }

/-! ## The header (R481) -/

def imgLen (h : List Byte) : Nat := natAt h 8 4
def imgSects (h : List Byte) : Nat := natAt h 6 2
def imgVer (h : List Byte) : Nat := natAt h 12 2
def imgBase (h : List Byte) : Nat := natAt h 14 2
def imgSvn (h : List Byte) : Nat := natAt h 16 1 % 64
def imgFlag (h : List Byte) (i : Nat) : Bool := decide (natAt h 17 1 / 2 ^ i % 2 = 1)
/-- A crew size is permitted: bit 0 for 1, 1 for 2, 2 for 4. -/
def imgPkg (h : List Byte) (size : Nat) : Bool := decide (natAt h 18 1 / (if size = 1 then 1 else if size = 2 then 2 else 4) % 2 = 1)

/-- The header fields by which a slot is a candidate (R491). -/
def headerOk (h : List Byte) (max : Nat) : Bool :=
  decide (natAt h 0 4 = 0x49535A54) && decide (natAt h 4 2 = 1) && decide (natAt h 19 1 = 1) && decide (imgLen h ≤ max)

/-- Every byte of a list is zero. -/
def allZero (bs : List Byte) : Bool := bs.all (fun b => b == 0)

/-- The rest of R481: section count, reserved fields, LIVEPKG and BASEVER as the kind of file has them. -/
def headerRest (h : List Byte) (live : Bool) : Bool :=
  decide (1 ≤ imgSects h ∧ imgSects h ≤ 32) && decide (natAt h 16 1 < 64) && decide (natAt h 17 1 < 8) && decide (natAt h 18 1 < 8) &&
    allZero (slice h 28 228) && (imgFlag h 0 == live) && (live || decide (imgBase h = 0))

/-! ## Sections (R482, R483) -/

/-- A section: kind, offset, and contents. -/
structure Sect where
  kind : Nat
  off : Nat
  data : List Byte
deriving DecidableEq, Repr

/-- Entry i of the section table. -/
def sectEntry (img : List Byte) (i : Nat) : List Byte := slice img (256 + 16 * i) 16

def sectOf (img : List Byte) (i : Nat) : Sect :=
  let e := sectEntry img i
  ⟨natAt e 0 1, natAt e 4 4, slice img (natAt e 4 4) (natAt e 8 4)⟩

def sections (img : List Byte) : List Sect := (List.range (imgSects img)).map (sectOf img)

/-- Section entry i by itself: reserved bytes, alignment, within the file, its CRC. -/
def sectFits (img : List Byte) (i : Nat) : Bool :=
  let e := sectEntry img i
  let x := sectOf img i
  allZero (slice e 1 3) && decide (x.off % 64 = 0) && decide (256 + 16 * imgSects img ≤ x.off) && decide (x.off + natAt e 8 4 + 256 ≤ imgLen img) &&
    decide ((crc32c x.data).toNat = natAt e 12 4)

/-- Two sections do not overlap. -/
def sectApart (a b : Sect) : Bool := decide (a.off + a.data.length ≤ b.off ∨ b.off + b.data.length ≤ a.off)

/-- No two elements of a list that a relation refuses. -/
def pairwise {α : Type} (p : α → α → Bool) : List α → Bool
  | [] => true
  | x :: xs => xs.all (p x) && pairwise p xs

/-- The contents of the section of a kind; empty when the image has none. -/
def sectData (ss : List Sect) (kind : Nat) : List Byte :=
  match ss.find? (fun x => x.kind == kind) with
  | some x => x.data
  | none => []

def hasSect (ss : List Sect) (kind : Nat) : Bool := ss.any (fun x => x.kind == kind)

/-- The length of a section fits its kind (R483, R573). -/
def sectSize (x : Sect) : Bool :=
  let n := x.data.length
  match x.kind with
  | 1 => decide (n % 32 = 0)
  | 2 => decide (n = 4096)
  | 3 => decide (163840 ≤ n ∧ n ≤ 163840 + 65536 ∧ n % 2 = 0)
  | 4 => decide (n % 274 = 0)
  | 5 => decide (n = 132)
  | 6 => decide (n = 12)
  | 7 => decide (n = 32)
  | 8 => decide (n = 10)
  | 9 => decide (n = 44)
  | 10 => decide (n = 272)
  | 11 => decide (n % 16 = 0)
  | 12 => decide (72 ≤ n ∧ (n - 72) % 9 = 0)
  | 13 => decide (n = 2)
  | 14 => decide (n % 16 = 0)
  | _ => false

/-- The section table of a file: R482, and for a live package the kinds of R483. -/
def sectsOk (img : List Byte) (live : Bool) : Bool :=
  let ss := sections img
  (List.range (imgSects img)).all (sectFits img) && pairwise (fun a b => sectApart a b && decide (a.kind ≠ b.kind)) ss &&
    ss.all sectSize && (!live || ss.all (fun x => decide (4 ≤ x.kind ∧ x.kind ≤ 8)))

/-! ## Authentication and rollback (R487 to R489) -/

/-- The anti-rollback counter: blown bits from bit 0 up to the first unblown one (R489). -/
def rollbackCount (f : Fuses) : Nat := ((List.range 64).find? (fun i => !bit i f.rollback)).getD 64

/-- A public key's hash is in force (R488); whether it is KEY1. -/
def keyInForce (f : Fuses) (pub : List Byte) : Bool := let d := Config.sha384 pub; (!f.revoke0 && d == f.key0) || (f.key1Prog && d == f.key1)
def isKey1 (f : Fuses) (pub : List Byte) : Bool := f.key1Prog && (Config.sha384 pub == f.key1) && !(!f.revoke0 && (Config.sha384 pub == f.key0))

/-- The public key in the signature block of a file. -/
def sigKey (img : List Byte) : List Byte := slice img (imgLen img - 256) 97

/-- The signature of a file is valid under its own key (R487). -/
def sigOk (img : List Byte) : Bool :=
  let b := slice img (imgLen img - 256) 256
  (slice b 0 1 == [4]) && allZero (slice b 193 63) && Config.ecdsaOk (sigKey img) (Config.sha384 (slice img 0 (imgLen img - 256))) (slice b 97 96)

/-- The layout digest (R490). -/
def layoutOf (ss : List Sect) : Word :=
  let d := Config.sha384 (sectData ss 1 ++ sectData ss 2 ++ sectData ss 13)
  bf 0 64 d

/-! ## Pieces of sections -/

/-- A list cut into n pieces of k bytes. -/
def pieces (bs : List Byte) (k n : Nat) : List (List Byte) := (List.range n).map (fun i => slice bs (k * i) k)

/-- Table descriptors (R484). -/
def descsOf (ss : List Sect) : List TableDesc := let d := sectData ss 1; (pieces d 32 (d.length / 32)).map (ofBytes 256)
def dNum (d : TableDesc) : Nat := bn 0 5 d
def dKind (d : TableDesc) : Nat := bn 5 3 d
def dOwner (d : TableDesc) : Nat := bn 40 4 d

/-- BANKS entry of logical bank b (R485). -/
def bankEntry (ss : List Sect) (b : Nat) : Nat := natAt (sectData ss 2) (2 * b) 2

/-- Loaded profile slots: slot number and buffer (R483). -/
def profilesOf (ss : List Sect) : List (Nat × List Byte) :=
  let d := sectData ss 4
  (pieces d 274 (d.length / 274)).map (fun x => (natAt x 0 2, slice x 2 272))

/-- Share maps of the crew section: table number and map. -/
def shareMapsOf (ss : List Sect) : List (Nat × Word) :=
  let d := sectData ss 12
  (List.range ((d.length - 72) / 9)).map (fun i => (natAt d (72 + 9 * i) 1, ofBytes 64 (slice d (73 + 9 * i) 8)))

/-- The PORTS entry of port p. -/
def portEntry (ss : List Sect) (p : Nat) : Reg := ofBytes 32 (slice (sectData ss 9) (4 * p) 4)

/-! ## Entry records of WINDOWS and INIT (R425, R426, R483) -/

/-- A record as an image holds it: an index word, or an entry. -/
inductive ImgRec where
  | word (t w row : Nat) (v : Word)
  | entry (t half addr tag : Nat) (care val : BitVec 192) (res : Word)
  | bad
deriving DecidableEq, Repr

/-- The care mask that follows from a TAG (R426). -/
def tagCare (s : State) (t tag : Nat) : BitVec 192 := ones192 (widthBits (tWidth s t)) &&& ~~~ ones192 (tOrigin s t + 1 - tag)

/-- Bytes i to i + n − 1 of x are zero. -/
def zeroAt (x : List Byte) (i n : Nat) : Bool := allZero (slice x i n)

/-- The reserved fields of an ENTRY record of table t are zero (R424, R426, R486). -/
def entryClean (s : State) (t : Nat) (x : List Byte) : Bool :=
  decide (natAt x 1 1 / 64 % 2 = 0 ∧ natAt x 7 1 < 128) && zeroAt x 8 4 && (decide (tWidth s t ≠ 0) || zeroAt x 18 6)

/-- The 32 B of an ENTRY with the extension records that follow it; what is left of the bytes. z: the JSN is 0 (R483). -/
def entryOf (s : State) (z : Bool) (x : List Byte) (rest : List Byte) : ImgRec × List Byte :=
  let b1 := natAt x 1 1
  let t := b1 % 32
  let tag := natAt x 7 1 % 128
  let wide := decide (tWidth s t = 2)
  let wx := slice rest 0 32
  let rest1 := if wide then rest.drop 32 else rest
  let ext := decide (b1 / 128 % 2 = 1)
  let ex := slice rest1 0 32
  let rest2 := if ext then rest1.drop 32 else rest1
  let val : BitVec 192 := (if wide then ofBytes 96 (slice wx 4 12) else 0) ++ (ofBytes 96 (slice x 12 12))
  let low : BitVec 192 := if ext then ofBytes 192 (slice ex 4 12) else tagCare s t tag &&& ones192 96
  let high : BitVec 192 := if wide then (ofBytes 192 (slice wx 16 12)) <<< 96 else 0
  let ok := entryClean s t x && (!wide || (decide (natAt wx 0 1 % 64 = 6) && zeroAt wx 1 1 && zeroAt wx 28 4)) &&
    (!ext || (decide (natAt ex 0 1 % 64 = 5) && zeroAt ex 1 1 && zeroAt ex 16 16)) &&
    (!z || (zeroAt x 2 2 && (!wide || zeroAt wx 2 2) && (!ext || zeroAt ex 2 2)))
  (if ok then .entry t (b1 / 32 % 2) (natAt x 4 3) tag ((low ||| high) &&& ones192 (widthBits (tWidth s t))) (val &&& ones192 (widthBits (tWidth s t))) (ofBytes 64 (slice x 24 8)) else .bad, rest2)

/-- The records of a section, at most n of them. A record with a reserved field set is bad (R486). -/
def imgRecs (s : State) (z : Bool) : Nat → List Byte → List ImgRec
  | 0, _ => []
  | _, [] => []
  | k + 1, bs =>
    match natAt bs 0 1 % 64 with
    | 0 => if zeroAt bs 0 16 then imgRecs s z k (bs.drop 16) else [.bad]
    | 1 =>
      (if natAt bs 1 1 < 128 ∧ natAt bs 7 1 = 0 then .word (natAt bs 1 1 % 32) (natAt bs 1 1 / 32 % 4) (natAt bs 4 3) (ofBytes 64 (slice bs 8 8)) else .bad) ::
        imgRecs s z k (bs.drop 16)
    | 2 => let (r, rest) := entryOf s z (slice bs 0 32) (bs.drop 32); r :: imgRecs s z k rest
    | _ => [.bad]

/-- The records of section 0x0B or 0x0E; those of WINDOWS have JSN 0 (R483). -/
def sectRecs (s : State) (ss : List Sect) (kind : Nat) : List ImgRec :=
  let d := sectData ss kind
  imgRecs s (decide (kind = 11)) (d.length / 16) d

/-! ## Loading (R44 step 6, R483 to R485, R573) -/

/-- The 34 words of a buffer. -/
def bufWords (b : List Byte) : List Word := (List.range 34).map (fun i => ofBytes 64 (slice b (8 * i) 8))

/-- A buffer of a slot is written; it is not yet active (R99, R135). -/
def putBuffer (s : State) (n f : Nat) (ws : List Word) : State := ws.zipIdx.foldl (fun s w => putWord s (kProf n f w.2) w.1) s

/-- Share weights of a SHARES section: key 16t + c. -/
def weightsOf (d : List Byte) : Sparse (BitVec 8) := (List.range 128).foldl (fun m i => sput 0 m i (BitVec.ofNat 8 (natAt d i 1))) []

/-- The share table that an arbiter type uses (R307): 0 bank, 1 macro, 2 partner transmit, 3 cascade transmit, 4 store, 5 store
during a save. -/
def stmapOf (m : BitVec 18) (kind : Nat) : Nat := bn (3 * kind) 3 m

/-- Sections 0x04 to 0x08 that are no profile: thermal, event and lifecycle policy (R504). -/
def loadPolicy (s : State) (x : Sect) : State :=
  let d := x.data
  match x.kind with
  | 6 =>
    let p : ThermalPol := ⟨BitVec.ofNat 24 (natAt d 0 3), BitVec.ofNat 40 (natAt d 4 5)⟩
    { s with str := { s.str with thermal := p, thermalHome := p } }
  | 7 => { s with str := { s.str with events := ofBytes 256 d }, events := { s.events with trmask := BitVec.ofNat 10 (natAt d 20 2) } }
  | 8 => { s with str := { s.str with wearLimit := BitVec.ofNat 32 (natAt d 0 4), reserve := BitVec.ofNat 16 (natAt d 4 2), dueAge := BitVec.ofNat 16 (natAt d 6 2), critAge := BitVec.ofNat 16 (natAt d 8 2) } }
  | _ => s

/-- Waitos's record of the directory is the directory as it stands (R73). -/
def homeDir (s : State) : State := { s with marker := { s.marker with dirRec := s.marker.dirA } }

/-- The directory and the bank list of an image (R485). -/
def loadDir (s : State) (dir : List Byte) : State :=
  let es := (List.range 16384).map (fun d => (d, (ofBytes 80 (slice dir (10 * d) 10) : BitVec 80)))
  { s with marker := { s.marker with
    dirA := es.foldl (fun m e => sput 0 m e.1 e.2) [], dirB := es.foldl (fun m e => sput 0 m e.1 e.2) [],
    list := (List.range 32768).foldl (fun m i => sput 0 m i (natAt dir (163840 + 2 * i) 2)) [] } }

/-! ### The directory of a broadcast table (R340)

Each die holds a share of the table: the entries of the indexes that the share map gives to its rank. How the banks are divided
among them beyond "evenly" is the model's (DESIGN CHOICE, log entry 79). -/

/-- A run of the bank list from place k on. -/
def putList (s : State) (k : Nat) (bs : List Nat) : State :=
  { s with marker := { s.marker with list := bs.zipIdx.foldl (fun m b => sput 0 m (k + b.2) b.1) s.marker.list } }

/-- The runs of the bank list that valid directory entries use: first place and the place after the last. -/
def listRuns (s : State) : List (Nat × Nat) :=
  ((s.marker.dirA.map (·.2)).filter dValid).map (fun x => (dList x, dList x + dSpan x * dRepl x))

/-- The lowest free place of the bank list for n banks (R542). -/
def listPlace (s : State) (n : Nat) : Option Nat :=
  let runs := listRuns s
  (sortNat (0 :: runs.map (·.2))).find? (fun k => decide (k + n ≤ 32768) && runs.all (fun r => decide (k + n ≤ r.1 ∨ r.2 ≤ k)))

/-- The die holds a share of table t: it is a broadcast table of a crew of 2 or 4. -/
def isShared (s : State) (t : Nat) : Bool := decide (tKind s t = 1 ∧ tCrew s t = 1 ∧ 1 < crewSize s ∧ 4 ≤ tPartW s t)

/-- The indexes, the top four bits of the partition field, whose entries this die holds. -/
def heldIndexes (s : State) (t : Nat) : List Nat :=
  (List.range 16).filter (fun i => bit (4 * i + rank s) (sget 0 s.str.shareMaps t))

/-- The primary banks that the bank map gives to table t. -/
def ownBanks (s : State) (t : Nat) : List Nat :=
  (List.range 2048).filter (fun b => bankTable s b == some t && decide (tWidth s t ≠ 2 ∨ b % 2 = 0) && (!tPaired s t || decide (b < twinOf b)))

/-- Each index is cut by 2^k further partition bits, so that a directory entry spans at most four banks. -/
def cutBits (s : State) (t : Nat) : Nat :=
  let per := ((ownBanks s t).length + (heldIndexes s t).length - 1) / (heldIndexes s t).length
  min (tPartW s t - 4) (((List.range 12).find? (fun k => decide (per ≤ 4 * 2 ^ k))).getD 12)

/-- The partition pattern of part j of index i, as a directory entry without its banks. -/
def sharePattern (s : State) (t i k j : Nat) : BitVec 80 :=
  let w := tPartW s t
  bput 80 0 t ||| bflag 80 5 true ||| bput 80 6 (i * 2 ^ (w - 4) + j * 2 ^ (w - 4 - k)) ||| bput 80 22 (2 ^ w - 2 ^ (w - 4 - k))

/-- Two valid directory entries of one table do not overlap (R68). -/
def dirApart (a b : BitVec 80) : Bool :=
  !(dValid a && dValid b) || decide (dTnum a ≠ dTnum b) || (dPcare a &&& dPcare b &&& (dPval a ^^^ dPval b)) != 0

/-- The SEL that the image gives to a part of a share (R194): that of the entry it falls in, else of the table's first. -/
def imageSel (image : List (BitVec 80)) (x : BitVec 80) : Bool := ((image.find? (fun e => !dirApart e x)).or image.head?).any dSel

/-- The banks of place k of n, divided evenly; more places than banks share them. -/
def shareRun (bs : List Nat) (k n : Nat) : List Nat :=
  (bs.drop (k * bs.length / n)).take (min 4 (max 1 ((k + 1) * bs.length / n - k * bs.length / n)))

/-- The directory entries that the image gives to table t go, and those of the die's share come, on the places they leave first. -/
def spreadTable (s : State) (t : Nat) : State :=
  let held := heldIndexes s t
  if !isShared s t then s
  else
    let image := s.marker.dirA.filter (fun e => dValid e.2 && decide (dTnum e.2 = t))
    let old := image.map (·.1)
    let s := old.foldl (fun s d => setDir s d 0) s
    if held.isEmpty then s
    else
      let k := cutBits s t
      let bs := ownBanks s t
      let n := held.length * 2 ^ k
      let free := old ++ (List.range 16384).filter (fun d => !old.contains d && !dValid (dirEntry s d))
      ((List.range n).zip free).foldl (fun s x =>
        let run := shareRun bs x.1 n
        let pat := sharePattern s t (held.getD (x.1 / 2 ^ k) 0) k (x.1 % 2 ^ k)
        if run.isEmpty then s
        else
          match listPlace s run.length with
          | none => s
          | some p =>
            setDir (putList s p run) x.2 (pat ||| bput 80 38 (run.length - 1) ||| bput 80 45 p ||| bflag 80 60 (imageSel (image.map (·.2)) pat))) s

/-- Every broadcast table's share. -/
def spreadAll (s : State) : State := (s.str.shareMaps.map (·.1)).foldl spreadTable s

/-- The structure of an image: descriptors, banks, directory, profiles, shares, policies, ports, crew, store. -/
def loadStruct (s : State) (ss : List Sect) : State :=
  let sh := sectData ss 5
  let cr := sectData ss 12
  let dir := sectData ss 3
  let st := sectData ss 13
  let s := { s with str := { s.str with
    tables := (descsOf ss).foldl (fun m d => sput 0 m (dNum d) d) [],
    wact := weightsOf sh, wpend := weightsOf sh, stmap := BitVec.ofNat 18 (natAt sh 128 4),
    portPol := (List.range 11).foldl (fun m p => sput 0 m p (portEntry ss p)) [],
    routed := ofBytes 64 (slice cr 0 8), routeMap := ofBytes 512 (slice cr 8 64),
    shareMaps := (shareMapsOf ss).foldl (fun m x => sput 0 m x.1 x.2) [],
    dpc := BitVec.ofNat 8 (natAt st 0 1), imgPace := BitVec.ofNat 8 (natAt st 1 1) } }
  let s := ss.foldl loadPolicy s
  let s := { s with tcam := { s.tcam with
    table := (List.range 2048).foldl (fun m b => sput 0 m b (if bankEntry ss b / 32 % 2 = 1 then bankEntry ss b % 32 + 1 else 0)) [],
    state := (List.range 2048).foldl (fun m b => sput 0 m b (if bankEntry ss b / 32 % 2 = 1 then 1 else 0)) s.tcam.state } }
  let s := homeDir (spreadAll (loadDir s dir))
  (profilesOf ss).foldl (fun s x => { putBuffer s x.1 0 (bufWords x.2) with search := { s.search with active := sput 0 s.search.active x.1 0, vers := sput 0 s.search.vers x.1 (bf 16 16 ((bufWords x.2).headD 0)) } }) s

/-! ## The checks of R486

They read the structure as loaded in a candidate state, which is thrown away when one fails. -/

/-- R484: kinds, widths, owner, reserved bits, and at most one descriptor per table. -/
def descOk (d : TableDesc) : Bool :=
  let k := dKind d
  let rw := bn 96 16 d
  decide (1 ≤ k ∧ k ≤ 4) && decide (dOwner d ≤ 9) && decide (bn 12 2 d ≤ 2) && decide (bn 24 8 d ≤ 96) && decide (bn 16 8 d ≤ 191) &&
    (!decide (k = 1) || decide (bn 8 2 d ≤ 2)) && (!bit 14 d || decide (k = 1)) && (!bit 11 d || decide (k = 2)) &&
    (!decide (k = 2) || (if bit 11 d then [8, 16, 32, 64, 128].contains rw && decide (bn 64 32 d ≤ 256) else [64, 128, 256].contains rw)) &&
    (bf 15 1 d == 0) && (bf 44 4 d == 0) && (bf 60 4 d == 0) && (bf 112 16 d == 0) && (bf 208 48 d == 0)

/-- Banks come whole: twins of a paired table, even and odd of a 192-trit table (R486). -/
def banksWhole (s : State) (b : Nat) : Bool :=
  match bankTable s b with
  | none => true
  | some t => decide (tKind s t = 1) && (!tPaired s t || bankTable s (twinOf b) == some t) &&
      (!decide (tWidth s t = 2) || bankTable s (if b % 2 = 0 then b + 1 else b - 1) == some t)

/-- The directory entries that an image holds, before the die takes its share of the broadcast tables (R340). -/
def imageDir (dir : List Byte) : List (BitVec 80) := ((List.range 16384).map (fun d => (ofBytes 80 (slice dir (10 * d) 10) : BitVec 80))).filter (· != 0)

/-- The directory es of an image meets R68 and R69; its reserved bits are zero (R486). -/
def directoryOk (s : State) (es : List (BitVec 80)) : Bool :=
  pairwise dirApart (es.filter dValid) && es.all (fun x => (bf 61 18 x == 0) &&
    (!dValid x || (decide (tKind s (dTnum x) = 1) && decide (dSpan x * dRepl x ≤ 32) && dParityOk x)))

/-- A field reference that a source may hold (R100). -/
def frOk (r : BitVec 17) : Bool := decide (frReg r < 28 ∨ frReg r = 31) && (decide (frReg r = 27) || decide (frLsb r + frW r ≤ 64))
/-- A field reference that a destination may hold. -/
def frDstOk (r : BitVec 17) : Bool := frOk r && decide ((20 ≤ frReg r ∧ frReg r ≤ 26) ∨ frReg r = 31)

/-- An entry of a field map meets R103 by itself. -/
def mapOk (e : Word) : Bool :=
  let src := bn 0 2 e
  let w := bn 20 7 e + 1
  decide (src = 3) || (decide (w ≤ 96) && decide (bn 12 8 e + w ≤ 192) && !bit 3 e && (bf 27 5 e == 0) &&
    (if src = 0 then decide (bn 4 8 e + w ≤ 192) else if src = 1 then decide (bn 4 8 e + w ≤ 64) else decide (w ≤ 32)))

/-- Two used entries write no bit in common. -/
def mapApart (a b : Word) : Bool :=
  decide (bn 0 2 a = 3 ∨ bn 0 2 b = 3) || (bit 2 a != bit 2 b) || decide (bn 12 8 a + bn 20 7 a + 1 ≤ bn 12 8 b ∨ bn 12 8 b + bn 20 7 b + 1 ≤ bn 12 8 a)

def mapsOk (es : List Word) : Bool := es.all mapOk && pairwise mapApart es

/-- A step names its row, condition or alternate row among outcomes of earlier levels, the request, CX or a constant (R106).
The outcome registers of a step that the profile does not run are no outcome of an earlier level, and naming one is refused
(DESIGN CHOICE, log entry 115). -/
def refEarlier (ds : List (BitVec 128)) (lvl : Nat) (r : BitVec 17) : Bool :=
  frOk r && (if frReg r < 16 then (match ds[frReg r / 4]? with | some d => decide (sKind d ≠ 0) && decide (sLevel d < lvl) | none => false)
    else decide (frReg r < 20 ∨ frReg r = 27 ∨ frReg r = 31))

/-- A constant row lies within its table (R106). -/
def rowInTable (s : State) (t : Nat) (r : BitVec 17) : Bool := !decide (frReg r = 27 ∨ frReg r = 31) || decide (frVal (fun _ => 0) r < tCap s t)

/-- A table that an INDEX step reads. -/
def isIndexable (s : State) (t : Nat) : Bool := decide (2 ≤ tKind s t)

/-- A lookup step meets R100 and R106 to R115. Every field reference of a step that runs meets R100; R106 is held against the
references that the step's kind and condition use (DESIGN CHOICE, log entry 115). -/
def stepOk (s : State) (ds : List (BitVec 128)) (d : BitVec 128) : Bool :=
  let k := sKind d
  let l := sLevel d
  let noCond := decide (frReg (sCond d) = 31)
  decide (k ≤ 4) && (bf 68 60 d == 0) && (decide (k = 0) || (frOk (sRow d) && frOk (sCond d) && frOk (sArow d))) &&
    (match k with
     | 1 => isIndexable s (sTable d) && refEarlier ds l (sRow d) && rowInTable s (sTable d) (sRow d) &&
         (noCond || (refEarlier ds l (sCond d) && isIndexable s (sAtable d) && refEarlier ds l (sArow d) && rowInTable s (sAtable d) (sArow d)))
     | 2 => decide (tKind s (sTable d) = 1) && noCond
     | 3 => decide (tKind s (sTable d) = 1) && refEarlier ds l (sCond d)
     | 4 => decide (tKind s (sTable d) = 1) && noCond && decide (l = 0) &&
         decide ((ds.filter (fun x => decide (sKind x ≠ 0) && decide (sLevel x = 0))).length = 1)
     | _ => true)

/-- A composer operation meets R100, R117 and R118. -/
def opOk (s : State) (op : BitVec 128) : Bool :=
  let k := bn 0 4 op
  let mode := bn 11 3 op
  let imm := bn 70 32 op
  decide (k ≤ 8) && decide (bn 4 5 op < 20 ∧ (bn 4 5 op = 0 ∨ 4 ≤ bn 4 5 op)) && frDstOk (bf 19 17 op) && frOk (bf 36 17 op) && frOk (bf 53 17 op) && (bf 102 26 op == 0) &&
    (decide (mode = 0) || decide (k = 3 ∨ k = 4 ∨ k = 6)) &&
    (match k with
     | 2 => decide (frW (bf 53 17 op) ≤ 4) || decide (frReg (bf 53 17 op) = 31)
     | 3 => decide (mode ≤ 5)
     | 4 => decide (mode ≤ 2) && tComposer s (bn 14 5 op)
     | 5 => decide (imm % 256 ≠ 0) && (decide (frReg (bf 53 17 op) = 31) || frDstOk (bf 8 17 (BitVec.ofNat 32 imm)))
     | 6 => decide (mode ≤ 1)
     | 8 => [0, 1, 2, 8, 9].contains (imm % 16)
     | _ => true)

/-- The cost of a level, in tenths of a nanosecond (R128). -/
def levelCost (ds : List (BitVec 128)) (l : Nat) : Nat :=
  let ks := (ds.filter (fun d => decide (sLevel d = l))).map sKind
  if ks.any (fun k => decide (2 ≤ k)) then 180 else if ks.contains 1 then 80 else 0

/-- Levels with steps follow no level without (R106). -/
def levelsDense (ds : List (BitVec 128)) : Bool :=
  (List.range 3).all (fun l => decide (levelCost ds l ≠ 0) || decide (levelCost ds (l + 1) = 0))

/-- A buffer of a slot meets R28, R99 to R118 and R128. -/
def profileOk (s : State) (n f : Nat) : Bool :=
  let h := header s n f
  let ds := (List.range (hNstep h)).map (stepDesc s n f)
  decide (bn 0 6 h = n) && decide (hNstep h ≤ 4) && decide (hNops h ≤ 8) && !bit 15 h && !bit 47 h && (bf 65 63 h == 0) && frOk (hHfld h) &&
    mapsOk ((List.range 8).map (mapEntry s n f)) && ds.all (stepOk s ds) && levelsDense ds &&
    ((List.range (hNops h)).map (compOp s n f)).all (opOk s) &&
    decide (275 + (levelCost ds 0 + levelCost ds 1 + levelCost ds 2 + levelCost ds 3) ≤ 640)

/-- A routed profile holds no ROUTE and no allocation step (R334). -/
def routedOk (s : State) (n f : Nat) : Bool :=
  !bit n s.str.routed ||
    ((List.range (hNstep (header s n f))).map (stepDesc s n f)).all (fun d =>
      decide (sKind d ≠ 4) && !(decide (sKind d = 1) && (decide (tKind s (sTable d) = 4) || (decide (frReg (sCond d) ≠ 31) && decide (tKind s (sAtable d) = 4)))))

/-- Share table t meets R308, by the arbiter types that use it: w holds the weights, roles the port roles. -/
def shareOk (m : BitVec 18) (w : Sparse (BitVec 8)) (role : Nat → Nat) (t : Nat) : Bool :=
  let at_ := fun c => (sget 0 w (16 * t + c)).toNat
  (!decide (t = stmapOf m 0) || (List.range 16).all (fun c => decide (c = 12) || decide (at_ c < at_ 12))) &&
    (!decide (t = stmapOf m 0 ∨ t = stmapOf m 1) || (List.range 8).all (fun p => decide (role p ≠ 1) || decide (at_ p ≠ 0))) &&
    (!decide (t = stmapOf m 2) || decide (at_ 12 ≠ 0))

/-- Every share table meets R308. -/
def sharesOk (m : BitVec 18) (w : Sparse (BitVec 8)) (role : Nat → Nat) : Bool := (List.range 8).all (shareOk m w role)

/-- The EVENTS section meets R573. -/
def eventsOk (d : List Byte) : Bool :=
  decide (natAt d 4 4 < natAt d 0 4) && decide (natAt d 8 1 ≠ 0 ∧ natAt d 9 1 ≠ 0 ∧ natAt d 10 1 ≠ 0) && decide (natAt d 11 1 < 2) && decide (natAt d 20 2 < 1024) && allZero (slice d 22 10)

/-- The role that PROLE gives a port. -/
def roleOf (v : Reg) : Nat := bn 0 2 v

/-- PORTS fits the crew size (R330, R486), and its reserved bits are zero. -/
def portsOk (ss : List Sect) (size : Nat) : Bool :=
  (List.range 11).all (fun p => (bf 4 4 (portEntry ss p) == 0) && (bf 24 8 (portEntry ss p) == 0)) &&
  (List.range 8).all (fun p => decide (roleOf (portEntry ss p) ≤ 1)) &&
    [8, 9, 10].all (fun p => decide (roleOf (portEntry ss p) = 0 ∨ roleOf (portEntry ss p) = 2)) &&
    (List.range 3).all (fun k => !decide (roleOf (portEntry ss (8 + k)) = 2) || decide (size = 4 ∨ (size = 2 ∧ k = 0)))

/-- DBGPOL is 0 or 1 (R508), and the reserved bytes of PROTECT are zero. -/
def protectOk (d : List Byte) : Bool := decide (natAt d 8 1 ≤ 1) && allZero (slice d 9 7)

/-- A WINDOWS record names a PROT table, lies within its banks and meets R58; a WIN result word meets R198. -/
def windowOk (s : State) : ImgRec → Bool
  | .entry t _ addr tag care _ res =>
    tProt s t && (bankTable s (addr / 4096) == some t) && careOk s t care tag &&
      (!decide (t = 0) || ((bf 3 13 res == 0) && (bf 36 12 res == 0) && (bf 59 5 res == 0)))
  | _ => false

/-- Composer tables total at most 8 KiB (R119). -/
def composerBytes (s : State) : Nat := (List.range 32).foldl (fun n t => if tComposer s t then n + tCap s t * tRowW s t / 8 else n) 0

/-- Sections 0x04 to 0x08 of a file, loaded in the candidate state c, buffer f (R486, R503). -/
def liveOk (c : State) (ss : List Sect) (f : Nat → Nat) (m : BitVec 18) (role : Nat → Nat) : Bool :=
  let ps := profilesOf ss
  ps.all (fun x => decide (x.1 < 64) && profileOk c x.1 (f x.1) && routedOk c x.1 (f x.1)) && pairwise (fun a b => decide (a.1 ≠ b.1)) ps &&
    (!hasSect ss 5 || sharesOk m (weightsOf (sectData ss 5)) role) && (!hasSect ss 7 || eventsOk (sectData ss 7)) &&
    (!hasSect ss 6 || (decide (natAt (sectData ss 6) 3 1 = 0) && allZero (slice (sectData ss 6) 9 3)))

/-- The checks of R486 on the sections of an image; c is the candidate state that holds them. -/
def structOk (c : State) (ss : List Sect) (size : Nat) : Bool :=
  let ds := descsOf ss
  ds.all descOk && pairwise (fun a b => decide (dNum a ≠ dNum b)) ds && (List.range 2048).all (fun b => decide (bankEntry ss b < 64) && banksWhole c b) &&
    decide (composerBytes c ≤ 8192) && directoryOk c (imageDir (sectData ss 3)) && liveOk c ss (fun _ => 0) c.str.stmap (fun p => roleOf (portEntry ss p)) &&
    sharesOk c.str.stmap c.str.wact (fun p => roleOf (portEntry ss p)) &&
    (sectRecs c ss 11).all (windowOk c) && (sectRecs c ss 14).all (· != .bad) && portsOk ss size && (!hasSect ss 10 || protectOk (sectData ss 10)) &&
    mapsOk ((List.range 8).map (fun e => bf (64 * e) 64 c.str.routeMap)) && decide (natAt (sectData ss 5) 128 4 < 2 ^ 18) &&
    (shareMapsOf ss).all (fun x => decide (x.1 < 32) && decide (tCrew c x.1 = 1))

end Sys2Proof.Machine
end

