-- ==== Sys2Proof/Machine/Store.lean ====
section
/-! DEFINITION. The store: pairs, pages, bands, superblocks and the rolling checkpoint (R414 to R436, R447, R452). -/

namespace Sys2Proof.Machine

open Sys2Proof

/-! ## The boot store (R479) -/

/-- A byte of the boot store; an erased one reads 0xFF (R554). -/
def flashGet : List Host.Cell → Nat → Byte
  | [], _ => 0xFF
  | (k, v) :: m, a => if a = k then v else flashGet m a

/-- Bytes of the boot store. -/
def flashBytes (s : State) (off len : Nat) : List Byte := (List.range len).map (fun i => flashGet s.flash (off + i))

/-- The start of image slot A (0) or B (1), and a slot's length. -/
def slotBase (slot : Nat) : Nat := slot * 2 ^ 23
abbrev slotLen : Nat := 2 ^ 23

/-- The header of the image that booted, which the slot still holds (R480, R490). -/
def bootHeader (s : State) : List Byte := flashBytes s (slotBase s.boot.slot.toNat) 256

/-! ## Pairs and dies (R414 to R416) -/

/-- Pairs of the store: 4 with one die per channel, 8 with two. -/
def nPairs (s : State) : Nat := if s.str.dpc = 2 then 8 else 4

/-- A pair is FAILED: no write completes while one is (R416, R417). -/
def storeDown (s : State) : Bool := (List.range (nPairs s)).any (fun p => bit p s.store.failed)

/-- Every partner's queue, beside FW and SB. -/
abbrev qEverybody : List Nat := [8, 9, 0, 1, 2, 3, 4, 5, 6, 7]

/-- A store die fails (R416): its pair is DEGRADED, or FAILED when the other die is gone too. -/
def storeDieFail (s : State) (die : Nat) : State :=
  let p := die / 2
  if nPairs s ≤ p ∨ bit die s.store.die = false then s
  else
    let st := s.store
    let s := { s with store := { st with die := bset die 1 st.die 0 } }
    if bit (die ^^^ 1) st.die then
      let s := { s with store := { s.store with degraded := bset p 1 st.degraded 1 } }
      if bit p st.degraded then s else event s [qFW, qSB] 0xE003 die 1
    else event { s with store := { s.store with failed := bset p 1 st.failed 1, degraded := bset p 1 st.degraded 0 } } qEverybody 0xF003 p 0

def execStoreDieFail (die : Fin 16) (s : State) : Host.Outcome State Fault Refusal := .next (storeDieFail s die.val)

/-! ## Bands (R417, R418) -/

/-- Units of a band. -/
def bandUnits (s : State) : Nat := 16 * nPairs s

/-- The band after one, in writing order. -/
def nextBand (k : Nat) : Nat := if k = 32255 then 8 else k + 1

/-- The pages of a checkpoint, those of its segment directory among them. -/
def ckPages (c : Option Ckpt) : List CkPage := match c with | some c => c.segs.flatMap (·.pages) | none => []

/-- A band holds a live page (R418). -/
def bandLive (s : State) (k : Nat) : Bool :=
  s.store.pages.any (fun p => decide (p.band = k)) || (ckPages s.store.ckpt).any (fun p => decide (p.band = k)) ||
    (ckPages s.store.run).any (fun p => decide (p.band = k))

/-- The lowest free spare block of a die (R417, R419). -/
def freeSpare (s : State) (die : Nat) : Option Nat :=
  ((List.range 512).map (· + 32256)).find? (fun b => !s.store.remap.any (fun r => decide (r.1 = die ∧ r.2.2 = b)))

/-- A band that the sweep may not use: one that contains a retired block of a die with no free spare left (R419). -/
def bandBarred (s : State) (k : Nat) : Bool := s.store.remap.any (fun r => decide (r.2.1 = k) && (freeSpare s r.1).isNone)

/-- The next band that the write pointer may enter, looking at n bands. -/
def freeBand (s : State) : Nat → Nat → Option Nat
  | 0, _ => none
  | n + 1, k => if bandLive s k || bandBarred s k then freeBand s n (nextBand k) else some k

/-- The write pointer after one page: 16 pages to a unit; at a band's end it enters the next band that holds nothing
live, which must have been conditioned (R418). None: the store waits for one. -/
def advance (s : State) (pages : Nat) : Option State :=
  let st := s.store
  let u := st.unit + (st.nextPage + pages) / 16 - st.nextPage / 16
  if u < bandUnits s then some { s with store := { st with nextPage := st.nextPage + pages, unit := u } }
  else
    match freeBand s 32248 (nextBand st.band) with
    | none => none
    | some k =>
      if st.conditioned.contains k then
        some { s with store := { st with nextPage := st.nextPage + pages, unit := (u - bandUnits s) % bandUnits s, band := k, conditioned := st.conditioned.filter (· ≠ k) } }
      else none

/-- BAND_CONDITION (R418): a band ahead of the write pointer that holds no live page is conditioned, on every pair. -/
def bandCondition (s : State) (k : Nat) : State :=
  let st := s.store
  if k < 8 ∨ 32255 < k ∨ k = st.band ∨ st.conditioned.contains k = true ∨ bandLive s k = true ∨ storeDown s = true then s
  else { s with store := { st with conditioned := st.conditioned ++ [k], wear := st.wear + 2 * nPairs s } }

def execBandCondition (band : Nat) (s : State) : Host.Outcome State Fault Refusal := .next (bandCondition s band)

/-- The pair that a journal page lies in (R417). -/
def pagePair (s : State) (p : JPage) : Nat := p.unit % nPairs s

/-- A checkpoint whose page n stands at a place. -/
def Ckpt.rePlace (n num band unit : Nat) (c : Ckpt) : Ckpt :=
  { c with segs := c.segs.map (fun x => { x with pages := x.pages.map (fun p => if p.num = n then { p with num := num, band := band, unit := unit } else p) }) }

/-- Page n is written again at the write pointer, and takes its place (R419). -/
def movePage (s : State) (n : Nat) : State :=
  match advance s 1 with
  | none => s
  | some s1 =>
    let c := fun (x : Ckpt) => x.rePlace n s.store.nextPage s.store.band s.store.unit
    let st := s1.store
    { s1 with store := { st with pages := st.pages.map (fun x => if x.num = n then { x with num := s.store.nextPage, band := s.store.band, unit := s.store.unit } else x), ckpt := st.ckpt.map c, run := st.run.map c } }

/-- The live pages that lie in a block of a die: of the journal, and of both checkpoints (R418, R419). -/
def blockPages (s : State) (die block : Nat) : List Nat :=
  (s.store.pages.filter (fun p => decide (p.band = block ∧ pagePair s p = die / 2))).map (·.num) ++
    ((ckPages s.store.ckpt ++ ckPages s.store.run).filter (fun p => decide (p.band = block ∧ p.unit % nPairs s = die / 2))).map (·.num)

/-- STORE_BLOCK_RETIRE (R419): its pages are written again, and the block is remapped, or the die has no spare left. -/
def storeBlockRetire (s : State) (die block : Nat) : State :=
  if 2 * nPairs s ≤ die ∨ 32768 ≤ block ∨ s.store.remap.any (fun r => decide (r.1 = die ∧ r.2.1 = block)) = true then s
  else
    let s := (blockPages s die block).foldl movePage (countStore s 9 1)
    let put := fun (b : Nat) => { s with store := { s.store with remap := s.store.remap ++ [(die, block, b)] } }
    match freeSpare s die with
    | some b => put b
    | none => event (put 0) [qFW, qSB] 0xE003 die 2

def execStoreBlockRetire (die : Fin 16) (block : Nat) (s : State) : Host.Outcome State Fault Refusal := .next (storeBlockRetire s die.val block)

/-! ## Superblocks (R434 to R436) -/

/-- How the page of a pair reads, by what the boot environment says of it (R415): nothing of a FAILED pair, and in a DEGRADED one no
other die. None: it reads well at once. -/
def readOf (s : State) (how : Option PageRead) (pair : Nat) : Option PageRead :=
  if bit pair s.store.failed then some .lost
  else if how = some .mirrored ∧ bit pair s.store.degraded = true then some .lost
  else how

/-- How a page with a number reads. -/
def pageRead (s : State) (n pair : Nat) : Option PageRead := readOf s ((s.boot.env.reads.find? (fun x => x.1 == n)).map (·.2)) pair

/-- How a superblock reads. -/
def superRead (s : State) (b : Superblock) (pair : Nat) : Option PageRead :=
  readOf s ((s.boot.env.sbReads.find? (fun x => x.1 == b.sbgen.toNat)).map (·.2)) pair

/-- A valid superblock: it reads from a die with its MAGIC and CRC, and its PAIRS and DPC match the image (R435). -/
def superOk (s : State) (pair : Nat) (b : Superblock) : Bool :=
  decide (superRead s b pair ≠ some .lost) && decide (b.pairs = nPairs s) && decide (b.dpc = s.str.dpc.toNat)

/-- The one of two superblocks with the higher SBGEN. -/
def laterSuper (a : Option Superblock) (b : Superblock) : Option Superblock :=
  match a with
  | some x => if x.sbgen.toNat < b.sbgen.toNat then some b else some x
  | none => some b

/-- The last written page of a ring (R436): in the block whose first page holds the highest SBGEN. -/
def ringLast (s : State) (pair : Nat) (l : List Superblock) : Option Superblock :=
  match ((l.filter (fun b => decide (b.pos % 256 = 0 ∧ superRead s b pair ≠ some .lost))).foldl laterSuper none) with
  | some f => (l.filter (fun b => decide (b.pos / 256 = f.pos / 256))).foldl (fun m b => match m with | some x => if x.pos < b.pos then some b else some x | none => some b) none
  | none => none

/-- The valid superblock with the highest SBGEN among the last written pages of the rings (R435). -/
def newestSuper (s : State) : Option Superblock :=
  s.store.rings.foldl (fun (best : Option Superblock) r =>
    match ringLast s r.1 r.2 with
    | some b => if superOk s r.1 b then laterSuper best b else best
    | none => best) none

/-- The next ring position that may be written: a block is entered only once conditioned (R436). -/
def ringPlace (s : State) (pair : Nat) : Nat → Nat → Option Nat
  | 0, _ => none
  | n + 1, pos =>
    if pos % 256 ≠ 0 then some pos
    else if sget false s.store.ringCond (pair * 8 + pos / 256 % 8) then some pos
    else ringPlace s pair n ((pos / 256 + 1) * 256 % 2048)

/-- The location of the journal page that holds a JSN, or of the page to be written next (R434). -/
def jlocOf (s : State) (rf : Word) : BitVec 32 :=
  match s.store.pages.find? (fun p => p.recs.any (fun e => decide (rf.toNat ≤ e.jsn.toNat))) with
  | some p => p.sloc
  | none => slocOf s.store.band s.store.unit (s.store.nextPage % 16)

/-- The location of a checkpoint's segment directory (R434). -/
def ckdirOf (c : Option Ckpt) : BitVec 32 := match c with | some c => ((c.segs.find? (fun x => x.kind == 3)).map Seg.sloc).getD 0 | none => 0

/-- The remapped blocks that a superblock has room for (R434; log entry 136). -/
def remapKept (s : State) : List (Nat × Nat × Nat) := (s.store.remap.filter (fun r => decide (r.2.2 ≠ 0))).take 992

/-- A superblock is written at the next page of the ring of pair g mod N, on both dies (R434). None: the pair is FAILED,
or no block of its ring may be written (R444). -/
def writeSuper (s : State) (sj : Option Word) : Option State :=
  let st := s.store
  let g := st.sbgen + 1
  let pair := g.toNat % nPairs s
  if bit pair st.failed then none
  else
    match ringPlace s pair 8 (sget 0 st.ringPos pair) with
    | none => none
    | some pos =>
      let rf := (st.ckpt.map (·.rfjsn)).getD 1
      let b : Superblock := { sbgen := g, ckgen := (st.ckpt.map (·.gen)).getD 0, rfjsn := rf, sealJsn := sj.getD 0, ckdir := ckdirOf st.ckpt, jloc := jlocOf s rf, saved := sj.isSome, pairs := nPairs s, dpc := s.str.dpc.toNat, pstate := st.degraded, imgver := s.boot.imgver, dtime := s.clock.time, epoch := s.clock.epoch, remap := remapKept s, pos := pos }
      let cond := if pos % 256 = 0 then sput false st.ringCond (pair * 8 + pos / 256 % 8) false else st.ringCond
      some { s with store := { st with sbgen := g, rings := smod [] st.rings pair (fun l => b :: l), ringPos := sput 0 st.ringPos pair ((pos + 1) % 2048), ringCond := cond } }

/-- The superblocks in block k of a pair's ring. -/
def ringBlock (s : State) (pair k : Nat) : List Superblock := (sget [] s.store.rings pair).filter (fun b => decide (b.pos / 256 = k))

/-- Block k of a ring may be conditioned (R436): the ring writes in block k − 1, a superblock written there has been read back valid,
and no superblock of block k is newer than every valid one there. -/
def ringFree (s : State) (pair k : Nat) (readBack : Bool) : Bool :=
  let prev := (ringBlock s pair ((k + 7) % 8)).filter (superOk s pair)
  readBack && !prev.isEmpty && !(ringBlock s pair k).any (fun y => prev.all (fun x => decide (x.sbgen.toNat < y.sbgen.toNat)))

/-- SUPERBLOCK_RING_CONDITION (R436): the block after the one that the ring writes is conditioned, on both dies, when it may be; the
superblocks in it go. -/
def ringCondition (s : State) (pair : Nat) (readBack : Bool) : State :=
  let st := s.store
  let k := (sget 0 st.ringPos pair / 256 + 1) % 8
  if nPairs s ≤ pair ∨ bit pair st.failed = true ∨ ringFree s pair k readBack = false ∨ sget false st.ringCond (pair * 8 + k) = true then s
  else { s with store := { st with ringCond := sput false st.ringCond (pair * 8 + k) true, rings := smod [] st.rings pair (fun l => l.filter (fun b => decide (b.pos / 256 ≠ k))), wear := st.wear + 2 } }

def execSuperblockRingCondition (ask : RingAsk) (s : State) : Host.Outcome State Fault Refusal := .next (ringCondition s ask.pair.val ask.readBack)

/-- The store conditioned anew (R495, R558): every ring block, and the bands at the write pointer. -/
def conditionStore (s : State) : State :=
  { s with store := { s.store with blank := true, pages := [], nextPage := 0, ckpt := none, run := none, seg := 0, lastGen := 0, rings := [], ringPos := [], ringCond := (List.range 64).foldl (fun m i => sput false m i true) [], sbgen := 0, band := 8, unit := 0, conditioned := [9, 10, 11, 12], wear := s.store.wear + 2 * nPairs s * 13 } }

/-! ## The journal drain (R428, R447) -/

/-- PAGE_FRAME_CLOSE (R428): the open frame closes 10 µs after its first record; PAD fills the rest. -/
def closeFrame (s : State) : State :=
  { s with journal := { s.journal with frames := s.journal.frames.map (fun f => if f.recs.isEmpty then f else { f with closed := true }) } }

def execPageFrameClose (s : State) : Host.Outcome State Fault Refusal := .next (closeFrame s)

/-- The first frame with a property is changed. -/
def frameMod (p : Frame → Bool) (f : Frame → Frame) (s : State) : State :=
  { s with journal := { s.journal with frames := updFirst p f s.journal.frames } }

/-- JOURNAL_DRAIN (R428): the oldest closed frame is written as a journal page; it is freed once its JSNs are applied. It
waits while a pair is FAILED, or for a conditioned band. -/
def journalDrain (s : State) : State :=
  let waits := fun (f : Frame) => f.closed && !f.drained
  match s.journal.frames.find? waits with
  | none => s
  | some f =>
    if storeDown s || !bit 11 s.power.dom then s
    else
      match advance s 1 with
      | none => s
      | some s1 =>
        let s1 := { s1 with store := { s1.store with pages := s1.store.pages ++ [({ num := s.store.nextPage, band := s.store.band, unit := s.store.unit, recs := f.recs } : JPage)] } }
        let top := f.recs.foldl (fun (m : Word) e => if m.toNat < e.jsn.toNat then e.jsn else m) s1.journal.dmark
        let s1 := { s1 with journal := { s1.journal with dmark := top } }
        freeFrames (countStore (frameMod waits (fun f => { f with drained := true }) s1) 1 1)

def execJournalDrain (s : State) : Host.Outcome State Fault Refusal := .next (journalDrain s)

/-- TIME_RECORD (R447). -/
def execTimeRecord (s : State) : Host.Outcome State Fault Refusal :=
  .next (if s.boot.phase = .ready then jNote s (.time s.clock.time) else s)

/-! ## The rolling checkpoint (R430 to R433) -/

/-- A checkpoint that has copied nothing yet. -/
def Ckpt.fresh (gen rfjsn mark : Word) : Ckpt where
  gen := gen
  segs := []
  rfjsn := rfjsn
  sinceMark := mark
  rows := []
  words := []
  pages := []
  hasStruct := false
  dir := []
  list := []
  site := []
  state := []
  btable := []
  profiles := []
  active := []
  wact := []
  thermal := .reset
  events := 0
  lifePol := []
  mig := []
  lists := []
  inhand := []
  bins := []
  strver := 0
  image := []
  layout := 0
  counters := []
  gen_ := 0
  remap := []
  rebal := []

/-- Journal bytes of groups at or below the applied mark: what a checkpoint that begins now will take off JSINCE. -/
def bytesApplied (s : State) : Word :=
  let above := s.journal.frames.foldl (fun n f => n + (f.recs.filter (fun e => decide ((amark s).toNat < e.jsn.toNat))).foldl (fun k e => k + 16 * recUnits e.body) 0) 0
  s.journal.since - BitVec.ofNat 64 above

/-- A new generation begins, one higher than the last that began (R430); one in progress is abandoned. -/
def beginCkpt (s : State) : State :=
  let g := s.store.lastGen + 1
  { s with store := { s.store with run := some (Ckpt.fresh g (amark s + 1) (bytesApplied s)), seg := 0, lastGen := g } }

/-- CHECKPOINT_BEGIN (R430, R438): no generation begins during a save, or while one runs, nor with every core lost (R42). -/
def execCheckpointBegin (s : State) : Host.Outcome State Fault Refusal :=
  .next (if s.boot.phase = .ready ∧ s.holdup.ph = 0 ∧ s.store.run.isNone = true ∧ s.waitos.cores ≠ 0 then beginCkpt s else s)

/-- CKNOW (R452): by the cores. -/
def execCknow (who : Requester) (s : State) : Host.Outcome State Fault Refusal :=
  .next (if mayTrigger s who false && decide (s.boot.phase = .ready) && decide (s.holdup.ph = 0) then beginCkpt s else s)

/-- One set of side fields in closed-gate form (R431): insert sense is copied as V = 0, delete sense as G = 00; H is not copied. -/
def closedSide (s : State) (b : Nat) (x : Side) : Side :=
  let ins := match sget none s.tcam.sels (b * 2 + (if x.g = 1 then 0 else 1)) with | some (_, i) => i | none => false
  if x.g = 0 then { x with h := false } else { x with h := false, g := 0, v := x.v && !ins }

/-- Rows of a bank in closed-gate form, by bank × 4096 + row. -/
def closedRows (s : State) (b : Nat) : Sparse TRow :=
  (siteRows s (siteOf s b)).map (fun e => (b * 4096 + e.1, { e.2 with s0 := closedSide s b e.2.s0, s1 := closedSide s b e.2.s1 }))

/-- The words of places from lo up to hi. -/
def wordsIn (s : State) (lo hi : Nat) : Sparse Cw := s.sram.words.filter (fun e => decide (lo ≤ e.1 ∧ e.1 < hi))

/-- A word that a checkpoint may not store: uncorrectable, and no poison pattern (R404). -/
def unstorable (s : State) (key : Nat) : Bool := let r := peek s key; r.bad && decide (r.syn ≠ 0xFF)

/-- Segment numbers (R432; log entry 135): a TCAM segment's is its bank, an index segment's its table and its range of 1 MiB of
rows, and the structure segment stands last. -/
def segIndexAt (t i : Nat) : Nat := 2112 + 512 * t + i
abbrev segStruct : Nat := 18496

/-- The table that an index segment copies, and the first place and the end of its range. -/
def segRange (n : Nat) : Nat × Nat × Nat :=
  let t := (n - 2112) / 512
  let lo := kIndex t 0 + (n - 2112) % 512 * 131072
  (t, lo, lo + 131072)

/-- The ranges of 1 MiB of an index table's rows. -/
def segRanges (s : State) (t : Nat) : Nat := min 512 ((tCap s t * rowWords s t + 131071) / 131072)

/-- The segments of a checkpoint in the order in which they are written (R432). -/
def segNums (s : State) : List Nat :=
  sortNat (((List.range 32).filter (fun t => decide (tKind s t = 1))).flatMap (fun t => (primaryBanks s t).map (·.1))) ++
    ((List.range 32).filter (fun t => decide (tKind s t = 2))).flatMap (fun t => (List.range (segRanges s t)).map (segIndexAt t)) ++ [segStruct]

/-- The first segment from number n on. -/
def segAfter (s : State) (n : Nat) : Option Nat := (segNums s).find? (fun k => decide (n ≤ k))

/-- The banks that the TCAM segment of a bank copies: it, and the odd bank of a 192-trit pair. -/
def segBanks (s : State) (b : Nat) : List Nat := if (bankTable s b).any (fun t => decide (tWidth s t = 2)) then [b, b + 1] else [b]

/-- The places that segment n copies: a bank's result slots, a range of an index table's rows, or the active profile buffers
(R432). -/
def segWords (s : State) (n : Nat) : Sparse Cw :=
  if n < 2112 then (segBanks s n).flatMap (fun b => wordsIn s (kSlot b 0 0 0) (kSlot (b + 1) 0 0 0))
  else if n < segStruct then wordsIn s (segRange n).2.1 (segRange n).2.2
  else (List.range 64).flatMap (fun p => wordsIn s (kProf p (activeBuf s p) 0) (kProf p (activeBuf s p) 64))

/-- Entries of one sparse store added to another. -/
def smerge {α : Type} [DecidableEq α] (d : α) (m : Sparse α) (xs : Sparse α) : Sparse α := xs.foldl (fun m e => sput d m e.1 e.2) m

/-- Words as a checkpoint stores them: corrected. -/
def storedWords (s : State) (ws : Sparse Cw) : Sparse Cw := ws.map (fun e => (e.1, if (peek s e.1).bad then e.2 else secEnc (peek s e.1).data))

/-- The valid pages of an index segment's range: pages of 4 KiB (R390). -/
def segPages (s : State) (n : Nat) : Sparse (BitVec 3) := s.sram.pages.filter (fun e => decide ((segRange n).2.1 ≤ e.1 * 512 ∧ e.1 * 512 < (segRange n).2.2))

/-- The store counters, which the structure segment keeps (R454). -/
def storeCounters (s : State) : Sparse Word := s.mgmt.counters.filter (fun e => decide (0x0B0100 ≤ e.1 ∧ e.1 < 0x0B0200))

/-- Bank states without the clones that run: a restore abandons them, and their destinations stand as they stood before
(R187). -/
def stableStates (s : State) : Sparse (BitVec 4) :=
  s.update.eng.foldl (fun m e => match e.2.clone with
    | some c =>
      if c.moved then (if c.copy then m else (clonePairs s c).foldl (fun m x => sput 0 m x.2 (4 ^^^ (if x.2 ≥ 2048 then 2 else 0))) m) else
      let m := sput 0 m c.dst (c.prior ^^^ (if c.dst ≥ 2048 then 2 else 0))
      if isPair s c.src then sput 0 m (c.dst + 1) (c.prior2 ^^^ (if c.dst + 1 ≥ 2048 then 2 else 0)) else m
    | none => m) s.tcam.state

/-- The free lists with the blocks that searches have reserved and not committed at their heads (R113). -/
def listsHome (s : State) : Sparse (List Nat) :=
  s.search.tokens.foldl (fun m e => match e.2 with
    | some tk => tk.resv.foldr (fun r m => smod [] m r.list (fun l => r.block :: l)) m
    | none => m) s.life.lists

/-- The structure segment (R432). -/
def structSeg (s : State) (c : Ckpt) : Ckpt :=
  { c with hasStruct := true, dir := s.marker.dirA, list := s.marker.list, site := s.tcam.site, state := stableStates s, btable := s.tcam.table,
           profiles := storedWords s (segWords s segStruct), active := s.search.active, wact := s.str.wact, thermal := s.str.thermalHome, events := s.str.events,
           lifePol := [s.str.wearLimit.toNat, s.str.reserve.toNat, s.str.dueAge.toNat, s.str.critAge.toNat], mig := s.life.mig, lists := listsHome s, inhand := s.life.inhand, bins := s.life.bins,
           strver := s.boot.strver, image := bootHeader s, layout := s.boot.layout, counters := storeCounters s, gen_ := s.search.gen, remap := s.store.remap,
           rebal := [s.crew.phase.toNat, s.crew.src.toNat, s.crew.dst.toNat, s.crew.cursor.toNat, s.crew.gran.toNat, s.crew.part.toNat, s.crew.start.toNat] }

/-- The checkpoint with segment n copied into it. -/
def takeSegment (s : State) (n : Nat) (c : Ckpt) : Ckpt :=
  if n < 2112 then { c with rows := smerge TRow.blank c.rows ((segBanks s n).flatMap (closedRows s)), words := smerge ⟨0, 0⟩ c.words (storedWords s (segWords s n)) }
  else if n < segStruct then { c with words := smerge ⟨0, 0⟩ c.words (storedWords s (segWords s n)), pages := smerge 0 c.pages (segPages s n) }
  else structSeg s c

/-- The ENTRY records, with JSN 0, that a TCAM segment holds behind bank number and count: each entry of the bank that is valid in
closed-gate form, with the place of its result slot (R431, R432). -/
def segEntries (s : State) (b : Nat) : List (Nat × List JRec) :=
  let t := (bankTable s b).getD 0
  ((bankEntries s (tWidth s t) (siteOf s b) (siteOf s (b + 1))).filter (fun x => (closedSide s b x.2.2.side).v)).map (fun x =>
    let e := x.2.2
    (kSlot b x.1 x.2.1 0, expandRec (.entry t x.2.1 (b * 4096 + x.1) e.side.tag.toNat e.val e.care (tWidth s t == 2) (!careFollows s t e.care e.side.tag.toNat) (peek s (kSlot b x.1 x.2.1 0)).data)))

/-- The bytes of a segment (R432; log entry 135): a TCAM segment's bank number and entry count take 32 B; an index segment's
bitmap takes a page; of the structure segment only the profile buffers have a layout. -/
def segBytes (s : State) (n : Nat) : List Byte :=
  if n < 2112 then
    slice (bytesOfNat 2 n ++ bytesOfNat 2 (segEntries s n).length) 0 32 ++ (segEntries s n).flatMap (fun x => (markMore 0 x.2).flatMap recBytes)
  else if n < segStruct then
    let valid := (segPages s n).map (fun e => e.1 - (segRange n).2.1 / 512)
    slice ((List.range 32).map (fun i => BitVec.ofNat 8 ((valid.filter (fun k => decide (k / 8 = i))).foldl (fun m k => m + 2 ^ (k % 8)) 0))) 0 4096 ++
      (segPages s n).flatMap (fun e => (List.range 512).flatMap (fun i => toBytes 8 (peek s (e.1 * 512 + i)).data))
  else (segWords s n).flatMap (fun e => toBytes 8 (peek s e.1).data)

/-- Records one behind the other from a byte offset on: the page that each begins in, with its place. -/
def packSpans (off : Nat) : List (Nat × List JRec) → List (Nat × Nat × Nat)
  | [] => []
  | x :: xs => (off / 4096, x.1, x.1 + 2) :: packSpans (off + 16 * x.2.foldl (fun n r => n + recUnits r) 0) xs

/-- The length of a segment in bytes. -/
def segLen (s : State) (n : Nat) : Nat :=
  if n < 2112 then 32 + 16 * (segEntries s n).foldl (fun k x => k + x.2.foldl (fun n r => n + recUnits r) 0) 0
  else if n < segStruct then 4096 * ((segPages s n).length + 1)
  else 8 * (segWords s n).length

/-- The pages of a segment, each with the places of words that lie in it. -/
def segSpans (s : State) (n : Nat) : List (List (Nat × Nat)) :=
  if n < 2112 then
    let es := packSpans 32 (segEntries s n)
    (List.range ((segLen s n + 4095) / 4096)).map (fun i => (es.filter (fun e => decide (e.1 = i))).map (·.2))
  else if n < segStruct then [] :: (segPages s n).map (fun e => [(e.1 * 512, e.1 * 512 + 512)])
  else List.replicate (segLen s n / 4096 + 1) []

/-- Pages written one after the other at the write pointer, each with what lies in it. None: the store waits for a band. -/
def placePages (s : State) : List (List (Nat × Nat)) → Option (State × List CkPage)
  | [] => some (s, [])
  | x :: xs =>
    match advance s 1 with
    | none => none
    | some s1 =>
      match placePages s1 xs with
      | none => none
      | some (s2, ps) => some (s2, ⟨s.store.nextPage, s.store.band, s.store.unit, x⟩ :: ps)

/-- Segment n as the directory lists it. -/
def segOf (s : State) (n : Nat) (ps : List CkPage) : Seg where
  num := n
  kind := if n < 2112 then 0 else if n < segStruct then 1 else 2
  table := if n < 2112 then (bankTable s n).getD 0 else if n < segStruct then (segRange n).1 else 0
  lo := if n < 2112 then n else if n < segStruct then ((segRange n).2.1 - kIndex (segRange n).1 0) / rowWords s (segRange n).1 else 0
  len := segLen s n
  crc := crc32c (segBytes s n)
  pages := ps

/-- The segment directory: 32 B for each segment, in an order of its own (R432; log entry 135). -/
def dirSeg (c : Ckpt) (ps : List CkPage) : Seg where
  num := segStruct + 1
  kind := 3
  table := 0
  lo := 0
  len := 32 * c.segs.length
  crc := crc32c (c.segs.flatMap (fun x => bytesOfNat 4 x.num ++ bytesOfNat 2 x.kind ++ bytesOfNat 2 x.table ++ bytesOfNat 8 x.lo ++ toBytes 4 x.sloc ++ bytesOfNat 8 x.len ++ toBytes 4 x.crc))
  pages := ps

/-- Words that a transfer has corrected on its way are reported to the trackers (R370). -/
def reportFixed (s : State) (keys : List Nat) : State :=
  keys.foldl (fun s k => let r := peek s k; if r.bad then s else if r.syn = 0 then consumeInj s k else touch s k) s

/-- CHECKPOINT_SEGMENT (R404, R431, R432): the next segment is written, or the channel halts at an uncorrectable word,
which is queued for re-derivation. None is begun during a save (R438). -/
def checkpointSegment (s : State) : State :=
  match s.store.run with
  | none => s
  | some c =>
    if s.holdup.ph ≠ 0 ∨ storeDown s = true ∨ s.waitos.cores = 0 then s
    else
      match segAfter s s.store.seg with
      | none => s
      | some n =>
        match (segWords s n).find? (fun e => unstorable s e.1) with
        | some e => touchQ s e.1
        | none =>
          match placePages s (segSpans s n) with
          | none => s
          | some (s1, ps) =>
            reportFixed { s1 with store := { s1.store with run := some (takeSegment s n { c with segs := c.segs ++ [segOf s n ps] }), seg := n + 1 } } ((segWords s n).map (·.1))

def execCheckpointSegment (s : State) : Host.Outcome State Fault Refusal := .next (checkpointSegment s)

/-- A journal page that no restore needs any more: it ends below the replay-from JSN (R418). -/
def pageDead (rf : Word) (p : JPage) : Bool := p.recs.all (fun e => decide (e.jsn.toNat < rf.toNat))

/-- Generation c is the newest complete one: what only older ones needed is given up (R418, R433). -/
def ckptDone (s : State) (c : Ckpt) : State :=
  { s with store := { s.store with ckpt := some c, run := none, seg := 0, blank := false, pages := s.store.pages.filter (fun p => !pageDead c.rfjsn p) },
           journal := { s.journal with since := s.journal.since - c.sinceMark } }

/-- CHECKPOINT_COMPLETE (R432, R433, R495): with every segment written, the directory and a superblock make the generation
the newest complete one. The first ever blows INIT_DONE. -/
def checkpointComplete (s : State) : State :=
  match s.store.run with
  | none => s
  | some c =>
    if (segAfter s s.store.seg).isSome = true ∨ s.holdup.ph ≠ 0 ∨ storeDown s = true ∨ s.waitos.cores = 0 then s
    else
      match placePages s (List.replicate ((32 * c.segs.length + 4095) / 4096) []) with
      | none => s
      | some (s1, ps) =>
        match writeSuper (ckptDone s1 { c with segs := c.segs ++ [dirSeg c ps] }) none with
        | none => s
        | some s2 =>
          countStore (if s2.fuses.initDone then s2 else { s2 with fuses := { s2.fuses with initDone := true } }) 4 1

def execCheckpointComplete (s : State) : Host.Outcome State Fault Refusal := .next (checkpointComplete s)

/-- The pace (R433, R452): by the journal bytes since the replay-from JSN, no lower than PFLOOR and the image's floor. -/
def paceOf (s : State) : Nat :=
  let b := s.journal.since.toNat
  max (if b < 64 * 2 ^ 20 then 0 else if b < 128 * 2 ^ 20 then 1 else 2) (max s.store.pfloor.toNat (min 2 s.str.imgPace.toNat))

end Sys2Proof.Machine
end

