-- ==== Sys2Proof/Machine/Restore.lean ====
section
/-! DEFINITION. Restore and replay: journal groups, their effects, live updates, the checkpoint written back, first boot (R254, R425, R426, R445 to R448, R495, R500, R504, R506). -/

namespace Sys2Proof.Machine

open Sys2Proof

/-! ## Entries written by restore (R426, R445) -/

/-- The place of a bank in the directory: directory index and span position of a primary bank. -/
def bankLoc (s : State) (t b : Nat) : Option (Nat × Nat) := ((primaryBanks s t).find? (fun x => x.1 == b)).map (·.2)

/-- The banks that hold the copies of an entry addressed in bank b: every replica and twin (R426). -/
def copiesOfBank (s : State) (t b : Nat) : List Nat :=
  match bankLoc s t b with
  | some (d, j) => copyBanks s t d j
  | none => if tPaired s t then [b, twinOf b] else [b]

/-- An entry is installed at an address and in every copy, with H = 0 and G = 00, and its result slot with LIVE = 1. -/
def installAt (s : State) (t half addr tag : Nat) (care val : BitVec 192) (res : Word) : State :=
  (copiesOfBank s t (addr / 4096)).foldl (fun s b =>
    setEntry (putSlot s b (addr % 4096) half res (mkCheck s t care val tag)) (tWidth s t) b (addr % 4096) half (mkEntry care val (BitVec.ofNat 7 tag) true 0)) s

/-- An entry is cleared at an address and in every copy: V = 0, LIVE = 0. -/
def removeAt (s : State) (t half addr : Nat) : State :=
  (copiesOfBank s t (addr / 4096)).foldl (fun s b => clearEntry s (tWidth s t) b (addr % 4096) half) s

/-! ## Live updates (R135, R503 to R507) -/

/-- VER of slot n's active buffer: as its header holds it, or where that word cannot be read as Waitos set it (R135). -/
def verNow (s : State) (n : Nat) : BitVec 16 :=
  if (peek s (kProf n (activeBuf s n) 0)).bad then sget 0 s.search.vers n else hVer (header s n (activeBuf s n))

/-- The words of a buffer with VER set (R135). -/
def withVer (ws : List Word) (ver : BitVec 16) : List Word :=
  match ws with
  | [] => []
  | w :: rest => bset 16 16 w ver.toNat :: rest

/-- Slot n takes these words, VER among them: the inactive buffer is written, then made active (R135). Words that the active buffer
holds already are not written again, so that a replayed record states the value that the slot ends with (R422). -/
def rewriteSlot (s : State) (n : Nat) (ws : List Word) : State :=
  let f := activeBuf s n
  let ver : BitVec 16 := bf 16 16 (ws.headD 0)
  if !profBad s n f && (profKeys n f).map (fun k => (peek s k).data) == ws then s
  else
    let s1 := putBuffer s n (1 - f) ws
    { s1 with search := { s1.search with active := sput 0 s1.search.active n (1 - f), vers := sput 0 s1.search.vers n ver } }

/-- A profile section as it is journaled and applied: VER of each slot one above the old one, whatever the section supplies (R135). -/
def stampVers (s : State) (d : List Byte) : List Byte :=
  (pieces d 274 (d.length / 274)).flatMap (fun x => x.take 4 ++ bytesOfNat 2 (verNow s (natAt x 0 2) + 1).toNat ++ x.drop 6)

/-- A section of a live package as it is journaled and applied. -/
def stampSect (s : State) (x : Sect) : Sect := if x.kind = 4 then { x with data := stampVers s x.data } else x

/-- Profile slots of a live section are rewritten in order. -/
def liveProfiles (s : State) (d : List Byte) : State :=
  (pieces d 274 (d.length / 274)).foldl (fun s x => rewriteSlot s (natAt x 0 2) (bufWords (slice x 2 272))) s

/-- Bank list, bank and directory changes that Waitos made: section 0x02 at twice the bank, section 0x03 at the offset of
the entry or of the list number (R507). -/
def liveBank (s : State) (off : Nat) (d : List Byte) : State :=
  let b := off / 2
  let v := natAt d 0 2
  let s := setBankTable s b (if v / 32 % 2 = 1 then some (v % 32) else none)
  setBankState s b (if v / 32 % 2 = 1 then 1 else 0)

def liveDir (s : State) (off : Nat) (d : List Byte) : State :=
  if off < 163840 then setDir s (off / 10) (ofBytes 80 d)
  else { s with marker := { s.marker with list := (List.range (d.length / 2)).foldl (fun m i => sput 0 m ((off - 163840) / 2 + i) (natAt d (2 * i) 2)) s.marker.list } }

/-- REBALANCE as its records hold it (R354; log entry 18). -/
def setRebal (s : State) (v : List Nat) : State :=
  let g := fun i => v.getD i 0
  { s with crew := { s.crew with phase := BitVec.ofNat 3 (g 0), src := BitVec.ofNat 2 (g 1), dst := BitVec.ofNat 2 (g 2), cursor := BitVec.ofNat 7 (g 3), gran := BitVec.ofNat 26 (g 4), part := BitVec.ofNat 26 (g 5), start := BitVec.ofNat 64 (g 6) } }

/-- The payload of a REBALANCE record: seven numbers of 8 bytes. -/
def rebalBytes (v : List Nat) : List Byte := v.flatMap (bytesOfNat 8)
def rebalOf (d : List Byte) : List Nat := (List.range 7).map (fun i => natAt d (8 * i) 8)

/-- A live update is applied from its section, offset and payload; the weights of a package go through the pending
weights, and a COMMIT of one table names it by its offset (R309, R504). -/
def applyLive (s : State) (sec off : Nat) (d : List Byte) : State :=
  match sec with
  | 2 => liveBank s off d
  | 3 => liveDir s off d
  | 4 => liveProfiles s d
  | 5 => { s with str := { s.str with wact := (List.range (min d.length 128)).foldl (fun m i => sput 0 m (off + i) (BitVec.ofNat 8 (natAt d i 1))) s.str.wact } }
  | 12 => setRebal s (rebalOf d)
  | k => loadPolicy s ⟨k, 0, d⟩

/-- Sections of a live package are applied in section-table order (R504). -/
def applySects (s : State) (ss : List Sect) : State := ss.foldl (fun s x => applyLive s x.kind 0 (stampSect s x).data) s

/-- The weights in force with every committed table's pending ones: what the next tick makes active (R309). -/
def committedWeights (s : State) : Sparse (BitVec 8) :=
  (setBits s.str.spend).foldl (fun m t => (List.range 16).foldl (fun m c => sput 0 m (16 * t + c) (sget 0 s.str.wpend (16 * t + c))) m) s.str.wact

/-- A committed package whose share weights wait for their tick is completed: its SHARES section, the sections behind it, then
the structure version; its session closes (R309, R504, R555). -/
def finishPackage (s : State) : State :=
  match s.waitos.session with
  | some x =>
    if x.verified then
      let s := applySects s ((sections x.staging).dropWhile (fun y => y.kind != 5))
      { s with boot := { s.boot with strver := BitVec.ofNat 16 (imgVer x.staging) }, waitos := { s.waitos with session := none } }
    else s
  | none => s

/-! ## Groups (R423, R446) -/

/-- Records cut into groups: records of one JSN up to the one with MORE clear. A group whose last record is missing is
dropped. cur holds the group being gathered. -/
def groupsOf : List JEntry → List JEntry → List (Word × List JRec)
  | [], _ => []
  | e :: es, cur =>
    let cur' := match cur with
      | c :: _ => if c.jsn = e.jsn then cur ++ [e] else [e]
      | [] => [e]
    if e.more then groupsOf es cur' else (e.jsn, cur'.map (·.body)) :: groupsOf es []

/-- The JSNs that VOID records abandon (R427). -/
def voidJsns (es : List JEntry) : List Word := es.filterMap (fun e => match e.body with | .void j => some j | _ => none)

/-- The largest JSN of records, or a floor. -/
def topJsn (es : List JEntry) (floor : Word) : Word := es.foldl (fun (m : Word) e => if m.toNat < e.jsn.toNat then e.jsn else m) floor

/-- A record that is no part of a commit. -/
def isNote : JRec → Bool
  | .time _ => true
  | .hole _ => true
  | .void _ => true
  | .seal _ => true
  | .cursor .. => true
  | .bank 2 _ _ _ _ => true
  | _ => false

/-! ## Effects of records (R425, R426) -/

/-- The effect of a LIFE record on lists, in-hand sets and side records; its index words are records of their own. -/
def replayLife (s : State) (opc : Nat) (x : Slot) (port : Nat) (fw rsrc : Bool) (bepoch : BitVec 16) (block : Nat) : State :=
  let c : TCmd := { issuer := if fw then qFW else port, via := .none, s0 := x, s1 := 0, s2 := 0 }
  let pa := cPA c
  let off := fun (s : State) => dropFree (dropHand s pa) pa
  if opc = 0x40 ∨ opc = 0x49 then off s
  else if opc = 0x44 then
    let r := rotOf (cLblk c)
    let old := migSide s r
    setMigSide (off s) r { holder := BitVec.ofNat 3 (portOfBlock (miSrc (mig0 s r))), rsrc := rsrc, bepoch := bepoch, switched := old.switched, since := old.since, lblk := cLblk c }
  else if opc = 0x4E then
    let i := binf s block
    if biState i = 0 ∧ s.life.lists.all (fun l => !l.2.contains block) = true then setList s (bn 44 4 i) (freeList s (bn 44 4 i) ++ [block]) else s
  else s

/-- A bank takes a site, as a bank-map record states it (R422, R425): the number that had the site takes the bank's old one, and
the rows go with their numbers. Where the map says so already, nothing changes. -/
def takeSite (s : State) (b site : Nat) : State :=
  let old := siteOf s b
  if old = site then s
  else
    let place := fun (k : Nat) => if k / 4096 = old then site * 4096 + k % 4096 else if k / 4096 = site then old * 4096 + k % 4096 else k
    let s1 := swapSites s b (logicalOf s site)
    { s1 with tcam := { s1.tcam with rows := s.tcam.rows.foldl (fun m e => sput TRow.blank m (place e.1) e.2) [] } }

/-- The replay effect of one record. No entry of a table that the lock protects is written (R500). -/
def applyRec (s : State) (r : JRec) : State :=
  match r with
  | .iword t w row v => putWord s (rowKey s t row w) v
  | .entry t half addr tag val care _ _ res => if tProt s t then s else installAt s t half addr tag care val res
  | .move t half srcHalf dst src tag val care _ _ res =>
    if tProt s t then s else removeAt (installAt s t half dst tag care val res) t srcHalf src
  | .del t half addr => if tProt s t then s else removeAt s t half addr
  | .life opc x port fw rsrc be block => replayLife s opc.toNat x port fw rsrc be block
  | .alloc list block port =>
    if (freeList s list).contains block then setInhand (setList s list ((freeList s list).filter (· ≠ block))) port (inhand s port ++ [(block, list)]) else s
  | .bank action lb second _ st =>
    if action = 3 then takeSite s lb second
    else if action = 4 then (if st = 1 then setBankState s lb 1 else setBankTable (setBankState s lb (BitVec.ofNat 4 st)) lb none)
    else s
  | .live sec off ver d =>
    let s := applyLive s sec off d
    if 4 ≤ sec ∧ sec ≤ 8 then { s with boot := { s.boot with strver := ver } } else s
  | _ => s

/-- A LIFE record comes before the words of its group; its effect is taken after them, when the block's row is as the
change leaves it. -/
def applyGroup (s : State) (g : List JRec) : State :=
  let life := fun (r : JRec) => match r with | .life .. => true | _ => false
  ((g.filter (fun r => !life r)) ++ g.filter life).foldl applyRec s

/-- The records of a group that can be applied: a HOLE stands for none, and an entry or live update is left out where one of the
records that complete it is lost (R425, R426, R446). -/
def wholeRecs : List JRec → List JRec
  | [] => []
  | r :: rs => if !isNote r && (expandRec r).tail.isPrefixOf rs then r :: wholeRecs rs else wholeRecs rs

/-- Complete groups from a JSN on, VOID ones left out, in order, each with the records that can be applied (R446). -/
def liveGroups (es : List JEntry) (rf : Word) : List (Word × List JRec) :=
  let vs := voidJsns es
  ((groupsOf (es.filter (fun e => !isNote e.body || (match e.body with | .hole _ => true | _ => false))) []).filter (fun g =>
    decide (rf.toNat ≤ g.1.toNat) && !vs.contains g.1)).map (fun g => (g.1, wholeRecs g.2))

/-- Replay of a list of groups, each counted (R446, R454). -/
def replay (s : State) (gs : List (Word × List JRec)) : State := gs.foldl (fun s g => countStore (applyGroup s g.2) 13 1) s

/-- A REPOINT that had not ended resumes from its last cursor record; one whose last record says that it has ended does not
(R187). -/
def resumeRepoint (s : State) (addr half : Nat) (done : Bool) (first : Word) (c : TCmd) : State :=
  let m := { c with via := .none }
  let e := routeOf s m
  if done then setEng s e { getEng s e with queue := [], repoint := none }
  else setEng s e { getEng s e with queue := [m], repoint := some ⟨m, addr * 2 + half + 1, addr * 2 + half + 1, 0, first, true⟩ }

def resumeAll (s : State) (es : List JEntry) : State :=
  es.foldl (fun s e => match e.body with | .cursor _ addr half done first c => resumeRepoint s addr half done first c | _ => s) s

/-! ## What a restore makes anew -/

/-- Every index word of a composer table, as the composers' copies take it. -/
def composerHome (s : State) : Sparse Word :=
  (List.range 32).foldl (fun m t => if tComposer s t then
    (wordsIn s (kIndex t 0) (kIndex (t + 1) 0)).foldl (fun m e => sput 0 m e.1 (peek s e.1).data) m else m) []

/-- All copies of the composer tables are rebuilt from the home rows in one generation (R451). -/
def rebuildComposers (s : State) : State :=
  { s with search := { s.search with cur := composerHome s, prev := [], gen := s.search.gen + 1, waiting := [] },
           sram := { s.sram with words := sdrop s.sram.words (fun x => decide (2 ^ 43 ≤ x ∧ x < 2 ^ 44)) } }

/-- The route mirror is loaded from RTE (R333). -/
def rebuildMirror (s : State) : State :=
  let ms := (tableEntries s tRTE).map (fun x =>
    ((bf 0 96 x.2.val : BitVec 96), (bf 0 96 x.2.care : BitVec 96), x.2.side.tag.toNat, bn 0 2 (peek s (kSlot (primaryBank s x.1) x.1.r x.1.h 0)).data))
  { s with marker := { s.marker with mirror := if tKind s tRTE = 1 then ms.dedup else [] } }

/-- Blocks that the journal has RETIRED stand on no list and in no set (R250). -/
def dropRetired (s : State) : State :=
  let live := fun (b : Nat) => decide (biState (binf s b) ≠ 8)
  { s with life := { s.life with 
    lists := s.life.lists.filterMap (fun e => let l := e.2.filter live; if l.isEmpty then none else some (e.1, l)),
    inhand := s.life.inhand.filterMap (fun e => let l := e.2.filter (fun x => live x.1); if l.isEmpty then none else some (e.1, l)) } }

/-- Every in-hand block goes back to the head of its list (R236), those of the cascade ports' searches too (log entry 111). -/
def returnHands (s : State) : State :=
  (List.range 11).foldl (fun s p =>
    let bs := inhand s p
    setInhand (bs.foldr (fun b s => setList s b.2 (b.1 :: freeList s b.2)) s) p []) s

/-- Condition queues are rebuilt from BINF (R254). -/
def rebuildQueues (s : State) : State :=
  (binfRows s).foldl (fun s x => if biState x.2 = 1 then queueDirty s x.1 else s) { s with life := { s.life with condq := [] } }

/-- The rows of MIG that hold a word, and those with a side record. -/
def migSlots (s : State) : List Nat :=
  sortNat (((wordsIn s (kIndex tMIG 0) (kIndex (tMIG + 1) 0)).map (fun e => (e.1 - kIndex tMIG 0) / rowWords s tMIG)) ++ s.life.mig.map (·.1))

/-- The holder of a migration: its side record's, or the partner of its source where no record stands (R231). -/
def migHolder (s : State) (r : Nat) : Nat :=
  if s.life.mig.any (fun e => e.1 == r) then (migSide s r).holder.toNat else portOfBlock (miSrc (mig0 s r))

/-- MIG_RESUME goes to the holder of every MIG row in BEGUN or COPIED (R254). -/
def migResume (s : State) : State :=
  (migSlots s).foldl (fun s r =>
    let st := miStep (mig0 s r)
    if tKind s tMIG = 2 ∧ (st = 1 ∨ st = 2) then event s [migHolder s r] 0x3002 r st else s) s

/-- The switch time of every MIG slot is the restore time (R231). -/
def migTimes (s : State) : State :=
  { s with life := { s.life with mig := s.life.mig.foldl (fun m e => sput MigSide.zero m e.1 { e.2 with switched := s.clock.time, since := now s }) [] } }

/-- The actions of R254 and R236. -/
def lifeRestore (s : State) : State :=
  let s := (binfRows s).foldl (fun s x => if biState x.2 = 2 then putWord s (rowKey s tBINF x.1 0) (setBiState x.2 1) else s) s
  migResume (rebuildQueues (returnHands (dropRetired s)))

/-- A die of a crew installs an entry of a broadcast table at load only where the entry meets an index that the share map gives
to its rank (R340): the index is the top four bits of the partition field. -/
def shareHolds (s : State) (t : Nat) (care val : BitVec 192) : Bool :=
  if tCrew s t = 1 ∧ 1 < crewSize s then
    let lo := tPartLo s t + tPartW s t - 4
    (List.range 16).any (fun i => decide ((bf lo 4 care) &&& ((bf lo 4 val) ^^^ BitVec.ofNat 4 i) = 0) && bit (4 * i + rank s) (sget 0 s.str.shareMaps t))
  else true

/-- A relocation move of the load: no search runs, so no gate is taken. -/
def loadMove (t : Nat) (l : Loc) (s : State) (m : Nat × Nat) : State :=
  (copyBanks s t l.d l.j).foldl (fun s b =>
    clearEntry (moveCopy s (tWidth s t) b m.1 m.2 0) (tWidth s t) b (posRow (tWidth s t) m.1) (posHalf (tWidth s t) m.1)) s

/-- An entry of a broadcast table takes a place in the die's own share, as an INSERT would find it: the address in the record is
of no die's share in particular (R340; log entry 79). -/
def installShared (s : State) (t tag : Nat) (care val : BitVec 192) (res : Word) : State :=
  match planAll s t tag false (dirsFor s t care val) with
  | none => s
  | some ps => ps.foldl (fun s p =>
      (copyBanks s t p.loc.d p.loc.j).foldl (fun s b =>
        setEntry (putSlot s b p.loc.r p.loc.h res (mkCheck s t care val tag)) (tWidth s t) b p.loc.r p.loc.h (mkEntry care val (BitVec.ofNat 7 tag) true 0))
        (p.moves.foldl (loadMove t p.loc) s)) s

/-- An entry record of the image is installed, where this die holds it (R340, R495). -/
def loadEntry (s : State) (t half addr tag : Nat) (care val : BitVec 192) (res : Word) : State :=
  if isShared s t then (if shareHolds s t care val then installShared s t tag care val res else s)
  else installAt s t half addr tag care val res

/-- The entries of PROT tables come from the WINDOWS section of the booted image, always (R500): at step 7 (R497), and again once
the bank map is restored (log entry 143). -/
def loadWindows (s : State) (rs : List ImgRec) : State :=
  rs.foldl (fun s r => match r with
    | .entry t half addr tag care val res => loadEntry s t half addr tag care val res
    | _ => s) s

/-- TCAM rows and result slots stand empty: the bank map is about to change (R445, R500). -/
def clearTables (s : State) : State :=
  { s with tcam := { s.tcam with rows := [] }, sram := { s.sram with words := sdrop s.sram.words (fun k => decide (2 ^ 41 ≤ k ∧ k < 2 ^ 42)) } }

/-- The BINF rows of blocks that are never allocated stand RETIRED from the first (R205, R225). -/
def retireUnusable (s : State) : State :=
  if tKind s tBINF ≠ 2 then s
  else
    ((0 :: (List.range 256).map (fun g => g * 2 ^ 15 + 0x7FFF)).filter (fun r => decide (r < tCap s tBINF))).foldl (fun s r =>
      putWord s (rowKey s tBINF r 0) (setBiState (binf s r) 8)) s

/-- INIT records are loaded (R495). -/
def loadInit (s : State) (rs : List ImgRec) : State :=
  retireUnusable (rs.foldl (fun s r => match r with
    | .word t w row v => putWord s (rowKey s t row w) v
    | .entry t half addr tag care val res => if tProt s t then s else loadEntry s t half addr tag care val res
    | .bad => s) s)

/-- Rows of a primary bank as a checkpoint holds them, written to every copy of that bank (R445 step 2). -/
def writeRow (s : State) (key : Nat) (x : TRow) : State :=
  let b := key / 4096
  let t := (bankTable s b).getD 0
  if tProt s t then s
  else
    let lo := if tWidth s t = 2 then b - b % 2 else b
    (copiesOfBank s t lo).foldl (fun s c => setRow s (siteOf s (c + (b - lo))) (key % 4096) x) s

/-- Words of a checkpoint: index words in place, result slots in every copy of their bank. -/
def writeStored (s : State) (key : Nat) (w : Cw) : State :=
  if key < 2 ^ 41 then putCw s key w
  else
    let i := key - 2 ^ 41
    let b := i / 16384
    let t := (bankTable s b).getD 0
    if tProt s t then s else (copiesOfBank s t b).foldl (fun s c => putCw s (2 ^ 41 + c * 16384 + i % 16384) w) s

/-- The structure segment: bank map, states, directory, list; with the same image also profiles and policies (R506). -/
def writeStruct (s : State) (c : Ckpt) (same : Bool) : State :=
  let s := { s with tcam := { s.tcam with site := c.site, state := c.state, table := c.btable },
                    marker := { s.marker with dirA := c.dir, dirB := c.dir, dirRec := c.dir, list := c.list },
                    life := { s.life with mig := c.mig, lists := c.lists, inhand := c.inhand, bins := c.bins },
                    search := { s.search with gen := c.gen_ } }
  let s := setRebal s c.rebal
  if same then
    let s := { s with str := { s.str with wact := c.wact, thermal := c.thermal, thermalHome := c.thermal, events := c.events,
                                          wearLimit := BitVec.ofNat 32 (c.lifePol.getD 0 0), reserve := BitVec.ofNat 16 (c.lifePol.getD 1 0),
                                          dueAge := BitVec.ofNat 16 (c.lifePol.getD 2 0), critAge := BitVec.ofNat 16 (c.lifePol.getD 3 0) },
                      events := { s.events with trmask := bf 160 10 c.events },
                      search := { s.search with active := c.active,
                                                vers := (List.range 64).foldl (fun m n => sput 0 m n (bf 16 16 (secDec (sget ⟨0, 0⟩ c.profiles (kProf n (sget 0 c.active n) 0))).data)) [] },
                      boot := { s.boot with strver := c.strver } }
    { s with sram := { s.sram with words := smerge ⟨0, 0⟩ (sdrop s.sram.words (fun k => decide (2 ^ 42 ≤ k ∧ k < 2 ^ 43))) c.profiles } }
  else s

/-- A checkpoint is written back over empty tables (R445 step 2). -/
def writeCkpt (s : State) (c : Ckpt) (same : Bool) : State :=
  let s := if c.hasStruct then writeStruct s c same else s
  let s := { s with sram := { s.sram with pages := smerge 0 s.sram.pages c.pages } }
  let s := c.words.foldl (fun s e => writeStored s e.1 e.2) s
  c.rows.foldl (fun s e => writeRow s e.1 e.2) s

/-! ## Restore (R445 to R448) -/

/-- How many records of a journal page replay reads: none of a page that neither die returns, and none from one of unknown type on, in
that page (R425, R446). -/
def recsRead (s : State) (p : JPage) : Nat :=
  match pageRead s p.num (pagePair s p) with
  | some .lost => 0
  | some (.unknown i) => i
  | _ => p.recs.length

/-- The journal as a restore finds it: to its last intact page (R445 step 3). -/
def journalPages (s : State) : List JPage := (s.store.pages.reverse.dropWhile (fun p => decide (pageRead s p.num (pagePair s p) = some .lost))).reverse

/-- The JSNs that page holes lie over (R446). -/
def holeJsns (s : State) : List Word := (journalPages s).flatMap (fun p => ((p.recs.drop (recsRead s p)).filter (fun e => !isNote e.body)).map (·.jsn))

/-- The records that replay reads; no other part of a group that a page hole cuts is among them (R446). -/
def readPages (s : State) : List JEntry :=
  let lost := holeJsns s
  (journalPages s).flatMap (fun p => (p.recs.take (recsRead s p)).filter (fun e => isNote e.body || !lost.contains e.jsn))

/-- The journal pages in which a hole from a JSN on is found: one before it is ignored (R446). -/
def pageHoles (s : State) (rf : Word) : List JPage :=
  (journalPages s).filter (fun p => (p.recs.drop (recsRead s p)).any (fun e => !isNote e.body && decide (rf.toNat ≤ e.jsn.toNat)))

/-- The store reads of a restore are counted: those that needed a correction, those served by the other die, and the page holes
(R415, R454). -/
def countReads (s : State) (rf : Word) : State :=
  let how := s.store.pages.map (fun p => pageRead s p.num (pagePair s p)) ++ (ckPages s.store.ckpt).map (fun p => pageRead s p.num (p.unit % nPairs s)) ++
    s.store.rings.map (fun r => (ringLast s r.1 r.2).bind (fun b => superRead s b r.1))
  let n := fun (x : PageRead) => (how.filter (fun h => h == some x)).length
  let s := if n .corrected = 0 then s else countStore s 7 (n .corrected)
  let s := if n .mirrored = 0 then s else countStore s 8 (n .mirrored)
  if (pageHoles s rf).length = 0 then s else countStore s 6 (pageHoles s rf).length

/-- Records of page frames that no page holds yet: a warm reset keeps them (R30, R450). -/
def bufferRecs (s : State) : List JEntry := (s.journal.frames.filter (fun f => !f.drained)).flatMap (·.recs)

/-- Records of live packages on sections 0x04 to 0x08: dropped when another image boots (R506). -/
def liveKept (same : Bool) (g : Word × List JRec) : Bool :=
  same || !g.2.any (fun r => match r with | .live sec _ _ _ => decide (4 ≤ sec ∧ sec ≤ 8) | _ => false)

/-- Who hears that data of a table is poisoned (R401): its owner and FW; for a table of FW's, every partner. -/
def poisonHears (s : State) (t : Nat) : List Nat := if tOwner s t = qFW then qAll else ownerFW s t

/-- A word or entry is marked poisoned (R401): its result word, in each of its copies, or its
index words take their poison pattern. -/
def markAll (s : State) (t obj : Nat) (keys : List Nat) : State :=
  event (countI (keys.foldl poisonWord s) 15) (poisonHears s t) 0x3006 (t + 256 * obj) 0

def markPoisoned (s : State) (t obj key : Nat) : State := markAll s t obj [key]

/-- A record writes row or entry address a, half h, of table t. -/
def recWrites (t a h : Nat) : JRec → Bool
  | .iword t' _ row _ => decide (t' = t ∧ row = a)
  | .entry t' h' addr _ _ _ _ _ _ => decide (t' = t ∧ addr = a ∧ h' = h)
  | .move t' h' hs dst src _ _ _ _ _ _ => decide (t' = t) && (decide (dst = a ∧ h' = h) || decide (src = a ∧ hs = h))
  | .del t' h' addr => decide (t' = t ∧ addr = a ∧ h' = h)
  | _ => false

/-- A row, or an entry with its copies, is marked poisoned. -/
def poisonAt (s : State) (t a h : Nat) : State :=
  if tKind s t = 1 then markAll s t (a + h * 2 ^ 24) ((copiesOfBank s t (a / 4096)).map (fun b => kSlot b (a % 4096) h 0))
  else markAll s t a (rowKeys s t a)

/-- A hole whose first word names a row or entry poisons it, unless a later group writes it (R446). -/
def holePoison (gs : List (Word × List JRec)) (s : State) (e : JEntry) : State :=
  match e.body with
  | .hole (some x) =>
    match firstNames x with
    | some (t, a, h) => if gs.any (fun g => decide (e.jsn.toNat < g.1.toNat) && g.2.any (recWrites t a h)) then s else poisonAt s t a h
    | none => s
  | _ => s

/-- A hole that names no row or entry costs durability (R446; log entry 137). -/
def holeLost (rf : Word) (e : JEntry) : Bool :=
  match e.body with
  | .hole f => (f.bind firstNames).isNone && decide (rf.toNat ≤ e.jsn.toNat)
  | _ => false

/-- What stands at a place of a checkpoint page that neither die returns is marked poisoned (R404): an entry that is valid, a row of
an index table. -/
def poisonPlace (s : State) (key : Nat) : State :=
  match tableOfPlace key with
  | some t => poisonAt s t ((key - kIndex t 0) / rowWords s t) 0
  | none =>
    let i := (key - 2 ^ 41) / 2
    match bankTable s (i / 8192) with
    | some t => if tProt s t then s else poisonAt s t (i / 8192 * 4096 + i / 2 % 4096) (i % 2)
    | none => s

/-- The restore channel halts at each checkpoint page that neither die returns, and goes on (R404). -/
def poisonLost (s : State) (c : Ckpt) : State :=
  ((ckPages (some c)).filter (fun p => decide (pageRead s p.num (p.unit % nPairs s) = some .lost))).foldl (fun s p =>
    p.spans.foldl (fun s x => match tableOfPlace x.1 with
      | some t => ((List.range (x.2 - x.1)).filter (fun i => decide ((x.1 + i - kIndex t 0) % rowWords s t = 0))).foldl (fun s i => poisonPlace s (x.1 + i)) s
      | none => poisonPlace s x.1) (event s [qFW] 0x4006 4 (p.num % 2 ^ 48))) s

/-- The copies that replay has added to a partition take the rows of its primary banks (R75, R445). -/
def fillCopies (s0 s : State) : State :=
  ((List.range 32).filter (fun t => decide (tKind s t = 1) && !tProt s t)).foldl (fun s t =>
    (primaryBanks s t).foldl (fun s x =>
      ((copyBanks s t x.2.1 x.2.2).filter (fun c => decide (c ≠ x.1) && !(copiesOfBank s0 t x.1).contains c)).foldl (fun s c =>
        (if tWidth s t = 2 then [0, 1] else [0]).foldl (fun s i =>
          let rows := (siteRows s (siteOf s (x.1 + i))).foldl (fun s r => setRow s (siteOf s (c + i)) r.1 r.2) s
          (wordsIn s (kSlot (x.1 + i) 0 0 0) (kSlot (x.1 + i + 1) 0 0 0)).foldl (fun s e => putCw s (e.1 + kSlot (c + i) 0 0 0 - kSlot (x.1 + i) 0 0 0) e.2) rows) s) s) s) s

/-- The largest device time that a restore finds, plus 64 s (R447). -/
def restoredTime (dtime : Word) (es : List JEntry) : Word :=
  (es.foldl (fun (m : Word) e => match e.body with | .time t => if m.toNat < t.toNat then t else m | _ => m) dtime) + 64000000000

/-- DURABILITY_LOST, or a clean outcome (R448, R453). -/
def durability (s : State) (b : Superblock) (hole : Bool) (last : Word) : State :=
  let running := !b.saved
  let short := b.saved && decide (last.toNat < b.sealJsn.toNat)
  let n := (if running then 1 else 0) + (if short then 1 else 0) + (if hole then 1 else 0)
  if n = 0 then { s with holdup := { s.holdup with lastboot := 1 } }
  else
    let cause := if hole then 2 else if running then 0 else 1
    event { s with holdup := { s.holdup with lastboot := 2 } } qEverybody 0xF002 (last.toNat % 2 ^ 48) (last.toNat / 2 ^ 48 + 65536 * cause + (if 1 < n then 2 ^ 18 else 0))

/-- The restore of R445 from superblock b, over a structure just loaded; same says that the booted image is the one that
the checkpoint records; inits holds the INIT records, loaded again where no checkpoint has completed yet (log entry 19). -/
def restore (s : State) (b : Superblock) (same : Bool) (wins inits : List ImgRec) : State :=
  let es := readPages s ++ bufferRecs s
  let s := clearTables { s with store := { s.store with remap := b.remap } }
  let s := match s.store.ckpt with
    | some c => writeCkpt s c same
    | none => loadInit s inits
  let s := match s.store.ckpt with
    | some c => poisonLost s c
    | none => s
  let all := liveGroups es b.rfjsn
  let gs := all.filter (fun g => !g.2.isEmpty && liveKept same g)
  let s := loadWindows (fillCopies s (replay s gs)) wins
  let s := es.foldl (fun s e => if b.rfjsn.toNat ≤ e.jsn.toNat then holePoison gs s e else s) s
  let last := topJsn es (b.rfjsn - 1)
  let bytes := BitVec.ofNat 64 ((es.filter (fun e => decide (b.rfjsn.toNat ≤ e.jsn.toNat))).foldl (fun n e => n + 16 * recUnits e.body) 0)
  let s := { s with journal := { s.journal with last := last, dmark := topJsn (readPages s) (b.rfjsn - 1), since := bytes, open_ := [], sealed := false } }
  let s := rebuildMirror (rebuildComposers (lifeRestore (resumeAll s es)))
  let t := restoredTime b.dtime es
  let s := migTimes { s with clock := { s.clock with time := t, epoch := epochOf t } }
  let holes := !(pageHoles s b.rfjsn).isEmpty || es.any (holeLost b.rfjsn)
  let s := durability (countReads s b.rfjsn) b holes (all.foldl (fun (m : Word) g => if m.toNat < g.1.toNat then g.1 else m) (b.rfjsn - 1))
  countStore { s with store := { s.store with pages := journalPages s }, holdup := { s.holdup with tableMark := true } } 12 1

/-- First boot (R495): the store is conditioned, INIT loaded, device time zero, a superblock written. -/
def firstBoot (s : State) (wins inits : List ImgRec) : State :=
  let s := loadWindows (loadInit (conditionStore (clearTables s)) inits) wins
  let s := rebuildMirror (rebuildComposers s)
  let s := { s with clock := { s.clock with time := 0, epoch := 0 }, boot := { s.boot with first := true }, holdup := { s.holdup with lastboot := 0, tableMark := true },
                    mgmt := { s.mgmt with counters := sdrop s.mgmt.counters (fun k => decide (0x0B0100 ≤ k ∧ k < 0x0B0200)) } }
  (writeSuper s none).getD s

end Sys2Proof.Machine
end

