-- ==== Sys2Proof/Machine/Rebal.lean ====
section
/-! DEFINITION. What REBALANCE does to the tables of one die: its records, RTE entries, and the rows of a granule (R195, R336, R353 to R357, R425). -/

namespace Sys2Proof.Machine

open Sys2Proof

/-- REBALANCE of this die as its records hold it: phase, source, destination, cursor, G, G′, device time of BEGIN (R354;
log entry 18). -/
def rebalNums (s : State) : List Nat :=
  let c := s.crew
  [c.phase.toNat, c.src.toNat, c.dst.toNat, c.cursor.toNat, c.gran.toNat, c.part.toNat, c.start.toNat]

/-- The record of a REBALANCE state. -/
def rebalRec (v : List Nat) : JRec := .live 12 0 0 (rebalBytes v)

/-- A step of REBALANCE: its record enters the journal buffer before its writes; with no room it is not made (R354, R439). -/
def rebalStep (s : State) (v : List Nat) (f : State → State) : State := jChange s [rebalRec v] (fun s => f (setRebal s v))

/-- Element i of a list of numbers takes a value. -/
def numSet (v : List Nat) (i x : Nat) : List Nat := modAt (fun _ => x) v i

/-! ## RTE (R195, R202, R353) -/

/-- The key of a granule in RTE: table number and DPA[55:30] (R195). -/
def rteKey (g : Nat) : BitVec 192 := bput 192 91 tRTE ||| bput 192 57 (g % 2 ^ 26)

/-- The care mask of an entry of TAG 26: every bit down to key bit 57, but space and head (R196). -/
def rteCare : BitVec 192 := bput 192 91 31 ||| bput 192 57 (2 ^ 26 - 1)

/-- A granule's entry of TAG 26 is there. -/
def rteHas (s : State) (g : Nat) : Bool :=
  (tableEntries s tRTE).any (fun x => decide (x.2.side.tag = 26) && (x.2.val == rteKey g) && (x.2.care == rteCare))

/-- The rank that RTE names for a granule: the winner with the largest TAG; none when no entry matches (R202). -/
def rteOwner (s : State) (g : Nat) : Option Nat := ((tableEntries s tRTE).foldl (fun (best : Option (Nat × Nat)) x =>
  if tritsMatch x.2.care x.2.val (rteKey g) then
    let r := bn 0 2 (secDec (cell s (kSlot (primaryBank s x.1) x.1.r x.1.h 0))).data
    match best with
    | some b => if b.1 < x.2.side.tag.toNat then some (x.2.side.tag.toNat, r) else best
    | none => some (x.2.side.tag.toNat, r)
  else best) none).map (·.2)

/-- Free places of RTE (R353). -/
def rteFree (s : State) : Nat :=
  ((primaryBanks s tRTE).foldl (fun n _ => n + nSlots (tWidth s tRTE)) 0) - (tableEntries s tRTE).length

/-- RTE has room for the entries of G and G′, or already holds them (R353). -/
def rteRoom (s : State) (g h : Nat) : Bool :=
  decide ((if rteHas s g then 0 else 1) + (if rteHas s h then 0 else 1) ≤ rteFree s)

/-- Waitos writes granule g → rank r in RTE with TAG 26, under a gate (R336, R354 step 5), after the moves that make room for it.
None: it must wait. -/
def writeRte (s : State) (g r : Nat) : Option State :=
  let e := match firstBank s tRTE rteCare (rteKey g) with | some b => octantOf b % 8 | none => tRTE
  match insertEntry s e tRTE rteCare (rteKey g) 26 (BitVec.ofNat 64 r) true false Extra.none with
  | .wait => none
  | .stays s' _ => some (settleGates s')
  | .ends s' (some x) => if x.st = .ok then some s' else none
  | .ends s' none => some s'

/-! ## The rows of a granule (R202, R353, R354 step 8, R357) -/

/-- The 64 BMAP rows of a granule: DPA[46:24]. -/
def granRows (g : Nat) : List Nat := (List.range 64).map (fun k => g % 2 ^ 17 * 64 + k)

/-- Every row of the granule is UNWRITTEN or RELEASED with a basting count of 0 (R353). -/
def granIdle (s : State) (g : Nat) : Bool :=
  (granRows g).all (fun l => let b := bmap s l; decide (bmState b = 0 ∨ (bmState b = 2 ∧ bmBaste b = 0)))

/-- A row of the granule is MIGRATING (R353). -/
def granMigrating (s : State) (g : Nat) : Bool := (granRows g).any (fun l => decide (bmState (bmap s l) = 8))

/-- A WIN entry intersects the granule (R353). -/
def winCovers (s : State) (g : Nat) : Bool :=
  (tableEntries s 0).any (fun x => x.2.care &&& bput 192 57 (2 ^ 26 - 1) &&& (x.2.val ^^^ bput 192 57 (g % 2 ^ 26)) == 0)

/-- The OVL entries that lie on the rows of a granule. -/
def granOverlays (s : State) (g : Nat) : List (Loc × Entry) :=
  (tableEntries s tOVL).filter (fun x => decide (26 ≤ x.2.side.tag.toNat) && decide (bn 57 17 x.2.val = g % 2 ^ 17))

/-- A command of Waitos's own runs at once, unless an engine holds what it needs or its gates are taken: then it is made at a
later try. A drain that can come at once is served. -/
def tryOwn (s : State) (need : List Nat) (r : Ran) : State :=
  if need.any (resTaken s 64) then s
  else
    match r with
    | .ends t _ => settleGates t
    | .stays t _ => settleGates t
    | .wait => s

/-- An OVL entry of the granule is dropped with an OVL_DROP of Waitos's: under its gate, with the counts of its links and its
blocks (R199, R354 step 8, R357). -/
def dropOverlay (s : State) (x : Loc × Entry) : State :=
  let s0 := mkSlot [(0, cTCMD), (4, 1), (8, 0x59), (32, tOVL), (40, 0xFFFFFF)] ||| ((bf 0 96 x.2.val).setWidth 256 <<< 64) ||| ((bf 0 96 x.2.care).setWidth 256 <<< 160)
  let c : TCmd := { issuer := qFW, via := .none, s0 := s0, s1 := mkSlot [(0, cTCMD), (8, x.2.side.tag.toNat)], s2 := 0 }
  tryOwn s (ovlNeed s c) (runOvlDrop (routeOf s c) s c)

/-- The rows of MAP_RELEASE. -/
def releaseRows (s : State) (c : TCmd) : List (Nat × Nat) := [(tBMAP, cLblk c), (tBINF, bmPsb (bmap s (cLblk c)))]

/-- A row of the granule stands released: nothing is bound to it. -/
def rowReleased (s : State) (l : Nat) : Bool := decide (bmState (bmap s l) ≠ 1 ∧ bmState (bmap s l) ≠ 3)

/-- A row of the granule is released with MAP_RELEASE by Waitos, if there is anything to release. -/
def releaseRow (s : State) (l : Nat) : State :=
  if rowReleased s l then s
  else
    let c : TCmd := { issuer := qFW, via := .none, s0 := mkSlot [(0, cTCMD), (8, 0x41), (40, l)], s1 := 0, s2 := 0 }
    tryOwn s (lifeNeed releaseRows s c) (lifeRun releaseRows permAny doMapRelease s c)

/-- The overlays of the granule's rows are dropped and the rows released, as far as that can be done now. -/
def dropGranule (s : State) (g : Nat) : State := (granRows g).foldl releaseRow ((granOverlays s g).foldl dropOverlay s)

/-- No overlay of the granule stands and no row of it is bound (R354 step 8). -/
def granClear (s : State) (g : Nat) : Bool := (granOverlays s g).isEmpty && (granRows g).all (rowReleased s)

/-! ## After a reset (R357) -/

/-- REBALANCE is IDLE on this die. -/
def rebalIdle (s : State) : State := rebalStep s (numSet (numSet (rebalNums s) 0 0) 3 0) (fun s => { s with crew := { s.crew with await := 0, retireAcks := 0, retireSent := false } })

/-- REBALANCE after a reset: COPY and DUAL resume, or roll back after a cold or crew reset; SWITCHING is completed once the
other dies are reached; SWITCHED and RETIRING resume from step 7 (R357). -/
def rebalAfter (s : State) (rollback : Bool) : State :=
  let c := s.crew
  if c.phase = 0 then s
  else if c.phase = 1 ∨ c.phase = 2 then
    if rollback then
      let s := if rank s = c.dst.toNat ∧ c.src ≠ c.dst then dropGranule s c.part.toNat else s
      rebalIdle s
    else s
  else if c.phase = 3 then
    { s with crew := { s.crew with await := if rank s = c.src.toNat then (otherRanks s).foldl (fun (m : BitVec 4) r => m ||| (1 <<< r)) 0 else 0 } }
  else { s with crew := { s.crew with phase := 4, switchedAt := now s, retireAcks := 0, retireSent := false, await := 0 } }

end Sys2Proof.Machine
end

