-- ==== Sys2Proof/Machine/Boot.lean ====
section
/-! DEFINITION. Power-up, the choice of an image, the protection set-up, ready, warm reset (R30, R38, R44, R84, R327, R329, R449, R451, R491 to R500, R605, R615). -/

namespace Sys2Proof.Machine

open Sys2Proof

/-! ## Domains (R39, R605, R625) -/

/-- Power counter i (R625). -/
def countP (s : State) (i n : Nat) : State := count s (0x0C0200 + 8 * i) n

/-- Domain i is switched, if it is not so already. -/
def domain (s : State) (i : Nat) (on : Bool) : State :=
  if bit i s.power.dom = on then s
  else countP { s with power := { s.power with dom := bset i 1 s.power.dom (if on then 1 else 0) } } 4 1

def domains (s : State) (is : List Nat) : State := is.foldl (fun s i => domain s i true) s

/-- REFCLK is lost (R38): the ring oscillator takes over, and FW and SB hear of it. -/
def refclkLost (s : State) : State :=
  if s.clock.ring || !s.clock.running then s
  else event { s with clock := { s.clock with ring := true } } [qFW, qSB] 0xE004 0 0

/-- The boot stops with a code (R494); PSTATE is STOPPED (R604). -/
def stopBoot (s : State) (code : BitVec 4) : State :=
  { s with boot := { s.boot with phase := .stopped, stop := code }, power := { s.power with pstate := 4 } }

/-- A power-up step has completed. -/
def stepDone_ (s : State) (n : BitVec 4) : State := { s with boot := { s.boot with step := n } }

/-! ## Step 1 (R44, R329, R382, R383) -/

/-- Row and column maps as the records of kinds 1 and 2 give them, in record order (R376 to R383). -/
def sramMaps (s : State) (rs : List Word) : State :=
  rs.foldl (fun s r =>
    let m := bn 2 15 r
    if bn 0 2 r = 1 then { s with sram := { s.sram with rowMap := sput 0 s.sram.rowMap (m * 1024 + bn 17 10 r) (bn 27 3 r + 1) } }
    else if bn 0 2 r = 2 then { s with sram := { s.sram with colMap := sput 0 s.sram.colMap (m * 128 + bn 17 7 r) (bn 24 1 r + 1) } }
    else s) s

/-- The site map of the records of kind 3, each retired site marked RETIRED (R382). -/
def siteMaps (s : State) (rs : List Word) : State :=
  let s := { s with tcam := { s.tcam with site := (List.range 2112).foldl (fun m b => sput 0 m b (siteByRecs rs b ^^^ b)) [] } }
  rs.foldl (fun s r =>
    if bn 0 2 r = 3 then
      let b := logicalOf s (bn 2 12 r)
      { s with tcam := { s.tcam with state := sput 0 s.tcam.state b (5 ^^^ (if b ≥ 2048 then 2 else 0)) } }
    else s) s

/-- A die with no power before step 1: what lies outside the die, the fuses, the boot store and the store are kept, all
else is at reset (R30, R450). That STORE_INIT has conditioned the store is known only to the boot that it ran in (R496). -/
def coldState (s : State) (e : BootEnv) : State :=
  { State.reset with
    pins := s.pins, fuses := s.fuses, flash := s.flash, free := s.free, pending := s.pending,
    store := { s.store with run := none, seg := 0, pfloor := 0, blank := false },
    clock := { Clock.reset with running := true },
    power := { Power.reset with crewSz := s.pins.crewSz, crewRk := s.pins.crewRk },
    boot := { Boot.reset with phase := .booting, env := e } }

/-- R329 refuses the straps: a crew of 3, or a rank at or above the size. -/
def strapsBad (s : State) : Bool := decide (s.power.crewSz = 2) || decide (s.power.crewSz.toNat < s.power.crewRk.toNat)

/-! ## Step 5 (R481 to R491) -/

/-- The file in an image slot. -/
def slotImage (s : State) (slot : Nat) : List Byte :=
  let h := flashBytes s (slotBase slot) 256
  h ++ flashBytes s (slotBase slot + 256) (imgLen h - 256)

/-- The newest valid superblock as a candidate's structure reads the rings, and the layout of its checkpoint. -/
def sbLayout (c : State) : Option Word :=
  match newestSuper c with
  | some _ => c.store.ckpt.map (·.layout)
  | none => none

/-- A candidate is tried (R491): the structure as loaded with its sections, or the reason for its rejection. -/
def tryImage (s : State) (slot : Nat) (readFail : Bool) : Sum (BitVec 4) (State × List Byte) :=
  let img := slotImage s slot
  let ss := sections img
  let size := crewSize s
  if readFail then .inl 9
  else if !keyInForce s.fuses (sigKey img) then .inl 3
  else if !sigOk img then .inl 2
  else if imgSvn img < rollbackCount s.fuses then .inl 4
  else if !imgPkg img size then .inl 6
  else if !(headerRest img false && sectsOk img false) then .inl 7
  else
    let c := loadStruct s ss
    if !structOk c ss size then .inl 7
    else
      match sbLayout c with
      | some l => if l ≠ layoutOf ss then .inl 8 else .inr (c, img)
      | none => .inr (c, img)

/-- A rejection is recorded. -/
def reject (s : State) (slot : Nat) (code : BitVec 4) : State :=
  if slot = 0 then { s with boot := { s.boot with rejA := code } } else { s with boot := { s.boot with rejB := code } }

/-- Candidates in the order of R491. -/
def candidates (s : State) : List Nat :=
  let h := fun slot => flashBytes s (slotBase slot) 256
  let ok := fun slot => headerOk (h slot) slotLen
  let order := if imgVer (h 0) < imgVer (h 1) then [1, 0] else [0, 1]
  order.filter ok

/-- Slots whose header fails have reason HEADER. -/
def rejectHeaders (s : State) : State :=
  ([0, 1].filter (fun i => !(candidates s).contains i)).foldl (fun s i => reject s i 1) s

/-- The boot chosen by R491: the state with the reasons recorded, and the structure loaded with its file. -/
def chooseImage (s : State) : List Nat → State × Option (Nat × State × List Byte)
  | [] => (s, none)
  | i :: is =>
    match tryImage s i (if i = 0 then s.boot.env.readFailA else s.boot.env.readFailB) with
    | .inl code => chooseImage (reject s i code) is
    | .inr (c, img) => ({ s with boot := { s.boot with chosen := true } }, some (i, { c with boot := { s.boot with chosen := true } }, img))

/-! ## Steps 6 and 7 (R286, R468, R497, R501) -/

/-- The identity of the booted image (R513). -/
def bootedImage (s : State) (slot : Nat) (img : List Byte) : State :=
  { s with boot := { s.boot with slot := BitVec.ofNat 1 slot, imgver := BitVec.ofNat 16 (imgVer img), strver := BitVec.ofNat 16 (imgVer img), svn := BitVec.ofNat 6 (imgSvn img),
                                 key1 := isKey1 s.fuses (sigKey img), imglen := imgLen img, layout := layoutOf (sections img) } }

/-- A port domain is switched on as the image gives it a role, and begins to train (R286 step 1, R605). -/
def portOn (s : State) (p : Nat) (entry : Reg) : State :=
  if ((p < 8 ∧ roleOf entry = 1) ∨ (8 ≤ p ∧ roleOf entry = 2)) ∧ (getPort s p).st = pOFF then
    modPort (domain s p true) p (fun x => { x with st := pTRAINING, trying := if p < 8 then bf 2 2 entry else 2 })
  else s

/-- The diode is calibrated: a trim from the converter, which no rule gives, at the present time (R468). -/
def calibrated (s : State) : State :=
  let (w, s) := fresh s
  { s with therm := { s.therm with trim := bf 0 16 w, calTime := s.clock.time, calAt := now s } }

/-- Step 6 beside the loading of the structure; its calibration is counted (R468, R478). -/
def bootPorts (s : State) (ss : List Sect) : State := countTh (calibrated <| (List.range 11).foldl (fun s p => portOn s p (portEntry ss p)) s) 6 1

/-- The ownership map of the descriptors: an undefined table has no owner (R501). -/
def ownMap (s : State) : BitVec 128 :=
  (List.range 32).foldl (fun (m : BitVec 128) t => m ||| bput 128 (4 * t) (if tDefined s t then bn 40 4 (desc s t) else 15)) 0

/-- The protection set-up is written and locked (R497). A lock that is already set holds every RWL field (R14). -/
def protect (s : State) (ss : List Sect) : State :=
  if s.prot.locked then s
  else
    let d := sectData ss 10
    { s with prot := { locked := true, ownmap := ownMap s, plock := ofBytes 64 (slice d 0 8), dbgpol := BitVec.ofNat 2 (natAt d 8 1),
                       ksmap := ofBytes 2048 (slice d 16 256),
                       prole := (List.range 11).foldl (fun m p => sput 0 m p (portEntry ss p &&& 0xF)) [] } }

/-! ## Step 8 (R416, R445, R494 to R496) -/

/-- Store dies that were replaced answer again: one beside a good partner is filled from it; a pair both of whose dies are
new holds nothing, and with it the store (R416; log entry 21). -/
def replaceDies (s : State) : State :=
  let st := s.store
  let die := s.boot.env.replaced.foldl (fun (d : BitVec 16) i => bset i 1 d 1) st.die
  let lost := (List.range (nPairs s)).any (fun p => bit p st.failed)
  let deg := (List.range (nPairs s)).foldl (fun (m : BitVec 8) p => bset p 1 m (if bit (2 * p) die && bit (2 * p + 1) die then 0 else 1)) 0
  let fail := (List.range (nPairs s)).foldl (fun (m : BitVec 8) p => bset p 1 m (if bit (2 * p) die || bit (2 * p + 1) die then 0 else 1)) 0
  let s := { s with store := { st with die := die, degraded := deg &&& ~~~ fail, failed := fail } }
  let s := if lost && decide (fail = 0) then { s with store := { s.store with pages := [], ckpt := none, rings := [] } } else s
  let s := ((List.range (nPairs s)).filter (fun p => bit p s.store.degraded)).foldl (fun s p => event s [qFW, qSB] 0xE003 (if bit (2 * p) s.store.die then 2 * p + 1 else 2 * p) 1) s
  ((List.range (nPairs s)).filter (fun p => bit p fail)).foldl (fun s p => event s qEverybody 0xF003 p 0) s

/-- The store counters as the newest checkpoint keeps them (R454). -/
def keptCounters (s : State) : State :=
  match s.store.ckpt with
  | some c => if c.hasStruct then { s with mgmt := { s.mgmt with counters := smerge 0 s.mgmt.counters c.counters } } else s
  | none => s

/-- A site that was under test when power went stands as the fuse map and the repair records have it: RETIRED where one of them
retires it, else SPARE or FREE by its number (R382, R408). -/
def testsOver (s : State) : State :=
  let rs := allRecs s
  ((List.range 2112).filter (fun b => bankState s b == 4)).foldl (fun s b =>
    let gone := rs.any (fun r => decide (bn 0 2 r = 3 ∧ bn 2 12 r = siteOf s b))
    setBankTable (setBankState (clearSite s (siteOf s b)) b (if gone then 5 else if b ≥ 2048 then 2 else 0)) b none) s

/-- The booted image is the one whose header the checkpoint records (R490, R506). -/
def sameImage (s : State) : Bool := match s.store.ckpt with | some c => c.image == bootHeader s | none => false

/-! ## Ready (R44 step 9, R350, R434, R476, R488, R489, R494) -/

/-- After ready, fuses that the booted image commits are blown (R488, R489). -/
def blowFuses (s : State) (img : List Byte) : State :=
  let f := s.fuses
  let f := if s.boot.key1 && imgFlag img 2 then { f with revoke0 := true } else f
  let f := if imgFlag img 1 ∧ rollbackCount f < imgSvn img then { f with rollback := f.rollback ||| BitVec.ofNat 64 (2 ^ imgSvn img - 1) } else f
  { s with fuses := f }

/-- Every media group keeps the band that its restored DCOL encodes: 8 plus the band; staleness is measured from ready, and no
substitute stands for a value any more (R475, R476). -/
def mediaGroups (s : State) : State :=
  (List.range (min 240 (tCap s tSHT))).foldl (fun s g =>
    let b := bn 24 4 (sht s g) - 8
    { s with therm := { s.therm with groups := smod MGroup.reset s.therm.groups g (fun x => { x with band := if rowBad s tSHT g then x.band else b, entered := now s, last := now s, value := if x.subst then x.reported else x.value, stale := false, subst := false, lowRun := false }) } })
    { s with therm := { s.therm with dcolDue := [] } }

/-- CREW_READY on every active cascade port (R350). -/
def sendCrewReady (s : State) : State := ([8, 9, 10].filter (portActive s)).foldl (fun s q => send s q [crewReadyNote s]) s

/-- The device is ready: a superblock RUNNING is written, a new checkpoint generation begins, the crew hears of it, and
READY goes to every partner that can take it (R44 step 9, R430, R434). -/
def enterReady (s : State) : State :=
  let s := { s with boot := { s.boot with phase := .ready, step := 9, stop := 0 }, power := { s.power with pstate := 1 },
                    clock := { s.clock with advanced := 0 }, crew := { s.crew with restoredAt := now s, timedOut := false } }
  let s := mediaGroups (beginCkpt ((writeSuper s none).getD s))
  tryReadyAll (sendCrewReady s)

/-- BSTEP1 to BSTEP9, RDYTIME and RSTTIME, as measured (R453, R513). -/
def bootTimes (s : State) : State :=
  let e := s.boot.env
  { s with boot := { s.boot with bsteps := (List.range 9).map (fun i => BitVec.ofNat 24 (e.durs.getD i 0)), rdytime := BitVec.ofNat 10 e.readyMs },
           holdup := { s.holdup with rsttime := BitVec.ofNat 10 (e.durs.getD 7 0 / 1000) } }

/-- Step 8 and what follows it, once the store is found to hold a superblock or to be new. -/
def bootStore (s : State) (ss : List Sect) (img : List Byte) : State :=
  let s := replaceDies s
  let wins := sectRecs s ss 11
  let inits := sectRecs s ss 14
  if storeDown s then stopBoot s 3
  else
    let go := fun (s : State) => bootTimes (blowFuses (enterReady (rebalAfter (stepDone_ s 8) true)) img)
    match newestSuper s with
    | some b => go (testsOver <| restore (keptCounters s) b (sameImage s) wins inits)
    | none => if s.fuses.initDone && !s.store.blank then stopBoot s 2 else go (firstBoot s wins inits)

/-- Step 5 begins: the slots whose header fails are rejected (R491). -/
def tryImages (s : State) : State :=
  rejectHeaders { s with boot := { s.boot with phase := .booting, step := 4, rejA := 0, rejB := 0, stop := 0 }, power := { s.power with pstate := 0 } }

/-- Step 7 (R497): the entries of the PROT tables, the rest of the protection set-up, and the lock. -/
def step7 (s : State) (ss : List Sect) : State := stepDone_ (protect (loadWindows (clearTables s) (sectRecs s ss 11)) ss) 7

/-- Steps 5 to 7 with the chosen image, c holding its structure. -/
def throughStep7 (slot : Nat) (c : State) (img : List Byte) : State :=
  let ss := sections img
  step7 (stepDone_ (bootPorts (bootedImage (stepDone_ c 5) slot img) ss) 6) ss

/-- The boot from step 5 (R44, R491, R494): also what RETRY runs again. -/
def bootFrom5 (s : State) : State :=
  let s := tryImages s
  match chooseImage s (candidates s) with
  | (s, none) => stopBoot s 1
  | (_, some (slot, c, img)) => bootStore (throughStep7 slot c img) (sections img) img

/-- The boot from step 4 (R44, R615). -/
def bootFrom4 (s : State) : State := bootFrom5 (stepDone_ s 4)

/-- Steps 1 to 3 with straps that R329 admits. -/
def throughStep3 (s : State) : State :=
  let s := siteMaps (sramMaps s (allRecs s)) (allRecs s)
  let s := if s.pins.refclk then s else refclkLost s
  stepDone_ (domains (stepDone_ s 1) [22, 20, 21, 12, 13, 14, 15, 16, 17, 18, 19, 11]) 3

/-- Steps 1 to 3, then on, or held before step 4 while RST_N is low (R44, R615). -/
def coldBoot (s0 : State) (e : BootEnv) : State :=
  let s := resetDebug (coldState s0 e)
  if strapsBad s then stopBoot (event s [qSB] 0xF007 0 1) 4
  else
    let s := throughStep3 s
    if !s.pins.pfailN then stopBoot s 5
    else if !s.pins.rstN then { s with boot := { s.boot with phase := .holdRst } }
    else bootFrom4 s

/-! ## Warm reset (R30, R84, R187, R327, R380, R408, R449 to R451, R525) -/

/-- Every H bit is cleared (R30). -/
def clearH (s : State) : State :=
  let clr := fun (x : TRow) => { x with s0 := { x.s0 with h := false }, s1 := { x.s1 with h := false } }
  { s with tcam := { s.tcam with rows := s.tcam.rows.foldl (fun m e => sput TRow.blank m e.1 (clr e.2)) [] } }

/-- Gated changes that the reset finds are completed, since a gate opens with its group; every gate and selector is then
free (R84, R451). -/
def closeGates (s : State) : State :=
  let s := (s.marker.gates.map (·.1)).foldl finishGate s
  { s with marker := { s.marker with gates := [] }, tcam := { s.tcam with sels := [] } }

/-- An engine after a reset: its queue is gone, a clone goes on from row 0, and a REPOINT that has placed a cursor record from
that record; neither answers any more (R186, R187). -/
def engineAfter (x : Engine) : Engine :=
  let rp := match x.repoint with
    | some r => if r.saved = 0 then none else some { r with cursor := r.saved, resumed := true, cmd := { r.cmd with via := .none } }
    | none => none
  { x with queue := (match rp with | some r => [r.cmd] | none => []), repoint := rp, clone := x.clone.map (fun c => { c with cmd := none, row := 0 }),
           moves := 0, held := [], restarts := 0 }

/-- Clones whose number has moved leave their old sites: no search probes one any more (R187). -/
def sitesLeft (s : State) : State :=
  (List.range 8).foldl (fun s e => match (getEng s e).clone with
    | some c => if c.moved then setEng ((clonePairs s c).foldl (fun s x => leaveSite s x.1 x.2) s) e { getEng s e with clone := none } else s
    | none => s) s

/-- The update engines, streams and register sets after a reset. -/
def enginesAfter (s : State) : State :=
  let s := sitesLeft s
  let quiet := fun (x : RegSet) => { x with busy := false }
  { s with update := { s.update with eng := s.update.eng.foldl (fun m e => sput Engine.reset m e.1 (engineAfter e.2)) [], streams := [],
                                     set0 := quiet s.update.set0, set1 := quiet s.update.set1 } }

/-- Searches of the reset die end unanswered; their reservations return to the heads of their lists (R113, R286). -/
def dropTokens (s : State) : State :=
  { s with life := { s.life with lists := listsHome s }, search := { s.search with tokens := [] } }

/-- The operations that a reset lets resume: a retirement and a replication, whose clones go on (R187, R451, R525). -/
def resumes (s : State) : List Op :=
  s.waitos.ops.filterMap (fun e => e.2.bind (fun x => if x.state == 0 && (x.cmd == 0x0502 || x.cmd == 0x0601) && x.st == 0xF && !x.data.isEmpty then some x else none))

/-- What a warm reset clears beside ports, gates, engines and searches; a package and a COMMIT past their durability points are
completed first (R451, R504), and the thermal and event policy is reloaded (R30). -/
def warmClear (s : State) : State :=
  let s := finishPackage s
  let s := { s with
    sram := { s.sram with coal := [], inj := none },
    tcam := { s.tcam with repairs := [], retain := [] },
    integ := { s.integ with rederive := [], arm := false, etbusy := false },
    tally := { s.tally with viol := false, admstop := false },
    str := { s.str with wact := committedWeights s, wpend := committedWeights s, spend := 0, srej := 0, saveTable := false, thermal := s.str.thermalHome },
    events := { s.events with trmask := bf 160 10 s.str.events },
    waitos := { s.waitos with reqs := [], ops := [], session := none, resumed := s.waitos.resumed ++ resumes s },
    therm := { s.therm with conv := false, waiting := false, confirming := false, readers := [], held := false },
    arbs := { s.arbs with live := s.arbs.live.foldl (fun m e => sput Arb.reset m e.1 { e.2 with holder := none, preempted := [], progress := 0, cut := false, timer := 0, classes := e.2.classes.foldl (fun n c => sput ArbClass.reset n c.1 { c.2 with waits := [] }) [] }) [] },
    crew := { s.crew with readyFrom := 0, timedOut := false, links := [], linksSeen := 0, handle := 0, ask := none },
    journal := { s.journal with sealed := false, open_ := [] },
    store := { s.store with run := none, seg := 0 },
    holdup := { s.holdup with ph := 0, early := false, flushed := 0, byPwrgd := false, byTrip := false, recover := false, reboot := false, incomplete := false } }
  resetDebug s

/-- Every port whose domain is on starts a new incarnation and trains (R286, R293, R327). -/
def renewPorts (s : State) : State :=
  (List.range 11).foldl (fun s p =>
    if (getPort s p).st = pOFF then s
    else modPort (renewPort s p) p (fun x => { x with hold := false, fenced := false, flushed := false })) s

/-- The clones that go on after a restore without a power cycle take their destinations again (R187). -/
def clonesOn (s : State) : State := (s.update.eng.filterMap (fun e => e.2.clone)).foldl mirrorOn s

/-- Tables restored from the store without a power cycle (R449); the page valid bits stand, and HEAT with them, which no checkpoint
holds (R390, R432). Device time runs on (R450). How long it takes is a free value
(R453). -/
def reload (s : State) (b : Superblock) : State :=
  let img := slotImage s s.boot.slot.toNat
  let ss := sections img
  let clk := s.clock
  let s := { s with sram := { s.sram with words := s.sram.words.filter (fun e => isHeat s e.1) }, tcam := { s.tcam with rows := [], mirror := [] } }
  let s := loadStruct s ss
  let s := migTimes { restore s b (sameImage s) (sectRecs s ss 11) (sectRecs s ss 14) with clock := clk }
  let (w, s) := fresh s
  clonesOn { s with holdup := { s.holdup with rsttime := bf 0 10 w } }

/-- The LIVE records on the directory from a JSN on, in the store's pages and in the page frames. -/
def dirRecords (s : State) (rf : Word) : List JRec :=
  (liveGroups (readPages s ++ bufferRecs s) rf).flatMap (fun g => g.2.filter (fun r => match r with | .live sec _ _ _ => sec == 3 | _ => false))

/-- The marker directory is rebuilt from the newest checkpoint's structure segment, or before the first from the image, and
brought forward by the journal (R30). -/
def rebuildDir (s : State) : State :=
  let (s, rf) := match s.store.ckpt with
    | some c => ({ s with marker := { s.marker with dirA := c.dir, dirB := c.dir, dirRec := c.dir, list := c.list } }, c.rfjsn)
    | none => (homeDir (spreadAll (loadDir s (sectData (sections (slotImage s s.boot.slot.toNat)) 3))), 0)
  (dirRecords s rf).foldl applyRec s

/-- The tables after a warm reset: kept when the checkpoint generations agree and the on-die table marker passes its check, with
the directory rebuilt and the actions of R254 taken, else restored (R30, R449, R451). -/
def warmTables (s : State) : State :=
  match newestSuper s with
  | none => s
  | some b => if s.holdup.tableMark && b.ckgen == (s.store.ckpt.map (·.gen)).getD 0 then lifeRestore (rebuildDir s) else reload s b

/-- A warm reset begins: everything but ready (R449 to R451). LASTBOOT[2] says that the last boot was a warm reset, the tables kept or
restored (R453; log entry 138). The journal buffer, the store and device time are kept. The
store domain is switched on again first, after a completed save (R605). -/
def warmStart (s : State) : State :=
  let s := domain s 11 true
  let s := enginesAfter (dropTokens (closeGates (renewPorts s)))
  let s := rebuildMirror (rebuildComposers (clearH (warmTables (warmClear s))))
  { s with holdup := { s.holdup with warm := true } }

/-- A warm reset; crew says that it is part of a crew reset (R357). -/
def warmReset (s : State) (crew : Bool) : State := enterReady (rebalAfter (warmStart s) crew)

/-- Ports that a held reset keeps in RESET, and that train once it ends (R296, R615). -/
def heldPorts (s : State) (hold : Bool) : State :=
  (List.range 11).foldl (fun s p =>
    if (getPort s p).st = (if hold then pTRAINING else pRESET) then modPort s p (fun x => { x with st := if hold then pRESET else pTRAINING }) else s) s

end Sys2Proof.Machine
end

