-- ==== Sys2Proof/Machine/Save.lean ====
section
/-! DEFINITION. Power-good, reset and power-failure pins, and the hold-up save (R45, R46, R268, R362, R437 to R444, R449, R471, R494, R610 to R615). -/

namespace Sys2Proof.Machine

open Sys2Proof

/-! ## The save (R438, R439, R444) -/

/-- SAVE_FENCE (R267, R438): a fence of 250,000 ns and a hold window of 4,000,000 ns. -/
def saveFence (t : Word) : Slot := note 1 [(64, t.toNat), (128, 250000), (160, 4000000)]

/-- FENCE_CLOSED (R267). -/
def fenceClosed (t j : Word) : Slot := note 2 [(64, t.toNat), (128, j.toNat)]

/-- SAVE_BEGUN (R343, R362). -/
def saveBegunNote (t : Word) : Slot := note 0x11 [(64, t.toNat)]

/-- The FLUSHED notes that wait at port p are taken: one that came before SAVE_FENCE has no effect but its credit (R268). -/
def dropFlushed (s : State) (p : Nat) : State :=
  let ns := sget [] (getPort s p).ingress cNOTE
  let keep := ns.filter (fun x => decide (bn 8 8 x ≠ 3))
  let s := modPort s p (fun x => { x with ingress := sput [] x.ingress cNOTE keep })
  match creditOf cNOTE with
  | some c => if keep.length < ns.length then freeCredit s p c (ns.length - keep.length) else s
  | none => s

/-- A port at the start of a save: HOLD in its headers, and a fence for one that has sent READY (R268, R438). -/
def fencePort (t : Word) (s : State) (p : Nat) : State :=
  let s := dropFlushed s p
  let r := (getPort s p).ready
  let s := modPort s p (fun x => { x with hold := decide (x.st ≠ pOFF), fenced := r, flushed := false })
  if r then send s p [saveFence t] else s

/-- An open image session is abandoned, and with it an erase under way (R552, R559); a package that is committed and waits for
its tick is not. -/
def abandonSession (s : State) : State :=
  match s.waitos.session with
  | none => s
  | some x =>
    if x.verified then s
    else
      let s := match getOp s x.handle with
        | some o => if o.state = 0 then setOp s x.handle (some { o with state := 3, end_ := s.clock.time, endAt := now s }) else s
        | none => s
      { s with waitos := { s.waitos with session := none } }

/-- The hold-up save begins (R438): HOLD, the fences, SAVE_BEGUN on every active cascade port. -/
def startSave (s : State) (byPwrgd byTrip : Bool) : State :=
  let t := s.clock.time
  let s := { s with holdup := { s.holdup with ph := 1, early := false, flushed := 0, pftime := t, pfAt := now s, byPwrgd := byPwrgd, byTrip := byTrip, recover := false, reboot := false, incomplete := false },
                    power := { s.power with pstate := 2 } }
  let s := (List.range 11).foldl (fencePort t) (abandonSession s)
  ([8, 9, 10].filter (portActive s)).foldl (fun s q => send s q [saveBegunNote t]) s

/-- A power failure, or what acts as one: after ready, and during a warm reset, the save begins; a boot before ready stops,
with nothing written (R46, R613). In a save already begun nothing more happens. -/
def powerFail (s : State) (byPwrgd byTrip : Bool) : State :=
  match s.boot.phase with
  | .ready => if s.holdup.ph = 0 then startSave s byPwrgd byTrip else s
  | .resetHeld => if s.holdup.ph = 0 then startSave s byPwrgd byTrip else s
  | .booting => stopBoot s 5
  | .holdRst => stopBoot s 5
  | .stopped => stopBoot s 5
  | .off => s

/-- PFAIL (R437): low for less than 200 ns is ignored and counted. -/
def execPfail (lowNs : Nat) (s : State) : Host.Outcome State Fault Refusal :=
  .next (if lowNs < 200 then (if s.boot.phase = .off then s else countStore s 11 1)
         else powerFail { s with pins := { s.pins with pfailN := false }, holdup := { s.holdup with recover := false } } false false)

/-- The JSN j of an answer that goes to port p, if it is greater than m. -/
def later (p : Nat) (m j : Word) : Option (Via × TRsp) → Word
  | some (.port q _, _) => if q = p ∧ m.toNat < j.toNat then j else m
  | some (.bulk q _ _, _) => if q = p ∧ m.toNat < j.toNat then j else m
  | _ => m

/-- The JSN of the last update accepted from port p: the greatest answered, or committed and still to be answered, at a gate's
drain or with its composer generation (R120, R167, R267, R439). -/
def lastAccepted (s : State) (p : Nat) : Word :=
  s.search.waiting.foldl (fun m w => later p m ((w.reply.map (fun r => r.2.jsn)).getD 0) w.reply)
    (s.marker.gates.foldl (fun m e => later p m e.2.jsn e.2.reply) (getPort s p).lastJsn)

/-- The fence closes (R268, R438, R439): the journal buffer is sealed, the sealed JSN latched, FENCE_CLOSED sent on every
port. It closes too when the ports have stopped before it: the save still completes (R46). -/
def closeFence (s : State) (early : Bool) : State :=
  let sealNow := { s with holdup := { s.holdup with ph := if s.holdup.ph = 1 then 2 else s.holdup.ph, early := early, sealJsn := s.journal.last }, journal := { s.journal with sealed := true } }
  if s.holdup.ph = 1 then (List.range 8).foldl (fun s p => send s p [fenceClosed s.clock.time (lastAccepted s p)]) sealNow
  else if s.holdup.ph = 5 ∧ s.holdup.incomplete = true ∧ s.journal.sealed = false then sealNow
  else s

/-- FENCE_CLOSE: 250 µs after PFAIL_N. -/
def execFenceClose (s : State) : Host.Outcome State Fault Refusal := .next (closeFence s false)

/-- FLUSHED (R268): from a port with a fence, during the fence, it counts, and the last one closes the fence; at any other
time it is only a note. -/
def flushedNote (s : State) (p : Nat) : State :=
  match ingressHead s p cNOTE with
  | none => s
  | some x =>
    if bn 8 8 x ≠ 3 then s
    else
      let s := takeHead s p cNOTE
      if s.holdup.ph = 1 ∧ (getPort s p).fenced = true then
        let s := modPort s p (fun y => { y with flushed := true })
        let s := { s with holdup := { s.holdup with flushed := bset p 1 s.holdup.flushed 1 } }
        if allFlushed s then closeFence s true else s
      else s

def execFlushed (p : Fin 8) (s : State) : Host.Outcome State Fault Refusal := .next (flushedNote s p.val)

/-- Every closed page frame is drained, as far as the store takes it. -/
def drainAll (s : State) : State := iter (s.journal.frames.length + 1) journalDrain (closeFrame s)

/-- A page frame still waits for the store. -/
def undrained (s : State) : Bool := s.journal.frames.any (fun f => !f.drained && !f.recs.isEmpty)

/-- The store domain holds no unit of a pool that the tally audits: no change waits for its gate to drain, so that no page frame is
kept for it, and no arbiter of a store channel has a holder (R40, R323, R428). -/
def storeIdle (s : State) : Bool := s.journal.open_.isEmpty && (List.range 8).all (fun i => (getArb s (7243 + i)).holder.isNone)

/-- A save is under way and can complete: before the ports stop, or after that while VHOLD holds (R46, R444). -/
def saveRuns (s : State) : Bool :=
  s.holdup.ph == 1 || s.holdup.ph == 2 || (s.holdup.ph == 5 && s.holdup.incomplete && s.pins.vhok)

/-- The save's end once its superblock is written: store domain off, the save counted and timed; SAVED passes to HOLDING
at once (R45, R438; log entry 22), unless the ports have stopped already (R46). -/
def savedState (s : State) : State :=
  let s := countStore (domain s 11 false) 10 1
  { s with holdup := { s.holdup with ph := if s.holdup.ph = 5 then 5 else 4, savetime := BitVec.ofNat 21 (now s - s.holdup.pfAt), incomplete := false },
           power := { s.power with pstate := if s.holdup.ph = 5 then 4 else 3 } }

/-- A warm reset in which the TZ8 stays until RST_N rises (R615). A power failure that has not ended starts the save again:
it falls within the warm reset (R46; log entry 118). -/
def heldReset (s : State) : State :=
  let s := heldPorts (warmStart s) true
  let s := { s with boot := { s.boot with phase := .resetHeld } }
  if s.pins.pfailN && s.pins.pwrgd then s else startSave s (!s.pins.pwrgd) false

/-- A warm reset that power's return asks for: held while RST_N is low (R46, R615). -/
def resetOf (s : State) : State := if s.pins.rstN then warmReset s false else heldReset s

/-- Power has returned while a save was under way: a cold boot when PWRGD has risen (R613), a warm reset when PFAIL_N has risen with
VHOLD recovered (R46); after a trip the TZ8 stays stopped (R471). -/
def powerBack (s : State) : State :=
  if s.holdup.reboot then coldBoot s s.boot.env
  else if s.therm.tripped then s
  else if s.holdup.recover then resetOf s
  else s

/-- What waited for the save: power's return, or RST_N held low (R46, R615). -/
def afterSave (s : State) : State :=
  if s.holdup.reboot || s.therm.tripped || s.holdup.recover then powerBack s
  else if !s.pins.rstN && decide (s.boot.phase = .ready) then countP (heldReset s) 3 1
  else s

/-- SAVE_COMPLETE (R40, R438, R444): every frame drained, a SEAL record as the last page, and the superblock SAVED. It does not
complete while the drain is stopped, or the store domain is still in use; with a pair FAILED it can complete no more, and what
waits for it in power's return goes on (R42, R46; log entry 130). -/
def saveComplete (s : State) : State :=
  if s.holdup.ph = 1 ∨ saveRuns s = false ∨ s.journal.sealed = false then s
  else if storeDown s then powerBack s
  else
    let s1 := drainAll s
    if undrained s1 || !storeIdle s1 then s1
    else
      let s2 := drainAll (jPut s1 (.seal s1.clock.time))
      if undrained s2 then s2
      else
        match writeSuper s2 (some s2.holdup.sealJsn) with
        | none => s2
        | some s3 => afterSave (savedState s3)

def execSaveComplete (s : State) : Host.Outcome State Fault Refusal := .next (saveComplete s)

/-! ## The end of the hold window (R45, R438, R442) -/

/-- Every admitted search is answered: a resolved one with its result, any other LATE. -/
def answerAll (s : State) : State :=
  (s.search.tokens.map (·.1)).foldl (fun s k => lateWatchdog (sendSrsp s k) k) s

/-- The ports stop: DOWN until the rails fall, or a warm reset brings them up again, with READY as it was sent in this incarnation
and the rate that training reached (R296, R605; log entry 23). -/
def stopPort (s : State) (p : Nat) : State :=
  if (getPort s p).st = pOFF then s
  else modPort (cascadeDown s p) p (fun x => { x with st := pDOWN, hold := false })

/-- Admission stops, every admitted search is answered, and the ports stop (R438, R442). A save not yet complete goes on
(R46), unless the store can take no superblock (R444); then nothing waits for it any more. -/
def endHold (s : State) : State :=
  if s.holdup.ph = 0 ∨ s.holdup.ph = 5 then s
  else
    let left := decide (s.holdup.ph = 1 ∨ s.holdup.ph = 2) && !storeDown s
    let s := (List.range 11).foldl stopPort (answerAll s)
    let s := { s with holdup := { s.holdup with ph := 5, incomplete := left }, power := { s.power with pstate := 4 } }
    if !left && s.pins.vhok then powerBack s else s

/-- HOLD_END: 4 ms after PFAIL_N. -/
def execHoldEnd (s : State) : Host.Outcome State Fault Refusal := .next (endHold s)

/-- VHOLD_FLOOR (R442, R618). -/
def execVholdFloor (s : State) : Host.Outcome State Fault Refusal := .next (endHold { s with pins := { s.pins with vhok := false } })

/-! ## Power returns (R46, R613) -/

/-- PFAIL_N rises (R46): with VHOLD recovered and PWRGD high, a save under way completes first, also after the ports have
stopped, if the store can still take it; else a warm reset follows at once, but not after a trip. -/
def pfailRise (s : State) (vhok : Bool) : State :=
  let s := { s with pins := { s.pins with pfailN := true, vhok := vhok } }
  if s.holdup.ph = 0 ∨ vhok = false ∨ s.pins.pwrgd = false then s
  else if saveRuns s && !storeDown s then { s with holdup := { s.holdup with recover := true } }
  else if s.therm.tripped then s
  else resetOf s

def execPfailRise (vhok : Bool) (s : State) : Host.Outcome State Fault Refusal := .next (pfailRise s vhok)

/-- PWRGD_DROP (R613): low for less than 200 ns is ignored and counted; else it acts as PFAIL_N, and is counted when it
starts a save. -/
def pwrgdDrop (s : State) (lowNs : Nat) : State :=
  if lowNs < 200 then (if s.boot.phase = .off then s else countP s 1 1)
  else
    let before := s.holdup.ph
    let s := powerFail { s with pins := { s.pins with pwrgd := false } } true false
    if before = 0 ∧ s.holdup.ph = 1 then countP s 2 1 else s

def execPwrgdDrop (lowNs : Nat) (s : State) : Host.Outcome State Fault Refusal := .next (pwrgdDrop s lowNs)

/-- POWER_UP (R44, R613): PWRGD rises. A save under way completes first, then the cold boot follows. -/
def powerUp (s : State) (e : BootEnv) : State :=
  if s.pins.pwrgd then s
  else
    let s := { s with pins := { s.pins with pwrgd := true } }
    if saveRuns s && !storeDown s then { s with holdup := { s.holdup with reboot := true }, boot := { s.boot with env := e } }
    else coldBoot s e

def execPowerUp (e : BootEnv) (s : State) : Host.Outcome State Fault Refusal := .next (powerUp s e)

/-- RST_N (R615): a low of 1 µs or more after ready starts a warm reset, in which the TZ8 stays until RST_N rises; before
ready the boot goes back to step 4, where it waits for the rise, but not one that only a cold reset lets go on (R494; log entry
142); a shorter one is ignored. During a save it is ignored until
the save completes (R46). -/
def resetPin (s : State) (high : Bool) (lowNs : Nat) : State :=
  if high then
    let s := { s with pins := { s.pins with rstN := true } }
    match s.boot.phase with
    | .holdRst => bootFrom4 s
    | .resetHeld => if s.holdup.ph = 0 then enterReady (rebalAfter (heldPorts s false) false) else s
    | _ => s
  else if lowNs < 1000 then s
  else
    let s := { s with pins := { s.pins with rstN := false } }
    match s.boot.phase with
    | .ready =>
      if s.holdup.ph = 0 then countP (heldReset s) 3 1
      else if s.holdup.ph = 1 ∨ s.holdup.ph = 2 ∨ s.holdup.incomplete = true ∨ s.therm.tripped = true then s
      else countP (heldReset s) 3 1
    | .booting => { s with boot := { s.boot with phase := .holdRst } }
    | .stopped => if s.pins.pwrgd = true ∧ s.pins.pfailN = true ∧ (s.boot.stop = 1 ∨ s.boot.stop = 2) then { s with boot := { s.boot with phase := .holdRst } } else s
    | _ => s

def execRstN (high : Bool) (lowNs : Nat) (s : State) : Host.Outcome State Fault Refusal := .next (resetPin s high lowNs)

/-- SAVE_BEGUN (R362): the note at the head of cascade port k makes this die run its save as if PFAIL_N had fallen. -/
def saveBegun (s : State) (k : Nat) : State :=
  match ingressHead s (8 + k) cNOTE with
  | none => s
  | some x => if bn 8 8 x = 0x11 then powerFail (takeHead s (8 + k) cNOTE) false false else s

def execSaveBegun (k : Fin 3) (s : State) : Host.Outcome State Fault Refusal := .next (saveBegun s k.val)

/-! ## RETRY and SETLOCK (R494, R514) -/

/-- RETRY (R494, R513): by the cores or the sideband, accepted only while the stop code is NO_IMAGE or STORE_BLANK. -/
def execRetry (who : Requester) (e : BootEnv) (s : State) : Host.Outcome State Fault Refusal :=
  .next (if mayTrigger s who true && decide (s.boot.phase = .stopped) && (s.boot.stop == 1 || s.boot.stop == 2)
         then bootFrom5 { s with boot := { s.boot with env := e } } else s)

/-- SETLOCK (R497, R514): by the cores in the boot stage; later it changes nothing and completes LOCKED. -/
def execSetlock (who : Requester) (s : State) : Host.Outcome State Fault Refusal :=
  .next (if isCore who && !s.prot.locked && (s.boot.phase == .booting || s.boot.phase == .stopped) then { s with prot := { s.prot with locked := true } } else s)

/-- DEBUG_EXPIRY (R510): the grant in force ends; DEBUGGED stays. -/
def execDebugExpiry (s : State) : Host.Outcome State Fault Refusal :=
  .next (if s.dbg.granted && decide (s.dbg.exp.toNat ≤ s.clock.time.toNat) then { s with dbg := { s.dbg with granted := false, scope := 0, exp := 0 } } else s)

end Sys2Proof.Machine
end

