-- ==== Sys2Proof/Machine/WaitosOps.lean ====
section
/-! DEFINITION. Requests to Waitos and their answers: segments, headers, device states, operation handles (R271, R515 to R525, R559, R561). -/

namespace Sys2Proof.Machine

open Sys2Proof

/-! ## Requesters and their queues (R515, R518, R521) -/

/-- A requester's code: its owner code (R501). -/
def clientCode : Client → Nat
  | .port n => n.val
  | .sb => 9

def reqsOf (s : State) (w : Client) : List Req := sget [] s.waitos.reqs (clientCode w)
def setReqs (s : State) (w : Client) (l : List Req) : State :=
  { s with waitos := { s.waitos with reqs := sput [] s.waitos.reqs (clientCode w) l } }

/-- Fields of a request header (R518). -/
def rCmd (r : Req) : Nat := natAt r.bytes 0 2
def rSeq (r : Req) : Nat := natAt r.bytes 2 1
def rLen (r : Req) : Nat := natAt r.bytes 4 2
def rParams (r : Req) : List Byte := r.bytes.drop 8

/-- The header and the length of a request are as R518 lays them out. -/
def reqFormed (r : Req) : Bool :=
  decide (natAt r.bytes 3 1 = 0 ∧ natAt r.bytes 6 2 = 0 ∧ rLen r ≤ 256) && decide (r.bytes.length = 8 + rLen r)

/-! ## Answers (R519) -/

/-- An answer before its header is made. -/
structure Reply where
  st : Status
  oph : Bool
  detail : Nat
  res : List Byte
deriving DecidableEq, Repr

/-- An answer with a status alone. -/
def Reply.of (st : Status) : Reply := ⟨st, false, 0, []⟩
/-- A result. -/
def Reply.ok (res : List Byte) : Reply := ⟨.ok, false, 0, res⟩
/-- BUSY_RETRY with a reason and an argument (R524). -/
def Reply.busy (reason arg : Nat) : Reply := ⟨.busyRetry, false, 4096 * reason + arg % 4096, []⟩
/-- OK with an operation handle. -/
def Reply.handle (h : Nat) : Reply := ⟨.ok, true, 0, bytesOfNat 2 h⟩

/-- The bytes of a response (R519). -/
def replyBytes (r : Req) (x : Reply) : List Byte :=
  bytesOfNat 2 (rCmd r) ++ bytesOfNat 1 (rSeq r) ++ bytesOfNat 1 (statusNum x.st + (if x.oph then 16 else 0)) ++ bytesOfNat 2 x.res.length ++ bytesOfNat 2 x.detail ++ x.res

/-- The segments of a response on the management channel (R271). -/
def mgmtSlots (id : Byte) (bs : List Byte) : List Slot :=
  let n := (bs.length + 23) / 24
  (List.range n).map (fun i =>
    let part := (bs.drop (24 * i)).take 24
    mkSlot [(0, cMGMT), (8, 1), (9, if i + 1 = n then 1 else 0), (16, id.toNat), (24, i), (32, part.length)] ||| ((ofBytes 256 part) <<< 64))

/-! ## The sideband's messages (R516) -/

/-- The enterprise number 0x0001_16FF, most significant byte first. -/
def enterprise : List Byte := [0x00, 0x01, 0x16, 0xFF]

/-- What a Waitos message on the sideband begins with: message type 0x7F and the enterprise number. -/
def sbHead : List Byte := 0x7F :: enterprise

/-- A message cut into packets of 64 B; i counts them. -/
def sbCut (bs : List Byte) (n : Nat) : List SbPacket :=
  (List.range n).map (fun i => ⟨i == 0, i + 1 == n, BitVec.ofNat 2 i, (bs.drop (64 * i)).take 64⟩)

def sbPackets (bs : List Byte) : List SbPacket := sbCut bs (max 1 ((bs.length + 63) / 64))

/-- The packets behind the first of a message: in sequence, with SOM clear, the last with EOM set, and every other of 64 B. -/
def sbRest : List SbPacket → BitVec 2 → Option (List Byte)
  | [], _ => none
  | x :: xs, q =>
    if x.som || x.seq != q || decide (64 < x.data.length) then none
    else if x.eom then (if xs.isEmpty then some x.data else none)
    else if x.data.length ≠ 64 then none
    else (sbRest xs (q + 1)).map (x.data ++ ·)

/-- The message that packets make up, from SOM to EOM. -/
def sbAssemble : List SbPacket → Option (List Byte)
  | [] => none
  | x :: xs => if x.som then sbRest ({ x with som := false } :: xs) x.seq else none

/-- The Waitos message in packets of the sideband: of its message type and enterprise number. -/
def sbMessage (ps : List SbPacket) : Option (List Byte) :=
  match sbAssemble ps with
  | some bs => if bs.take 5 = sbHead then some (bs.drop 5) else none
  | none => none

/-- A response goes to its requester: on the management channel its exchange ends; one of an older incarnation is discarded
(R294, R560). -/
def sendReply (s : State) (w : Client) (r : Req) (x : Reply) : State :=
  match w with
  | .sb => { s with waitos := { s.waitos with sbTx := s.waitos.sbTx ++ [(r.id, sbPackets (sbHead ++ replyBytes r x))] } }
  | .port n =>
    let s := tagHeld s n.val r.incarn (fun p => p.exch.map (·.id.toNat)) 0x2000 8 r.id.toNat
    let s := sendAs s n.val r.incarn (mgmtSlots r.id (replyBytes r x))
    modPort s n.val (fun p => if p.incarn = r.incarn then { p with exch := p.exch.filter (fun e => e.id ≠ r.id) } else p)

/-! ## The command set (R527) -/

/-- A command that the table lists. -/
def listed (cmd : Nat) : Bool :=
  [0x0001, 0x0002, 0x0003, 0x0004, 0x0005, 0x0101, 0x0102, 0x0201, 0x0202, 0x0203, 0x0301, 0x0302, 0x0303, 0x0401, 0x0402, 0x0501, 0x0502, 0x0503,
   0x0601, 0x0602, 0x0603, 0x0701, 0x0702, 0x0801, 0x0802, 0x0803, 0x0804, 0x0901, 0x0902, 0x0903, 0x0904, 0x0A01, 0x0A02, 0x0A03].contains cmd

/-- Who may issue a command: bit 0 a partner, bit 1 the sideband. -/
def issuers (cmd : Nat) : BitVec 2 :=
  if [0x0001, 0x0002, 0x0003, 0x0004, 0x0005, 0x0101, 0x0201, 0x0301].contains cmd then 3
  else if [0x0202, 0x0203, 0x0702].contains cmd then 1
  else 2

def permitted (w : Client) (cmd : Nat) : Bool := match w with | .port _ => bit 0 (issuers cmd) | .sb => bit 1 (issuers cmd)

/-! ## Device states (R559) -/

/-- A save is under way, or the ports have stopped after one. -/
def inSave (s : State) : Bool := decide (s.holdup.ph ≠ 0) || s.therm.tripped

/-- The refusal that the device state gives a command, if any (R524, R559). -/
def stateBusy (s : State) (cmd : Nat) (target : Nat) : Option Reply :=
  if inSave s then
    (if [0x0001, 0x0002, 0x0003, 0x0004, 0x0005, 0x0101, 0x0201, 0x0301].contains cmd then none else some (.busy 3 s.holdup.ph.toNat))
  else
    let boot := [0x0001, 0x0002, 0x0101, 0x0301, 0x0A01, 0x0A02].contains cmd
    match s.boot.phase with
    | .ready => none
    | .stopped =>
      if boot || [0x0102, 0x0902, 0x0904, 0x0A03].contains cmd || (decide (cmd = 0x0901 ∨ cmd = 0x0903) && decide (target = 0)) then none
      else some (.busy 2 s.boot.stop.toNat)
    | _ => if boot then none else some (.busy 1 s.boot.step.toNat)

/-! ## Running a request (R520, R521) -/

/-- Requests whose CMD is not listed are answered MALFORMED as they come to the head. -/
def dropUnlisted : Nat → State → Client → State
  | 0, s, _ => s
  | n + 1, s, w =>
    match reqsOf s w with
    | r :: rs => if listed (rCmd r) then s else dropUnlisted n (sendReply (setReqs s w rs) w r (.of .malformed)) w
    | [] => s

/-- The head request has been answered. -/
def popReq (s : State) (w : Client) : State :=
  let rs := (reqsOf s w).drop 1
  dropUnlisted rs.length (setReqs s w rs) w

/-- What executing a command gives: an answer now, or none yet. -/
abbrev Executed := Option Reply × State

/-- The target that IMG_BEGIN names, or the session's, for R559. -/
def imgTarget (s : State) (r : Req) : Nat :=
  if rCmd r = 0x0901 then natAt (rParams r) 0 1 else match s.waitos.session with | some x => (if x.live then 1 else 0) | none => 0

/-- Waitos executes the request at the head of w's queue, if it is this command (R520, R521, R559): its length and its
parameters are checked, then its permission, then the device state. -/
def runReq (s : State) (w : Client) (cmd : Nat) (lenOk : Nat → Bool) (parOk : List Byte → Bool) (f : State → List Byte → Executed) : State :=
  match reqsOf s w with
  | [] => s
  | r :: _ =>
    if rCmd r ≠ cmd ∨ waitosRuns s = false then s
    else
      let done := fun (s : State) (x : Reply) => popReq (sendReply s w r x) w
      if !(reqFormed r && lenOk (rLen r) && parOk (rParams r)) then done s (.of .malformed)
      else if !permitted w cmd then done s (.of .notOwner)
      else
        match stateBusy s cmd (imgTarget s r) with
        | some x => done s x
        | none =>
          match f s (rParams r) with
          | (some x, s1) => done s1 x
          | (none, s1) => s1

/-! ## MGMT (R271, R517, R559) -/

/-- A complete request joins its requester's queue. -/
def pushReq (s : State) (w : Client) (r : Req) : State :=
  let s := setReqs s w (reqsOf s w ++ [r])
  dropUnlisted (reqsOf s w).length s w

/-- A management segment of a partner (R271). -/
def mgmtSegment (s : State) (n : Fin 8) : State :=
  let p := n.val
  match ingressHead s p cMGMT with
  | none => s
  | some x =>
    let s := takeHead s p cMGMT
    let id : Byte := bf 16 8 x
    let seg := bn 24 4 x
    let len := bn 32 5 x
    let port := getPort s p
    let part := (toBytes 24 ((bf 64 192 x : BitVec 192))).take len
    let found := port.exch.find? (fun e => e.id == id)
    if bit 8 x ∨ len = 0 ∨ 24 < len ∨ 10 < seg then badSlot s p
    else
      let full := fun (s : State) (bs : List Byte) => if bit 9 x then pushReq s (.port n) ⟨id, port.incarn, bs⟩ else s
      match found with
      | none =>
        if seg ≠ 0 ∨ 8 ≤ port.exch.length then badSlot s p
        else full (setPort s p { port with exch := port.exch ++ [⟨id, 1, part, bit 9 x⟩] }) part
      | some e =>
        if seg = 0 ∨ e.complete = true then badSlot s p
        else if seg ≠ e.segs then badSlot (setPort s p { port with exch := port.exch.filter (fun y => y.id ≠ id) }) p
        else
          let y : Exchange := ⟨id, e.segs + 1, e.bytes ++ part, bit 9 x⟩
          full (setPort s p { port with exch := port.exch.map (fun z => if z.id = id then y else z) }) y.bytes

/-- A request on the sideband (R517, R559): a ninth of its endpoint is refused; before Waitos runs the sideband target itself
answers. With no power nothing answers. Packets that make up no Waitos message are no request (R516). -/
def sidebandRequest (s : State) (ep : Byte) (tag : BitVec 3) (ps : List SbPacket) : State :=
  let r : Req := ⟨tag.setWidth 8, ep.setWidth 16, (sbMessage ps).getD []⟩
  if s.boot.phase = .off ∨ sbMessage ps = none then s
  else if s.boot.phase = .resetHeld ∨ s.boot.phase = .holdRst then sendReply s .sb r (.busy 1 s.boot.step.toNat)
  else if 8 ≤ ((reqsOf s .sb).filter (fun x => x.incarn = r.incarn)).length then sendReply s .sb r (.busy 5 0)
  else pushReq s .sb r

def execMgmt (src : MgmtSrc) (s : State) : Host.Outcome State Fault Refusal :=
  .next (match src with
    | .port n => mgmtSegment s n
    | .sideband ep tag ps => sidebandRequest s ep tag ps)

/-! ## Operation handles (R523, R525, R561) -/

/-- Kinds of objects that an operation holds (R561): 1 bank, 2 macro, 3 directory entry, 4 port lanes, 5 diode, 6 REBALANCE
slot, 7 image session, 8 store; 0 none. -/
def opRuns (x : Op) : Bool := x.state == 0

/-- The operations that have a handle. -/
def liveOps (s : State) : List (Nat × Op) := s.waitos.ops.filterMap (fun e => e.2.map (fun x => (e.1, x)))

/-- The handle of a running operation that holds an object (R561). -/
def holderOf (s : State) (obj : Nat × Nat) : Option Nat := ((liveOps s).find? (fun e => opRuns e.2 && decide (e.2.obj = obj))).map (·.1)

/-- The refusal of a command whose object an operation holds (R561). -/
def heldBusy (s : State) (obj : Nat × Nat) : Option Reply := (holderOf s obj).map (fun h => .busy 4 h)

/-- The same for a bank: a running operation holds it or works on it. -/
def bankBusy (s : State) (b : Nat) : Option Reply :=
  ((liveOps s).find? (fun e => opRuns e.2 && (decide (e.2.obj = (1, b)) || e.2.data.contains b))).map (fun e => .busy 4 e.1)

/-- The handle after the last one given that no operation has (R523). -/
def nextHandle (s : State) : Option Nat :=
  ((List.range 4095).map (fun i => (s.waitos.nextHandle + i) % 4095 + 1)).find? (fun h => (getOp s h).isNone)

/-- A handle may be given: 32 in all, 16 for operations that Waitos starts on its own (R523). -/
def handleRoom (s : State) (auto : Bool) : Bool :=
  decide ((liveOps s).length < 32) && (!auto || decide (((liveOps s).filter (fun e => e.2.auto)).length < 16))

/-- An operation starts with a handle. Its final status is open (code 0xF) until it is known. -/
def startOp (s : State) (cmd owner : Nat) (auto : Bool) (obj : Nat × Nat) : Option (Nat × State) :=
  if !handleRoom s auto then none
  else
    (nextHandle s).map (fun h =>
      let x : Op := { cmd := BitVec.ofNat 16 cmd, state := 0, st := 0xF, progress := 0, start := s.clock.time, end_ := 0, endAt := 0, owner := owner, auto := auto, obj := obj, data := [] }
      (h, setOp { s with waitos := { s.waitos with nextHandle := h } } h (some x)))

/-- The lanes that an operation is still to calibrate (R535). -/
def opLanes (s : State) (h : Nat) (l : List Nat) : State :=
  match getOp s h with
  | some x => setOp s h (some { x with data := l })
  | none => s

/-- The result of a running operation is known; OP_DONE is still to come. -/
def knowOp (s : State) (h : Nat) (st : Status) (progress : Word) : State :=
  match getOp s h with
  | some x => if opRuns x then setOp s h (some { x with st := BitVec.ofNat 4 (statusNum st), progress := progress }) else s
  | none => s

/-- An operation ends with a status and a progress word: OP_DONE goes to its owner, for Waitos's own to FW; under
handle 0 it names the object (R525). -/
def endOp (s : State) (h : Nat) (st : BitVec 4) (progress : Word) : State :=
  match getOp s h with
  | none => s
  | some x =>
    if !opRuns x then s
    else
      let s := setOp s h (some { x with state := if st = 0 then 1 else 2, st := st, progress := progress, end_ := s.clock.time, endAt := now s })
      event s [if x.auto then qFW else x.owner] 0x2007 (h + 4096 * x.cmd.toNat + 2 ^ 28 * st.toNat) (if h = 0 then x.obj.2 else bn 0 32 progress)

/-- An operation that Waitos starts on its own and that is done within one command: its handle, and OP_DONE to FW (R523, R525).
With no handle to give, the work is done without one (DESIGN CHOICE, log entry 120). -/
def autoWithin (s : State) (cmd : Nat) (obj : Nat × Nat) (f : State → State) : State :=
  match startOp s cmd qFW true obj with
  | some (h, s1) => endOp (f s1) h 0 0
  | none => f s

/-- A command of class L starts its operation: OK with the handle, or BUSY_RETRY when handles have run out (R522, R524). -/
def startReply (s : State) (cmd owner : Nat) (obj : Nat × Nat) (f : Nat → State → State) : Executed :=
  match startOp s cmd owner false obj with
  | none => (some (.busy 5 0), s)
  | some (h, s1) => (some (.handle h), f h s1)

/-- HANDLE_FREE (R523). -/
def execHandleFree (h : Nat) (s : State) : Host.Outcome State Fault Refusal :=
  .next (match getOp s h with
    | some x => if opRuns x then s else setOp s h none
    | none => s)

end Sys2Proof.Machine
end

