-- ==== Sys2Proof/Machine/Replicas.lean ====
section
/-! DEFINITION. What Waitos does to the bank directory: finding free banks and list places, adding and removing replicas, growth, banks that are lost (R42, R67 to R78, R507, R542 to R545). -/

namespace Sys2Proof.Machine

open Sys2Proof

/-! ## Records of directory changes (R507) -/

/-- The record of a directory entry, and of a run of the bank list (R507). -/
def dirRec (d : Nat) (x : BitVec 80) : JRec := .live 3 (10 * d) 0 (toBytes 10 (dMake x))
def listRec (k : Nat) (bs : List Nat) : JRec := .live 3 (163840 + 2 * k) 0 (bs.flatMap (bytesOfNat 2))
/-- The record of a bank that a table takes or gives back (R507). -/
def bankRec (b : Nat) (t : Option Nat) : JRec := .live 2 (2 * b) 0 (bytesOfNat 2 (match t with | some x => x + 32 | none => 0))

/-! ## Free banks and free places (R507, R542) -/

/-- Banks that a running operation works on or holds. -/
def opBanks (s : State) : List Nat := ((liveOps s).filter (fun e => opRuns e.2)).flatMap (fun e => e.2.data)

/-- The banks that a table takes with bank b: the odd bank of a 192-trit pair, and the twins of a paired table (R85). -/
def withTwins (s : State) (t b : Nat) : List Nat :=
  let own := if tWidth s t = 2 then [b, b + 1] else [b]
  if tPaired s t then own ++ own.map twinOf else own

/-- FREE banks of an octant. -/
def freeIn (s : State) (o : Nat) : Nat :=
  ((List.range 2112).filter (fun b => bankState s b == 0 && decide (octantOf (siteOf s b) = o))).length

/-- These banks may be taken: all FREE, of no running operation, and 4 FREE banks left in every octant (R542). -/
def mayTake (s : State) (bs : List Nat) : Bool :=
  bs.all (fun b => decide (b < 2112) && bankState s b == 0 && !(opBanks s).contains b) &&
    (bs.map (fun b => octantOf (siteOf s b))).dedup.all (fun o => decide (4 + (bs.filter (fun b => octantOf (siteOf s b) = o)).length ≤ freeIn s o))

/-- The lowest-numbered n banks for table t beyond those taken already; none when there are not so many (R542). -/
def takeFree (s : State) (t : Nat) : Nat → List Nat → List Nat → Option (List Nat)
  | 0, _, _ => some []
  | _, [], _ => none
  | n + 1, b :: bs, taken =>
    if (tWidth s t ≠ 2 ∨ b % 2 = 0) ∧ mayTake s (taken ++ withTwins s t b) = true ∧ (withTwins s t b).all (fun x => !taken.contains x) = true then
      (takeFree s t n bs (taken ++ withTwins s t b)).map (b :: ·)
    else takeFree s t (n + 1) bs taken

/-- n free banks of table t: the primaries, below their twins. -/
def freeBanks (s : State) (t n : Nat) : Option (List Nat) := takeFree s t n (List.range (if tPaired s t then 1024 else 2112)) []

/-- The banks of a directory entry, replica after replica. -/
def runBanks (s : State) (x : BitVec 80) : List Nat := (List.range (dRepl x)).flatMap (replicaBanks s x)

/-- Entries that the banks of table t's descriptor capacity may hold: every primary bank counts its slots (R484, R507). -/
def capacityLeft (s : State) (t : Nat) : Bool :=
  decide (((primaryBanks s t).length + 1) * nSlots (tWidth s t) ≤ tCap s t)

/-! ## Removal (R76, R545) -/

/-- The entry and the bank list that the removal of replica i leaves of directory entry x: the last replica's banks take its
place in the list. -/
def lessReplica (s : State) (x : BitVec 80) (i : Nat) : BitVec 80 × List Nat :=
  let n := dRepl x
  let all := (runBanks s x).take (dSpan x * (n - 1))
  (bset 40 5 x (n - 2), if i + 1 = n then all else (all.take (dSpan x * i)) ++ replicaBanks s x (n - 1) ++ all.drop (dSpan x * (i + 1)))

/-- The records of that removal (R507). -/
def lessRecs (s : State) (d i : Nat) : List JRec :=
  let y := lessReplica s (dirEntry s d) i
  [dirRec d y.1, listRec (dList (dirEntry s d)) y.2]

/-- Replica i of directory entry d is removed by one directory write; its banks wait for their release (R76). -/
def removeReplica (s : State) (d i : Nat) : State :=
  let x := dirEntry s d
  let gone := replicaBanks s x i
  let y := lessReplica s x i
  jChange s (lessRecs s d i) (fun s =>
    let s := setDir (putList s (dList x) y.2) d y.1
    { s with marker := { s.marker with releases := s.marker.releases ++ [(d, s.marker.seq, gone.flatMap (withTwins s (dTnum x)))] } })

/-! ## A lost bank (R42) -/

/-- The replica of directory entry d that holds bank b. -/
def replicaOf (s : State) (d b : Nat) : Nat :=
  let x := dirEntry s d
  ((List.range (dRepl x)).find? (fun i => (replicaBanks s x i).any (fun p => (withTwins s (dTnum x) p).contains b))).getD 0

/-- The words of a bank's live entries are poisoned (R42, R368). -/
def poisonBank (s : State) (t b : Nat) : State := (liveEntries s t b).foldl (fun s x => poisonWord s (kSlot b x.1 x.2.1 0)) s

/-- A bank that must be repaired and whose octant has no replacement (R42): it is out of service, so that no insert is placed
in it; its partition answers from the remaining replicas, and POISON for entries that lived only there (log entry 26). -/
def loseBank (s : State) (b : Nat) : State :=
  if bankState s b ≠ 1 then s
  else
    let s := setBankState (event s [qFW, qSB] 0xF004 b 0) b 5
    match bankTable s b with
    | none => s
    | some t =>
      match locateBank s t (if tWidth s t = 2 then b - b % 2 else b) with
      | none => s
      | some (d, _) =>
        if 1 < dRepl (dirEntry s d) then removeReplica s d (replicaOf s d b)
        else if tPaired s t then s
        else poisonBank s t b

end Sys2Proof.Machine
end

