-- ==== Sys2Proof/Machine/ArbOps.lean ====
section
/-! DEFINITION. How an arbiter decides, and refresh through the bank arbiters (R91 to R95, R298 to R304, R312, R314). -/

namespace Sys2Proof.Machine

open Sys2Proof

/-! ## Types, tables and weights (R298, R300, R307, R311) -/

/-- The type of an arbiter: 0 bank, 1 SRAM macro, 2 partner transmit, 3 cascade transmit, 4 store channel. -/
def arbType (a : Nat) : Nat := if a < 2112 then 0 else if a < 7232 then 1 else if a < 7240 then 2 else if a < 7243 then 3 else 4

/-- The share table that an arbiter of a type uses now. -/
def tableOfType (s : State) (k : Nat) : Nat := stmapOf s.str.stmap (if k = 4 ∧ s.str.saveTable = true then 5 else k)

/-- The weight of a class on arbiters of a type. -/
def weightOf (s : State) (k c : Nat) : Nat := (sget 0 s.str.wact (16 * tableOfType s k + c)).toNat

def getClass (x : Arb) (c : Nat) : ArbClass := sget .reset x.classes c
def setClass (x : Arb) (c : Nat) (y : ArbClass) : Arb := { x with classes := sput .reset x.classes c y }

/-- A credit counter: set to the weight at each tick, lowered by each grant, never below zero (R300). -/
def creditNow (s : State) (a : Nat) (x : Arb) (c : Nat) : Nat := weightOf s (arbType a) c - (getClass x c).used.toNat

/-- UPD, SCRUB, CLONE and BULK are multi-cycle (R299). -/
def isMulti (c : Nat) : Bool := decide (c = 11 ∨ 13 ≤ c)

/-- Whether a class has a member on an arbiter's type (R299): a port transmits for its own engine, and forwards for every
partner engine. -/
def isMember (a c : Nat) : Bool :=
  match arbType a with
  | 0 => true
  | 1 => true
  | 2 => decide (c = a - 7232) || [11, 12, 13, 15].contains c
  | 3 => decide (c ≤ 7 ∨ c = 8 + (a - 7240)) || [11, 12, 13, 15].contains c
  | _ => [11, 13, 15].contains c

/-! ## A decision (R301 to R304, R312, R314) -/

/-- The order of a tie: the first class after the previous winner, in ascending order, wrapping. -/
def afterPrev (prev c : Nat) : Nat := (c + 15 - prev) % 16

/-- The class with the fullest counter among cs; ties by the order of R301. -/
def fullest (credit : Nat → Nat) (prev : Nat) : List Nat → Option Nat
  | [] => none
  | c :: cs =>
    match fullest credit prev cs with
    | none => some c
    | some d => if credit d < credit c ∨ (credit d = credit c ∧ afterPrev prev c < afterPrev prev d) then some c else some d

/-- How long the longest-waiting request of a class has waited. -/
def longest (t : Nat) (y : ArbClass) : Nat := y.waits.foldl (fun n w => max n (t - w)) 0

/-- The multi-cycle class that has waited longest, of those that have waited 1 µs; ties by the order of R301. -/
def starved (x : Arb) (t : Nat) (cs : List Nat) : Option Nat :=
  fullest (fun c => longest t (getClass x c)) x.prev (cs.filter (fun c => isMulti c && decide (1000 ≤ longest t (getClass x c))))

/-- The winner among the classes that may be granted, and whether it wins under the 1 µs line. -/
def decideWinner (credit : Nat → Nat) (x : Arb) (t : Nat) (cs : List Nat) : Option (Nat × Bool) :=
  let line := if x.starveAt = 0 ∨ x.starveAt + 999 ≤ t then starved x t cs else none
  match line with
  | some c => some (c, true)
  | none =>
    let single := cs.filter (fun c => !isMulti c)
    let w := if !single.isEmpty then fullest credit x.prev single
             else match x.holder with
               | some h => if isMulti h && cs.contains h then some h else fullest credit x.prev cs
               | none => fullest credit x.prev cs
    w.map (fun c => (c, false))

/-- A wait of w ns has ended: it is added, and the longest kept (R314). -/
def addWait (y : ArbClass) (w : Nat) : ArbClass :=
  { y with waitsum := y.waitsum + BitVec.ofNat 64 w, waitmax := if y.waitmax.toNat < w then BitVec.ofNat 32 (min w (2 ^ 32 - 1)) else y.waitmax }

/-- The wait of the class's next request ends with its grant (R314). -/
def endWait (t : Nat) (y : ArbClass) : ArbClass :=
  match y.waits with
  | [] => y
  | w :: ws => { addWait y (t - w) with waits := ws }

/-- The requests of class c that wait now: as the ask dates them; else those known of; else one presented now, but none for a
multi-cycle holder, whose request has its grant. -/
def standing (t : Nat) (q : ArbAsk) (x : Arb) (c : Nat) : List Nat :=
  match q.ages.getD c [] with
  | [] => if (getClass x c).waits.isEmpty ∧ (x.holder ≠ some c ∨ isMulti c = false) then [t] else (getClass x c).waits
  | as => as.map (fun a => t - min t a)

/-- Requests as they are presented now: each that was withdrawn is charged the time it waited, those of a class that is gone and
that the ask does not date up to now (R314); a preempted one that has gone holds nothing any more. A single-cycle holder that is
presented asks anew. -/
def present (t : Nat) (q : ArbAsk) (cs : List Nat) (x : Arb) : Arb :=
  let x := (List.range 16).foldl (fun x c =>
    let y := (q.gone.getD c []).foldl addWait (getClass x c)
    if cs.contains c then setClass x c { y with waits := standing t q x c }
    else setClass x c { (if (q.gone.getD c []).isEmpty then y.waits.foldl (fun y w => addWait y (t - w)) y else y) with waits := [] }) x
  { x with preempted := x.preempted.filter (fun e => cs.contains e.2), holder := x.holder.filter (fun h => cs.contains h), progress := if (x.holder.filter (fun h => cs.contains h)).isSome then x.progress else 0 }

/-- A search that withdrew after the decision that granted it costs a dead slot (R304). -/
def dropGrant (dead : Bool) (x : Arb) : Arb :=
  match x.holder with
  | some h => if dead = true ∧ h ≤ 10 then setClass { x with holder := none } h { getClass x h with dead := (getClass x h).dead + 1 } else x
  | none => x

/-- Class c is granted: the transfer in progress ends at the decision (R302), so a holder that wins on has completed one, and
another holder that is multi-cycle is preempted with that one counted in its progress; a preempted winner resumes at its
progress count (R303). Each transfer of a single-cycle class is an operation of its own, whose progress count is 0 (R305). -/
def grantTo (t : Nat) (x : Arb) (c : Nat) (line : Bool) : Arb :=
  let same := x.holder == some c
  let x := match x.holder with
    | some h =>
      if h ≠ c ∧ isMulti h = true then
        let y := getClass x h
        setClass { x with preempted := x.preempted ++ [(x.progress + 1, h)] } h { y with preempt := y.preempt + 1, waits := t :: y.waits }
      else x
    | none => x
  let back := (x.preempted.find? (fun e => e.2 == c)).map (·.1)
  let y := endWait t (getClass x c)
  let y := { y with used := satInc y.used, grants := y.grants + 1, starve := if line then y.starve + 1 else y.starve }
  setClass { x with holder := some c, prev := c, timer := t, starveAt := if line then t + 1 else x.starveAt,
                    progress := if same && isMulti c then x.progress + 1 else back.getD 0, preempted := x.preempted.filter (fun e => e.2 ≠ c) } c y

/-- The classes of a frozen bank group that may be granted: REF, and a multi-cycle holder until it drops its request (R312);
each transfer of a single-cycle class is a grant of its own. A multi-cycle holder that REF has preempted does not resume there: the
rule does not say whether a resumption is a new grant, and R314 counts it as a decision won (DESIGN CHOICE, log entry 126). -/
def mayGrant (s : State) (a : Nat) (x : Arb) (cs : List Nat) : List Nat :=
  if a < 2112 ∧ bankFrozen s a = true then cs.filter (fun c => decide (c = 12) || (isMulti c && x.holder == some c)) else cs

/-- A group of bank site a is refreshed, and the next one is next (R91, R93). -/
def refreshRow (s : State) (a : Nat) : State :=
  { s with tcam := { s.tcam with refGroup := sput 0 s.tcam.refGroup a ((sget 0 s.tcam.refGroup a + 1) % 512),
                                 refDue := sput 0 s.tcam.refDue a (sget 0 s.tcam.refDue a - 1) } }

/-- The classes that ask at arbiter a: those of its type that are presented, and at a bank REF while the refresh control waits
there (R93, R299). -/
def asking (s : State) (a : Nat) (cls : BitVec 16) : List Nat :=
  (setBits (if a < 2112 then bset 12 1 cls (if sget 0 s.tcam.refDue a = 0 then 0 else 1) else cls)).filter (isMember a)

/-- ARBITER_DECISION (R301, R302, R304): arbiter a decides among the classes that ask. A grant to REF at a bank refreshes its
group. -/
def decideArb (s : State) (a : Nat) (q : ArbAsk) : State :=
  if 7251 ≤ a then s
  else
    let cs := asking s a q.classes
    let x := present (now s) q cs (dropGrant q.dead (getArb s a))
    match decideWinner (creditNow s a x) x (now s) (mayGrant s a x cs) with
    | none => setArb s a { x with holder := none, progress := 0 }
    | some (c, line) =>
      let s := setArb s a (grantTo (now s) x c line)
      trace (if a < 2112 ∧ c = 12 then refreshRow s a else s) 3

def execArbiterDecision (arb : Nat) (present : ArbAsk) (s : State) : Host.Outcome State Fault Refusal :=
  .next (decideArb s arb present)

/-! ## Refresh (R91 to R95, R407, R469) -/

/-- The band that governs refresh, margin and pacing: T4 while the guard is in force (R469). -/
def bandInForce (s : State) : Nat := if s.therm.guard then 4 else s.therm.band.toNat

/-- A bank site that holds a valid entry. -/
def siteHolds (s : State) (a : Nat) : Bool := s.tcam.rows.any (fun e => decide (e.1 / 4096 = a) && (e.2.s0.v || e.2.s1.v))

/-- A bank that is refreshed (R91, R95): in use, the destination of a clone, or free with an entry still in it. A TESTING site's
refresh is under its test's control (R407). -/
def refreshed (s : State) (b : Nat) : Bool :=
  bankState s b == 1 || bankState s b == 3 || (bankState s b == 0 && siteHolds s (siteOf s b))

/-- Classes whose requests wait at an arbiter. -/
def waitingAt (x : Arb) : BitVec 16 :=
  (List.range 16).foldl (fun (m : BitVec 16) c => if !(getClass x c).waits.isEmpty then m ||| (1 <<< c) else m) 0

/-- The refresh control issues the request of site a's next group, at the start of its group period, which the band in force
times (R93, R94). An idle arbiter decides at once (R302); a REF grant has long ended by the next period. -/
def issueRefresh (s : State) (a : Nat) : State :=
  let s := { s with tcam := { s.tcam with refDue := sput 0 s.tcam.refDue a (sget 0 s.tcam.refDue a + 1), refBand := sput 0 s.tcam.refBand a (bandInForce s) } }
  let x := getArb s a
  if x.holder = none ∨ x.holder = some 12 then decideArb s a (.of (waitingAt x))
  else
    let y := getClass x 12
    if y.waits.isEmpty then setArb s a (setClass x 12 { y with waits := [now s] }) else s

/-- Every retention test that runs begins again, in the new band (R407). -/
def retestRetention (s : State) : State := { s with tcam := { s.tcam with retain := s.tcam.retain.map (fun e => (e.1, now s)) } }

/-- The band in force has changed (R94, R407): upward, every group period in progress ends and the next group is requested at once;
downward, the new length waits for the next period. -/
def bandChanged (s : State) (old : Nat) : State :=
  if old < bandInForce s then retestRetention <| ((List.range 2112).filter (refreshed s)).foldl (fun s b => issueRefresh s (siteOf s b)) s else s

/-- REFRESH_GROUP (R91, R93, R95): the group period of a bank site starts. -/
def execRefreshGroup (bank : Nat) (s : State) : Host.Outcome State Fault Refusal :=
  .next (if refreshed s (logicalOf s bank) then issueRefresh s bank else s)

end Sys2Proof.Machine
end

