-- ==== Sys2Proof/Machine/Voltage.lean ====
section
/-! DEFINITION. Setpoint, voltage factor and credit pacing; the timebase's clock, cores and the refresh guard (R13, R29, R37, R38, R42, R43, R280, R606 to R610, R624). -/

namespace Sys2Proof.Machine

open Sys2Proof

/-! ## Pacing (R280) -/

/-- The voltage factor code of a setpoint code (R29, R606): 0.72 V is code 24, 0.68 V code 16, 0.64 V code 8. -/
def factorOf (code : Nat) : Nat := if 24 ≤ code then 0 else if 16 ≤ code then 1 else if 8 ≤ code then 2 else 3

/-- A voltage factor in eighths: 1, 0.75, 0.5, 0.375. -/
def eighths (f : Nat) : Nat := if f = 0 then 8 else if f = 1 then 6 else if f = 2 then 4 else 3

/-- The thermal factor in quarters: 1 in T0 to T2, 0.75 in T3, 0.5 in T4. -/
def quarters (band : Nat) : Nat := if band ≤ 2 then 4 else if band = 3 then 3 else 2

/-- The pacing limit of a band and a voltage factor (R280). -/
def paceLimit (band f : Nat) : Nat := 1500 * quarters band * eighths f / 32

/-! ## The power controller (R608 to R610) -/

/-- A code within VMIN to VMAX. -/
def clampCode (s : State) (c : BitVec 6) : BitVec 6 := if c < s.power.vmin then s.power.vmin else if s.power.vmax < c then s.power.vmax else c

/-- A transition to a code starts (R609): upward the VID code changes first. -/
def startTrans (s : State) (code : BitVec 6) : State :=
  let t := clampCode s code
  if t = s.power.vid then s
  else if s.power.vid < t then { s with power := { s.power with vid := t, trans := some ⟨true, t, 0, now s⟩ } }
  else { s with power := { s.power with trans := some ⟨false, t, 3, now s⟩ } }

/-- A VREQ write (R608 to R610): held during a transition; from a power failure on no code changes. -/
def requestCode (s : State) (code : BitVec 6) : State :=
  let s := { s with power := { s.power with vreq := code } }
  if s.holdup.ph ≠ 0 then s
  else if s.power.trans.isSome then { s with power := { s.power with held := some code } }
  else startTrans s code

/-- A transition has ended; the latest held write acts. -/
def endTrans (s : State) : State :=
  let s := countP { s with power := { s.power with trans := none } } 0 1
  match s.power.held with
  | none => s
  | some c => let s := { s with power := { s.power with held := none } }; if s.holdup.ph = 0 then startTrans s c else s

/-- What a share-window tick does to a transition (R609): downward, the factor at the first tick and the code at the second
tick after it; upward, the factor at the first tick at least 40 µs after the code. -/
def voltageTick (s : State) : State :=
  match s.power.trans with
  | none => s
  | some v =>
    let f : BitVec 3 := BitVec.ofNat 3 (factorOf v.target.toNat)
    if v.up then
      if v.since + 40000 ≤ now s then endTrans { s with power := { s.power with vfact := f } } else s
    else if v.ticks = 3 then { s with power := { s.power with vfact := f, trans := some { v with ticks := 2 } } }
    else if v.ticks = 2 then { s with power := { s.power with trans := some { v with ticks := 1 } } }
    else endTrans { s with power := { s.power with vid := v.target } }

/-- VREQ (R624): by the cores only. -/
def execVreq (who : Requester) (code : BitVec 6) (s : State) : Host.Outcome State Fault Refusal :=
  .next (if mayTrigger s who false then requestCode s code else s)

/-- The code that Waitos requests (R608): the lowest that leaves a quarter above the highest return of the past 10 ms, or
else the lowest of the highest factor. -/
def wantedCode (s : State) : Nat :=
  let codes := (List.range 51).filter (fun c => decide (s.power.vmin.toNat ≤ c ∧ c ≤ s.power.vmax.toNat))
  match codes.find? (fun c => decide (5 * s.power.peak ≤ 4 * paceLimit (bandInForce s) (factorOf c))) with
  | some c => c
  | none => (codes.find? (fun c => decide (factorOf c = factorOf s.power.vmax.toNat))).getD s.power.vmax.toNat

/-- VOLTAGE_REQUEST (R608): Waitos writes VREQ, while it runs. -/
def execVoltageRequest (s : State) : Host.Outcome State Fault Refusal :=
  .next (if waitosRuns s then
           let s := requestCode s (BitVec.ofNat 6 (wantedCode s))
           { s with power := { s.power with peak := 0 } }
         else s)

/-! ## Clock, cores and the guard -/

def execEpoch (s : State) : Host.Outcome State Fault Refusal := .next (newEpoch s)

/-- REFCLK_FAULT (R38). -/
def execRefclkFault (s : State) : Host.Outcome State Fault Refusal := .next (refclkLost { s with pins := { s.pins with refclk := false } })

/-- REFCLK_RESTORE (R38): back to REFCLK, with no step of device time. -/
def execRefclkRestore (s : State) : Host.Outcome State Fault Refusal :=
  .next { s with pins := { s.pins with refclk := true }, clock := { s.clock with ring := false } }

/-- A core becomes unavailable (R42). -/
def loseCore (s : State) (c : Nat) : State :=
  if bit c s.waitos.cores then event { s with waitos := { s.waitos with cores := bset c 1 s.waitos.cores 0 } } [qFW, qSB] 0xE001 c 0 else s

def execCoreLost (core : Fin 4) (s : State) : Host.Outcome State Fault Refusal := .next (loseCore s core.val)

/-- REFRESH_GUARD (R43, R469): with no band confirmed for 100 ms, refresh runs at the T4 interval, which a lower band rises to
at once (R94). -/
def execRefreshGuard (s : State) : Host.Outcome State Fault Refusal :=
  .next (if s.therm.guard || !s.clock.running then s
         else bandChanged (event (count { s with therm := { s.therm with guard := true } } (0x080100 + 8 * 5) 1) [qFW, qSB] 0xE005 0xFF 1) (bandInForce s))

end Sys2Proof.Machine
end

