-- ==== Sys2Proof/Machine/Thermal.lean ====
section
/-! DEFINITION. The diode, the device bands, faults, calibration, the trip, and the media bands (R269, R270, R455 to R478, R533, R534). -/

namespace Sys2Proof.Machine

open Sys2Proof

/-! ## Demands and conversions (R455, R456) -/

/-- A conversion starts, if a demand waits, no conversion or calibration runs, and 200 µs have passed since the start of
the last one (R456). -/
def startConv (s : State) : State :=
  let t := s.therm
  if t.waiting && !t.conv && !t.held && (!t.startedSet || decide (t.started + 200000 ≤ now s)) then
    { s with therm := { t with conv := true, waiting := false, started := now s, startedSet := true } }
  else s

/-- A conversion that the spacing put off has started since, as soon as the 200 µs were over (R456). -/
def catchUp (s : State) : State :=
  let t := s.therm
  if t.waiting && !t.conv && !t.held && t.startedSet && decide (t.started + 200000 ≤ now s) then
    { s with therm := { t with conv := true, waiting := false, started := t.started + 200000 } }
  else s

/-- A demand (R455, R456). -/
def demandReading (s : State) : State := let s := catchUp s; startConv { s with therm := { s.therm with waiting := true } }

/-- The conversion that a finish belongs to: the running one, or one that the spacing let start since (R456). -/
def runningConv (s : State) : Option State := if (catchUp s).therm.conv then some (catchUp s) else none

/-- The band of a value in 0.125 °C (R460). -/
def bandOf (v : Int) : Nat := if 840 ≤ v then 4 else if 760 ≤ v then 3 else if 640 ≤ v then 2 else if 440 ≤ v then 1 else 0

/-- The lower bound of a band minus 3 °C (R462). -/
def lowBound (b : Nat) : Int := if b = 4 then 816 else if b = 3 then 736 else if b = 2 then 616 else 416

/-! ## Bands (R461 to R464) -/

/-- A write of BAND (R464): it confirms the band, and ends the guard (R43, R469); refresh follows at once upward, with the next
group period downward (R94). -/
def writeBand (s : State) (b : Nat) : State :=
  let was := bandInForce s
  let old := s.therm.band.toNat
  let s := if old < b then countTh s 1 1 else if b < old then countTh s 2 1 else s
  bandChanged { s with therm := { s.therm with band := BitVec.ofNat 3 b, decided := BitVec.ofNat 3 b, confirmed := now s, guard := false,
                                               entered := if b = old then s.therm.entered else now s } } was

/-- Waitos on a good reading (R461, R462, R467): up at once; down by one band on two readings in a row at or below the
bound minus 3 °C, after 100 ms in the band; in the fault state only up, and the fifth good reading ends it. -/
def goodReading (s : State) (v : Int) : State :=
  let t := s.therm
  let b := t.band.toNat
  let r := bandOf v
  if t.fault then
    let up := max b r
    let s := writeBand { s with therm := { t with run := t.run + 1, pair := false } } up
    if 5 ≤ t.run + 1 then { s with therm := { s.therm with fault := false, run := 0, entered := now s } } else s
  else if b < r then writeBand { s with therm := { t with pair := false } } r
  else
    let low := decide (0 < b) && decide (v ≤ lowBound b)
    if low && t.pair && decide (t.entered + 100000000 ≤ now s) then writeBand { s with therm := { t with pair := false } } (b - 1)
    else writeBand { s with therm := { t with pair := low } } b

/-- Waitos on a faulty reading (R466): the fault state, with the band at T3 or higher; one DIODE_FAULT for each entry. -/
def faultyReading (s : State) (detail : Nat) : State :=
  let t := s.therm
  let s := if t.fault then s else event (countTh { s with therm := { t with fault := true } } 4 1) [qFW, qSB] 0xE006 0 detail
  writeBand { s with therm := { s.therm with run := 0, pair := false } } (max 3 t.band.toNat)

/-! ## The trip (R470, R471) -/

/-- A good reading at or above 112.0 °C: TRIPPED, and the save, unless one runs already. -/
def trip (s : State) : State :=
  let before := s.holdup.ph
  let s := { s with therm := { s.therm with tripped := true } }
  if s.boot.phase = .ready ∨ s.boot.phase = .resetHeld then
    let s := powerFail s false true
    if before = 0 then countTh s 9 1 else s
  else s

/-! ## The answers to TEMP_READ (R533) -/

/-- The result of TEMP_READ. -/
def tempResult (s : State) : List Byte :=
  let t := s.therm
  bytesOfNat 2 t.reading.toNat ++ bytesOfNat 1 (t.band.toNat + (if t.fault then 8 else 0) + (if t.guard then 16 else 0) + (if t.held then 32 else 0)) ++ bytesOfNat 5 0 ++ toBytes 8 t.ttime

/-- The client of a requester's code. -/
def clientOf (c : Nat) : Client := if h : c < 8 then .port ⟨c, h⟩ else .sb

/-- TEMP_READ at the head of a requester's queue is answered. -/
def answerTemp (s : State) (c : Nat) : State :=
  let w := clientOf c
  match reqsOf s w with
  | r :: _ => if rCmd r = 0x0301 then popReq (sendReply s w r (.ok (tempResult s))) w else s
  | [] => s

/-- A reading has finished: the requests that its conversion serves are answered; those that came while it ran are served by
the next (R456, R533). A reader is its requester's code, plus 256 while it came too late for the running conversion. -/
def serveReaders (s : State) : State :=
  let rs := s.therm.readers
  let s := { s with therm := { s.therm with readers := (rs.filter (fun r => decide (256 ≤ r.1))).map (fun r => (r.1 - 256, r.2)) } }
  ((rs.filter (fun r => decide (r.1 < 256))).map (·.1)).foldl answerTemp s

/-! ## The start of a calibration (R468, R523, R534) -/

/-- What defers a calibration, coded as the argument of R534; 0 for nothing. -/
def calDefer (s : State) : Nat :=
  if 3 ≤ s.therm.band.toNat then 1 else if s.therm.fault then 2 else if s.holdup.ph ≠ 0 ∨ s.tcam.retain ≠ [] then 3 else 0

/-- A calibration starts: the diode converts nothing, and READING is held. A conversion that runs is given up, and its demands
wait for the first reading after the calibration (log entry 139). -/
def startCal (s : State) : State :=
  let s := catchUp s
  { s with therm := { s.therm with held := true, deferred := none, deferRaised := 0, waiting := s.therm.waiting || s.therm.conv, conv := false,
                                   readers := s.therm.readers.map (fun r => (r.1 % 256, r.2)) } }

/-- A calibration that Waitos starts on its own, with a handle when one is free (R523). -/
def autoCal (s : State) : State := startCal (match startOp s 0x0302 qFW true (5, 0) with | some (_, s1) => s1 | none => s)

/-- A periodic calibration, or one that the cores command, unless it is deferred or one runs. -/
def tryCal (s : State) : State :=
  if s.therm.held then s
  else if calDefer s ≠ 0 then { s with therm := { s.therm with deferred := some (s.therm.deferred.getD (now s)) } }
  else autoCal s

/-- A deferred calibration starts once nothing defers it any more. -/
def resumeCal (s : State) : State := if s.therm.deferred.isSome && waitosRuns s && decide (calDefer s = 0) then tryCal s else s

/-- BAND_WRITE (R477): by the cores; codes 5 to 7 are refused. -/
def execBandWrite (who : Requester) (band : BitVec 3) (s : State) : Host.Outcome State Fault Refusal :=
  .next (if mayTrigger s who false && decide (band.toNat ≤ 4) then resumeCal (writeBand s band.toNat) else s)

/-! ## A finished conversion (R457, R459, R465) -/

/-- Why a reading may be faulty: out of −40 °C to 150 °C; or more than 20 °C from a good reading that finished less than 10 ms
before. -/
def outOfRange (v : Int) : Bool := decide (v < -320) || decide (1200 < v)
def jumps (t : Therm) (at_ : Nat) (v : Int) : Bool :=
  t.goods.any (fun g => decide (at_ < g.1 + 10000000) && (decide (160 < v - g.2) || decide (160 < g.2 - v)))

/-- CONVERSION_DONE. -/
def conversionDone (s : State) (raw : BitVec 12) : State :=
  match runningConv s with
  | none => s
  | some s =>
    let t := s.therm
    let v := raw.toInt
    let jump := !t.confirming && jumps t (now s) v
    let good := !outOfRange v && !jump
    let s := countTh { s with therm := { t with conv := false, confirming := false, reading := raw, ttime := s.clock.time,
                                                goods := (if good then [(now s, v)] else []) ++ t.goods.filter (fun g => decide (now s < g.1 + 10000000)) } } 0 1
    let s := if good then s else countTh s 3 1
    let s := if good && decide (896 ≤ v) then trip s else s
    let s := if waitosRuns s then (if good then goodReading s v else faultyReading s raw.toNat) else s
    let s := resumeCal (serveReaders s)
    if !good && !outOfRange v && decide (896 ≤ v) then demandReading { s with therm := { s.therm with confirming := true, suspect := v } }
    else startConv s

def execConversionDone (raw : BitVec 12) (s : State) : Host.Outcome State Fault Refusal := .next (conversionDone s raw)

/-- CONVERSION_TIMEOUT (R455, R465): a faulty reading with no value. -/
def conversionTimeout (s : State) : State :=
  match runningConv s with
  | none => s
  | some s =>
    let s := countTh (countTh { s with therm := { s.therm with conv := false, confirming := false } } 0 1) 3 1
    let s := if waitosRuns s then faultyReading s 0xFFFF else s
    startConv (serveReaders s)

def execConversionTimeout (s : State) : Host.Outcome State Fault Refusal := .next (conversionTimeout s)

/-! ## The sources of demands (R455, R458, R466, R469) -/

/-- GUARD_READING (R469): the thermal block's own demand, every 10 ms of the guard. -/
def execGuardReading (s : State) : Host.Outcome State Fault Refusal :=
  .next (if s.therm.guard then demandReading { s with therm := { s.therm with guardDemand := true } } else s)

/-- READING_DEMAND (R458): Waitos's schedule. -/
def execReadingDemand (s : State) : Host.Outcome State Fault Refusal :=
  .next (if waitosRuns s then demandReading s else s)

/-- DEMAND (R456, R477): by the cores. -/
def execDemand (who : Requester) (s : State) : Host.Outcome State Fault Refusal :=
  .next (if mayTrigger s who false && s.clock.running then demandReading s else s)

/-- DIODE_RETRY (R466): one reading every 1 s of the fault state. -/
def execDiodeRetry (s : State) : Host.Outcome State Fault Refusal :=
  .next (if s.therm.fault && waitosRuns s then demandReading s else s)

/-- BAND_CONFIRM (R466, R468): Waitos confirms the held band during a fault or a calibration. -/
def execBandConfirm (s : State) : Host.Outcome State Fault Refusal :=
  .next (if (s.therm.fault || s.therm.held) && waitosRuns s then writeBand s s.therm.band.toNat else s)

/-! ## Calibration (R468, R534) -/

/-- CALIBRATION: 24 h of device time have passed (R468). -/
def execCalibration (s : State) : Host.Outcome State Fault Refusal := .next (if waitosRuns s then tryCal s else s)

/-- CALNOW (R477): by the cores. -/
def execCalnow (who : Requester) (s : State) : Host.Outcome State Fault Refusal :=
  .next (if mayTrigger s who false && s.clock.running then tryCal s else s)

/-- CALIBRATION_DONE (R468): a new trim, which no rule gives, and the demands that waited; its operation ends. -/
def calibrationDone (s : State) : State :=
  if !s.therm.held then s
  else
    let s := countTh (calibrated { s with therm := { s.therm with held := false } }) 6 1
    let s := match holderOf s (5, 0) with | some h => endOp s h 0 0 | none => s
    startConv s

def execCalibrationDone (s : State) : Host.Outcome State Fault Refusal := .next (calibrationDone s)

/-- CAL_DEFERRED (R468): a calibration has been deferred for 7 days more. -/
def execCalDeferred (s : State) : Host.Outcome State Fault Refusal :=
  .next (if s.therm.deferred.isSome && waitosRuns s && decide (calDefer s ≠ 0) then
           event { s with therm := { s.therm with deferRaised := s.therm.deferRaised + 1 } } [qFW] 0x4008 0 (calDefer s)
         else s)

/-- DIODE_CAL (R534). -/
def execDiodeCal (w : Client) (s : State) : Host.Outcome State Fault Refusal :=
  .next (runReq s w 0x0302 (· == 0) (fun _ => true) (fun s _ =>
    if calDefer s ≠ 0 then (some (.busy 6 (calDefer s)), s)
    else
      match holderOf s (5, 0) with
      | some h => (some (.busy 4 h), s)
      | none => if s.therm.held then (some (.busy 4 0), s) else startReply s 0x0302 (clientCode w) (5, 0) (fun _ s => startCal s)))

/-- TEMP_READ (R533): a demand, answered when the reading that serves it has finished. -/
def execTempRead (w : Client) (s : State) : Host.Outcome State Fault Refusal :=
  .next (runReq s w 0x0301 (· == 0) (fun _ => true) (fun s _ =>
    let c := clientCode w
    let s := catchUp s
    if s.therm.readers.any (fun r => decide (r.1 % 256 = c)) then (none, s)
    else
      let late := s.therm.conv
      (none, demandReading { s with therm := { s.therm with readers := s.therm.readers ++ [(if late then c + 256 else c, [])] } })))

/-! ## Media bands (R269, R270, R472 to R476) -/

/-- The lower bound of media band n in 0.125 °C, from MTHR; M0 has none (R472, R477). -/
def mediaLow (s : State) (n : Nat) : Int := if n = 0 then -100000 else 8 * (bn (8 * (n - 1)) 8 s.str.thermal.mthr : Int)

/-- The media band of a value (R472). -/
def mediaBand (s : State) (v : Int) : Nat := ((List.range 6).filter (fun n => decide (mediaLow s n ≤ v))).length - 1

def getGroup (s : State) (g : Nat) : MGroup := sget .reset s.therm.groups g
def setGroup (s : State) (g : Nat) (x : MGroup) : State := { s with therm := { s.therm with groups := sput .reset s.therm.groups g x } }

/-- A word is queued for re-derivation ahead of every other queued word (R206). -/
def queueFirst (s : State) (key : Nat) : State :=
  let rest := s.integ.rederive.filter (fun b => b ≠ .word key)
  let s := { s with integ := { s.integ with rederive := (.word key :: rest).take 256 } }
  if 256 ≤ rest.length then countI s 14 else s

/-- A group's DCOL, 8 plus the band in force, is written in the next composer-table generation (R206, R473). An uncorrectable
home row is queued for re-derivation first, and a change that the journal does not take is not made yet (R433, R439): the
group stays due. -/
def writeDcol (s : State) (g : Nat) : State :=
  if rowBad s tSHT g then ((rowKeys s tSHT g).filter (fun k => (peek s k).bad)).foldl queueFirst s
  else
    let w := bset 24 4 (sht s g) (8 + (getGroup s g).band)
    if (jAdmit s [[.iword tSHT 0 g w]]).1 then
      let s := (composerWrite s [] tSHT g [(0, w)] none).2
      { s with therm := { s.therm with dcolDue := s.therm.dcolDue.filter (· ≠ g) } }
    else s

/-- The groups whose DCOL is due are tried again. -/
def writeDcols (s : State) : State := s.therm.dcolDue.foldl writeDcol s

/-- A group takes a media band: its DCOL is due; entering M5 raises MEDIA_HOT (R473). -/
def setMedia (s : State) (g b : Nat) (v : Int) : State :=
  let x := getGroup s g
  if x.band = b then s
  else
    let s := setGroup s g { x with band := b, entered := now s, lowRun := false }
    let s := countTh s 7 1
    let s := if rowBad s tSHT g && !s.therm.dcolDue.contains g then (rowKeys s tSHT g).foldl touch s else s
    let s := writeDcol { s with therm := { s.therm with dcolDue := s.therm.dcolDue.filter (· ≠ g) ++ [g] } } g
    if b = 5 then event s [portOfGroup g, qFW] 0x3004 g (v.toNat) else s

/-- R473 on a value of a group: up at once; down by one band on two values in a row at or below the bound minus 2 °C, after
1 s in the band, and never below floor. -/
def mediaStep (s : State) (g : Nat) (v : Int) (floor : Nat) : State :=
  let x := getGroup s g
  let r := mediaBand s v
  if x.band < r then setMedia s g r v
  else
    let low := decide (0 < x.band) && decide (v ≤ mediaLow s x.band - 16)
    if low && x.lowRun && decide (x.entered + 1000000000 ≤ now s) && decide (floor ≤ x.band - 1) then setMedia s g (x.band - 1) v
    else setGroup s g { x with lowRun := low }

/-- One entry of a TEMP message (R270, R475); Waitos steps the band, while a core serves (R42, R473). -/
def tempEntry (s : State) (p g : Nat) (v : Int) : State :=
  if portOfGroup g ≠ p ∨ 240 ≤ g ∨ v < -320 ∨ 1200 < v then badSlot s p
  else
    let x := getGroup s g
    let s := setGroup s g { x with value := v, reported := v, last := now s, stale := false, subst := false, seen := true, lowRun := x.lowRun && !x.subst }
    if coresServe s then mediaStep s g v 0 else s

/-- TEMP (R270): the report at the head of port p is applied, or ignored when its RSEQ is not newer. -/
def tempReport (s : State) (p : Nat) : State :=
  match ingressHead s p cTEMP with
  | none => s
  | some m =>
    let s := takeHead s p cTEMP
    let x := getPort s p
    let rseq : BitVec 16 := bf 16 16 m
    let d := (rseq - x.rseq).toNat
    if x.rseqSet && (decide (d = 0) || decide (32768 ≤ d)) then s
    else
      let s := setPort s p { x with rseq := rseq, rseqSet := true }
      (List.range (min 8 (bn 8 4 m))).foldl (fun s k =>
        tempEntry s p (bn (64 + 24 * k) 8 m) ((bf (72 + 24 * k) 12 m).toInt)) s

def execTemp (p : Fin 8) (s : State) : Host.Outcome State Fault Refusal := .next (tempReport s p.val)

/-- A group is stale: its last applied entry is older than 500 ms (R474). -/
def isStale (s : State) (g : Nat) : Bool := decide ((getGroup s g).last + 500000000 < now s)

/-- The highest applied value among the fresh groups of a partner (R474). -/
def freshMax (s : State) (p : Nat) : Option Int :=
  ((List.range 30).map (30 * p + ·)).foldl (fun (m : Option Int) g =>
    if isStale s g || !(getGroup s g).seen then m
    else match m with | some v => some (max v (getGroup s g).value) | none => some (getGroup s g).value) none

/-- A stale group takes a substitute value, or M5 when its partner has no fresh group (R474). From a band above both of its two it
comes down by R473's two values (log entry 140). -/
def staleGroup (s : State) (g : Nat) : State :=
  let p := portOfGroup g
  let x := getGroup s g
  let s := if x.stale then s else
    event (countTh (setGroup s g { x with stale := true }) 8 1) [p, qFW] 0x3005 g (min 0xFFFFFFFF ((now s - x.last) / 1000000))
  let floor := if x.seen then mediaBand s x.reported else 0
  match freshMax s p with
  | none => setMedia (setGroup s g { getGroup s g with subst := true }) g 5 (getGroup s g).value
  | some v =>
    let sub := v + 80
    let s := setGroup s g { getGroup s g with subst := true, value := sub }
    mediaStep s g (if (getGroup s g).band < floor ∧ mediaBand s sub < floor then x.reported else sub) floor

/-- MEDIA_STALE_CHECK (R474): every 100 ms. -/
def execMediaStaleCheck (s : State) : Host.Outcome State Fault Refusal :=
  .next (if s.boot.phase = .ready ∧ s.waitos.cores ≠ 0 then
           ((List.range (min 240 (tCap s tSHT))).filter (isStale s)).foldl staleGroup (writeDcols s)
         else s)

end Sys2Proof.Machine
end

