-- ==== Sys2Proof/Machine/Integrity.lean ====
section
/-! DEFINITION. Recurrence tracking, sparing, repair records, scrub, re-derivation, traps, halted channels, self-tests, and the ECC test block (R366 to R413). -/

namespace Sys2Proof.Machine

open Sys2Proof

/-- Waitos and the sequencers it governs work: a core is in service, the die is ready, no save runs (R42, R438). -/
def maintains (s : State) : Bool := decide (s.waitos.cores ≠ 0) && (s.boot.phase == .ready) && !saving s

/-! ## Self-tests (R405, R406) -/

/-- A running self-test of a bank (R406), from its clone on. -/
def testRuns (x : Op) : Bool := opRuns x && decide (x.cmd = 0x0501)

/-- A bank of this octant is under test (R405). -/
def octantTesting (s : State) (o : Nat) : Bool :=
  (List.range 2112).any (fun b => bankState s b == 4 && decide (octantOf (siteOf s b) = o)) ||
    ((liveOps s).filter (fun e => testRuns e.2)).any (fun e => e.2.data.any (fun b => decide (octantOf (siteOf s b) = o)))

/-- BANK_CLONE of a bank by Waitos, in MOVE mode (0) or COPY mode (1): it waits behind the engine's commands (R538). -/
def cloneOut (s : State) (src dst mode : Nat) : State :=
  enqueue s { issuer := qFW, via := .none, s0 := mkSlot [(0, cTCMD), (8, 8), (64, src), (80, dst), (96, mode)], s1 := 0, s2 := 0 }

/-- The data of an operation are set. -/
def opData (s : State) (h : Nat) (obj : Nat × Nat) (l : List Nat) : State :=
  match getOp s h with
  | some x => setOp s h (some { x with obj := obj, data := l })
  | none => s

/-- The bank that a clone of b names: of a 192-trit pair the even one (R177). -/
def cloneLead (s : State) (b : Nat) : Nat := if isPair s b then b - b % 2 else b

/-- The number that names b's old site once its clone to dst has ended: of a pair the odd one follows the even one's (R96). -/
def oldSiteNo (s : State) (b dst : Nat) : Nat := dst + (b - cloneLead s b)

/-- The steps of a test or retirement up to the clone: an IN_USE bank is cloned out, with its neighbour in a pair, and the number
of its replacement is held, which names the old site once the clone has ended (R96, R406). -/
def moveOut (s : State) (h b dst : Nat) : State :=
  let bs := if isPair s b then [oldSiteNo s b dst, b, cloneLead s b, cloneLead s b + 1, dst, dst + 1] else [dst, b]
  cloneOut (opData s h (1, oldSiteNo s b dst) bs) (cloneLead s b) dst 0

/-- A waiting self-test starts; or it goes on waiting, as for a bank that an operation holds (R561), or falls away because the
bank is in use no more. A bank that signalled and whose octant has no replacement is lost (R42, R405). -/
def startTest (s : State) (w : Nat) : State × Bool :=
  let b := w % 4096
  if bankState s b ≠ 1 then (s, true)
  else if (bankBusy s b).isSome || octantTesting s (octantOf (siteOf s b)) then (s, false)
  else
    match replacement s (cloneLead s b) with
    | none => (if w < 4096 then loseBank s b else s, true)
    | some dst =>
      match startOp s 0x0501 qFW true (1, oldSiteNo s b dst) with
      | none => (s, false)
      | some (h, s1) => (moveOut s1 h b dst, true)

/-- The waiting self-tests that can start do so, in order. -/
def startTests (s : State) : State :=
  if maintains s then
    let (s, rest) := s.integ.selfTest.foldl (fun (x : State × List Nat) w =>
      let (s, gone) := startTest x.1 w
      (s, if gone then x.2 else x.2 ++ [w])) (s, [])
    { s with integ := { s.integ with selfTest := rest } }
  else s

/-- A self-test of a bank is asked for. -/
def askTest (s : State) (w : Nat) : State :=
  if s.integ.selfTest.any (fun x => decide (x % 4096 = w % 4096)) then s else { s with integ := { s.integ with selfTest := s.integ.selfTest ++ [w] } }

/-- SELF_TEST_ROTATION (R405): the next bank in use, in ascending logical number. -/
def selfTestRotation (s : State) : State :=
  let order := (List.range 2112).map (fun i => (s.integ.rotation + i) % 2112)
  match order.find? (fun b => bankState s b == 1) with
  | none => s
  | some b => startTests (askTest { s with integ := { s.integ with rotation := b + 1 } } (b + 4096))

def execSelfTestRotation (s : State) : Host.Outcome State Fault Refusal := .next (if maintains s then selfTestRotation s else s)

/-- DISAGREEMENT_RESOLUTION (R87, R90): a bank that reaches the threshold signals Waitos for a self-test (R405). -/
def execDisagreementResolution (tok : Nat) (step : Fin 4) (s : State) : Host.Outcome State Fault Refusal :=
  .next (startTests (disagreement s tok step.val))

/-- The retention test of a site can be over: it has run for two refresh intervals of the band in force (R406). -/
def retentionOver (s : State) (site : Nat) : Bool :=
  s.tcam.retain.all (fun e => decide (e.1 ≠ site) || decide (e.2 + 2 * (16000000 / 2 ^ bandInForce s) ≤ now s))

/-- BANK_SELF_TEST (R406, R407, R409, R438): the tests have run on a TESTING site, or their retention test begins (log entry 25).
Their patterns leave no valid entry (log entry 27). -/
def bankSelfTest (s : State) (b : Nat) (result : BitVec 4) : State :=
  let site := siteOf s b
  if bankState s b ≠ 4 ∨ result = 0 ∨ 9 ≤ result.toNat ∨ saving s = true ∨ bankFrozen s site = true then s
  else
    let rest := s.tcam.retain.filter (fun e => decide (e.1 ≠ site))
    if result = 8 then { s with tcam := { s.tcam with retain := rest ++ [(site, now s)], rows := sdrop s.tcam.rows (fun k => decide (k / 4096 = site)) } }
    else if (result = 1 ∨ result = 5) ∧ retentionOver s site = false then s
    else resumeCal { s with tcam := { s.tcam with test := sput 0 s.tcam.test site result, retain := rest, rows := sdrop s.tcam.rows (fun k => decide (k / 4096 = site)) } }

def execBankSelfTest (bank : Nat) (result : BitVec 4) (s : State) : Host.Outcome State Fault Refusal := .next (bankSelfTest s bank result)

/-- SELF_TEST_DONE (R406): a site that passed is SPARE or FREE again; one that failed is RETIRED, with its repair record. A
test that was aborted starts again (R408). A test that outlived its handle ends under handle 0 (R525). -/
def selfTestDone (s : State) (b : Nat) : State :=
  let code := sget 0 s.tcam.test (siteOf s b)
  if bankState s b ≠ 4 ∨ code = 0 ∨ code = 7 ∨ saving s = true then s
  else
    let mode := if code = 1 then 1 else 0
    let (ok, s1) := jAdmit s [[.bank 4 b 0 0 0]]
    match retireState s b mode with
    | none => s
    | some st =>
      if !ok then s
      else
        let s := countI (retireBank s1 b mode st) 19
        let s := match holderOf s (1, b) with
          | some h => endOp s h (if code = 1 then 0 else 3) (code.setWidth 64)
          | none => event s [qFW] 0x2007 (4096 * 0x0501 + (if code = 1 then 0 else 3 * 2 ^ 28)) b
        startTests s

def execSelfTestDone (bank : Nat) (s : State) : Host.Outcome State Fault Refusal := .next (selfTestDone s bank)

/-! ## The recurrence tracker (R372 to R376) -/

def getTrack (s : State) (i : Nat) : Track := sget .reset s.integ.track i
def setTrack (s : State) (i : Nat) (x : Track) : State := { s with integ := { s.integ with track := sput .reset s.integ.track i x } }

/-- The tracker entries in use. -/
def tracked (s : State) : List (Nat × Track) := s.integ.track.filter (fun e => e.2.valid)

/-- The entry of a word address. -/
def trackOf (s : State) (a : BitVec 28) : Option (Nat × Track) := (tracked s).find? (fun e => e.2.addr == a)

/-- Entry x is evicted before entry y: the lower count, and among equals the older last correction. -/
def evictBefore (x y : Nat × Track) : Bool :=
  decide (x.2.count.toNat < y.2.count.toNat) || (decide (x.2.count = y.2.count) && decide (x.2.last.toNat < y.2.last.toNat))

/-- The victim of an eviction. -/
def victim (l : List (Nat × Track)) : Option (Nat × Track) :=
  l.foldl (fun (best : Option (Nat × Track)) e => match best with | none => some e | some y => if evictBefore e y then some e else best) none

/-- A free tracker entry, after an eviction where every entry is in use. -/
def freeTrack (s : State) : Nat × State :=
  match (List.range 1024).find? (fun i => !(getTrack s i).valid) with
  | some i => (i, s)
  | none =>
    match victim (tracked s) with
    | some e => (e.1, countI s 6)
    | none => (0, s)

/-- The bank of a place that is a result-slot word. -/
def bankOfPlace (key : Nat) : Option Nat := if 2 ^ 41 ≤ key ∧ key < 2 ^ 42 then some ((key - 2 ^ 41) / 16384) else none

/-- The oldest report is applied (R373). -/
def trackerReport (s : State) : State :=
  match s.integ.queue with
  | [] => s
  | r :: rest =>
    let s := { s with integ := { s.integ with queue := rest } }
    match trackOf s r.addr with
    | none =>
      let (i, s) := freeTrack s
      setTrack s i { Track.reset with valid := true, addr := r.addr, count := 1, syn := r.syn, last := r.time }
    | some (i, x) =>
      if !x.rewritten then
        let s := setTrack s i { x with count := satInc x.count, syn := r.syn, last := r.time }
        if x.count = 3 then event (countI s 7) [qFW] 0x4001 r.addr.toNat r.syn.toNat else s
      else if r.elapsed ≤ x.rewroteAt then s
      else
        let s := setTrack s i { x with hard := true, syn := r.syn, last := r.time }
        let s := event (countI s 8) [qFW] 0x4002 r.addr.toNat r.syn.toNat
        match bankOfPlace (placeAt r.addr) with
        | some b => startTests (askTest s b)
        | none => s

def execTrackerReport (s : State) : Host.Outcome State Fault Refusal := .next (trackerReport s)

/-! ## Scrub reads and write-back transfers (R370, R371, R397) -/

/-- A write-back transfer (R397): the corrected word is written only when the read in it finds a correctable error. -/
def writeBackWord (s : State) (key : Nat) : State :=
  let r := peek s key
  let s := consumeInj s key
  if r.bad || r.syn == 0 then s else countI (putWord s key r.data) 4

/-- A scrub read of a word (R371, R397): a correction is reported and written back; an uncorrectable word is raised as UE and
queued for re-derivation. -/
def scrubWord (s : State) (key : Nat) : State :=
  let r := peek s key
  let s := fixPage (consumeInj s key) key
  if r.bad then queueBad (event (countI s 3) [qFW] 0x4003 (addrAt key).toNat r.syn.toNat) (.word key)
  else if r.syn = 0 then s
  else writeBackWord (report (countI s 2) key r.syn) key

/-- WRITE_BACK (R374): Waitos rewrites a word whose entry has reached CE_RECUR; REWRITTEN is set and the count cleared. -/
def writeBack (s : State) (a : BitVec 28) : State :=
  match trackOf s a with
  | none => s
  | some (i, x) =>
    if x.rewritten || decide (x.count.toNat < 4) then s
    else setTrack (writeBackWord s (placeAt a)) i { x with rewritten := true, count := 0, rewroteAt := now s }

def execWriteBack (addr : BitVec 28) (s : State) : Host.Outcome State Fault Refusal := .next (if maintains s then writeBack s addr else s)

/-- TRACKER_AGE_OUT (R374): an entry with REWRITTEN set and no correction for 24 h is freed. -/
def execTrackerAgeOut (i : Fin 1024) (s : State) : Host.Outcome State Fault Refusal :=
  .next (if (getTrack s i.val).valid && (getTrack s i.val).rewritten then setTrack s i.val .reset else s)

/-! ## Sparing (R376 to R381) -/

/-- The bit position that a syndrome names: data bits 0 to 63, check bits 64 to 71. -/
def synBit (syn : Byte) : Option Nat :=
  match findAt (fun c => c == syn) hsiaoCols 0 with
  | some (i, _) => some i
  | none => if popCount syn = 1 then (setBits syn).head?.map (· + 64) else none

/-- Macro and row of a word address (R369). -/
def macroOfAddr (a : BitVec 28) : Nat := bn 13 15 a
def rowOfAddr (a : BitVec 28) : Nat := bn 3 10 a

/-- HARD entries of one macro name a bit position in three different rows (R376). -/
def columnDue (s : State) (m b : Nat) : Bool :=
  decide (3 ≤ (((tracked s).filter (fun e => e.2.hard && decide (macroOfAddr e.2.addr = m) && decide (synBit e.2.syn = some b))).map (fun e => rowOfAddr e.2.addr)).dedup.length)

/-- Spare rows and columns of a macro that records or the maps use (R377, R383). -/
def spareUsed (s : State) (m : Nat) (column : Bool) : List Nat :=
  let kind := if column then 2 else 1
  let recs := (allRecs s).filter (fun r => decide (bn 0 2 r = kind ∧ bn 2 15 r = m))
  recs.map (fun r => if column then bn 24 1 r else bn 27 3 r) ++
    (if column then (s.sram.colMap.filter (fun e => decide (e.1 / 128 = m))).map (fun e => e.2 - 1)
     else (s.sram.rowMap.filter (fun e => decide (e.1 / 1024 = m))).map (fun e => e.2 - 1))

/-- The lowest free spare of a macro (R377). -/
def spareFor (s : State) (m : Nat) (column : Bool) : Option Nat :=
  (List.range (if column then 2 else 8)).find? (fun i => !(spareUsed s m column).contains i)

/-- The spare copy of a word (R378 step 2): read, corrected and written; an uncorrectable word goes over as its poison
pattern, and is queued for re-derivation. -/
def spareCopy (s : State) (key : Nat) : State :=
  let r := peek s key
  let s := consumeInj s key
  if r.bad then queueBad (poisonWord s key) (.word key)
  else if r.syn = 0 then s
  else putWord s key r.data

/-- A repair record waits to be programmed (R384). -/
def addRecord (s : State) (r : Word) : State :=
  { s with integ := { s.integ with repairs := s.integ.repairs ++ [withChk (r ||| bput 64 32 s.clock.epoch.toNat)] } }

/-- Tracker entries with a property are freed. -/
def freeTracks (s : State) (p : Track → Bool) : State :=
  { s with integ := { s.integ with track := s.integ.track.filter (fun e => !p e.2) } }

/-- Row sparing onto a free spare row (R378); the mirror steps lie within the command (log entry 28). -/
def spareRow (s : State) (a : BitVec 28) (spare : Nat) : State :=
  let m := macroOfAddr a
  let r := rowOfAddr a
  let s := (List.range 8).foldl (fun s i => spareCopy s (placeAt (BitVec.ofNat 28 (m * 8192 + r * 8 + i)))) s
  let s := { s with sram := { s.sram with rowMap := sput 0 s.sram.rowMap (m * 1024 + r) (spare + 1) } }
  let s := countI s 9
  let s := addRecord s (bput 64 0 1 ||| bput 64 2 m ||| bput 64 17 r ||| bput 64 27 spare)
  freeTracks s (fun x => x.valid && decide (macroOfAddr x.addr = m) && decide (rowOfAddr x.addr = r))

/-- The words of a macro that hold something, by address. -/
def macroPlaces (s : State) (m : Nat) : List Nat := (s.sram.words.map (·.1)).filter (fun k => decide (macroOf k = m))

/-- Column sparing onto a free spare column (R379). Words that hold nothing are clean and need no copy. -/
def spareColumn (s : State) (m b spare : Nat) : State :=
  let s := (macroPlaces s m).foldl spareCopy s
  let s := { s with sram := { s.sram with colMap := sput 0 s.sram.colMap (m * 128 + b) (spare + 1) } }
  let s := countI s 10
  let s := addRecord s (bput 64 0 2 ||| bput 64 2 m ||| bput 64 17 b ||| bput 64 24 spare)
  freeTracks s (fun x => x.valid && decide (macroOfAddr x.addr = m) && decide (synBit x.syn = some b))

/-- No free spare (R381): the word stays in service. -/
def spareNone (s : State) (m kind : Nat) : State := event s [qFW] 0xE008 m kind

/-- ROW_SPARING (R376, R378): the row of a HARD word, unless its column is to be spared instead. -/
def rowSparing (s : State) (a : BitVec 28) : State :=
  let m := macroOfAddr a
  match trackOf s a with
  | none => s
  | some (_, x) =>
    if !x.hard || (holderOf s (2, m)).isSome || (match synBit x.syn with | some b => columnDue s m b | none => false) then s
    else
      match spareFor s m false with
      | some k => autoWithin s 0x0503 (2, m) (fun s => spareRow s a k)
      | none => spareNone s m 0

def execRowSparing (addr : BitVec 28) (s : State) : Host.Outcome State Fault Refusal := .next (if maintains s then rowSparing s addr else s)

/-- COLUMN_SPARING (R376, R379). -/
def columnSparing (s : State) (a : BitVec 28) (b : Nat) : State :=
  let m := macroOfAddr a
  if !columnDue s m b || (holderOf s (2, m)).isSome then s
  else
    match spareFor s m true with
    | some k => autoWithin s 0x0503 (2, m) (fun s => spareColumn s m b k)
    | none => spareNone s m 1

def execColumnSparing (addr : BitVec 28) (bit : Fin 72) (s : State) : Host.Outcome State Fault Refusal :=
  .next (if maintains s then columnSparing s addr bit.val else s)

/-- FIELD_REPAIR_PROGRAM (R384): both copies of the oldest waiting record; with every record used, the repair stands until
cold reset and OTP_FULL is raised. A copy that is not programmed reads zero. -/
def programRecord (s : State) (ok0 ok1 : Bool) : State :=
  match s.integ.repairs with
  | [] => s
  | r :: rest =>
    let s := { s with integ := { s.integ with repairs := rest } }
    if 256 ≤ s.fuses.field.length then event { s with integ := { s.integ with otpFull := true } } [qFW] 0xE009 0 0
    else { s with fuses := { s.fuses with field := s.fuses.field ++ [⟨if ok0 then r else 0, if ok1 then r else 0⟩] } }

def execFieldRepairProgram (ok0 ok1 : Bool) (s : State) : Host.Outcome State Fault Refusal :=
  .next (if s.waitos.cores ≠ 0 ∧ s.boot.phase = .ready then programRecord s ok0 ok1 else s)

/-! ## Bank scrub (R393 to R395) -/

/-- The clone that fills a bank, if one does: its source bank, and whether the destination has result slots of its own, as in
COPY mode; in MOVE mode the slots stay with the logical number (R96, R178). -/
def cloneInto (s : State) (b : Nat) : Option (Nat × Bool) :=
  (List.range 8).findSome? (fun e => match (getEng s e).clone with
    | some c => if c.moved then none else ((clonePairs s c).find? (fun x => decide (x.2 = b))).map (fun x => (x.1, c.copy))
    | none => none)

/-- The table of a bank that is scanned: its own, or for a CLONE_DEST bank its source's (R393). -/
def scanTable (s : State) (b : Nat) : Option Nat :=
  match bankTable s b with
  | some t => some t
  | none => (cloneInto s b).bind (fun x => bankTable s x.1)

/-- The bank whose result slots belong to a scanned bank's entries. -/
def slotBank (s : State) (b : Nat) : Nat :=
  match bankTable s b, cloneInto s b with
  | none, some (src, false) => src
  | _, _ => b

/-- A result slot as its two words stand: readable, and the check of R394 item 3 against the entry's own trits. -/
def slotOk (s : State) (t b r h : Nat) (e : Entry) : Bool :=
  let x := peek s (kSlot (slotBank s b) r h 0)
  let c := peek s (kSlot (slotBank s b) r h 1)
  let want := mkCheck s t e.care e.val e.side.tag.toNat
  !x.bad && !c.bad && chkLive c.data && decide (chkTnum c.data = t) && decide (chkPlen c.data = e.side.tag.toNat) && (chkAc c.data == chkAc want) && (chkKcrc c.data == chkKcrc want)

/-- Checks 1 to 3 of R394 on an entry with V = 1. -/
def scrubOk (s : State) (t b r h : Nat) (e : Entry) : Bool := parityOk e && careOk s t e.care e.side.tag.toNat && slotOk s t b r h e

/-- Two twins hold the same entry and the same result slot (R394 item 4); H is no part of it (R67). -/
def twinsAgree (s : State) (b1 b2 r h : Nat) (e1 e2 : Entry) : Bool :=
  e1.care == e2.care && e1.val == e2.val && e1.side.v == e2.side.v && e1.side.tag == e2.side.tag &&
    (peek s (kSlot b1 r h 0)).data == (peek s (kSlot b2 r h 0)).data && (peek s (kSlot b1 r h 1)).data == (peek s (kSlot b2 r h 1)).data

/-- A winner of the resolution that scrub runs (R395): it passes when it passes every check of R394. -/
def scrubSeen (s : State) (t w : Nat) (key : BitVec 192) (b : Nat) (x : Win) : Seen :=
  let y := look s t w key b (siteOf s b) (siteOf s (b + 1)) x
  { y with ok := scrubOk s t b x.slot x.half y.entry, bad := false }

/-- A failed check in a paired table (R395): the resolution of R87 with the entry's own key. The bank scrubbed counts one
disagreement in any case. When no copy passes for this slot, or both pass and differ, the slot is queued. -/
def scrubPair (s : State) (t b r h : Nat) : State :=
  let w := tWidth s t
  let e := getEntry s w b r h
  let key := e.val &&& e.care
  let find := fun (k : Nat) (mask : Option (Nat × Nat)) => (probe s w k (siteOf s k) (siteOf s (k + 1)) (openMask s) key mask).map (scrubSeen s t w key k)
  let (out, s1) := resolvePair s t w b (twinOf b) (find b none) (find (twinOf b) none) (fun s' x => (find x.bank (some (x.win.slot, x.win.half)), s')) true
  let s1 := if sget 0 s1.tcam.disag b = sget 0 s.tcam.disag b then countDisag s1 b else s1
  let fixed := match out with
    | .won y => decide (y.addr % 4096 = r ∧ y.half = h ∧ s1.tcam.repairs ≠ s.tcam.repairs)
    | _ => false
  if fixed then s1 else queueBad s1 (.entry b r h)

/-- A conditional clear (R394): the slot's bank is covered by no reservation. -/
def unreserved (s : State) (b : Nat) : Bool := !s.update.eng.any (fun x => x.2.held.contains (resBank b))

/-- One entry of a scrubbed row (R394, R395, R397). A CLONE_DEST bank has no twin. -/
def scrubEntry (s : State) (t b r h : Nat) : State :=
  let w := tWidth s t
  let e := getEntry s w b r h
  let k := slotBank s b
  let s := scrubWord (scrubWord s (kSlot k r h 0)) (kSlot k r h 1)
  if e.side.v then
    let paired := tPaired s t && bankState s b == 1
    let s := if paired then scrubWord (scrubWord s (kSlot (twinOf b) r h 0)) (kSlot (twinOf b) r h 1) else s
    let own := scrubOk s t b r h e
    let twin := !paired || twinsAgree s b (twinOf b) r h e (getEntry s w (twinOf b) r h)
    if own && twin then s
    else if paired then scrubPair (countI s 11) t b r h
    else countDisag (queueBad (countI s 11) (.entry b r h)) b
  else
    let c := peek s (kSlot b r h 1)
    if k = b ∧ c.bad = false ∧ chkLive c.data = true then clearLive s b r h else s

/-- A row is read back, unless an entry in it belongs to a gated change or a reservation covers it (R394). The odd bank of a
192-trit pair is read with its even bank, where the pass comes to it. -/
def scrubRowAt (s : State) (b r : Nat) : State :=
  match scanTable s b with
  | none => s
  | some t =>
    let w := tWidth s t
    if tKind s t ≠ 1 ∨ (w = 2 ∧ b % 2 = 1) ∨ (getRow s (siteOf s b) r).s0.g ≠ 0 ∨ (getRow s (siteOf s b) r).s1.g ≠ 0 ∨ unreserved s b = false then s
    else (if w = 0 then [0, 1] else [0]).foldl (fun s h => scrubEntry s t b r h) s

/-- Banks that sequencer e scans (R393). -/
def scrubBanks (s : State) (e : Nat) : List Nat :=
  (List.range 2112).filter (fun b => decide (octantOf (siteOf s b) = e) && (bankState s b == 1 || bankState s b == 3))

/-- The next row of sequencer e: a bank and a row; a pass ends after the last row of the last bank. It waits at a frozen bank
(R312). -/
def bankScrub (s : State) (e : Nat) : State :=
  let x := getEng s e
  let put := fun (s : State) (b r : Nat) => setEng s e { getEng s e with scrubBank := b, scrubRow := r }
  match (scrubBanks s e).find? (fun b => decide (x.scrubBank ≤ b)) with
  | none => { put s 0 0 with integ := { s.integ with bankPass := s.integ.bankPass + 1 } }
  | some b =>
    let r := if b = x.scrubBank then x.scrubRow else 0
    if bankFrozen s (siteOf s b) then s else
    put (scrubRowAt s b r) (if r = 4095 then b + 1 else b) ((r + 1) % 4096)

/-- BANK_SCRUB. -/
def execBankScrub (e : Fin 8) (s : State) : Host.Outcome State Fault Refusal :=
  .next (if s.integ.bankScrub && maintains s then startTests (bankScrub s e.val) else s)

/-! ## SRAM scrub (R396, R397) -/

/-- SRAM_SCRUB: the next word of the index-pool macros of sequencer e; a word whose page is not valid is passed over. -/
def sramScrub (s : State) (e : Nat) : State :=
  let n := (getEng s e).scrubWord
  let put := fun (s : State) (k : Nat) => setEng s e { getEng s e with scrubWord := k }
  if 640 * 8192 ≤ n then { put s 0 with integ := { s.integ with sramPass := s.integ.sramPass + 1 } }
  else
    let key := placeAt (BitVec.ofNat 28 ((e + 8 * (n / 8192)) * 8192 + n % 8192))
    put (if pageValid s key then scrubWord s key else s) (n + 1)

def execSramScrub (e : Fin 8) (s : State) : Host.Outcome State Fault Refusal :=
  .next (if s.integ.sramScrub && maintains s then sramScrub s e.val else s)

/-! ## Re-derivation (R399 to R401, R500, R600) -/

/-- The sections of the booted image, as the read-back window holds them. -/
def bootSections (s : State) : List Sect := sections (slotImage s s.boot.slot.toNat)

/-- The replay-from JSN of the newest complete checkpoint. -/
def replayFrom (s : State) : Word := match s.store.ckpt with | some c => c.rfjsn | none => 1

/-- The groups of the store's journal pages and of the journal buffer, from the replay-from JSN on (R401). -/
def laterGroups (s : State) : List (Word × List JRec) :=
  liveGroups (s.store.pages.flatMap (fun p => p.recs) ++ s.journal.frames.flatMap (fun f => f.recs)) (replayFrom s)

/-- A journal page whose frame still stands in the journal buffer is read from there (R401). -/
def stillBuffered (s : State) (p : JPage) : Bool := s.journal.frames.any (fun f => f.drained && decide (f.recs = p.recs))

/-- The store's copy of the word at a place cannot be read (R401): a unit or page of it reads from neither die, which unread says;
or the checkpoint unit that the word lies in, or a journal page from the replay-from JSN on that has left the buffer, lies in a
FAILED pair. -/
def storeUnread (s : State) (key : Nat) (unread : Bool) : Bool :=
  unread || (ckPages s.store.ckpt).any (fun p => bit (p.unit % nPairs s) s.store.failed && p.spans.any (fun x => decide (x.1 ≤ key ∧ key < x.2))) ||
    s.store.pages.any (fun p => !pageDead (replayFrom s) p && !stillBuffered s p && bit (pagePair s p) s.store.failed)

/-- The store's copy of word w of row r of table t (R399): the checkpoint's, or before the first one the image's, and what
later groups left. -/
def storedWord (s : State) (t r w : Nat) : Cw :=
  let base : Cw := match s.store.ckpt with
    | some c => sget ⟨0, 0⟩ c.words (rowKey s t r w)
    | none => (sectRecs s (bootSections s) 14).foldl (fun x i => match i with | .word t' w' r' v => if t' = t ∧ w' = w ∧ r' = r then secEnc v else x | _ => x) ⟨0, 0⟩
  (laterGroups s).foldl (fun x g => g.2.foldl (fun x i => match i with | .iword t' w' r' v => if t' = t ∧ w' = w ∧ r' = r then secEnc v else x | _ => x) x) base

/-- An entry as the store holds it: care, value, TAG and result word. -/
abbrev Stored := BitVec 192 × BitVec 192 × Nat × Cw

/-- The entry of a primary bank's address as a checkpoint holds it. -/
def ckptEntry (s : State) (c : Ckpt) (t b r h : Nat) : Option Stored :=
  let e := rowEntry (tWidth s t) (sget TRow.blank c.rows (b * 4096 + r)) (sget TRow.blank c.rows ((b + 1) * 4096 + r)) h
  if e.side.v then some (e.care, e.val, e.side.tag.toNat, sget ⟨0, 0⟩ c.words (kSlot b r h 0)) else none

/-- The entry of an address in a list of image records. -/
def imageEntry (rs : List ImgRec) (t addr h : Nat) : Option Stored :=
  rs.foldl (fun (x : Option Stored) i => match i with
    | .entry t' h' a tag care val res => if t' = t ∧ h' = h ∧ a = addr then some (care, val, tag, secEnc res) else x
    | _ => x) none

/-- The effect of a journal record on the entry of an address. -/
def recEntry (t addr h : Nat) (x : Option Stored) (i : JRec) : Option Stored :=
  match i with
  | .entry t' h' a tag val care _ _ res => if t' = t ∧ h' = h ∧ a = addr then some (care, val, tag, secEnc res) else x
  | .move t' h' hs dst src tag val care _ _ res =>
    let x := if t' = t ∧ hs = h ∧ src = addr then none else x
    if t' = t ∧ h' = h ∧ dst = addr then some (care, val, tag, secEnc res) else x
  | .del t' h' a => if t' = t ∧ h' = h ∧ a = addr then none else x
  | _ => x

/-- The entry at slot r, half h of a primary bank as the store holds it (R399); a protected table's comes from the WINDOWS
section of the booted image (R500). -/
def storedEntry (s : State) (t b r h : Nat) : Option Stored :=
  if tProt s t then imageEntry (sectRecs s (bootSections s) 11) t (b * 4096 + r) h
  else
    let base := match s.store.ckpt with
      | some c => ckptEntry s c t b r h
      | none => imageEntry (sectRecs s (bootSections s) 14) t (b * 4096 + r) h
    (laterGroups s).foldl (fun x g => g.2.foldl (recEntry t (b * 4096 + r) h) x) base

/-- The source of the entry with its result slot at a place cannot be read: the store, or for a protected table the WINDOWS section,
whose CRC fails (R600). -/
def entryUnread (s : State) (t key : Nat) (unread : Bool) : Bool :=
  if tProt s t then !(sectsOk (slotImage s s.boot.slot.toNat) false) else storeUnread s key unread

/-- An index word is re-derived (R399 to R401), by a write-back transfer, only while it still reads
uncorrectable. -/
def rederiveIndex (s : State) (t key : Nat) (unread : Bool) : State :=
  if !(peek s key).bad then s
  else if isHeat s key then countI (countI (putWord (consumeInj s key) key 0) 18) 13
  else
    let i := key - kIndex t 0
    let r := i / rowWords s t
    let s := consumeInj s key
    if storeUnread s key unread then markPoisoned s t r key
    else countI (countI (putCw s key (storedWord s t r (i % rowWords s t))) 4) 13

/-- The primary bank of the partition that bank b serves: its replica 0, below its twin. -/
def primaryOf (s : State) (t b : Nat) : Nat :=
  match locateBank s t b with
  | some (d, j) => listAt s (dList (dirEntry s d) + j)
  | none => b

/-- The store's entry is written in bank b, or the slot is cleared where the store holds none (R399). -/
def putStored (s : State) (t b r h : Nat) (x : Option Stored) : State :=
  let w := tWidth s t
  match x with
  | none => clearEntry s w b r h
  | some (care, val, tag, res) =>
    let s := putCw (putCw s (kSlot b r h 0) res) (kSlot b r h 1) (secEnc (mkCheck s t care val tag))
    setEntry s w b r h (mkEntry care val (BitVec.ofNat 7 tag) true 0)

/-- An entry of a CLONE_DEST bank is written again from its source, when that passes; else the source's slot is queued. -/
def rederiveDest (s : State) (t src b r h : Nat) : State :=
  let w := tWidth s t
  let e := getEntry s w src r h
  if e.side.g ≠ 0 then s
  else if e.side.v && !scrubOk s t src r h e then queueBad s (.entry src r h)
  else countI (setEntry s w b r h { e.masked with side := { e.side with h := false } }) 13

/-- An entry or result slot is re-derived (R399): from the twin that passes, else from the store. A slot that a gated change
governs is left to the change (R88). -/
def rederiveEntry (s : State) (b r h : Nat) (unread : Bool) : State :=
  match bankTable s b with
  | none =>
    match cloneInto s b with
    | some (src, _) => match bankTable s src with | some t => rederiveDest s t src b r h | none => s
    | none => s
  | some t =>
    let w := tWidth s t
    let b := if w = 2 then b - b % 2 else b
    let e := getEntry s w b r h
    let b2 := twinOf b
    let e2 := getEntry s w b2 r h
    if e.side.g ≠ 0 ∨ tKind s t ≠ 1 then s
    else if e.side.v && scrubOk s t b r h e && (!tPaired s t || twinsAgree s b b2 r h e e2) then s
    else if tPaired s t && e2.side.v && e2.side.g == 0 && scrubOk s t b2 r h e2 then countI (copyEntry s t b2 b r h) 13
    else if entryUnread s t (kSlot b r h 0) unread then markPoisoned s t (b * 4096 + r + h * 2 ^ 24) (kSlot b r h 0)
    else countI (putStored s t b r h (storedEntry s t (primaryOf s t b) r h)) 13

/-- The contents of a profile slot from the structure image and the live updates since (R399). -/
def sourceProfile (s : State) (n : Nat) : List Word :=
  let take := fun (x : List Word) (d : List Byte) => (pieces d 274 (d.length / 274)).foldl (fun x p => if natAt p 0 2 = n then bufWords (slice p 2 272) else x) x
  let base := take (List.replicate 34 0) (sectData (bootSections s) 4)
  let base := match s.store.ckpt with
    | some c => if c.hasStruct && sameImage s then (List.range 34).map (fun i => (secDec (sget ⟨0, 0⟩ c.profiles (kProf n (sget 0 c.active n) i))).data) else base
    | none => base
  (laterGroups s).foldl (fun x g => g.2.foldl (fun x i => match i with | .live 4 _ _ d => take x d | _ => x) x) base

/-- A committed package waits for its tick, and its profile rewrites with it (R504). -/
def packageWaits (s : State) : Bool := match s.waitos.session with | some x => x.verified | none => false

/-- A word of a profile slot (R135, R371, R399): a bad word of the active buffer makes the slot be rewritten with its contents,
VER advancing by 1, once no search holds the other buffer (R136) and no committed package is still to rewrite it; one of the
inactive buffer is written again in place. -/
def rederiveProfile (s : State) (key : Nat) : State :=
  let n := (key - 2 ^ 42) / 128
  let f := activeBuf s n
  let ws := sourceProfile s n
  if (key - 2 ^ 42) / 64 % 2 ≠ f then
    (if (peek s key).bad then countI (putWord (consumeInj s key) key (ws.getD ((key - 2 ^ 42) % 64) 0)) 13 else s)
  else if !profBad s n f then s
  else if bufferHeld s n || packageWaits s then queueBad s (.word key)
  else countI (rewriteSlot s n (withVer ws (verNow s n + 1))) 13

/-- A queued word, by the kind of its place (R399). Groups that wait for an SHT home row are written after it (R206). -/
def rederiveWord (s : State) (key : Nat) (unread : Bool) : State :=
  match tableOfPlace key with
  | some t => if tKind s t = 2 ∨ tKind s t = 3 then (let s := rederiveIndex s t key unread; if t = tSHT then writeDcols s else s) else s
  | none =>
    match bankOfPlace key with
    | some b => rederiveEntry s b ((key - 2 ^ 41) / 4 % 4096) ((key - 2 ^ 41) / 2 % 2) unread
    | none =>
      if 2 ^ 42 ≤ key ∧ key < 2 ^ 43 then rederiveProfile s key
      else if 2 ^ 43 ≤ key ∧ key < 2 ^ 44 then (if (peek s key).bad then countI (rewriteCopy s key) 13 else s)
      else s

/-- Waitos's record of a directory entry replaces both copies (R73; log entry 101). -/
def rederiveDir (s : State) (d : Nat) : State :=
  let x := sget 0 s.marker.dirRec d
  { s with marker := { s.marker with dirA := sput 0 s.marker.dirA d x, dirB := sput 0 s.marker.dirB d x } }

/-- A queued entry stands in a frozen bank, where its repair is granted nothing (R312). -/
def badFrozen (s : State) : Bad → Bool
  | .entry b _ _ => bankFrozen s (siteOf s b)
  | _ => false

/-- The queued word or entry that is re-derived next: the oldest that no freeze holds. -/
def nextBad (s : State) : Option Bad := s.integ.rederive.find? (fun b => !badFrozen s b)

/-- REDERIVE (R73, R399): the oldest queued word or entry, as an operation of Waitos's own; no rule gives re-derivation a
command code (DESIGN CHOICE: 0, log entry 120). -/
def rederive (s : State) (unread : Bool) : State :=
  match nextBad s with
  | none => s
  | some b =>
    let s := { s with integ := { s.integ with rederive := s.integ.rederive.erase b } }
    autoWithin s 0 (9, 0) (fun s =>
      match b with
      | .word key => rederiveWord s key unread
      | .entry b r h => rederiveEntry s b r h unread
      | .dir d => rederiveDir s d)

/-- Whether a unit or page of the store that the oldest queued word or entry needs reads from neither die (log entry 119). -/
def copyUnread (s : State) : Bool :=
  match nextBad s with
  | some (.word key) => Config.copyUnread key s.free
  | some (.entry b r h) => Config.copyUnread (kSlot b r h 0) s.free
  | _ => false

def execRederive (s : State) : Host.Outcome State Fault Refusal := .next (if maintains s then rederive s (copyUnread s) else s)

/-! ## Traps (R371, R398, R402, R403) -/

/-- Every core fetches from the other copy (R398). -/
def switchAll (s : State) (copy : Nat) : State := { s with integ := { s.integ with romPri := if copy = 0 then 15 else 0 } }

/-- A core is out of service (R42). -/
def coreOut (s : State) (c : Nat) : State := loseCore { s with integ := { s.integ with coreOut := bset c 1 s.integ.coreOut 1 } } c

/-- ROM_TRAP (R402): a core fetches an uncorrectable word from its primary copy, which both says of the other copy too. -/
def romTrap (s : State) (c copy word : Nat) (both : Bool) : State :=
  if bit c s.waitos.cores = false ∨ bn c 1 s.integ.romPri ≠ copy then s
  else
    let s := countI s 16
    if both then coreOut (event s [qFW, qSB] 0xF005 word c) c
    else
      let s := { s with integ := { s.integ with romPri := bset c 1 s.integ.romPri (1 - copy) } }
      if sget false s.integ.romBad copy then s
      else event { s with integ := { s.integ with romBad := sput false s.integ.romBad copy true } } [qFW] 0xE002 (copy + 2 * word) 0

def execRomTrap (core : Fin 4) (copy : Fin 2) (word : Nat) (both : Bool) (s : State) : Host.Outcome State Fault Refusal :=
  .next (romTrap s core.val copy.val word both)

/-- An uncorrectable copy of an event record (R403, R569, R571): a critical or fatal record is replaced from its other copy, unless
both are uncorrectable; any other is discarded and counted as lost. -/
def dropRecord (s : State) (q : Nat) (n : BitVec 32) (both : Bool) : State :=
  let x := getQueue s q
  match x.recs.find? (fun r => r.qseq == n) with
  | none => s
  | some r =>
    if 2 ≤ r.sev.toNat ∧ both = false then s
    else setQueue s q (evLose s.clock.time r.count.toNat { x with recs := x.recs.filter (fun y => y.qseq ≠ n) })

/-- The place in the list of entry i of the trace ring, which TRSEL numbers by its write place. -/
def ringPlaceOf (s : State) (i : Nat) : Nat := (i + 65536 - (s.events.head.toNat + 65536 - s.events.ring.length) % 65536) % 65536

/-- An entry of the trace ring is dropped and counted (R403): its place reads zero. -/
def dropTrace (s : State) (i : Nat) : State :=
  if s.events.ring.length ≤ ringPlaceOf s i then s
  else { s with events := { s.events with ring := modAt (fun _ => ⟨0, 0, 0, 0⟩) s.events.ring (ringPlaceOf s i), trdrop := s.events.trdrop + 1 } }

/-- A management SRAM word found uncorrectable, by region (R371, R403). The word address and the syndrome are open. -/
def sramRegion (s : State) (r : SramRegion) : State :=
  let (a, s) := fresh s
  let s := event s [qFW] 0x4003 (bn 0 28 a) (bn 32 8 a)
  match r with
  | .eventRecord q n both => dropRecord s q.val n both
  | .traceEntry i => dropTrace s i
  | .waitosState rebuilt =>
    if rebuilt then { s with waitos := { s.waitos with rebuilt := s.waitos.rebuilt + 1 } }
    else
      let s := event s [qFW, qSB] 0xF007 0 4
      if s.boot.phase = .ready ∧ s.therm.tripped = false then warmReset s false else s

/-- DATA_SRAM_TRAP (R403). -/
def execDataSramTrap (r : SramRegion) (s : State) : Host.Outcome State Fault Refusal :=
  .next (if waitosRuns s then sramRegion (countI s 1) r else s)

/-- Waitos's scrub read of a word of macros 5,120 to 5,387 (R396, R397). -/
def scanWord (s : State) (a : BitVec 28) : State := if 5120 ≤ macroOfAddr a ∧ macroOfAddr a < 5388 then scrubWord s (placeAt a) else s

/-- A correctable word of a buffer there: reported, and written back (R397). -/
def fixWord (s : State) (a : BitVec 28) (syn : Byte) : State :=
  if 5120 ≤ macroOfAddr a ∧ macroOfAddr a < 5376 ∧ (synBit syn).isSome = true then countI (report (countI s 2) (kRaw a.toNat) syn) 4 else s

/-- ROM_SCRUB (R396 to R398): Waitos's own scrub read. A word bad in both copies matters once a core fetches it (R42). -/
def execRomScrub (b : BadWord) (s : State) : Host.Outcome State Fault Refusal :=
  .next (if !(maintains s) then s
         else match b with
           | .rom copy _ => countI (switchAll s copy.val) 16
           | .dataSram r => sramRegion (countI s 3) r
           | .word a => scanWord s a
           | .fixed a syn => fixWord s a syn)

/-! ## Halted channels (R404) -/

/-- An uncorrectable word outside the tables: UE to FW with its address and syndrome, and counted (R371). -/
def ueAt (s : State) (a : BitVec 28) (syn : Byte) : State := countI (event s [qFW] 0x4003 a.toNat syn.toNat) 1

/-- A halted channel reports to FW (R404): channels numbered in the order of its table. -/
def channelReport (s : State) (kind progress : Nat) : State := event s [qFW] 0x4006 kind progress

/-- A hole marker stands in a record's place, with the first 8 bytes of the record where they read well; it is counted (R404, R425,
R454). -/
def punchHole (s : State) (f r : Nat) (firstOk : Bool) : State :=
  let hole := fun (e : JEntry) => { e with body := .hole (if firstOk then some (firstBytes e) else none) }
  let s := countStore s 6 1
  { s with journal := { s.journal with frames := modAt (fun (x : Frame) => if x.drained then x else { x with recs := modAt hole x.recs r }) s.journal.frames f } }

/-- What a halted DUMP gives out: on a port a reject slot and end-of-dump, to FW and SB the READ answer of a poisoned entry (R404;
log entry 16). -/
def haltOut (s : State) (p k : Nat) (x : Stream) (b : Nat) (l : Loc) : State :=
  if p < 8 then send s p [bulkReject k (x.seq % 16384) .poison, endOfDump k x.sent]
  else answer s (.regset (p - 8)) { TRsp.of .poison with opc := 5, addr := BitVec.ofNat 24 (b * 4096 + l.r), half := decide (l.h = 1), tag := (getEntry s (tWidth s x.table) b l.r l.h).side.tag }

/-- DUMP halts on its next entry (R404): the halt is reported, POISON given out, and the stream closes. FW's and SB's waits while the
register set is BUSY, as their entries do. -/
def haltDump (s : State) (p k : Nat) : State :=
  let x := getStream s p k
  if !x.isOpen || x.dir ≠ 2 || (decide (8 ≤ p) && (dumpSet s p).busy) then s
  else
    match nextEntry s x.table x.pos with
    | none => s
    | some (l, en) =>
      let b := primaryBank s l
      if parityOk en && !(peek s (kSlot b l.r l.h 0)).bad && !(peek s (kSlot b l.r l.h 1)).bad then s
      else
        let s := [kSlot b l.r l.h 0, kSlot b l.r l.h 1].foldl (fun s k => if (peek s k).bad then touch s k else s) (channelReport s 0 x.sent)
        let s := haltOut s p k x b l
        queueBad (setStream s p k Stream.reset) (.entry b l.r l.h)

/-- A halted clone (R306): its destinations return to their previous states and take no more writes, and a command that asked for
it is answered INTERNAL. One whose number has moved stands. -/
def haltCloneOf (s : State) (e : Nat) : State :=
  match (getEng s e).clone with
  | none => s
  | some c =>
    if c.moved then s else
    let back := fun (s : State) (b : Nat) (st : BitVec 4) => setBankState (if st = 0 ∨ st = 2 then clearSite s (siteOf s b) else s) b st
    let s := dropMirror s c.dst
    let s := (clonePairs s c).foldl (fun s x => back s x.2 (if x.2 = c.dst then c.prior else c.prior2)) s
    let s := setEng s e { getEng s e with clone := none }
    match c.cmd with
    | some m => answer s m.via (fill m (TRsp.of .internal))
    | none => s

/-- The operation of Waitos that waits for a clone into this bank ends INTERNAL. -/
def endCloneOp (s : State) (dst : Nat) : State :=
  match (liveOps s).find? (fun x => opRuns x.2 && x.2.data.contains dst) with
  | some x => endOp s x.1 14 7
  | none => s

/-- A clone halts on a source row with bad parity (R404). In a paired table the row is repaired from its twin and the clone goes
on at that row; in an unpaired one the clone is halted, the row re-derived, and Waitos starts the clone again. During a save clones
and re-derivation stand still (R438). -/
def haltClone (s : State) (e row : Nat) (unread : Bool) : State :=
  match (getEng s e).clone with
  | none => s
  | some c =>
    let t := (bankTable s c.src).getD 0
    let bad := (bankPair s c.src).flatMap (fun b => ((liveEntries s t b).filter (fun (r, _, x) => decide (r = row) && !parityOk x)).map (fun (r, h, _) => (b, r, h)))
    let fix := fun (s : State) => bad.foldl (fun s x => rederiveEntry s x.1 x.2.1 x.2.2 unread) s
    if bad.isEmpty || c.moved || saving s then s
    else
      let s := channelReport s 5 row
      if tPaired s t then advanceClone (fix s) e
      else cloneOut (fix (haltCloneOf s e)) c.src c.dst (if c.copy then 1 else 0)

/-- CHANNEL_HALT. -/
def channelHalt (s : State) (c : HaltCase) : State :=
  match c with
  | .bulkDump p k => haltDump s p.val k.val
  | .checkpointRead key unread =>
    if s.store.run.isSome && (peek s key).bad then rederiveWord (channelReport (touch s key) 1 s.store.seg) key unread else s
  | .save f r ok a syn => if saving s then punchHole (channelReport (ueAt s a syn) 2 f) f r ok else s
  | .drain f r ok a syn => if saving s then s else beginCkpt (punchHole (channelReport (ueAt s a syn) 3 f) f r ok)
  | .restore key =>
    let t := (tableOfPlace key).getD ((bankOfPlace key).bind (bankTable s) |>.getD 0)
    let obj := match bankOfPlace key with | some b => b * 4096 + (key - 2 ^ 41) / 4 % 4096 + (key - 2 ^ 41) / 2 % 2 * 2 ^ 24 | none => (key - kIndex t 0) / rowWords s t
    markPoisoned (channelReport s 4 0) t obj key
  | .clone e row unread => haltClone s e.val row unread

def execChannelHalt (c : HaltCase) (s : State) : Host.Outcome State Fault Refusal := .next (if s.boot.phase = .ready ∨ saving s = true then channelHalt s c else s)

/-! ## The ECC test block (R410, R411) -/

/-- A write of ETCMD reaches the block: a core's, or the sideband's under a grant with scope bit 2 (R410, R508). -/
def etWriter (s : State) (who : Requester) : Bool :=
  decide (s.boot.phase ≠ .off) && (isCore who || (sideWriter s who && grantBit s 2))

/-- A test operation (R411): refused, with REJ set, unless ARM is 1; else it runs and completes with a status. -/
def etRun (s : State) (who : Requester) (f : State → Status × State) : State :=
  if !etWriter s who then s
  else if !s.integ.arm || s.integ.etbusy then { s with integ := { s.integ with etrej := true } }
  else
    let (st, s) := f s
    { s with integ := { s.integ with etdone := true, etst := BitVec.ofNat 4 (statusNum st) } }

/-- A word address of R369. -/
def addrOk (a : BitVec 28) : Bool := decide (a.toNat / 8192 < 5388)

/-- The codeword that a composer copy holds when it has no error: of the generation of its parity (R119, R120). -/
def compHome (s : State) (key : Nat) : Cw :=
  let i := key - 2 ^ 43
  let g := i / 16384 % 2
  let gen := if s.search.gen % 2 = g then s.search.gen else s.search.gen - 1
  secEnc (genWord s gen (rowKey s (i % 16384 / 512) (i % 512 / 2) (i % 2)))

def isComp (key : Nat) : Bool := decide (2 ^ 43 ≤ key ∧ key < 2 ^ 44)

/-- RAWRD (R411): data, check bits and syndrome as stored, without correction or report. -/
def rawRead (s : State) : Status × State :=
  if !addrOk s.integ.etaddr then (.malformed, s)
  else
    let key := placeAt s.integ.etaddr
    let e := cellInj s key
    let w : Cw := if isComp key then ⟨(compHome s key).data ^^^ e.data, (compHome s key).chk ^^^ e.chk⟩ else e
    let inv := !pageValid s key
    let s := consumeInj s key
    (.ok, { s with integ := { s.integ with etdata := w.data, etchk := w.chk, syn := secSyn w, pageinv := inv } })

def execRawrd (who : Requester) (s : State) : Host.Outcome State Fault Refusal := .next (etRun s who rawRead)

/-- RAWWR (R411): data and check bits exactly as given, after the fill of an invalid page. -/
def rawWrite (s : State) : Status × State :=
  if !addrOk s.integ.etaddr then (.malformed, s)
  else
    let key := placeAt s.integ.etaddr
    let w : Cw := ⟨s.integ.etdata, s.integ.etchk⟩
    (.ok, if isComp key then putCw s key ⟨w.data ^^^ (compHome s key).data, w.chk ^^^ (compHome s key).chk⟩ else putCw s key w)

def execRawwr (who : Requester) (s : State) : Host.Outcome State Fault Refusal := .next (etRun s who rawWrite)

/-- INJECT (R411): one injection is armed at a time. -/
def injectAt (s : State) : Status × State :=
  if !addrOk s.integ.etaddr then (.malformed, s)
  else (.ok, { s with sram := { s.sram with inj := some (s.integ.etaddr, s.integ.etflipd, s.integ.etflipc) } })

def execInject (who : Requester) (s : State) : Host.Outcome State Fault Refusal := .next (etRun s who injectAt)

/-- The bank, slot and half of ETADDR, and the width code by which the row is accessed; none for an unused entry address: a
bank that does not exist, or half 1 of a table that is not 48 trits wide. -/
def etEntry (s : State) : Option (Nat × Nat × Nat × Nat) :=
  let b := bn 12 12 s.integ.etaddr
  let h := bn 24 1 s.integ.etaddr
  let w := match bankTable s b with | some t => min 1 (tWidth s t) | none => 1
  if 2112 ≤ b ∨ (h = 1 ∧ w ≠ 0) then none else some (b, bn 0 12 s.integ.etaddr, h, w)

/-- The side fields in the layout of ETSIDE. -/
def sideWord (x : Side) (ovr : Bool) : BitVec 14 :=
  bflag 14 0 x.v ||| bflag 14 1 x.h ||| bput 14 2 x.g.toNat ||| bput 14 4 x.tag.toNat ||| bflag 14 11 x.pc ||| bflag 14 12 x.pv ||| bflag 14 13 ovr
def sideOf (x : BitVec 14) : Side := ⟨bit 0 x, bit 1 x, bf 2 2 x, bf 4 7 x, bit 11 x, bit 12 x⟩

/-- TRD (R411). -/
def trdRead (s : State) : Status × State :=
  match etEntry s with
  | none => (.malformed, s)
  | some (b, r, h, w) =>
    let e := rowEntry w (getRow s (siteOf s b) r) TRow.blank h
    (.ok, { s with integ := { s.integ with etkey := bf 0 96 e.val, etmask := bf 0 96 e.care, etside := sideWord e.side (bit 13 s.integ.etside) } })

def execTrd (who : Requester) (s : State) : Host.Outcome State Fault Refusal := .next (etRun s who trdRead)

/-- TWR (R411): trits and side fields as given; PC and PV are made unless OVR is set. The parity of a 192-trit entry covers
both banks (R50). -/
def twrWrite (s : State) : Status × State :=
  match etEntry s with
  | none => (.malformed, s)
  | some (b, r, h, w) =>
    let raw : Entry := ⟨s.integ.etmask.setWidth 192, s.integ.etkey.setWidth 192, sideOf s.integ.etside⟩
    let row := rowWith w h true (getRow s (siteOf s b) r) raw
    let wide := match bankTable s b with | some t => decide (tWidth s t = 2 ∧ b % 2 = 0) | none => false
    let e := rowEntry (if wide then 2 else w) row (getRow s (siteOf s (b + 1)) r) h
    let side := if bit 13 s.integ.etside then raw.side else { raw.side with pc := parPC { e with side := raw.side }, pv := parPV e }
    (.ok, setRow s (siteOf s b) r (if h = 1 then { row with s1 := side } else { row with s0 := side }))

def execTwr (who : Requester) (s : State) : Host.Outcome State Fault Refusal := .next (etRun s who twrWrite)

/-- DISARM (R411): the armed injection is withdrawn. -/
def execDisarm (who : Requester) (s : State) : Host.Outcome State Fault Refusal :=
  .next (etRun s who (fun s => (.ok, { s with sram := { s.sram with inj := none } })))

end Sys2Proof.Machine
end

