-- ==== Sys2Proof/Machine/Arbiters.lean ====
section
/-! DEFINITION. Arbiters: weights, decisions, cut-offs, freeze bits, counters and snapshots; the share-window tick (R298 to R316, R578). -/

namespace Sys2Proof.Machine

open Sys2Proof

/-! ## Cut-offs (R305, R306) -/

/-- The places that a running step reads at SRAM macros: the row of an INDEX step, its alternate row when the condition holds;
the result slots of the winners of a MATCH step, found as its banks will return them while it is issued. -/
def stepPlaces (s : State) (tk : Token) (i : Nat) : List Nat :=
  let d := tokDesc s tk i
  if sKind d = 1 then
    (if frReg (sCond d) ≠ 31 ∧ condHolds tk d = true then rowKeys s (sAtable d) (frVal (stepReg tk) (sArow d))
     else rowKeys s (sTable d) (frVal (stepReg tk) (sRow d)))
  else
    let x := stepAt tk i
    let won := fun (a : Option Win) (b site odd : Nat) =>
      if x.ph = .issued then probe s (tWidth s (sTable d)) b site odd x.snap (stepKey s tk i) none else a
    x.banks.flatMap (fun k =>
      let slots := fun (b : Nat) (x : Option Win) => match x with | some x => [kSlot b x.slot x.half 0, kSlot b x.slot x.half 1] | none => []
      slots k.bank (won k.a k.bank k.site k.odd) ++ (match k.twin with | some y => slots y.1 (won k.b y.1 y.2.1 y.2.2) | none => []))

/-- The sites that a running step probes. -/
def stepSites (tk : Token) (i : Nat) : List Nat :=
  (stepAt tk i).banks.flatMap (fun k => [k.site, k.odd] ++ (match k.twin with | some y => [y.2.1, y.2.2] | none => []))

/-- The places lie in the macro of arbiter a. -/
def inMacro (a : Nat) (ks : List Nat) : Bool := ks.any (fun k => inPool k && decide (macroOf k + 2112 = a))

/-- The oldest step of engine c's searches that stands at bank site a, or reads from macro a − 2,112. -/
def heldStep (s : State) (a c : Nat) : Option (Nat × Nat) :=
  s.search.tokens.findSome? (fun e =>
    match e.2 with
    | none => none
    | some tk =>
      if tk.eng ≠ c ∨ tk.ph ≠ .running then none
      else
        ((List.range tk.steps.length).find? (fun i =>
          decide ((stepAt tk i).ph = .issued ∨ (stepAt tk i).ph = .disagree) &&
            (if a < 2112 then (stepSites tk i).contains a else inMacro a (stepPlaces s tk i)))).map (fun i => (e.1, i)))

/-- A search's outcome is discarded: the search ends INTERNAL unless it has been answered LATE. -/
def cutSearch (s : State) (a c : Nat) : State :=
  match heldStep s a c with
  | none => s
  | some (tok, i) => modTok s tok (fun tk => { tk with steps := modAt (fun (x : StepRun) => { x with ph := .ended, fail := some .internal }) tk.steps i })

/-- The places at SRAM macros that a command works on: the rows it names, those its result word counts in, the result slots of
its entry. -/
def headPlaces (s : State) (c : TCmd) : List Nat :=
  let o := cOpc c
  if 0x10 ≤ o ∧ o ≤ 0x13 then rowKeys s (cTable c) (cRow c)
  else if o = 0x50 ∨ o = 0x51 then rowKeys s tSHT (cGroup c)
  else if 0x40 ≤ o ∧ o ≤ 0x4F then rowKeys s tBMAP (cLblk c) ++ rowKeys s tBINF (cPA c)
  else
    let t := cTable c
    (placesOf s t (cMask s c) (cKey s c) (cPlen c)).flatMap (fun l => [kSlot (primaryBank s l) l.r l.h 0, kSlot (primaryBank s l) l.r l.h 1]) ++
      (resLink s t (cRes c)).flatMap (fun r => rowKeys s (r / 2 ^ 32) (r % 2 ^ 32)) ++
      (if o = 0x58 ∨ o = 0x59 then (coveredBlocks (cMask s c) (cKey s c) (cPlen c)).flatMap (rowKeys s tBMAP) else [])

/-- A command works on a bank at site a, in whatever octant: the banks of its entries, their twins and replicas (R34, R85). -/
def worksAt (s : State) (a : Nat) (c : TCmd) : Bool :=
  (touchedBanks s c).any (fun b => decide (siteOf s b = a) || (decide (tWidth s (cTable c) = 2) && decide (siteOf s (b + 1) = a)))

/-- A write that follows a commit point stands at site a: a gate that drains or clears governs a copy there (R82, R306). -/
def postCommitAt (s : State) (a : Nat) : Bool :=
  s.marker.gates.any (fun e => (e.2.st == .draining || e.2.st == .clearing) && e.2.copies.any (fun c => decide (siteOf s c.bank = a)))

/-- The engine whose command, not committed yet, holds arbiter a: the one whose command works on a bank there, or on a word there
at a macro. R306 names the holder's operation and R299 puts several sorts in class UPD: the writes that follow a commit point are
taken to hold a bank before a command that has none, and repairs after it (DESIGN CHOICE, log entry 126). -/
def heldEngine (s : State) (a : Nat) : Option Nat :=
  if a < 2112 then
    (List.range 8).find? (fun e => match (getEng s e).queue with
      | c :: _ => worksAt s a c
      | [] => false)
  else if a < 7232 then
    (List.range 8).find? (fun e => match (getEng s e).queue with
      | c :: _ => inMacro a (headPlaces s c)
      | [] => false)
  else none

/-- A cut coalescer write: its entry is given up, and the commands merged in it are answered INTERNAL. -/
def cutCoal (s : State) (a : Nat) : State :=
  match s.sram.coal.find? (fun e => e.2.isSome && inMacro a [e.1]) with
  | some (k, some c) => c.waits.foldl (fun s w => answer s w.1 { w.2 with st := .internal, jsn := 0 }) { s with sram := { s.sram with coal := sput none s.sram.coal k none } }
  | _ => s

/-- A cut repair write is given up; the next search that disagrees there, or scrub, finds the fault again (R88). -/
def cutRepair (s : State) (a : Nat) : State :=
  { s with tcam := { s.tcam with repairs := smod [] s.tcam.repairs (octantOf a % 8) (fun l => l.eraseP (fun r => decide (siteOf s r.dst = a))) } }

/-- A cut update (R306): a write that follows a commit point is finished through another grant; a command that has made no write yet
is answered INTERNAL, and its reservations are released; a REPOINT past its commit point goes on. -/
def cutUpdate (s : State) (a : Nat) : State :=
  if a < 2112 ∧ postCommitAt s a = true then s else
  match heldEngine s a with
  | none => if a < 2112 then cutRepair s a else cutCoal s a
  | some e =>
    match (getEng s e).queue with
    | [] => s
    | c :: _ => if (getEng s e).repoint.isSome then s else answer (popQueue s e) c.via (fill c (TRsp.of .internal))

/-- A cut refresh: the group is due again at the start of the next group period, and the event is critical. -/
def cutRefresh (s : State) (a : Nat) : State :=
  event { s with tcam := { s.tcam with refGroup := sput 0 s.tcam.refGroup a ((sget 0 s.tcam.refGroup a + 511) % 512) } } [qFW] 0xE005 (octantOf a) 2

/-- A clone or self-test that holds bank site a is halted. -/
def cutClone (s : State) (a : Nat) : State :=
  match (List.range 8).find? (fun e => match (getEng s e).clone with
      | some c => (List.range 2).any (fun i => decide (siteOf s (c.src + i) = a) || decide (siteOf s (c.dst + i) = a))
      | none => false) with
  | some e => endCloneOp (haltCloneOf s e) (((getEng s e).clone.map (·.dst)).getD 0)
  | none =>
    if bankState s (logicalOf s a) = 4 then { s with tcam := { s.tcam with test := sput 0 s.tcam.test a 7 } } else s

/-- STALL_CUTOFF (R305, R306): the holder loses its grant, its request is removed, and it is counted and reported. The owner
of a scrub, bulk or checkpoint channel resumes it; a port's message leaves in a later slot. -/
def stallCutoff (s : State) (a : Nat) : State :=
  let x := getArb s a
  match x.holder with
  | none => s
  | some c =>
    let y := getClass x c
    let s := setArb s a (setClass { x with holder := none, progress := 0, cut := true } c { y with cuts := y.cuts + 1 })
    if c = 12 ∧ a < 2112 then cutRefresh s a
    else
      let s := event s [qFW] 0x4004 (a + 65536 * c) x.progress
      if c ≤ 10 ∧ a < 7232 then cutSearch s a c
      else if c = 11 ∧ a < 7232 then cutUpdate s a
      else if c = 14 ∧ a < 2112 then cutClone s a
      else s

def execStallCutoff (arb : Nat) (s : State) : Host.Outcome State Fault Refusal := .next (stallCutoff s arb)

/-! ## Freeze bits (R312, R313) -/

/-- A write of freeze word k. -/
def writeDfrz (s : State) (k : Nat) (v : Reg) : State :=
  { s with arbs := { s.arbs with dfrz := bset (32 * k) (if k = 2 then 2 else 32) s.arbs.dfrz v.toNat } }

/-- DFRZ (R312, R316): by the cores and the sideband. -/
def execDfrz (who : Requester) (k : Fin 3) (v : BitVec 32) (s : State) : Host.Outcome State Fault Refusal :=
  .next (if mayTrigger s who true then writeDfrz s k.val v else s)

/-- FREEZE_TIMEOUT (R313). -/
def freezeTimeout (s : State) (g : Nat) : State :=
  if bit g s.arbs.dfrz then event { s with arbs := { s.arbs with dfrz := bset g 1 s.arbs.dfrz 0, frzto := bset g 1 s.arbs.frzto 1 } } [qFW, qSB] 0x4005 g 0 else s

def execFreezeTimeout (g : Nat) (s : State) : Host.Outcome State Fault Refusal := .next (freezeTimeout s g)

/-- DRAINED of a group (R312): frozen, and no class other than REF holds a grant in it. -/
def groupDrained (s : State) (g : Nat) : Bool :=
  bit g s.arbs.dfrz && (List.range 32).all (fun i => match (getArb s (32 * g + i)).holder with | some c => c == 12 | none => true)

/-! ## Snapshots (R314, R315, R578) -/

/-- The selectors of a requester (R590). -/
def selsOf (s : State) (who : Requester) : Sels := if isSide who then s.mgmt.sb else s.mgmt.core

/-- The shadow of an arbiter: every class with its credit counter and weight. -/
def shadowOf (s : State) (a : Nat) : Arb :=
  let x := getArb s a
  (List.range 16).foldl (fun y c => setClass y c { getClass x c with used := 0, waits := [], credit := BitVec.ofNat 8 (creditNow s a x c), weight := BitVec.ofNat 8 (weightOf s (arbType a) c) }) { Arb.reset with classes := [] }

/-- The counters of a class cleared; what drives decisions stays. -/
def clearCounts (y : ArbClass) : ArbClass := { y with grants := 0, waitsum := 0, waitmax := 0, preempt := 0, dead := 0, cuts := 0, starve := 0 }

/-- SNAP of arbiter a, with CLR or without (R315). -/
def snapArb (s : State) (a : Nat) (clr : Bool) : State :=
  let s := { s with arbs := { s.arbs with shadow := sput none s.arbs.shadow a (some (shadowOf s a)) } }
  if clr then
    let x := getArb s a
    setArb s a ((List.range 16).foldl (fun y c => setClass y c (clearCounts (getClass y c))) x)
  else s

/-- A write of CCTL with SNAP, for the arbiter in the writer's CSEL. -/
def snapFor (s : State) (who : Requester) (clr : Bool) : State :=
  let a := (selsOf s who).csel.toNat
  if mayTrigger s who true && decide (a < 7251) then snapArb s a clr else s

def execSnap (who : Requester) (s : State) : Host.Outcome State Fault Refusal := .next (snapFor s who false)
def execClr (who : Requester) (s : State) : Host.Outcome State Fault Refusal := .next (snapFor s who true)

/-- A waiting GSNAP latches every counter at the tick (R578). -/
def latchAll (s : State) : State :=
  if !s.events.gpend then s
  else
    let shadow := s.arbs.live.foldl (fun m e => sput none m e.1 (some (shadowOf s e.1))) []
    let weights := (List.range 80).foldl (fun m i => sput 0 m i (BitVec.ofNat 8 (weightOf s (i / 16) (i % 16)))) []
    let eqs := (List.range 10).foldl (fun m q => sput 0 (sput 0 (sput 0 m (4 * q) (getQueue s q).lost) (4 * q + 1) (getQueue s q).coal) (4 * q + 2) (getQueue s q).opened) []
    { s with arbs := { s.arbs with shadow := shadow, shadowW := weights },
             events := { s.events with gpend := false, gtime := s.clock.time, gseq := s.events.gseq + 1, snap := s.mgmt.counters, snapEq := eqs } }

/-! ## Live share tables (R308 to R310) -/

/-- The weights in force with table t replaced by its pending ones. -/
def pendingIn (s : State) (t : Nat) : Sparse (BitVec 8) :=
  (List.range 16).foldl (fun m c => sput 0 m (16 * t + c) (sget 0 s.str.wpend (16 * t + c))) s.str.wact

/-- The role of a port in force. -/
def roleNow (s : State) (p : Nat) : Nat := roleOf (sget 0 s.prot.prole p)

/-- SCTL REJ of table t is set. -/
def shareRej (s : State) (t : Nat) : State := { s with str := { s.str with srej := bset t 1 s.str.srej 1 } }

/-- COMMIT of table t (R309, R310): refused while one waits for its tick, or where the weights break R308; else its record
enters the journal buffer and the pending weights wait for the tick. -/
def commitShare (s : State) (t : Nat) : State :=
  if bit t s.str.spend then shareRej s t
  else if !shareOk s.str.stmap (pendingIn s t) (roleNow s) t then
    shareRej { s with str := { s.str with cstat := sput 0 s.str.cstat t 13 } } t
  else
    let data := (List.range 16).map (fun c => sget 0 s.str.wpend (16 * t + c))
    let (ok, s1) := jAdmit s [[.live 5 (16 * t) s.boot.strver data]]
    if !ok then shareRej s1 t
    else
      let s := (jCommit s1 [.live 5 (16 * t) s1.boot.strver data] true).2
      { s with str := { s.str with spend := bset t 1 s.str.spend 1, cstat := sput 0 s.str.cstat t 0 } }

/-- COMMIT: by the cores only (R316). -/
def execCommit (who : Requester) (t : Fin 8) (s : State) : Host.Outcome State Fault Refusal :=
  .next (if mayTrigger s who false then commitShare s t.val else s)

/-- At the tick, committed tables become active, and the save table with the first tick of a save (R309, R311). -/
def switchTables (s : State) : State :=
  { s with str := { s.str with wact := committedWeights s, spend := 0, saveTable := saveRuns s } }

/-- Every credit counter is set to its weight (R300). -/
def refillAll (s : State) : State :=
  { s with arbs := { s.arbs with live := s.arbs.live.foldl (fun m e => sput .reset m e.1 { e.2 with classes := e.2.classes.foldl (fun n c => sput .reset n c.1 { c.2 with used := 0 }) [] }) [] } }

/-- A new stroke of credit pacing (R280): the limit of every partner port whose domain is on. -/
def paceAll (s : State) : State :=
  let lim := BitVec.ofNat 11 (paceLimit (bandInForce s) s.power.vfact.toNat)
  (List.range 8).foldl (fun s p => if (getPort s p).st = pOFF then s else modPort s p (fun x => { x with credlim := lim, strokeRet := 0 })) s

end Sys2Proof.Machine
end

