-- ==== Sys2Proof/Machine/Tally.lean ====
section
/-! DEFINITION. The tally of shared pools: counts, audits, samples, the warm reset after a violation (R323 to R328). -/

namespace Sys2Proof.Machine

open Sys2Proof

/-- The classes of pool type 0x4, by k. -/
def heldClass (k : Nat) : Option Nat := [cEVT, cBULK, cNOTE][k]?
/-- Credits that the partner grants, as granted after HELLO. R323 splits the states for type 0x3 alone: of type 0x4 the model counts
a credit that may be spent as free and a spent one as held (DESIGN CHOICE, log entry 132). -/
def heldCounts (x : Port) (c : Nat) : Counts := let h := getHeld x c; ⟨h.avail, h.cap - h.avail, 0, h.cap⟩

/-- Units of the journal buffer that frames take: a closed frame takes its whole page. -/
def journalUnits (s : State) : Nat := s.journal.frames.foldl (fun n f => n + (if f.closed then 256 else f.used)) 0

/-- Reservations of blocks that the searches of a port's incarnation hold (R112, R327). -/
def resvOf (s : State) (p : Nat) : Nat :=
  s.search.tokens.foldl (fun n e => match e.2 with | some tk => if tk.eng = p ∧ tk.incarn = (getPort s p).incarn then n + tk.resv.length else n | none => n) 0

/-- Event queue slots: held until sent, in flight until credited (R565, R566). -/
def queueCounts (s : State) (q : Nat) : Counts :=
  let rs := (getQueue s q).recs
  countsOf 4096 (rs.filter (fun r => !r.sent)).length (rs.filter (fun r => r.sent)).length

/-- The counts of the pool with an id; none for an id that names no pool (R323). -/
def poolCounts (s : State) (id : Nat) : Option Counts :=
  let i := id % 4096
  match id / 4096 with
  | 0 => if i < 8 then some (countsOf 4096 (getPort s i).tags.length 0) else none
  | 1 => if i < 8 then some (countsOf 1024 (getPort s i).ctags.length 0) else none
  | 2 => if i < 8 then some (countsOf 8 (getPort s i).exch.length 0) else none
  | 3 => if i < 64 then (grantClass (i % 8)).map (fun c => grantCounts (getPort s (i / 8)) c.1 c.2) else none
  | 4 => if i < 64 then (heldClass (i % 8)).map (heldCounts (getPort s (i / 8))) else none
  | 5 => if i < 11 then some (countsOf (if i < 8 then 8192 else 2048) (tokensOf s i (fun _ => true)) 0) else none
  | 6 => if i < 8 then some (countsOf 8 (((List.range 8).map (8 * i + ·)).filter (fun g => (getGate s g).st != .free)).length 0) else none
  | 7 => if i < 2112 then some (countsOf 2 (2 - freeSels s (logicalOf s i)) 0) else none
  | 8 => if i = 0 then some (countsOf 524288 (journalUnits s) 0) else none
  | 9 => if i < 8 then some (countsOf 1024 (inhand s i).length (resvOf s i)) else none
  | 10 => if i < 10 then some (queueCounts s i) else none
  | 11 => some (countsOf 1 (if (getArb s i).holder.isSome then 1 else 0) 0)
  | 12 => if i < 3155 then some (countsOf 1 (if (getArb s (4096 + i)).holder.isSome then 1 else 0) 0) else none
  | 13 =>
    if i < 24 then
      let x := getPort s (8 + i / 8)
      if i % 8 = 6 then some (countsOf 2048 x.fwdTags.length 0)
      else if i % 8 = 7 then some (countsOf 2048 x.probeTags.length 0)
      else (cascadeClass (i % 8)).map (fun c => grantCounts x c.1 c.2)
    else none
  | _ => none

/-- Pools whose counts could break the invariant; gates, selectors and arbiter grants hold it by their form (types 0x6,
0x7, 0xB and 0xC). -/
def auditedPools : List Nat :=
  [(0, 8), (1, 8), (2, 8), (3, 64), (4, 64), (5, 11), (8, 1), (9, 8), (10, 10), (13, 24)].flatMap (fun p => (List.range p.2).map (4096 * p.1 + ·))

/-- The first pool that breaks the invariant. -/
def brokenPool (s : State) : Option (Nat × Counts) :=
  auditedPools.findSome? (fun id => match poolCounts s id with | some c => if c.ok then none else some (id, c) | none => none)

/-- A full audit (R325). -/
def auditAll (s : State) : State :=
  let s := match brokenPool s with | some (id, c) => violation s id c | none => s
  { s with tally := { s.tally with audits := s.tally.audits + 1 } }

/-- AUDIT (R325, R328): by the cores and the sideband. -/
def execAudit (who : Requester) (s : State) : Host.Outcome State Fault Refusal := .next (if mayTrigger s who true then auditAll s else s)

/-- TVAL of the copy that a requester uses takes four words (R590). -/
def setTval (s : State) (side : Bool) (ws : List Reg) : State :=
  if side then { s with tally := { s.tally with tvalS := ws } } else { s with tally := { s.tally with tvalC := ws } }

/-- TSNAP (R328, R590): the pool in the writer's TSEL is sampled into its own TVAL; an id that names no pool samples zeros. -/
def sampleFor (s : State) (who : Requester) : State :=
  setTval s (isSide who) (match poolCounts s (selsOf s who).tsel.toNat with | some c => countWords c | none => [0, 0, 0, 0])

def execTsnap (who : Requester) (s : State) : Host.Outcome State Fault Refusal := .next (if mayTrigger s who true then sampleFor s who else s)

/-- AUTOWARM (R326): Waitos freezes the trace ring and performs a warm reset. -/
def execAutowarm (s : State) : Host.Outcome State Fault Refusal :=
  .next (if s.tally.viol && s.tally.autowarm && maintains s then warmReset { s with events := { s.events with frozen := true } } false else s)

end Sys2Proof.Machine
end

