-- ==== Sys2Proof/Machine/Crew.lean ====
section
/-! DEFINITION. The crew: forwarded searches and probes, crew notes, readiness, REBALANCE, crew resets (R329 to R362). -/

namespace Sys2Proof.Machine

open Sys2Proof

/-! ## Requests of other dies (R337, R338, R341, R345, R346) -/

/-- A forward or probe tag of an origin that a token of cascade engine p still answers. -/
def crewTagBusy (s : State) (p : Nat) (probe : Bool) (tag origin : Nat) : Bool :=
  s.search.tokens.any (fun e => match e.2 with
    | some tk => decide (tk.eng = p) && decide (tk.ph ≠ .answered) && decide (tk.incarn = (getPort s p).incarn) &&
        (match tk.kind with
         | .fwdd _ g o _ => !probe && decide (g = tag ∧ o = origin)
         | .probed _ g o _ => probe && decide (g = tag ∧ o = origin)
         | .partner => false)
    | none => false)

/-- A forward or probe tag that comes while it is in use: the message is discarded, counted and reported (R25, R363). -/
def crewDup (s : State) (p tag : Nat) : State := event (countPort s p 2 1) (portOwner p) 0x1001 p tag

/-- The buffer that a forwarded search runs in (R138): the active one, or the other one while tokens hold it. -/
def bufferOf (s : State) (n : Nat) (ver : BitVec 16) : Option Nat :=
  let f := activeBuf s n
  let held := s.search.tokens.any (fun e => match e.2 with | some tk => decide (tk.profile = n ∧ tk.buf = 1 - f) && !isProbed tk | none => false)
  if hVer (header s n f) = ver then some f
  else if held && hVer (header s n (1 - f)) == ver then some (1 - f)
  else none

/-- The token of a forwarded search (R337). -/
def fwdToken (s : State) (p f : Nat) (x y : Slot) : Token :=
  let n := qProfile x
  let cx : Word := bf 64 64 y
  let lk := fieldMap s n f (qKey x) cx
  { Token.blank with eng := p, kind := .fwdd p (bn 16 11 x) (bn 48 2 x) (bit 14 x), incarn := (getPort s p).incarn, profile := n, buf := f,
                     ver := bf 32 16 x, gen := s.search.gen, key := qKey x, cx := cx, lk0 := lk.1, lk1 := lk.2,
                     steps := List.replicate 4 .blank, lowv := lowV s, t0 := now s, nosample := qNosample x }

/-- FWD (R337, R338, R345): the forwarded search at the head of cascade port k takes a token and starts at level 0 or 1; it
waits while the engine's 1,536 tokens are taken. -/
def takeFwd (s : State) (k : Nat) : State :=
  let p := 8 + k
  match sget [] (getPort s p).ingress cFWD with
  | x :: y :: _ =>
    let tag := bn 16 11 x
    let origin := bn 48 2 x
    let pop := fun (s : State) => takeHead (takeHead s p cFWD) p cFWD
    if !admitting s then s
    else if crewTagBusy s p false tag origin then crewDup (pop s) p tag
    else if 1536 ≤ tokensOf s p (fun tk => !isProbed tk) then s
    else
      let s1 := countPort (pop s) p 0 1
      match bufferOf s (qProfile x) (bf 32 16 x) with
      | none => sendBy s1 p origin [fansSlot .staleVersion 0 tag 0 0 0 0]
      | some f =>
        let keys := profKeys (qProfile x) f
        if profBad s (qProfile x) f then sendBy (keys.foldl touchQ s1) p origin [fansSlot .internal 0 tag 0 0 0 0]
        else
          let tk := fwdToken s p f x y
          let (n, s2) := addTok (keys.foldl touch s1) tk
          startLevels s2 n tk (if bit 14 x then 0 else 1)
  | _ => s

def execFwd (k : Fin 3) (s : State) : Host.Outcome State Fault Refusal := .next (takeFwd s k.val)

/-- PROBE (R341, R345): the probe at the head of cascade port k takes a token and runs one MATCH; it waits while the
engine's 512 tokens are taken. Like every token it latches the composer generation, though it runs no composer, and so holds
that generation until it retires (DESIGN CHOICE, log entry 117). -/
def takeProbe (s : State) (k : Nat) : State :=
  let p := 8 + k
  match ingressHead s p cPROBE with
  | none => s
  | some x =>
    let tag := bn 16 11 x
    let origin := bn 32 2 x
    if !admitting s then s
    else if crewTagBusy s p true tag origin then crewDup (takeHead s p cPROBE) p tag
    else if 512 ≤ tokensOf s p isProbed then s
    else
      let tk := { Token.blank with eng := p, kind := .probed p tag origin (bn 8 5 x), incarn := (getPort s p).incarn, key := qKey x, lk0 := qKey x,
                                   gen := s.search.gen, steps := [.blank], t0 := now s }
      let (n, s1) := addTok (takeHead s p cPROBE) tk
      startLevels s1 n tk 0

def execProbe (k : Fin 3) (s : State) : Host.Outcome State Fault Refusal := .next (takeProbe s k.val)

/-! ## Answers of other dies (R114, R138, R341, R347) -/

/-- A status that rule 7 of R122 gives, and no rule before it. -/
def isComposed (st : Status) : Bool := [.ok, .miss, .deny, .exhausted, .stillReferenced].contains st

/-- The answer of a forwarded search ends it: the peer's status and result words, with the step-hit bit of a ROUTE step that ran
here, and this die's end-of-life advisory where the status comes from rule 7 (R124). FWD is clear where the peer found no buffer of
the search's VER and so ran nothing; any other answer counts as a run (R125, R138; log entry 128). -/
def fansTo (s : State) (tk : Token) (x : Slot) : Token :=
  let st := statusOf (bn 8 4 x)
  { tk with ph := .resolved, st := st, hits := hitMask tk ||| bf 12 4 x, w0 := bf 64 64 x, w1 := bf 128 64 x,
            w2 := if isComposed st then withAdvisory s tk (bf 192 64 x) else bf 192 64 x,
            rsv := tk.rsv || bit 32 x, fwdFlag := decide (st ≠ .staleVersion), away := none }

/-- FANS (R347): the answer at the head of cascade port k is delivered to its token; a late one is discarded and counted.
Its tag is free. -/
def takeFans (s : State) (k : Nat) : State :=
  let p := 8 + k
  match ingressHead s p cFANS with
  | none => s
  | some x =>
    let s := takeHead s p cFANS
    let tag := bn 16 11 x
    match (getPort s p).fwdTags.find? (fun e => e.1 = tag) with
    | none => countPort s p 8 1
    | some (_, n) =>
      let s := modPort s p (fun y => { y with fwdTags := y.fwdTags.filter (fun e => e.1 ≠ tag) })
      match getTok s n with
      | some tk => if tk.ph = .away ∧ tk.away = some (tag, p) then setTok s n (some (fansTo s tk x)) else countPort s p 8 1
      | none => countPort s p 8 1

def execFans (k : Fin 3) (s : State) : Host.Outcome State Fault Refusal := .next (takeFans s k.val)

/-- PANS (R341, R347): the answer at the head of cascade port k is combined into its step; a late one is discarded and
counted. Its tag is free. A share answered LATE gives the step nothing, and the search's own watchdog ends it. -/
def takePans (s : State) (k : Nat) : State :=
  let p := 8 + k
  match ingressHead s p cPANS with
  | none => s
  | some x =>
    let s := takeHead s p cPANS
    let tag := bn 16 11 x
    match (getPort s p).probeTags.find? (fun e => e.1 = tag) with
    | none => countPort s p 8 1
    | some (_, n, w) =>
      let s := retryAll (modPort s p (fun y => { y with probeTags := y.probeTags.filter (fun e => e.1 ≠ tag) }))
      let st := statusOf (bn 8 4 x)
      let share : Share := { tag := bn 32 7 x, rank := w % 4, addr := bn 40 24 x, half := bn 39 1 x, rword := bf 64 64 x }
      match getTok s n with
      | some tk =>
        if tk.ph = .running ∧ (stepAt tk (w / 4)).await.contains (w % 4) = true then
          (if st = .late then s else shareAnswers s n (w / 4) (w % 4) st (if st = .ok then some share else none) (bit 128 x))
        else countPort s p 8 1
      | none => countPort s p 8 1

def execPans (k : Fin 3) (s : State) : Host.Outcome State Fault Refusal := .next (takePans s k.val)

/-! ## REBALANCE messages (R354, R564) -/

/-- The partners of this die: the ports with the partner role (R296). -/
def partnersOf (s : State) : List Nat := (List.range 8).filter (fun p => roleNow s p == 1)

/-- REBAL_STATE goes to every partner of this die (R354, R564). R354 sends the ranks too and R564 gives them no bits: they stand
above the cursor in DETAIL, the source in [11:10] and the destination in [13:12] (DESIGN CHOICE, log entry 116). -/
def rebalEvent (s : State) : State :=
  event s (partnersOf s) 0x3003 s.crew.gran.toNat (s.crew.phase.toNat + 8 * s.crew.cursor.toNat + 1024 * s.crew.src.toNat + 4096 * s.crew.dst.toNat)

/-- Progress of the operation (R547). -/
def rebalProgress (s : State) : State :=
  let w : Word := bput 64 0 (s.crew.phase.toNat + 8 * s.crew.cursor.toNat)
  match getOp s s.crew.handle with
  | some x => if x.cmd = 0x0701 ∧ opRuns x = true then setOp s s.crew.handle (some { x with progress := w }) else s
  | none => s

/-- REBAL with this die's REBALANCE as it stands (R343). -/
def rebalNote (s : State) : Slot :=
  let c := s.crew
  note 0x12 [(64, c.phase.toNat), (72, c.src.toNat), (80, c.dst.toNat), (96, c.gran.toNat), (128, c.part.toNat), (160, c.cursor.toNat), (192, s.journal.last.toNat)]

/-- REBAL_ACK of a phase (R343). -/
def rebalAckNote (s : State) (ph : Nat) : Slot := note 0x13 [(64, ph), (192, s.journal.last.toNat)]

/-- A set of ranks. -/
def rankSet (rs : List Nat) : BitVec 4 := rs.foldl (fun (m : BitVec 4) r => m ||| (1 <<< r)) 0

/-- REBAL is sent to ranks whose acknowledgement is then awaited. -/
def sendRebal (s : State) (rs : List Nat) : State :=
  rs.foldl (fun s r => sendRank s r [rebalNote s]) { s with crew := { s.crew with await := rankSet rs } }

/-- The phase, or the cursor with it, changes by a step of REBALANCE: its record, then the state, its event to this die's
partners and its progress. -/
def rebalPhase (s : State) (ph cur : Nat) (f : State → State) : State :=
  rebalStep s (numSet (numSet (rebalNums s) 0 ph) 3 cur) (fun s => f (rebalProgress (rebalEvent s)))

/-- The entries of the switch stand in RTE: G → b and G′ → a, with TAG 26 (R354 step 5). -/
def rebalRouted (s : State) : Bool :=
  let c := s.crew
  rteHas s c.gran.toNat && rteHas s c.part.toNat && rteOwner s c.gran.toNat == some c.dst.toNat && rteOwner s c.part.toNat == some c.src.toNat

/-- Waitos writes the entries that are still missing; a write that must wait is tried again (R336, R354 step 5). -/
def rebalWrite (s : State) : State :=
  let c := s.crew
  let put := fun (s : State) (g r : Nat) => if rteHas s g && rteOwner s g == some r then s else (writeRte s g r).getD s
  put (put s c.gran.toNat c.dst.toNat) c.part.toNat c.src.toNat

/-- The switch on a die that is not the coordinator: entries written, then acknowledged; a die that is neither a nor b has
nothing more to do (R354 step 5). -/
def rebalSwitchHere (s : State) : State :=
  let s := rebalWrite s
  if !rebalRouted s then s
  else
    let s := sendRank s s.crew.src.toNat [rebalAckNote s 3]
    if rank s = s.crew.dst.toNat then s else rebalIdle s

/-- Step 6: every other die has acknowledged and this die routes by the new entries too: SWITCHED (R354). -/
def rebalSwitched (s : State) : State :=
  let s := rebalWrite s
  if s.crew.await = 0 ∧ rebalRouted s = true then
    rebalPhase s 4 64 (fun s => sendRebal { s with crew := { s.crew with switchedAt := now s } } [s.crew.dst.toNat])
  else s

/-- Step 4: the SWITCH intent is journaled and every die is told (R354). -/
def rebalSwitch (s : State) : State := rebalPhase s 3 64 (fun s => rebalSwitched (sendRebal s (otherRanks s)))

/-- Steps 8 and 9: this die's partners have acknowledged RETIRE: its rows of G are dropped, and once none is left DONE is journaled
(R354); what must wait is tried again. After a reset the operation ends under handle 0 (R525). -/
def rebalFinish (s : State) : State :=
  let s := dropGranule s s.crew.gran.toNat
  let b := s.crew.dst.toNat
  let h := s.crew.handle
  if !granClear s s.crew.gran.toNat then s
  else rebalPhase s 0 0 (fun s =>
    let s := sendRank s b [rebalNote s]
    let s := { s with crew := { s.crew with await := 0, retireAcks := 0, retireSent := false, handle := 0 } }
    if h = 0 then event s [qSB] 0x2007 (4096 * 0x0701) s.crew.gran.toNat else endOp s h 0 0)

/-- All of this die's partners have acknowledged RETIRE. -/
def retireAll (s : State) : Bool := (partnersOf s).all (fun p => bit p s.crew.retireAcks)

/-- A rank acknowledges the phase that the coordinator waits in (R354). -/
def rebalAcked (s : State) (r ph : Nat) : State :=
  if rank s ≠ s.crew.src.toNat ∨ ph ≠ s.crew.phase.toNat ∨ bit r s.crew.await = false then s
  else
    let s := { s with crew := { s.crew with await := bset r 1 s.crew.await 0 } }
    if ph = 2 then rebalSwitch s
    else if ph = 3 then rebalSwitched s
    else if ph = 5 then
      let s := { rebalEvent s with crew := { s.crew with retireSent := true, retireAcks := 0 } }
      if retireAll s then rebalFinish s else s
    else s

/-- What b checks before it joins a COPY: it takes part in no other REBALANCE, its rows of G′ are idle, no window covers G′,
and RTE has room (R353). -/
def rebalJoinOk (s : State) (g h : Nat) : Bool :=
  decide (s.crew.phase = 0) && granIdle s h && !winCovers s h && rteRoom s g h

/-- How a die answers the coordinator's question whether a REBALANCE of G against G′ to rank b may begin (R353): 0 it may, 6 no
room in RTE, 7 refused for another reason. R343 names no such question: it goes as a REBAL of phase 0, and the answer comes in
the phase of a REBAL_ACK (DESIGN CHOICE, log entry 76). -/
def rebalVerdict (s : State) (b g h : Nat) : Nat :=
  if s.crew.phase ≠ 0 ∨ winCovers s h = true ∨ (b = rank s ∧ granIdle s h = false) then 7
  else if !rteRoom s g h then 6
  else 0

/-- A REBAL note from the coordinator (R354). -/
def rebalNoteIn (s : State) (x : Slot) : State :=
  let ph := bn 64 8 x
  let a := bn 72 8 x
  let b := bn 80 8 x
  let g := bn 96 26 x
  let h := bn 128 26 x
  let cur := bn 160 8 x
  let mine := decide (s.crew.gran.toNat = g ∧ s.crew.part.toNat = h ∧ s.crew.src.toNat = a ∧ s.crew.dst.toNat = b)
  let ack := fun (s : State) => sendRank s a [rebalAckNote s ph]
  let begin_ := fun (s : State) (f : State → State) => rebalStep s [ph, a, b, cur, g, h, s.clock.time.toNat] f
  if a = rank s then s
  else if ph = 0 ∧ (s.crew.phase = 0 ∨ mine = false) then sendRank s a [rebalAckNote s (rebalVerdict s b g h)]
  else if ph = 3 then
    if s.crew.phase = 3 ∧ mine = true then rebalSwitchHere s
    else if s.crew.phase = 0 ∨ mine = true then begin_ s (fun s => rebalSwitchHere (if rank s = b then rebalEvent s else s))
    else s
  else if b ≠ rank s then s
  else if s.crew.phase = 0 then
    if ph = 1 ∧ cur = 0 then (if rebalJoinOk s g h then begin_ s (fun s => ack (rebalEvent s)) else s)
    else begin_ s (fun s => ack (rebalEvent s))
  else if !mine then s
  else if ph = 0 then rebalPhase s 0 0 (fun s => { s with crew := { s.crew with await := 0, retireAcks := 0, retireSent := false } })
  else if s.crew.phase.toNat = ph ∧ s.crew.cursor.toNat = cur then
    if ph = 5 then (if retireAll s then ack s else s) else ack s
  else if ph = 5 then rebalPhase s 5 cur (fun s =>
    let s := { s with crew := { s.crew with retireAcks := 0, retireSent := true } }
    if retireAll s then ack s else s)
  else rebalPhase s ph cur ack

/-- A crew note of an opcode at the head of a cascade port, and the state without it. -/
def crewNote (s : State) (k op : Nat) : Option (Slot × State) :=
  match ingressHead s (8 + k) cNOTE with
  | some x => if bn 8 8 x = op then some (x, trace (takeHead s (8 + k) cNOTE) 9) else none
  | none => none

/-- A REBAL note that may make a step waits while the journal takes no record (R354, R439). -/
def rebalTakes (s : State) (x : Slot) : Bool := (decide (bn 64 8 x = 0) && decide (s.crew.phase = 0)) || (jAdmit s [[rebalRec (rebalNums s)]]).1

/-- REBAL: the note at the head of cascade port k. -/
def execRebal (k : Fin 3) (s : State) : Host.Outcome State Fault Refusal :=
  .next (match crewNote s k.val 0x12 with
    | some (x, s1) => if rebalTakes s x then rebalNoteIn s1 x else s
    | none => s)

/-- The rank that an acknowledgement on cascade port p comes from: the rank behind the port when it is awaited, else the lowest
awaited rank that this die reaches through that port (R358). -/
def ackRank (s : State) (await : BitVec 4) (p : Nat) : Nat :=
  let r := rankAt s p
  if bit r await then r
  else ((otherRanks s).find? (fun t => bit t await && decide (pathTo s t = some p))).getD r

/-! ## REBAL_REPORT (R548), and the reports that wait for b's acknowledgement -/

/-- REBAL_REPORT of partner p: kind 0 reports row k as copied; it is answered once b has acknowledged the cursor. Kind 1
acknowledges RETIRE (R354, R548). -/
def rebalReport (p : Nat) (s : State) (ps : List Byte) : Executed :=
  let c := s.crew
  let kind := natAt ps 0 1
  let row := natAt ps 1 1
  let a := decide (rank s = c.src.toNat)
  if c.phase = 0 then (some (.of .malformed), s)
  else if kind = 0 then
    if a = false ∨ 3 < c.phase.toNat then (some (.of .malformed), s)
    else if c.await ≠ 0 ∧ c.phase.toNat < 3 then (none, s)
    else if row < c.cursor.toNat then (some (.ok []), s)
    else if c.cursor.toNat < row then (some ⟨.staleVersion, false, 0, bytesOfNat 1 c.cursor.toNat⟩, s)
    else
      let s1 := rebalPhase s (if row = 63 then 2 else 1) (row + 1) (fun s => sendRebal s [s.crew.dst.toNat])
      if s1.crew.cursor = c.cursor then (some (.busy 7 0), s1) else (none, s1)
  else if c.phase = 5 ∧ c.retireSent = true then
    let s := { s with crew := { s.crew with retireAcks := bset p 1 s.crew.retireAcks 1 } }
    if retireAll s then
      if a then (some (.ok []), rebalFinish s) else (some (.ok []), sendRank s c.src.toNat [rebalAckNote s 5])
    else (some (.ok []), s)
  else (some (.of .malformed), s)

/-- REBAL_REPORT executed for a requester. -/
def runReport (s : State) (w : Client) : State :=
  runReq s w 0x0702 (· == 2) (fun ps => decide (natAt ps 0 1 ≤ 1 ∧ natAt ps 1 1 < 64)) (rebalReport (clientCode w))

def execRebalReport (w : Client) (s : State) : Host.Outcome State Fault Refusal := .next (runReport s w)

/-- A report of the row that the cursor has just passed, at the head of a partner's queue. -/
def reportWaits (s : State) (p : Fin 8) : Bool :=
  match reqsOf s (.port p) with
  | r :: _ => decide (rCmd r = 0x0702 ∧ natAt (rParams r) 0 1 = 0 ∧ natAt (rParams r) 1 1 + 1 = s.crew.cursor.toNat)
  | [] => false

/-- Reports that waited for b's acknowledgement are answered (R548). -/
def answerReports (s : State) : State :=
  (List.finRange 8).foldl (fun s p => if (s.crew.await = 0 ∨ 3 ≤ s.crew.phase.toNat) ∧ reportWaits s p = true then runReport s (.port p) else s) s

/-! ## REBAL_BEGIN (R353, R354, R547) -/

/-- G′ of a granule: a granule of the same DPA[46:30] that rank b owns; the first one is taken (R353). -/
def partnerGran (s : State) (g b : Nat) : Option Nat :=
  ((List.range 512).map (fun i => i * 2 ^ 17 + g % 2 ^ 17)).find? (fun h => decide (h ≠ g ∧ rteOwner s h = some b))

/-- The coordinator asks every other die (R353). -/
def rebalAskAll (s : State) (g h b : Nat) : State :=
  let q := note 0x12 [(72, rank s), (80, b), (96, g), (128, h)]
  (otherRanks s).foldl (fun s r => sendRank s r [q]) { s with crew := { s.crew with ask := some ⟨g, b, rankSet (otherRanks s), 0⟩ } }

/-- BEGIN is journaled and b is told (R354 step 1). -/
def rebalStart (s : State) (w : Client) (g h b : Nat) : Executed :=
  let v := [1, rank s, b, 0, g, h, s.clock.time.toNat]
  if !(jAdmit s [[rebalRec v]]).1 then (some (.busy 6 0), s)
  else startReply s 0x0701 (clientCode w) (6, 0) (fun n s =>
    rebalStep s v (fun s => sendRebal (rebalProgress (rebalEvent { s with crew := { s.crew with handle := n } })) [b]))

/-- REBAL_BEGIN (R353, R547): this die's own checks, then every other die's; the request waits for their answers. -/
def rebalBegin (s : State) (w : Client) (g b : Nat) : Executed :=
  let a := rank s
  let idle := { s with crew := { s.crew with ask := none } }
  if rteOwner s g ≠ some a then (some ⟨.malformed, false, (rteOwner s g).getD 0, []⟩, s)
  else
    match heldBusy s (6, 0) with
    | some x => (some x, s)
    | none =>
      match partnerGran s g b with
      | none => (some (.busy 7 0), s)
      | some h =>
        if s.crew.phase ≠ 0 ∨ b = a ∨ (otherRanks s).any (fun r => !reaches s r) = true ∨ winCovers s h = true ∨ granMigrating s g = true then (some (.busy 7 0), idle)
        else if !rteRoom s g h then (some (.of .noRoom), idle)
        else
          match s.crew.ask with
          | none => (none, rebalAskAll s g h b)
          | some q =>
            if q.gran ≠ g ∨ q.dst ≠ b then (some (.busy 7 0), s)
            else if q.wait ≠ 0 then (none, s)
            else if q.verdict = 6 then (some (.of .noRoom), idle)
            else if q.verdict ≠ 0 then (some (.busy 7 0), idle)
            else rebalStart idle w g h b

/-- REBAL_BEGIN executed for a requester. -/
def runBegin (s : State) (w : Client) : State :=
  runReq s w 0x0701 (· == 5) (fun ps => decide (natAt ps 0 4 < 2 ^ 26 ∧ natAt ps 4 1 < 4)) (fun s ps => rebalBegin s w (natAt ps 0 4) (natAt ps 4 1))

def execRebalBegin (w : Client) (s : State) : Host.Outcome State Fault Refusal := .next (runBegin s w)

/-- The requesters whose REBAL_BEGIN stands first and asks for what the coordinator has asked. -/
def beginWaits (s : State) (q : RebalAsk) (w : Client) : Bool :=
  match reqsOf s w with
  | r :: _ => decide (rCmd r = 0x0701 ∧ natAt (rParams r) 0 4 = q.gran ∧ natAt (rParams r) 4 1 = q.dst)
  | [] => false

/-- An answer of rank r to the coordinator's question; with the last one the request that waits goes on (R353). -/
def rebalAnswer (s : State) (q : RebalAsk) (r v : Nat) : State :=
  let q := { q with wait := bset r 1 q.wait 0, verdict := max q.verdict v }
  let s := { s with crew := { s.crew with ask := some q } }
  if q.wait ≠ 0 then s
  else
    match ((List.finRange 8).map Client.port ++ [Client.sb]).find? (beginWaits s q) with
    | some w => runBegin s w
    | none => s

/-- REBAL_ACK: the note at the head of cascade port k. -/
def execRebalAck (k : Fin 3) (s : State) : Host.Outcome State Fault Refusal :=
  .next (match crewNote s k.val 0x13 with
    | some (x, s) =>
      let v := bn 64 8 x
      match s.crew.ask with
      | some q =>
        if v = 0 ∨ v = 6 ∨ v = 7 then rebalAnswer s q (ackRank s q.wait (8 + k.val)) v
        else answerReports (rebalAcked s (ackRank s s.crew.await (8 + k.val)) v)
      | none => answerReports (rebalAcked s (ackRank s s.crew.await (8 + k.val)) v)
    | none => s)

/-- REBAL_RETIRE (R354 step 7): the coordinator sends RETIRE, first to b's partners. -/
def execRebalRetire (s : State) : Host.Outcome State Fault Refusal :=
  .next (if s.crew.phase = 4 ∧ rank s = s.crew.src.toNat ∧ maintains s = true then
           rebalStep s (numSet (rebalNums s) 0 5) (fun s => sendRebal (rebalProgress { s with crew := { s.crew with retireAcks := 0, retireSent := false } }) [s.crew.dst.toNat])
         else s)

/-! ## Readiness and links (R350, R351, R358) -/

/-- The coordinator tells a rank again where the REBALANCE stands, when its acknowledgement is awaited (R357). -/
def rebalAgain (s : State) (r : Nat) : State :=
  if s.crew.phase ≠ 0 ∧ rank s = s.crew.src.toNat ∧ bit r s.crew.await = true then sendRank s r [rebalNote s] else s

/-- CREW_READY (R350, R351): rank 0's device time moves this die's forward; the sender takes part in routing. -/
def crewReadyIn (s : State) (x : Slot) : State :=
  let r := bn 128 2 x
  let t : Word := bf 64 64 x + 1000
  let s := if r = 0 ∧ rank s ≠ 0 ∧ s.clock.time.toNat < t.toNat then { s with clock := { s.clock with time := t } } else s
  tryReadyAll (rebalAgain { s with crew := { s.crew with readyFrom := bset r 1 s.crew.readyFrom 1 } } r)

def execCrewReady (k : Fin 3) (s : State) : Host.Outcome State Fault Refusal :=
  .next (match crewNote s k.val 0x10 with
    | some (x, s) => crewReadyIn s x
    | none => s)

/-- CREW_READY_TIMEOUT (R351): 100 ms have passed since the tables were restored. -/
def execCrewReadyTimeout (s : State) : Host.Outcome State Fault Refusal :=
  .next (if s.boot.phase = .ready then tryReadyAll { s with crew := { s.crew with timedOut := true } } else s)

/-- LINKS (R358): the active links of the rank behind cascade port k. -/
def execLinks (k : Fin 3) (s : State) : Host.Outcome State Fault Refusal :=
  .next (match crewNote s k.val 0x14 with
    | some (x, s) =>
      let r := rankAt s (8 + k.val)
      tryReadyAll (dropUnreached { s with crew := { s.crew with links := sput 0 s.crew.links r (bf 64 3 x), linksSeen := bset r 1 s.crew.linksSeen 1 } })
    | none => s)

/-- What the 1 ms period also serves: a step that the journal took no record of is made, a switch whose RTE writes had to wait goes
on, and so does the clearing of G's rows (R354 steps 4, 5 and 8). -/
def rebalPoll (s : State) : State :=
  if s.crew.phase = 5 ∧ rank s = s.crew.src.toNat ∧ s.crew.await = 0 ∧ s.crew.retireSent = true ∧ retireAll s = true ∧ maintains s = true then rebalFinish s
  else if s.crew.phase = 2 ∧ rank s = s.crew.src.toNat ∧ s.crew.await = 0 ∧ maintains s = true then rebalSwitch s
  else if s.crew.phase = 3 ∧ maintains s = true then
    if rank s = s.crew.src.toNat then rebalSwitched s
    else if rebalRouted s then s else rebalSwitchHere s
  else s

/-- LINKS_PERIOD (R358): LINKS every 1 ms on every active cascade port. -/
def execLinksPeriod (s : State) : Host.Outcome State Fault Refusal := .next (rebalPoll (sendLinks s))

/-! ## Crew resets (R352) -/

/-- A crew reset: a warm reset of this die, which a save under way holds off. -/
def crewReset (s : State) : State := if s.boot.phase = .ready ∧ s.holdup.ph = 0 then warmReset s true else s

/-- CREW_RESET (R352): the note at the head of cascade port k. -/
def execCrewReset (k : Fin 3) (s : State) : Host.Outcome State Fault Refusal :=
  .next (match crewNote s k.val 0x15 with
    | some (_, s) => crewReset s
    | none => s)

/-- The initiating die tells every active cascade port, then resets (R352). The note's reason, byte 8, for which R343 gives no
codes, is 0 (DESIGN CHOICE, log entry 131). -/
def startCrewReset (s : State) : State :=
  if s.boot.phase = .ready ∧ s.holdup.ph = 0 then
    crewReset (([8, 9, 10].filter (portActive s)).foldl (fun s q => send s q [note 0x15 []]) s)
  else s

/-- CREWRST (R352, R365): by the cores only. -/
def execCrewrst (who : Requester) (s : State) : Host.Outcome State Fault Refusal := .next (if mayTrigger s who false then startCrewReset s else s)

end Sys2Proof.Machine
end

