-- ==== Sys2Proof/Machine/EventCmds.lean ====
section
/-! DEFINITION. Reading and freeing event records, closing them, the trace ring's controls, and GSNAP (R566 to R569, R576 to R580, R590, R591). -/

namespace Sys2Proof.Machine

open Sys2Proof

/-- Management space answers: the management complex has power (R592). -/
def powered (s : State) : Bool := decide (s.boot.phase ≠ .off)

/-- RECORD_CLOSE (R568): the open records of a queue whose 10 ms have passed close. -/
def closeOld (s : State) (q : Nat) : State :=
  let x := getQueue s q
  setQueue s q { x with recs := x.recs.map (fun r => if r.seenAt + 10000000 ≤ now s then { r with isOpen := false } else r) }

def execRecordClose (q : Fin 10) (s : State) : Host.Outcome State Fault Refusal := .next (closeOld s q.val)

/-- The head record of a queue is read (R568): it closes, and R567 replaces it no more. -/
def readHead (s : State) (q : Nat) : State :=
  let x := getQueue s q
  match x.recs with
  | r :: rs => setQueue s q { x with recs := { r with isOpen := false, seen := true } :: rs }
  | [] => s

/-- A requester that may read EQHEAD: a core, the sideband, JTAG under a read grant; no partner (R591). -/
def headReader (s : State) (who : Requester) : Bool :=
  match who with
  | .core _ => true
  | .sb => true
  | .jtag => grantBit s 0
  | .port _ => false

/-- EQHEAD (R568, R591). -/
def execEqhead (who : Requester) (q : Fin 10) (s : State) : Host.Outcome State Fault Refusal :=
  .next (if powered s && headReader s who then readHead s q.val else s)

/-- A requester may pop a queue (R580): the cores queue 8, the sideband queue 9. -/
def mayPop (s : State) (who : Requester) (q : Nat) : Bool := (isCore who && decide (q = qFW)) || (sideWriter s who && decide (q = qSB))

/-- The head record leaves its queue when its QSEQ equals the value written (R580). -/
def popHead (s : State) (q : Nat) (v : Reg) : State :=
  let x := getQueue s q
  match x.recs with
  | r :: rs => if r.qseq = v then setQueue s q { x with recs := rs } else s
  | [] => s

/-- EQPOP (R580). -/
def execEqpop (who : Requester) (q : Fin 10) (v : BitVec 32) (s : State) : Host.Outcome State Fault Refusal :=
  .next (if powered s && mayPop s who q.val then popHead s q.val v else s)

/-- LCLR (R580): EQLOST and EQFIRST are cleared in one step. -/
def clearLost (s : State) (q : Nat) : State := setQueue s q { getQueue s q with lost := 0, first := 0 }

def execLclr (who : Requester) (q : Fin 10) (s : State) : Host.Outcome State Fault Refusal :=
  .next (if powered s && mayTrigger s who true then clearLost s q.val else s)

/-- GSNAP (R578, R579): the snapshot waits for the next tick; one that waits already is not disturbed. -/
def askSnap (s : State) : State := { s with events := { s.events with gpend := true } }

def execGsnap (who : Requester) (s : State) : Host.Outcome State Fault Refusal :=
  .next (if powered s && mayTrigger s who true then askSnap s else s)

/-- FREEZE (R576). -/
def setFreeze (s : State) (v : Bool) : State := { s with events := { s.events with frozen := v } }

def execFreeze (who : Requester) (v : Bool) (s : State) : Host.Outcome State Fault Refusal :=
  .next (if powered s && mayTrigger s who true then setFreeze s v else s)

/-- TRCLR (R580): the ring is emptied, if it is frozen. -/
def clearTrace (s : State) : State := if s.events.frozen then { s with events := { s.events with ring := [] } } else s

def execTrclr (who : Requester) (s : State) : Host.Outcome State Fault Refusal :=
  .next (if powered s && mayTrigger s who true then clearTrace s else s)

end Sys2Proof.Machine
end

