-- ==== Sys2Proof/Machine/RegRead.lean ====
section
/-! DEFINITION. The registers of management space as they read: where each stands, what its words show, and who may read it (R17, R513, R529, R577, R581 to R584, R590 to R598). -/

namespace Sys2Proof.Machine

open Sys2Proof

/-! ## Registers as words -/

/-- A register: the offset of its lowest word in its block, and its words. -/
abbrev RegAt := Nat × List Reg

/-- A register of n words, the lowest first. -/
def regN {m : Nat} (off n : Nat) (v : BitVec m) : RegAt := (off, (List.range n).map (fun i => bf (32 * i) 32 v))
def reg1 (off : Nat) (v : Reg) : RegAt := (off, [v])
def reg2 (off : Nat) (v : Word) : RegAt := regN off 2 v
/-- A register from fields of numbers, each at its bit. -/
def regF (off : Nat) (fields : List (Nat × Nat)) : RegAt := (off, [fields.foldl (fun (a : Reg) f => a ||| bput 32 f.1 f.2) 0])

/-- The register of a list that holds the word at an offset. -/
def findReg (r : Nat) (l : List RegAt) : Option RegAt := l.find? (fun e => decide (e.1 ≤ r ∧ r < e.1 + 4 * e.2.length))

/-- Counters of 64 bits from offset lo on, n of them; the first is the counter at aperture offset base. -/
def counters (s : State) (r lo n base : Nat) : Option RegAt :=
  if lo ≤ r ∧ r < lo + 8 * n then let i := (r - lo) / 8; some (reg2 (lo + 8 * i) (counter s (base + 8 * i))) else none

/-! ## Blocks (R581) -/

/-- Identity and boot status (R513). -/
def idRegs (s : State) (r : Nat) : Option RegAt :=
  let b := s.boot
  findReg r ([reg1 0x000 0x10738BCB, reg2 0x008 s.fuses.dieId,
    regF 0x010 [(0, rollbackCount s.fuses), (6, b2n s.fuses.key1Prog), (7, b2n s.fuses.revoke0), (8, b2n s.fuses.initDone)],
    regF 0x020 [(0, b.step.toNat), (4, b2n (b.phase == .ready)), (5, b2n (b.phase == .stopped)), (6, b.slot.toNat), (7, b2n b.first), (8, b.rejA.toNat), (12, b.rejB.toNat), (16, b.imgver.toNat)],
    regF 0x024 [(0, b.strver.toNat), (16, b.svn.toNat), (22, b2n b.key1)],
    regF 0x02C [(0, b.stop.toNat)], reg1 0x030 0, reg2 0x038 b.layout] ++
    (List.range 9).map (fun i => regF (0x040 + 4 * i) [(0, (b.bsteps.getD i 0).toNat)]) ++ [regF 0x064 [(0, b.rdytime.toNat)]])

/-- Lock and protection (R514). -/
def lockRegs (s : State) (r : Nat) : Option RegAt :=
  findReg r [regF 0x000 [(0, b2n s.prot.locked), (1, b2n s.dbg.granted), (2, b2n s.dbg.debugged)], reg1 0x004 0, regN 0x010 4 s.prot.ownmap,
    reg2 0x020 s.prot.plock, regF 0x030 [(0, s.prot.dbgpol.toNat)], regN 0x040 4 s.dbg.nonce, regF 0x050 [(0, s.dbg.scope.toNat)], reg2 0x058 s.dbg.exp,
    regN 0x100 64 s.prot.ksmap]

/-- The registers of port p (R296, R363). Of a port whose domain is off the fields read as after a cold reset (R592). -/
def portRegs (s : State) (p r : Nat) : Option RegAt :=
  let x := if (getPort s p).st = pOFF then Port.reset else getPort s p
  let role : Reg := if (getPort s p).st = pOFF then 0 else prole s p
  match counters s r 0x100 16 (0x020100 + 0x1000 * p) with
  | some e => some e
  | none =>
    findReg r [regF 0x000 [(0, x.st.toNat), (3, x.rate.toNat), (5, b2n x.ready), (6, b2n x.hold), (7, b2n (lowV s && x.st != pOFF)), (16, x.incarn.toNat)],
      regF 0x004 [(0, b2n x.calen)], regF 0x008 [(0, lanesUsed x false), (3, lanesUsed x true)], regF 0x00C [(0, x.credlim.toNat)], reg1 0x010 role]

/-- A set of ranks as a number. -/
def rankMask (p : Nat → Bool) : Nat := (List.range 4).foldl (fun n r => if p r then n + 2 ^ r else n) 0

/-- CREWSTAT (R364). -/
def crewStat (s : State) : RegAt :=
  let other := fun r => decide (r ≠ rank s ∧ r < crewSize s)
  regF 0x000 [(0, rank s), (2, crewSize s - 1), (4, rankMask (fun r => other r && (pathTo s r).isSome)), (8, rankMask (fun r => other r && direct s r)), (12, s.crew.readyFrom.toNat)]

/-- The crew block (R364). -/
def crewRegs (s : State) (z : Sels) (r : Nat) : Option RegAt :=
  let c := s.crew
  findReg r [crewStat s, regF 0x004 [(0, c.phase.toNat), (3, c.src.toNat), (5, c.dst.toNat), (7, c.cursor.toNat)],
    regF 0x008 [(0, c.gran.toNat)], regF 0x00C [(0, c.part.toNat)], reg2 0x010 c.start, reg2 0x018 s.str.routed, regF 0x020 [(0, z.shsel.toNat)],
    reg2 0x028 (if tCrew s z.shsel.toNat = 1 then sget 0 s.str.shareMaps z.shsel.toNat else 0), reg1 0x030 0]

/-- A table command register set (R188). -/
def setRegs (x : RegSet) (r : Nat) : Option RegAt :=
  findReg r [regF 0x000 [(0, x.opc.toNat), (8, x.tnum.toNat), (13, b2n x.half), (14, b2n x.replace), (15, b2n x.nochain)],
    regF 0x004 [(0, b2n x.busy), (1, b2n x.done), (2, b2n x.rejected), (4, x.st.toNat), (8, x.rflags.toNat)],
    regF 0x008 [(0, x.addr.toNat)], regF 0x00C [(0, x.pfx.toNat)], regN 0x010 6 x.key, regN 0x030 6 x.mask, reg2 0x050 x.result,
    reg2 0x058 (bf 0 64 x.opnd), reg2 0x060 (bf 64 64 x.opnd), reg2 0x068 (bf 128 64 x.opnd), reg2 0x070 (bf 192 64 x.opnd), reg2 0x080 x.jseq, regF 0x088 [(0, x.detail.toNat)]]

/-- The tally block (R327). -/
def tallyRegs (s : State) (side : Bool) (z : Sels) (r : Nat) : Option RegAt :=
  let t := s.tally
  let tv := if side then t.tvalS else t.tvalC
  let four := fun (l : List Reg) => (List.range 4).map (fun i => l.getD i 0)
  findReg r [regF 0x000 [(0, b2n t.viol), (1, b2n t.admstop), (16, t.poolId.toNat)], regF 0x004 [(1, b2n t.autowarm)], reg2 0x008 t.audits,
    (0x010, four t.vrec), regF 0x020 [(0, z.tsel.toNat)], reg1 0x024 0, (0x030, four tv)]

/-- The snapshot of arbiter a that the class window shows (R315, R578): a SNAP's, or the last GSNAP's; zero before any. -/
def shownArb (s : State) (a : Nat) : Arb :=
  match sget none s.arbs.shadow a with
  | some x => x
  | none => (List.range 16).foldl (fun y c => let w := sget 0 s.arbs.shadowW (16 * arbType a + c); setClass y c { getClass y c with credit := w, weight := w }) Arb.reset

/-- CINFO of arbiter a. -/
def cinfo (s : State) (a : Nat) : RegAt :=
  let x := getArb s a
  regF 0x0008 (if a < 7251 then [(0, arbType a), (3, tableOfType s (arbType a)), (6, x.holder.getD 0), (10, b2n x.holder.isSome), (11, b2n (!x.preempted.isEmpty)), (12, b2n x.cut)] else [])

/-- The class window of arbiter a, class c (R315). -/
def classRegs (s : State) (a c r : Nat) : Option RegAt :=
  let y := if a < 7251 then getClass (shownArb s a) c else ArbClass.reset
  let o := 0x0100 + 0x20 * c
  findReg r [reg2 o y.grants, reg2 (o + 8) y.waitsum, regF (o + 0x10) [(0, y.waitmax.toNat)], regF (o + 0x14) [(0, y.preempt.toNat), (16, y.dead.toNat)],
    regF (o + 0x18) [(0, y.cuts.toNat), (16, y.starve.toNat)], regF (o + 0x1C) [(0, y.credit.toNat), (8, y.weight.toNat)]]

/-- The 16 weights of share table t as bytes. -/
def weightBytes (m : Sparse (BitVec 8)) (t : Nat) : BitVec 128 := ofBytes 128 ((List.range 16).map (fun c => sget 0 m (16 * t + c)))

/-- The arbiter block (R312 to R316). -/
def arbRegs (s : State) (z : Sels) (r : Nat) : Option RegAt :=
  let a := z.csel.toNat
  if 0x100 ≤ r ∧ r < 0x300 then classRegs s a ((r - 0x100) / 0x20) r
  else if 0x1000 ≤ r ∧ r < 0x1200 then
    let t := (r - 0x1000) / 0x40
    let o := 0x1000 + 0x40 * t
    findReg r [regN o 4 (weightBytes s.str.wact t), regN (o + 0x10) 4 (weightBytes s.str.wpend t),
      regF (o + 0x20) [(1, b2n (bit t s.str.spend)), (2, b2n (bit t s.str.srej)), (4, (sget 0 s.str.cstat t).toNat)]]
  else
    let drained := fun k => (List.range (if k = 2 then 2 else 32)).foldl (fun n i => if groupDrained s (32 * k + i) then n + 2 ^ i else n) 0
    findReg r ([regF 0x0000 [(0, a)], reg1 0x0004 0, cinfo s a, regF 0x1200 [(0, s.str.stmap.toNat)]] ++
      [0, 1, 2].map (fun k => regF (0x2000 + 4 * k) [(0, bn (32 * k) (if k = 2 then 2 else 32) s.arbs.dfrz)]) ++
      (if 0x2010 ≤ r ∧ r < 0x201C then [regF (0x2010 + 4 * ((r - 0x2010) / 4)) [(0, drained ((r - 0x2010) / 4))]] else []) ++
      [0, 1, 2].map (fun k => regF (0x2020 + 4 * k) [(0, bn (32 * k) (if k = 2 then 2 else 32) s.arbs.frzto)]))

/-- A signed number of 0.125 °C as 12 bits. -/
def celsius (v : Int) : Nat := (v % 4096).toNat

/-- MGRP of stripe group g (R477): a group that no entry has named reads zero. -/
def mgrp (s : State) (g : Nat) : RegAt :=
  let x := getGroup s g
  regF 0x02C (if x.seen then [(0, celsius x.value), (12, x.band), (15, b2n x.stale), (16, b2n x.subst), (17, min 32767 ((now s - x.last) / 1000000))] else [(12, x.band), (15, b2n x.stale), (16, b2n x.subst)])

/-- The thermal block (R477). -/
def thermRegs (s : State) (z : Sels) (r : Nat) : Option RegAt :=
  let t := s.therm
  match counters s r 0x100 16 0x080100 with
  | some e => some e
  | none =>
    findReg r [regF 0x000 [(0, t.reading.toNat), (12, t.band.toNat), (15, b2n t.fault), (16, b2n t.held), (17, b2n t.guard), (18, b2n t.tripped), (19, b2n t.conv)],
      reg2 0x008 t.ttime, reg1 0x010 0, regF 0x014 [(0, s.str.thermal.tsched.toNat)], reg2 0x018 (s.str.thermal.mthr.setWidth 64),
      reg2 0x020 (bset 0 16 t.calTime t.trim.toNat), regF 0x028 [(0, z.msel.toNat)], mgrp s z.msel.toNat]

/-- TRKENT of tracker entry i (R412). -/
def trkent (s : State) (i : Nat) : Word :=
  let x := getTrack s i
  bput 64 0 x.addr.toNat ||| bput 64 28 x.count.toNat ||| bflag 64 31 x.rewritten ||| bput 64 32 x.syn.toNat ||| bflag 64 40 x.valid ||| bflag 64 41 x.hard

/-- MACINFO of macro m (R412); zero for a number that R369 does not use. -/
def macinfo (s : State) (m : Nat) : RegAt :=
  let free := fun (col : Bool) => ((List.range (if col then 2 else 8)).filter (fun i => !(spareUsed s m col).contains i)).length
  regF 0x400C (if m < 5388 then [(0, free false), (4, free true), (6, b2n ((tracked s).any (fun e => e.2.hard && decide (macroOfAddr e.2.addr = m))))] else [])

/-- The ECC test and integrity block (R411, R412, R413). -/
def integRegs (s : State) (z : Sels) (r : Nat) : Option RegAt :=
  let g := s.integ
  match counters s r 0x3000 32 0x093000 with
  | some e => some e
  | none =>
    if 0x4100 ≤ r ∧ r < 0x4900 then
      let i := (r - 0x4100) / 8
      some (reg2 (0x4100 + 8 * i) (((s.fuses.field[i]?).bind recChosen).getD 0))
    else
      findReg r [regF 0x000 [(0, b2n g.arm)], reg1 0x004 0, regF 0x008 [(0, g.etaddr.toNat)],
        regF 0x00C [(0, b2n g.etbusy), (1, b2n g.etdone), (2, b2n g.etrej), (4, g.etst.toNat), (8, g.syn.toNat), (16, b2n g.pageinv), (17, b2n s.sram.inj.isSome)],
        reg2 0x010 g.etdata, regF 0x018 [(0, g.etchk.toNat)], regF 0x01C [(0, g.etside.toNat)], reg2 0x020 g.etflipd, regF 0x028 [(0, g.etflipc.toNat)],
        regN 0x030 3 g.etkey, regN 0x040 3 g.etmask, regF 0x1000 [(0, (tracked s).length)], regF 0x1004 [(0, z.trksel.toNat)], reg2 0x1008 (trkent s z.trksel.toNat),
        regF 0x2000 [(0, b2n g.bankScrub), (1, b2n g.sramScrub)], regF 0x2004 [(0, g.bankPer.toNat)], regF 0x2008 [(0, g.sramPer.toNat)],
        reg2 0x2010 g.bankPass, reg2 0x2018 g.sramPass, regF 0x2020 [(0, g.romPri.toNat), (4, g.coreOut.toNat)],
        regF 0x4000 [(0, s.fuses.field.length)], regF 0x4008 [(0, z.macsel.toNat)], (if z.macset then macinfo s z.macsel.toNat else regF 0x400C [])]

/-- The registers of event queue q (R580). -/
def queueRegs (s : State) (q r : Nat) : Option RegAt :=
  let x := getQueue s q
  let n := x.recs.length
  findReg r [regF 0x00 [(0, n), (13, (x.recs.filter recHigh).length), (20, b2n (decide (4096 - n ≤ 16)))], reg1 0x04 x.nseq, reg2 0x08 x.lost, reg2 0x10 x.first, reg1 0x18 0,
    regN 0x20 8 (match x.recs with | e :: _ => packEvent q e | [] => 0), reg1 0x40 0, reg2 0x48 x.coal, reg2 0x50 x.opened]

/-- The trace entry at an index (R575, R580); zero where the ring holds none. -/
def traceAt (s : State) (i : Nat) : BitVec 128 :=
  match s.events.ring[ringPlaceOf s i]? with
  | some x => bput 128 0 x.time.toNat ||| bput 128 64 x.src.toNat ||| bput 128 72 x.type.toNat ||| bput 128 80 x.data.toNat
  | none => 0

/-- The snapshot area, offsets from 0x0A_4000 (R578): the aperture offset whose counter a word copies. -/
def snapSource (r : Nat) : Option Nat :=
  if r < 0x1000 then some (0x041000 + r)
  else if r < 0x1080 then some (0x042000 + (r - 0x1000))
  else if 0x1100 ≤ r ∧ r < 0x1680 then some (0x020100 + 0x1000 * ((r - 0x1100) / 0x80) + (r - 0x1100) % 0x80)
  else if 0x1800 ≤ r ∧ r < 0x1900 then some (0x093000 + (r - 0x1800))
  else if 0x1900 ≤ r ∧ r < 0x1980 then some (0x0B0100 + (r - 0x1900))
  else if 0x1980 ≤ r ∧ r < 0x1A00 then some (0x080100 + (r - 0x1980))
  else none

def snapRegs (s : State) (r : Nat) : Option RegAt :=
  let lo := r - r % 8
  if 0x1A00 ≤ r ∧ r < 0x1B40 then some (reg2 lo (sget 0 s.events.snapEq ((lo - 0x1A00) / 0x20 * 4 + (lo - 0x1A00) % 0x20 / 8)))
  else (snapSource lo).map (fun a => reg2 lo (sget 0 s.events.snap a))

/-- The event block (R580). -/
def eventRegs (s : State) (z : Sels) (r : Nat) : Option RegAt :=
  if r < 0xA00 then (queueRegs s (r / 0x100) (r % 0x100)).map (fun e => (e.1 + 0x100 * (r / 0x100), e.2))
  else if 0x4000 ≤ r then (snapRegs s (r - 0x4000)).map (fun e => (e.1 + 0x4000, e.2))
  else
    let v := s.events
    findReg r [regF 0x1000 [(0, b2n v.frozen)], regF 0x1004 [(0, v.trmask.toNat)], regF 0x1008 [(0, v.head.toNat)], reg2 0x1010 v.trdrop, reg2 0x1018 v.trfdrop,
      regF 0x1020 [(0, z.trsel.toNat)], regN 0x1030 4 (traceAt s z.trsel.toNat), reg1 0x2000 0, regF 0x2008 [(0, b2n v.gpend)], reg2 0x2010 v.gtime, reg1 0x2018 v.gseq]

/-- The store block (R452). -/
def storeRegs (s : State) (r : Nat) : Option RegAt :=
  let t := s.store
  let present := (List.range (nPairs s)).foldl (fun n p => if bit (2 * p) t.die || bit (2 * p + 1) t.die then n + 2 ^ p else n) 0
  let blocks := nPairs s * 2 * 32768
  match counters s r 0x100 16 0x0B0100 with
  | some e => if r < 0x180 then some e else none
  | none =>
    findReg r [regF 0x000 [(0, present), (8, t.degraded.toNat), (16, t.failed.toNat), (24, b2n (s.str.dpc == 2))], reg2 0x008 s.journal.last, reg2 0x010 (amark s),
      reg2 0x018 s.journal.dmark, reg2 0x020 ((t.ckpt.map (·.gen)).getD 0), reg2 0x028 ((t.ckpt.map (·.rfjsn)).getD 0), reg2 0x030 s.journal.since,
      regF 0x038 [(0, paceOf s), (2, b2n t.run.isSome), (3, if t.run.isSome then (segAfter s t.seg).getD 0 else 0)], regF 0x03C [(1, t.pfloor.toNat)], regF 0x040 [(0, t.band), (15, t.unit)],
      regF 0x044 [(0, t.wear / blocks % 2 ^ 24)], regF 0x048 [(0, 2048 - s.journal.frames.length)]]

/-- The power and hold-up block (R453, R624). -/
def powerRegs (s : State) (r : Nat) : Option RegAt :=
  let h := s.holdup
  let p := s.power
  let tgt := match p.trans with | some t => t.target | none => p.vid
  match counters s r 0x200 8 0x0C0200 with
  | some e => some e
  | none =>
    findReg r [regF 0x000 [(0, h.ph.toNat), (3, b2n h.early), (4, h.flushed.toNat)], reg2 0x008 h.pftime, reg2 0x010 h.sealJsn, regF 0x018 [(0, h.savetime.toNat)],
      regF 0x01C [(0, h.lastboot.toNat), (2, b2n h.warm)], regF 0x020 [(0, h.rsttime.toNat)],
      regF 0x100 [(0, b2n s.pins.pwrgd), (1, b2n s.pins.pfailN), (2, b2n s.pins.vhok), (3, b2n s.pins.rstN), (4, p.crewSz.toNat), (6, p.crewRk.toNat), (8, p.pstate.toNat)],
      regF 0x104 [(0, p.vid.toNat), (6, tgt.toNat), (12, b2n p.trans.isSome), (13, p.vfact.toNat)], regF 0x108 [(0, p.vmin.toNat), (6, p.vmax.toNat)],
      regF 0x10C [(0, p.vreq.toNat)], regF 0x110 [(0, p.dom.toNat)]]

/-- Sites of octant o whose logical bank is in a state (R595). -/
def octCount (s : State) (o st : Nat) : Nat :=
  ((List.range 2112).filter (fun x => decide (octantOf x = o) && decide ((bankState s (logicalOf s x)).toNat = st))).length

/-- The bank status block (R409, R595). -/
def bankRegs (s : State) (r : Nat) : Option RegAt :=
  if r < 0x2100 then
    let b := r / 4
    some (regF (4 * b) [(0, (bankState s b).toNat), (4, siteOf s b), (16, (sget 0 s.tcam.disag b).toNat), (24, (sget 0 s.tcam.test (siteOf s b)).toNat)])
  else if 0x4000 ≤ r ∧ r < 0x6100 then
    let x := (r - 0x4000) / 4
    some (regF (0x4000 + 4 * x) [(0, logicalOf s x), (12, (bankState s (logicalOf s x)).toNat)])
  else if 0x8000 ≤ r ∧ r < 0x8040 then
    let o := (r - 0x8000) / 8
    some (0x8000 + 8 * o, (regF 0 [(0, octCount s o 1), (9, octCount s o 0), (18, octCount s o 5)]).2 ++ (regF 0 [(0, octCount s o 2), (4, octCount s o 3), (8, octCount s o 4)]).2)
  else findReg r [reg1 0x8040 s.tcam.bsgen]

/-- The base of the block that an offset lies in, and the registers there (R581). -/
def blockAt (s : State) (side : Bool) (z : Sels) (off : Nat) : Nat × (Nat → Option RegAt) :=
  if off < 0x010000 then (0x000000, fun r => if r < 0x68 then idRegs s r else none)
  else if off < 0x020000 then (0x010000, lockRegs s)
  else if off < 0x02B000 then (0x020000 + 0x1000 * ((off - 0x020000) / 0x1000), portRegs s ((off - 0x020000) / 0x1000))
  else if off < 0x030000 then (0x02B000, fun _ => none)
  else if off < 0x040000 then (0x030000, crewRegs s z)
  else if off < 0x040800 then (0x040000, setRegs s.update.set0)
  else if off < 0x041000 then (0x040800, setRegs s.update.set1)
  else if off < 0x042000 then (0x041000, fun r => counters s r 0 512 0x041000)
  else if off < 0x050000 then (0x042000, fun r => counters s r 0 16 0x042000)
  else if off < 0x060000 then (0x050000, tallyRegs s side z)
  else if off < 0x080000 then (0x060000, arbRegs s z)
  else if off < 0x090000 then (0x080000, thermRegs s z)
  else if off < 0x0A0000 then (0x090000, integRegs s z)
  else if off < 0x0B0000 then (0x0A0000, eventRegs s z)
  else if off < 0x0C0000 then (0x0B0000, storeRegs s)
  else if off < 0x100000 then (0x0C0000, powerRegs s)
  else (0x100000, bankRegs s)

/-- The register that holds the word at an aperture offset; none for an offset that no register occupies (R17, R581). -/
def regAt (s : State) (side : Bool) (z : Sels) (off : Nat) : Option RegAt :=
  let b := blockAt s side z off
  (b.2 (off - b.1)).map (fun e => (b.1 + e.1, e.2))

/-! ## Access (R529, R577, R582, R584, R591, R598) -/

/-- Who a latch belongs to (R584); JTAG's accesses are the sideband's (R582). -/
def latchOf (who : Requester) : Nat :=
  match who with
  | .core n => n.val
  | .sb => 4
  | .jtag => 4
  | .port n => 8 + n.val

/-- The offsets of EQHEAD of the queues. -/
def isHead (off : Nat) : Bool := decide (0x0A0000 ≤ off ∧ off < 0x0A0A00 ∧ 0x20 ≤ off % 0x100 ∧ off % 0x100 < 0x40)
def isTrent (off : Nat) : Bool := decide (0x0A1030 ≤ off ∧ off < 0x0A1040)

/-- Registers that a selector governs (R590): the class window and CINFO, TVAL, MGRP, SHMAP, TRKENT, MACINFO. -/
def selected (off : Nat) : Bool :=
  decide (0x060100 ≤ off ∧ off < 0x060300) || decide (off = 0x060008) || decide (0x050030 ≤ off ∧ off < 0x050040) || decide (off = 0x08002C) ||
    decide (0x030028 ≤ off ∧ off < 0x030030) || decide (0x091008 ≤ off ∧ off < 0x091010) || decide (off = 0x09400C)

/-- A read that is refused LOCKED: a partner's of what R591 names, the sideband's of TRENT without a grant (R577). -/
def readLocked (s : State) (who : Requester) (off : Nat) : Bool :=
  match who with
  | .port _ => selected off || isTrent off || isHead off
  | .core _ => false
  | _ => isTrent off && !grantBit s 3

/-- The structure image read-back window (R597, R598). -/
def windowRead (s : State) (off : Nat) : Reg × Status :=
  if !s.boot.chosen || s.boot.phase == .stopped then (0, .busyRetry)
  else
    let k := off - 0x800000
    let a := slotBase s.boot.slot.toNat + k
    if k < s.boot.imglen ∧ Config.transferFails a s.free = true then (0, .poison)
    else (ofBytes 32 ((List.range 4).map (fun i => if k + i < s.boot.imglen then flashGet s.flash (a + i) else 0)), .ok)

/-- A read of one word by a requester: its value, its status, and the state with the latch that it sets or the record that it
closes (R14, R17, R568, R583, R584, R591). -/
def regRead (s : State) (who : Requester) (off : Nat) : Reg × Status × State :=
  if off % 4 ≠ 0 then (0, .malformed, s)
  else if 0x800000 ≤ off then let (v, st) := windowRead s off; (v, st, s)
  else
    match regAt s (isSide who) (selsOf s who) off with
    | none => (0, .malformed, s)
    | some (base, ws) =>
      if readLocked s who off then (0, .locked, s)
      else
        let k := (off - base) / 4
        let held := sget (0, []) s.mgmt.latch (latchOf who)
        if off ≠ base ∧ held.1 = base + 1 then (held.2.getD k 0, .ok, s)
        else
          let s1 := if off = base ∧ 1 < ws.length then { s with mgmt := { s.mgmt with latch := sput (0, []) s.mgmt.latch (latchOf who) (base + 1, ws) } } else s
          (ws.getD k 0, .ok, if isHead off then readHead s1 ((off - 0x0A0000) / 0x100) else s1)

/-- A requester has a path to read management space: JTAG under a grant only (R582). -/
def mayRead (s : State) (who : Requester) : Bool := powered s && (match who with | .jtag => grantBit s 0 | _ => true)

/-- WIDE_READ (R584): a read of the lowest word of a wide register latches the whole of it for the requester. -/
def execWideRead (who : Requester) (off : BitVec 24) (s : State) : Host.Outcome State Fault Refusal :=
  .next (if mayRead s who then (regRead s who off.toNat).2.2 else s)

end Sys2Proof.Machine
end

