-- ==== Sys2Proof/Machine/RegWrite.lean ====
section
/-! DEFINITION. Writes of management space: who may write what, what each field does, and the status of the access (R14 to R17, R30, R188, R189, R296, R309, R310, R316, R328, R364, R410 to R412, R452, R477, R494, R497, R508, R514, R529 to R530, R580 to R592, R624). -/

namespace Sys2Proof.Machine

open Sys2Proof

/-- What a write of a word gives: its status and the state after it. -/
abbrev Wrote := Status × State

/-- A register with its k-th word written (R585); bits that the register does not have are reserved (R16). -/
def putReg {n : Nat} (v : BitVec n) (k : Nat) (x : Reg) : BitVec n := bset (32 * k) 32 v x.toNat

/-- The order of severity of R588. -/
def severity : Status → Nat
  | .locked => 2
  | .malformed => 1
  | _ => 0

/-- The status of a word whose fields ended with two statuses (R588). -/
def worst (a b : Status) : Status := if severity a < severity b then b else a

/-- A write that only the management cores may make (R581, R588). -/
def coreOnly (who : Requester) (s : State) (w : Wrote) : Wrote := if isCore who then w else (.locked, s)

/-- A write to an RWL field (R15, R589). -/
def rwl (who : Requester) (s : State) (t : State) : Wrote := if isCore who && !s.prot.locked then (.ok, t) else (.locked, s)

/-- A trigger bit acts when a 1 is written to it. -/
def trigger (v : Reg) (i : Nat) (f : State → State) (s : State) : State := if bit i v then f s else s

/-- A requester's copy of the selectors changes (R590). -/
def setSels (s : State) (who : Requester) (f : Sels → Sels) : State :=
  if isSide who then { s with mgmt := { s.mgmt with sb := f s.mgmt.sb } } else { s with mgmt := { s.mgmt with core := f s.mgmt.core } }

/-- A register that a reader writes through its selectors. -/
def selWrite (s : State) (who : Requester) (f : Sels → Sels) : Wrote := (.ok, setSels s who f)

/-! ## Boot, lock and protection -/

/-- BOOTCTL (R494): RETRY while stopped with NO_IMAGE or STORE_BLANK. -/
def writeIdentity (s : State) (r : Nat) (v : Reg) : Wrote :=
  (.ok, if r = 0x030 ∧ s.boot.phase = .stopped ∧ (s.boot.stop = 1 ∨ s.boot.stop = 2) then trigger v 0 bootFrom5 s else s)

/-- The lock and protection block (R497, R514). -/
def writeProtection (s : State) (who : Requester) (r : Nat) (v : Reg) : Wrote :=
  let p := s.prot
  let put := fun (q : Prot) => rwl who s { s with prot := q }
  if r = 0x004 then
    (if bit 0 v then (if isCore who && !p.locked && (s.boot.phase == .booting || s.boot.phase == .stopped) then (.ok, { s with prot := { p with locked := true } }) else (.locked, s))
     else coreOnly who s (.ok, s))
  else if 0x010 ≤ r ∧ r < 0x020 then put { p with ownmap := putReg p.ownmap ((r - 0x010) / 4) v }
  else if 0x020 ≤ r ∧ r < 0x028 then put { p with plock := putReg p.plock ((r - 0x020) / 4) v }
  else if r = 0x030 then put { p with dbgpol := bf 0 2 v }
  else if 0x100 ≤ r ∧ r < 0x200 then put { p with ksmap := putReg p.ksmap ((r - 0x100) / 4) v }
  else (.ok, s)

/-! ## Ports and crew -/

/-- A port's registers (R296, R363); those of a port whose domain is off take nothing (R592). -/
def writePort (s : State) (who : Requester) (p r : Nat) (v : Reg) : Wrote :=
  if (getPort s p).st = pOFF then (.ok, s)
  else if r = 0x004 then (.ok, trigger v 1 (fun s => portReset s p 6 0) (modPort s p (fun x => { x with calen := bit 0 v })))
  else if r = 0x010 then rwl who s { s with prot := { s.prot with prole := sput 0 s.prot.prole p ((bf 0 4 v : BitVec 4).setWidth 32) } }
  else (.ok, s)

/-- The crew block (R364): SHSEL, and CRST for the cores. -/
def writeCrew (s : State) (who : Requester) (r : Nat) (v : Reg) : Wrote :=
  if r = 0x020 then selWrite s who (fun z => { z with shsel := bf 0 5 v })
  else if r = 0x030 then coreOnly who s (.ok, trigger v 0 startCrewReset s)
  else (.ok, s)

/-! ## Command register sets (R188 to R190) -/

def getSet (s : State) (n : Nat) : RegSet := if n = 0 then s.update.set0 else s.update.set1
def putSet (s : State) (n : Nat) (x : RegSet) : State :=
  if n = 0 then { s with update := { s.update with set0 := x } } else { s with update := { s.update with set1 := x } }

/-- A staging register other than CTRL takes a word; none where the offset is no staging register. -/
def stage (x : RegSet) (r : Nat) (v : Reg) : Option RegSet :=
  if r = 0x008 then some { x with addr := bf 0 24 v }
  else if r = 0x00C then some { x with pfx := bf 0 7 v }
  else if 0x010 ≤ r ∧ r < 0x028 then some { x with key := putReg x.key ((r - 0x010) / 4) v }
  else if 0x030 ≤ r ∧ r < 0x048 then some { x with mask := putReg x.mask ((r - 0x030) / 4) v }
  else if 0x050 ≤ r ∧ r < 0x058 then some { x with result := putReg x.result ((r - 0x050) / 4) v }
  else if 0x058 ≤ r ∧ r < 0x078 then some { x with opnd := putReg x.opnd ((r - 0x058) / 4) v }
  else none

/-- GO (R189): the command of the staging registers goes to its engine, with the continuation slots that its opcode takes; an
opcode of no command is answered MALFORMED (R148). Before ready no table command is admitted (R494): it is answered BUSY_RETRY
(log entry 141). -/
def goSet (s : State) (n : Nat) : State :=
  let x := getSet s n
  let c := setCmd n x
  let s := putSet s n { x with busy := true }
  if s.boot.phase ≠ .ready then answer s c.via (fill c (TRsp.of .busyRetry)) else
  match cNeed s c with
  | some k => enqueue s { c with s0 := c.s0 ||| bput 256 4 k }
  | none => answer s c.via (fill c (TRsp.of .malformed))

/-- A write of CTRL or of a staging register while no command runs. -/
def writeStage (s : State) (n r : Nat) (v : Reg) : State :=
  let x := getSet s n
  if r = 0x000 then
    trigger v 31 (fun s => goSet s n) (putSet s n { x with opc := bf 0 8 v, tnum := bf 8 5 v, half := bit 13 v, replace := bit 14 v, nochain := bit 15 v })
  else
    match stage x r v with
    | some y => putSet s n y
    | none => s

/-- STATUS: DONE and REJECTED are cleared by 1 (R14). -/
def clearSet (x : RegSet) (v : Reg) : RegSet := { x with done := x.done && !bit 1 v, rejected := x.rejected && !bit 2 v }

/-- A write to set n: set 0 is the cores' alone; STATUS of set 1 is too (R188, R581). -/
def writeSet (s : State) (who : Requester) (n r : Nat) (v : Reg) : Wrote :=
  let x := getSet s n
  if isSide who && n == 0 then (.locked, s)
  else if r = 0x004 then coreOnly who s (.ok, putSet s n (clearSet x v))
  else if r = 0x000 ∨ (stage x r v).isSome = true then (.ok, if x.busy then putSet s n { x with rejected := true } else writeStage s n r v)
  else (.ok, s)

/-! ## Tally and arbiters -/

/-- The tally block (R325, R326, R328). -/
def writeTally (s : State) (who : Requester) (r : Nat) (v : Reg) : Wrote :=
  if r = 0x004 then
    let s := trigger v 0 auditAll s
    coreOnly who s (.ok, { s with tally := { s.tally with autowarm := bit 1 v } })
  else if r = 0x020 then selWrite s who (fun z => { z with tsel := bf 0 16 v })
  else if r = 0x024 ∧ bit 0 v = true then
    (if (poolCounts s (selsOf s who).tsel.toNat).isSome then .ok else .malformed, sampleFor s who)
  else (.ok, s)

/-- WPEND and SCTL of table t (R309, R310, R316). -/
def writeShare (s : State) (t r : Nat) (v : Reg) : Wrote :=
  if 0x10 ≤ r ∧ r < 0x20 then
    if bit t s.str.spend then (.busyRetry, shareRej s t)
    else
      let c := 16 * t + (r - 0x10)
      (.ok, { s with str := { s.str with wpend := (List.range 4).foldl (fun m i => sput 0 m (c + i) (byteAt i v)) s.str.wpend } })
  else if r = 0x20 then
    let s := if bit 2 v then { s with str := { s.str with srej := bset t 1 s.str.srej 0 } } else s
    if bit 0 v then (if bit t s.str.spend then .busyRetry else .ok, commitShare s t) else (.ok, s)
  else (.ok, s)

/-- The arbiter block (R312 to R316). -/
def writeArbiter (s : State) (who : Requester) (r : Nat) (v : Reg) : Wrote :=
  if r = 0x0000 then selWrite s who (fun z => { z with csel := bf 0 13 v })
  else if r = 0x0004 then (.ok, trigger v 0 (fun s => snapFor s who (bit 1 v)) s)
  else if r = 0x0008 then
    let a := (selsOf s who).csel.toNat
    coreOnly who s (.ok, if bit 12 v && decide (a < 7251) then setArb s a { getArb s a with cut := false } else s)
  else if 0x1000 ≤ r ∧ r < 0x1200 then
    if (r - 0x1000) % 0x40 < 0x10 then (.ok, s) else coreOnly who s (writeShare s ((r - 0x1000) / 0x40) ((r - 0x1000) % 0x40) v)
  else if 0x2000 ≤ r ∧ r < 0x200C then (.ok, writeDfrz s ((r - 0x2000) / 4) v)
  else if 0x2020 ≤ r ∧ r < 0x202C then
    let k := (r - 0x2020) / 4
    (.ok, { s with arbs := { s.arbs with frzto := s.arbs.frzto &&& ~~~ (bput 66 (32 * k) v.toNat) } })
  else (.ok, s)

/-! ## Thermal and integrity -/

/-- Every period of a schedule lies within 10 to 255 (R477). -/
def schedOk (v : BitVec 24) : Bool := (List.range 3).all (fun i => decide (10 ≤ bn (8 * i) 8 v))

/-- The lower bounds of M1 to M5 rise (R477). -/
def boundsRise (v : BitVec 40) : Bool := (List.range 4).all (fun i => decide (bn (8 * i) 8 v < bn (8 * (i + 1)) 8 v))

/-- The thermal block (R456, R464, R468, R477). -/
def writeThermal (s : State) (who : Requester) (r : Nat) (v : Reg) : Wrote :=
  let pol := fun (p : ThermalPol) => { s with str := { s.str with thermal := p } }
  if r = 0x000 then coreOnly who s (if 5 ≤ bn 12 3 v then (.malformed, s) else (.ok, writeBand s (bn 12 3 v)))
  else if r = 0x010 then coreOnly who s (.ok, if s.clock.running then trigger v 1 tryCal (trigger v 0 demandReading s) else s)
  else if r = 0x014 then
    let x : BitVec 24 := bf 0 24 v
    coreOnly who s (if schedOk x then (.ok, pol { s.str.thermal with tsched := x }) else (.malformed, s))
  else if 0x018 ≤ r ∧ r < 0x020 then
    let x := putReg s.str.thermal.mthr ((r - 0x018) / 4) v
    coreOnly who s (if boundsRise x then (.ok, pol { s.str.thermal with mthr := x }) else (.malformed, s))
  else if r = 0x028 then selWrite s who (fun z => { z with msel := bf 0 8 v })
  else (.ok, s)

/-- The operation of an ETCMD (R411). -/
def etOp (n : Nat) : Option (State → Status × State) :=
  match n with
  | 1 => some rawRead
  | 2 => some rawWrite
  | 3 => some injectAt
  | 4 => some trdRead
  | 5 => some twrWrite
  | 6 => some (fun s => (.ok, { s with sram := { s.sram with inj := none } }))
  | _ => none

/-- The ECC test registers (R411). -/
def writeTest (s : State) (who : Requester) (r : Nat) (v : Reg) : Wrote :=
  let g := s.integ
  let put := fun (x : Integ) => ((.ok, { s with integ := x }) : Wrote)
  if r = 0x000 then put { g with arm := bit 0 v }
  else if r = 0x004 then
    (match etOp (bn 0 4 v) with
    | some f => (.ok, etRun s who f)
    | none => (.malformed, if g.arm then s else { s with integ := { g with etrej := true } }))
  else if r = 0x008 then put { g with etaddr := bf 0 28 v }
  else if r = 0x00C then put { g with etdone := g.etdone && !bit 1 v, etrej := g.etrej && !bit 2 v }
  else if 0x010 ≤ r ∧ r < 0x018 then put { g with etdata := putReg g.etdata ((r - 0x010) / 4) v }
  else if r = 0x018 then put { g with etchk := bf 0 8 v }
  else if r = 0x01C then put { g with etside := bf 0 14 v }
  else if 0x020 ≤ r ∧ r < 0x028 then put { g with etflipd := putReg g.etflipd ((r - 0x020) / 4) v }
  else if r = 0x028 then put { g with etflipc := bf 0 8 v }
  else if 0x030 ≤ r ∧ r < 0x03C then put { g with etkey := putReg g.etkey ((r - 0x030) / 4) v }
  else if 0x040 ≤ r ∧ r < 0x04C then put { g with etmask := putReg g.etmask ((r - 0x040) / 4) v }
  else (.ok, s)

/-- The ECC test and integrity block (R410 to R412): the scrub registers for the cores alone; every other word for the cores, and for
the sideband under a grant with scope bit 2. -/
def writeIntegrity (s : State) (who : Requester) (r : Nat) (v : Reg) : Wrote :=
  let tested := fun (w : Wrote) => if etWriter s who then w else ((.locked, s) : Wrote)
  let put := fun (x : Integ) => ((.ok, { s with integ := x }) : Wrote)
  if r < 0x04C then tested (writeTest s who r v)
  else if r = 0x1004 then tested (selWrite s who (fun z => { z with trksel := bf 0 10 v }))
  else if r = 0x4008 then tested (selWrite s who (fun z => { z with macsel := bf 0 15 v, macset := true }))
  else if r = 0x2000 then coreOnly who s (put { s.integ with bankScrub := bit 0 v, sramScrub := bit 1 v })
  else if r = 0x2004 then
    coreOnly who s (if 1 ≤ bn 0 10 v ∧ bn 0 10 v ≤ 600 then put { s.integ with bankPer := bf 0 10 v } else (.malformed, s))
  else if r = 0x2008 then
    coreOnly who s (if 10 ≤ bn 0 12 v ∧ bn 0 12 v ≤ 3600 then put { s.integ with sramPer := bf 0 12 v } else (.malformed, s))
  else tested (.ok, s)

/-! ## Events, store, power -/

/-- The event block (R576, R578, R580). -/
def writeEvent (s : State) (who : Requester) (r : Nat) (v : Reg) : Wrote :=
  if r < 0xA00 then
    let q := r / 0x100
    if r % 0x100 = 0x18 then (.ok, trigger v 0 (fun s => clearLost s q) s)
    else if r % 0x100 = 0x40 then (if mayPop s who q then (.ok, popHead s q v) else (.malformed, s))
    else (.ok, s)
  else if r = 0x1000 then (.ok, trigger v 1 clearTrace (setFreeze s (bit 0 v)))
  else if r = 0x1004 then coreOnly who s (.ok, { s with events := { s.events with trmask := bf 0 10 v } })
  else if r = 0x1020 then selWrite s who (fun z => { z with trsel := bf 0 16 v })
  else if r = 0x2000 then (if bit 0 v && s.events.gpend then (.busyRetry, s) else (.ok, trigger v 0 askSnap s))
  else (.ok, s)

/-- The store block (R430, R452): CKCTL. -/
def writeStore (s : State) (who : Requester) (r : Nat) (v : Reg) : Wrote :=
  if r = 0x03C then
    let floorBad := decide (bn 1 2 v = 3)
    let s1 := if floorBad then s else { s with store := { s.store with pfloor := bf 1 2 v } }
    coreOnly who s (if floorBad then .malformed else .ok, if s.boot.phase = .ready ∧ s.holdup.ph = 0 then trigger v 0 beginCkpt s1 else s1)
  else (.ok, s)

/-- The power block (R608, R609, R624). -/
def writePower (s : State) (who : Requester) (r : Nat) (v : Reg) : Wrote :=
  if r = 0x108 then
    let lo := bn 0 6 v
    let hi := bn 6 6 v
    coreOnly who s (if 50 < lo ∨ 50 < hi ∨ hi < lo then (.malformed, s) else (.ok, { s with power := { s.power with vmin := bf 0 6 v, vmax := bf 6 6 v } }))
  else if r = 0x10C then coreOnly who s (.ok, requestCode s (bf 0 6 v))
  else (.ok, s)

/-! ## The write of a word -/

/-- What a write of a word that a register occupies does, by block (R581). Words of read-only fields take nothing (R588). -/
def writeBlock (s : State) (who : Requester) (off : Nat) (v : Reg) : Wrote :=
  if off < 0x010000 then writeIdentity s off v
  else if off < 0x020000 then writeProtection s who (off - 0x010000) v
  else if off < 0x030000 then writePort s who ((off - 0x020000) / 0x1000) ((off - 0x020000) % 0x1000) v
  else if off < 0x040000 then writeCrew s who (off - 0x030000) v
  else if off < 0x040800 then writeSet s who 0 (off - 0x040000) v
  else if off < 0x041000 then writeSet s who 1 (off - 0x040800) v
  else if off < 0x050000 then (.ok, s)
  else if off < 0x060000 then writeTally s who (off - 0x050000) v
  else if off < 0x080000 then writeArbiter s who (off - 0x060000) v
  else if off < 0x090000 then writeThermal s who (off - 0x080000) v
  else if off < 0x0A0000 then writeIntegrity s who (off - 0x090000) v
  else if off < 0x0B0000 then writeEvent s who (off - 0x0A0000) v
  else if off < 0x0C0000 then writeStore s who (off - 0x0B0000) v
  else if off < 0x100000 then writePower s who (off - 0x0C0000) v
  else (.ok, s)

/-- The requester's latch ends when it writes a word of the latched register (R584). -/
def dropLatch (s : State) (who : Requester) (base : Nat) : State :=
  if (sget (0, []) s.mgmt.latch (latchOf who)).1 = base + 1 then { s with mgmt := { s.mgmt with latch := sput (0, []) s.mgmt.latch (latchOf who) (0, []) } } else s

/-- A write of one word by a requester that has a path to write (R14 to R17, R581, R583, R588). -/
def regWrite (s : State) (who : Requester) (off : Nat) (v : Reg) : Wrote :=
  if off % 4 ≠ 0 then (.malformed, s)
  else if 0x800000 ≤ off then (.ok, s)
  else
    match regAt s (isSide who) (selsOf s who) off with
    | none => (.malformed, s)
    | some (base, _) =>
      let (st, t) := writeBlock s who off v
      (st, dropLatch t who base)

/-- A requester has a path to write management space (R582, R592). -/
def mayWrite (s : State) (who : Requester) : Bool := powered s && (isCore who || sideWriter s who)

/-- REGISTER_WRITE (R14, R582). -/
def execRegisterWrite (who : Requester) (off : BitVec 24) (v : BitVec 32) (s : State) : Host.Outcome State Fault Refusal :=
  .next (if mayWrite s who then (regWrite s who off.toNat v).2 else s)

end Sys2Proof.Machine
end

