-- ==== Sys2Proof/Machine/WaitosInfo.lean ====
section
/-! DEFINITION. Waitos's commands for information, management space, region contexts, calibration and scrub control (R231, R502, R525, R527 to R537, R546, R561). -/

namespace Sys2Proof.Machine

open Sys2Proof

/-! ## Information (R527, R528) -/

/-- The word of a register as it stands. -/
def regWord (s : State) (off : Nat) : Reg :=
  match regAt s false s.mgmt.core off with
  | some (b, ws) => ws.getD ((off - b) / 4) 0
  | none => 0

def regBytes (s : State) (offs : List Nat) : List Byte := offs.flatMap (fun o => toBytes 4 (regWord s o))

/-- The result of GET_INFO. -/
def infoBytes (s : State) : List Byte :=
  regBytes s [0x000000, 0x000008, 0x00000C, 0x000020, 0x000024, 0x00002C, 0x030000, 0x010000, 0x0C0000] ++ toBytes 8 s.clock.time ++ toBytes 2 s.clock.epoch ++
    [BitVec.ofNat 8 (s.therm.band.toNat + 8 * b2n s.therm.fault + 16 * b2n s.therm.guard + 32 * b2n s.therm.tripped), 0]

/-- GET_INFO (R528): a partner gets the same data as the sideband. -/
def execGetInfo (w : Client) (s : State) : Host.Outcome State Fault Refusal :=
  .next (runReq s w 0x0001 (· == 0) (fun _ => true) (fun s _ => (some (.ok (infoBytes s)), s)))

/-- The facts of an operation (R525, R527): its final status is known when it has ended. -/
def opBytes (h : Nat) (x : Op) : List Byte :=
  bytesOfNat 2 h ++ toBytes 2 x.cmd ++ [x.state, if opRuns x then 0 else x.st.setWidth 8, 0, 0] ++ toBytes 8 x.progress ++ toBytes 8 x.start ++ toBytes 8 x.end_

/-- OP_STATUS (R525): a freed handle is answered MISS. -/
def execOpStatus (w : Client) (s : State) : Host.Outcome State Fault Refusal :=
  .next (runReq s w 0x0002 (· == 2) (fun ps => decide (1 ≤ natAt ps 0 2 ∧ natAt ps 0 2 ≤ 4095)) (fun s ps =>
    let h := natAt ps 0 2
    (some (match getOp s h with | some x => .ok (opBytes h x) | none => .of .miss), s)))

/-- The key slots that KSMAP grants to port p (R502). -/
def keySlots (s : State) (p : Nat) : List Byte :=
  (List.range 32).map (fun i => BitVec.ofNat 8 ((List.range 8).foldl (fun n j => if bit (8 * (8 * i + j) + p) s.prot.ksmap then n + 2 ^ j else n) 0))

/-- GET_KEYSLOTS (R502): of the requesting port, or of the port that the sideband names. -/
def execGetKeyslots (w : Client) (s : State) : Host.Outcome State Fault Refusal :=
  .next (match w with
    | .port n => runReq s w 0x0003 (· == 0) (fun _ => true) (fun s _ => (some (.ok (keySlots s n.val)), s))
    | .sb => runReq s w 0x0003 (· == 1) (fun ps => decide (natAt ps 0 1 < 8)) (fun s ps => (some (.ok (keySlots s (natAt ps 0 1))), s)))

/-- The result of DIR_READ: the entry, its MATCH count, and its run of the bank list, as far as a response holds it. -/
def dirBytes (s : State) (d : Nat) : List Byte :=
  let x := dirEntry s d
  (toBytes 10 x ++ [0, 0] ++ toBytes 4 (sget 0 s.marker.count d) ++ (List.range (dSpan x * dRepl x)).flatMap (fun i => bytesOfNat 2 (listAt s (dList x + i)))).take 256

def execDirRead (w : Client) (s : State) : Host.Outcome State Fault Refusal :=
  .next (runReq s w 0x0004 (· == 2) (fun ps => decide (natAt ps 0 2 < 16384)) (fun s ps => (some (.ok (dirBytes s (natAt ps 0 2))), s)))

/-- MIG_INFO (R231): one MIG row with its side record; an uncorrectable row is POISON. -/
def migInfo (s : State) (r : Nat) : Executed :=
  if rowBad s tMIG r then (some (.of .poison), (rowKeys s tMIG r).foldl touchQ s)
  else
    let x := migSide s r
    (some (.ok (toBytes 16 (rowVal s tMIG r) ++ [x.holder.setWidth 8, if x.rsrc then 1 else 0] ++ toBytes 2 x.bepoch ++ [0, 0, 0, 0] ++ toBytes 8 x.switched)),
     touchAll s (rowKeys s tMIG r))

def execMigInfo (w : Client) (s : State) : Host.Outcome State Fault Refusal :=
  .next (runReq s w 0x0005 (· == 2) (fun ps => decide (natAt ps 0 2 < 4096)) (fun s ps => migInfo s (natAt ps 0 2)))

/-! ## Management space (R529, R530) -/

/-- A client as a requester of management space (R582). -/
def asRequester : Client → Requester
  | .port n => .port n
  | .sb => .sb

/-- n words are read upward from an offset, to the first that does not complete OK: the words read, then the status and the
index of the one that did not. -/
def readWords (who : Requester) : Nat → Nat → Nat → State → List Byte × Option (Status × Nat) × State
  | 0, _, _, s => ([], none, s)
  | n + 1, off, i, s =>
    match regRead s who off with
    | (v, .ok, s1) => let (bs, e, s2) := readWords who n (off + 4) (i + 1) s1; (toBytes 4 v ++ bs, e, s2)
    | (_, st, s1) => ([], some (st, i), s1)

/-- The DETAIL of a word that ends a command (R519, R524): its index, but where it completes BUSY_RETRY the reason. -/
def wordDetail (s : State) (st : Status) (i : Nat) : Nat :=
  if st ≠ .busyRetry then i
  else
    match s.boot.phase with
    | .stopped => 0x2000 + s.boot.stop.toNat
    | .booting => 0x1000 + s.boot.step.toNat
    | _ => 0x6000

/-- MREAD (R529). -/
def mread (s : State) (w : Client) (ps : List Byte) : Executed :=
  let (bs, e, s) := readWords (asRequester w) (natAt ps 3 1) (natAt ps 0 3) 0 s
  (some (match e with | some (st, i) => ⟨st, false, wordDetail s st i, bs⟩ | none => .ok bs), s)

def execMread (w : Client) (s : State) : Host.Outcome State Fault Refusal :=
  .next (runReq s w 0x0101 (· == 4) (fun ps => decide (natAt ps 0 3 % 4 = 0 ∧ 1 ≤ natAt ps 3 1 ∧ natAt ps 3 1 ≤ 64)) (fun s ps => mread s w ps))

/-- Words are written upward from an offset, to the first that does not complete OK. -/
def writeWords (who : Requester) : List Reg → Nat → Nat → State → Option (Status × Nat) × State
  | [], _, _, s => (none, s)
  | v :: vs, off, i, s =>
    match regWrite s who off v with
    | (.ok, s1) => writeWords who vs (off + 4) (i + 1) s1
    | (st, s1) => (some (st, i), s1)

/-- MWRITE (R530): each word is written as the sideband. -/
def mwrite (s : State) (ps : List Byte) : Executed :=
  let (e, s) := writeWords .sb ((List.range (natAt ps 3 1)).map (fun i => ofBytes 32 (slice ps (8 + 4 * i) 4))) (natAt ps 0 3) 0 s
  (some (match e with | some (st, i) => ⟨st, false, wordDetail s st i, []⟩ | none => .ok []), s)

def execMwrite (w : Client) (s : State) : Host.Outcome State Fault Refusal :=
  .next (runReq s w 0x0102 (fun n => decide (12 ≤ n ∧ n % 4 = 0))
    (fun ps => decide (natAt ps 0 3 % 4 = 0 ∧ 1 ≤ natAt ps 3 1 ∧ natAt ps 3 1 ≤ 62 ∧ natAt ps 4 4 = 0 ∧ ps.length = 8 + 4 * natAt ps 3 1)) (fun s ps => mwrite s ps))

/-! ## Region contexts (R531) -/

/-- A context id fills 20 of its 24 bits. -/
def ctxIdOk (ps : List Byte) : Bool := decide (natAt ps 0 3 < 2 ^ 20)

/-- CTX_READ: the 32 B row as stored. -/
def ctxRead (s : State) (r : Nat) : Executed :=
  if tKind s tCTX ≠ 2 ∨ tCap s tCTX ≤ r then (some (.of .malformed), s)
  else if rowBad s tCTX r then (some (.of .poison), (rowKeys s tCTX r).foldl touchQ s)
  else (some (.ok (toBytes 32 (rowVal s tCTX r))), touchAll s (rowKeys s tCTX r))

def execCtxRead (w : Client) (s : State) : Host.Outcome State Fault Refusal :=
  .next (runReq s w 0x0201 (· == 3) ctxIdOk (fun s ps => ctxRead s (natAt ps 0 3)))

/-- The answer of a command that Waitos issued as FW for a request: of a journal that takes no more, BUSY_RETRY. -/
def ranReply (x : Ran) (s : State) (f : TRsp → List Byte) : Executed :=
  match x with
  | .wait => (none, s)
  | .stays t _ => (none, t)
  | .ends t (some r) => (some (if r.st = .busyRetry then .busy 6 0 else ⟨r.st, false, 0, f r⟩), t)
  | .ends t none => (some (.ok []), t)

/-- A command of FW on row r of table 10, with the continuation slots that its opcode takes. -/
def ctxCmd (s : State) (opc r : Nat) (s0 s1 : Slot) : TCmd :=
  let c : TCmd := { issuer := qFW, via := .none, s0 := mkSlot [(0, cTCMD), (8, opc), (32, tCTX), (40, r)] ||| s0, s1 := s1, s2 := 0 }
  { c with s0 := c.s0 ||| bput 256 4 ((cNeed s c).getD 0) }

/-- CTX_WRITE: an IWRITE of the whole row. -/
def execCtxWrite (w : Client) (s : State) : Host.Outcome State Fault Refusal :=
  .next (runReq s w 0x0202 (· == 40) (fun ps => ctxIdOk ps && decide (natAt ps 3 5 = 0)) (fun s ps =>
    ranReply (runIwrite s (ctxCmd s 0x11 (natAt ps 0 3) (bput 256 64 (natAt ps 8 24)) (bput 256 64 (natAt ps 32 8)))) s (fun _ => [])))

/-- CTX_CAS: an ICAS of one word; a word that does not hold the expected value is returned. -/
def execCtxCas (w : Client) (s : State) : Host.Outcome State Fault Refusal :=
  .next (runReq s w 0x0203 (· == 24) (fun ps => ctxIdOk ps && decide (natAt ps 3 1 ≤ 3 ∧ natAt ps 4 4 = 0)) (fun s ps =>
    ranReply (runIcas s (ctxCmd s 0x13 (natAt ps 0 3) (mkSlot [(64, 64 * natAt ps 3 1), (72, 63), (128, natAt ps 8 8), (192, natAt ps 16 8)]) 0)) s
      (fun r => if r.st = .staleVersion then toBytes 8 r.res else [])))

/-! ## Lanes (R535) -/

/-- An operation that is done within its command: its handle, and its result for OP_DONE. -/
def doneWithin (s : State) (cmd : Nat) (w : Client) (obj : Nat × Nat) (f : State → State × Word) : Executed :=
  startReply s cmd (clientCode w) obj (fun h s => let (t, p) := f s; knowOp t h .ok p)

/-- The lanes of a LANE_CAL in the order in which they run: transmit, then receive (R535). -/
def laneList (lane dir : Nat) : List Nat :=
  let ls := if lane = 255 then List.range 64 else [lane]
  (if dir = 1 then [] else ls) ++ (if dir = 0 then [] else ls.map (64 + ·))

/-- LANE_CAL (R535): LANE_SHIFT and its answers run the calibrations of the lanes named; progress counts them. -/
def execLaneCal (w : Client) (s : State) : Host.Outcome State Fault Refusal :=
  .next (runReq s w 0x0303 (· == 3) (fun ps => decide (natAt ps 0 1 ≤ 10 ∧ (natAt ps 1 1 ≤ 63 ∨ natAt ps 1 1 = 255) ∧ natAt ps 2 1 ≤ 2)) (fun s ps =>
    let p := natAt ps 0 1
    match heldBusy s (4, p) with
    | some x => (some x, s)
    | none =>
      if (getPort s p).st ≠ pACTIVE ∨ (getPort s p).calen = false then (some (.busy 6 4), s)
      else startReply s 0x0303 (clientCode w) (4, p) (fun h s => opLanes s h (laneList (natAt ps 1 1) (natAt ps 2 1)))))

/-! ## Scrub control (R536, R537) -/

/-- SCRUB_SET (R536). -/
def execScrubSet (w : Client) (s : State) : Host.Outcome State Fault Refusal :=
  .next (runReq s w 0x0401 (· == 6)
    (fun ps => decide (natAt ps 0 1 < 4 ∧ natAt ps 1 1 = 0 ∧ 1 ≤ natAt ps 2 2 ∧ natAt ps 2 2 ≤ 600 ∧ 10 ≤ natAt ps 4 2 ∧ natAt ps 4 2 ≤ 3600)) (fun s ps =>
      (some (.ok []), { s with integ := { s.integ with bankScrub := natAt ps 0 1 % 2 == 1, sramScrub := natAt ps 0 1 / 2 == 1,
                                                       bankPer := BitVec.ofNat 10 (natAt ps 2 2), sramPer := BitVec.ofNat 12 (natAt ps 4 2) } })))

/-- Integrity counter i (R413). -/
def integCounter (s : State) (i : Nat) : Word := counter s (0x093000 + 8 * i)

/-- The bank at which a pass of bank n reads: an entry of a 192-trit pair stands in both banks and is read at the even one (R53). -/
def scanLead (s : State) (n : Nat) : Nat := match scanTable s n with | some t => if tWidth s t = 2 then n - n % 2 else n | none => n

/-- One scrub pass of a bank (0) or a macro (1). -/
def scrubPass (s : State) (kind n : Nat) : State :=
  if kind = 0 then (List.range 4096).foldl (fun s r => scrubRowAt s (scanLead s n) r) s
  else (List.range 8192).foldl (fun s i => let k := placeAt (BitVec.ofNat 28 (n * 8192 + i)); if pageValid s k then scrubWord s k else s) s

/-- What a pass has found, as the progress word of R537. -/
def scrubFound (s t : State) : Word :=
  let d := fun i => (integCounter t i - integCounter s i).toNat % 2 ^ 32
  bput 64 0 (d 2) ||| bput 64 32 (d 3 + d 11)

/-- A bank or macro that has no scrub pass (R537). -/
def scrubBad (s : State) (kind n : Nat) : Bool :=
  if kind = 0 then !(decide (n < 2112) && (bankState s n == 1 || bankState s n == 3)) else decide (5388 ≤ n)

/-- SCRUB_NOW (R537). -/
def execScrubNow (w : Client) (s : State) : Host.Outcome State Fault Refusal :=
  .next (runReq s w 0x0402 (· == 3) (fun ps => decide (natAt ps 0 1 ≤ 1)) (fun s ps =>
    let kind := natAt ps 0 1
    let n := natAt ps 1 2
    let obj := (if kind = 0 then 1 else 2, n)
    if scrubBad s kind n then (some (.of .malformed), s)
    else
      match (if kind = 0 then bankBusy s n else heldBusy s obj) with
      | some x => (some x, s)
      | none => doneWithin s 0x0402 w obj (fun s => let t := scrubPass s kind n; (t, scrubFound s t))))

/-- AUTO_SET (R546). -/
def execAutoSet (w : Client) (s : State) : Host.Outcome State Fault Refusal :=
  .next (runReq s w 0x0603 (· == 1) (fun ps => decide (natAt ps 0 1 < 4)) (fun s ps =>
    (some (.ok []), { s with waitos := { s.waitos with autoRep := natAt ps 0 1 % 2 == 1, autoGrow := natAt ps 0 1 / 2 == 1 } })))

end Sys2Proof.Machine
end

