-- ==== Sys2Proof/Machine/WaitosMaint.lean ====
section
/-! DEFINITION. Waitos's commands for bank and cell maintenance, replication, growth and REBALANCE, and the reading of the MATCH counts (R353, R354, R506, R507, R538 to R547). -/

namespace Sys2Proof.Machine

open Sys2Proof

/-! ## Banks (R539, R540) -/

/-- The octant of a bank has a bank under test: the refusal, with the handle of the operation that tests it (R539). -/
def octantBusy (s : State) (b : Nat) : Option Reply :=
  let o := octantOf (siteOf s b)
  if octantTesting s o then
    some (.busy 4 (((liveOps s).find? (fun e => testRuns e.2 && e.2.data.any (fun x => decide (octantOf (siteOf s x) = o)))).map (·.1) |>.getD 0))
  else none

/-- A SPARE or FREE bank becomes TESTING, its record first. -/
def toTesting (s : State) (b : Nat) : State := jChange s [.bank 4 b 0 0 4] (fun s => setBankState s b 4)

/-- BANK_TEST (R406, R539): a bank in use is cloned out first. -/
def bankTest (s : State) (w : Client) (b : Nat) : Executed :=
  let st := bankState s b
  if 2112 ≤ b ∨ (st ≠ 1 ∧ st ≠ 2) then (some (.of .malformed), s)
  else
    match (bankBusy s b).orElse (fun _ => octantBusy s b) with
    | some x => (some x, s)
    | none =>
      if st = 1 then
        match replacement s (cloneLead s b) with
        | none => (some (.of .noRoom), s)
        | some dst => startReply s 0x0501 (clientCode w) (1, oldSiteNo s b dst) (fun h s => moveOut s h b dst)
      else if (jAdmit s [[.bank 4 b 0 0 4]]).1 then startReply s 0x0501 (clientCode w) (1, b) (fun h s => toTesting (opData s h (1, b) [b]) b)
      else (some (.busy 6 0), s)

def execBankTest (w : Client) (s : State) : Host.Outcome State Fault Refusal :=
  .next (runReq s w 0x0501 (· == 2) (fun _ => true) (fun s ps => bankTest s w (natAt ps 0 2)))

/-- A TESTING or FREE site is retired with BANK_RETIRE mode 0, and its operation's result is known (R179, R384, R540). -/
def retireNow (s : State) (h b : Nat) : State :=
  match retireState s b 0 with
  | some st =>
    let (ok, s1) := jAdmit s [[.bank 4 b 0 0 0]]
    if ok then let t := retireBank s1 b 0 st; knowOp t h .ok (if 256 ≤ t.fuses.field.length then 1 else 0) else s1
  | none => s

/-- BANK_RETIRE (R540): a bank in use is cloned out, and the old site retired when the clone has ended; any other site is
retired without a clone. -/
def waitosRetire (s : State) (w : Client) (b : Nat) : Executed :=
  let st := bankState s b
  if 2112 ≤ b ∨ st = 3 ∨ 5 ≤ st.toNat then (some (.of .malformed), s)
  else
    match (bankBusy s b).orElse (fun _ => if st = 4 then none else octantBusy s b) with
    | some x => (some x, s)
    | none =>
      if st = 1 then
        match replacement s (cloneLead s b) with
        | none => (some (.of .noRoom), s)
        | some dst => startReply s 0x0502 (clientCode w) (1, oldSiteNo s b dst) (fun h s => moveOut s h b dst)
      else if (jAdmit s [[.bank 4 b 0 0 4], [.bank 4 b 0 0 0]]).1 then
        startReply s 0x0502 (clientCode w) (1, b) (fun h s => retireNow (if st = 2 then toTesting (opData s h (1, b) [b]) b else opData s h (1, b) [b]) h b)
      else (some (.busy 6 0), s)

def execWaitosBankRetire (w : Client) (s : State) : Host.Outcome State Fault Refusal :=
  .next (runReq s w 0x0502 (· == 2) (fun _ => true) (fun s ps => waitosRetire s w (natAt ps 0 2)))

/-! ## Cells (R541) -/

/-- CELL_SPARE (R376 to R381, R541). -/
def cellSpare (s : State) (w : Client) (a : BitVec 28) (column : Bool) (b : Nat) : Executed :=
  let m := macroOfAddr a
  if !addrOk a then (some (.of .malformed), s)
  else
    match heldBusy s (2, m) with
    | some x => (some x, s)
    | none =>
      match spareFor s m column with
      | none => (some (.of .noRoom), s)
      | some k => doneWithin s 0x0503 w (2, m) (fun s => (if column then spareColumn s m b k else spareRow s a k, 0))

def execCellSpare (w : Client) (s : State) : Host.Outcome State Fault Refusal :=
  .next (runReq s w 0x0503 (· == 6) (fun ps => decide (natAt ps 0 4 < 2 ^ 28 ∧ natAt ps 4 1 ≤ 1 ∧ (natAt ps 4 1 = 0 ∨ natAt ps 5 1 ≤ 71))) (fun s ps =>
    cellSpare s w (BitVec.ofNat 28 (natAt ps 0 4)) (natAt ps 4 1 == 1) (natAt ps 5 1)))

/-! ## Replication (R75, R76, R542, R543) -/

/-- A directory entry's place is a valid entry of table t. -/
def dirOf (s : State) (t d : Nat) : Bool := decide (d < 16384) && dValid (dirEntry s d) && decide (dTnum (dirEntry s d) = t)

/-- The banks that another replica of directory entry d would take: none where R69 or R542 refuses it. -/
def replicaRoom (s : State) (d : Nat) : Option (List Nat) :=
  let x := dirEntry s d
  if 32 < dSpan x * (dRepl x + 1) then none
  else
    match freeBanks s (dTnum x) (dSpan x) with
    | some bs => if (listPlace s (dSpan x * (dRepl x + 1))).isSome then some bs else none
    | none => none

/-- A replica is added: every span bank and twin of the first replica is cloned in COPY mode (R177, R178). A pair of banks of a
192-trit table is one clone. -/
def addReplica (s : State) (h d : Nat) (bs : List Nat) : State :=
  let x := dirEntry s d
  let t := dTnum x
  let one := fun (b : Nat) => if tPaired s t then [b, twinOf b] else [b]
  let s := opData s h (3, d) (bs.flatMap (withTwins s t))
  (((replicaBanks s x 0).flatMap one).zip (bs.flatMap one)).foldl (fun s p => cloneOut s p.1 p.2 1) s

/-- The clones of a replication have ended: the one directory write that raises REPL and points LIST at the new run (R75). Up to
it the destinations take every write of their sources; it waits while a gated change governs a source. -/
def writeReplica (s : State) (h d : Nat) (dests : List Nat) : State :=
  let x := dirEntry s d
  let t := dTnum x
  let new := ((List.range (if tPaired s t then 1024 else 2112)).filter (fun b => dests.contains b && (decide (tWidth s t ≠ 2) || decide (b % 2 = 0))))
  let run := runBanks s x ++ new
  match listPlace s run.length with
  | none => s
  | some k =>
    let y := bset 45 15 (bset 40 5 x (dRepl x)) k
    let (ok, s1) := jAdmit s [[dirRec d y, listRec k run]]
    if ((replicaBanks s x 0).flatMap (withTwins s t)).any (fun b => !ungoverned s b) then s
    else if !ok then s1
    else
      let s2 := setDir (putList (jCommit s1 [dirRec d y, listRec k run] true).2 k run) d y
      endOp (dests.foldl dropMirror s2) h 0 0

/-- SETSEL: directory entry d with SEL (R71, R543). -/
def withSel (s : State) (d : Nat) (sel : Bool) : BitVec 80 := bset 60 1 (dirEntry s d) (if sel then 1 else 0)

/-- An operation done within its command whose records the journal must take first (R33, R526). -/
def doneJournaled (s : State) (cmd : Nat) (w : Client) (obj : Nat × Nat) (rs : List JRec) (f : State → State) : Executed :=
  match jAdmit s [rs] with
  | (false, s1) => (some (.busy 6 0), s1)
  | _ => doneWithin s cmd w obj (fun s => (f s, 0))

/-- REPLICATE (R543). -/
def replicate (s : State) (w : Client) (t d op : Nat) : Executed :=
  let x := dirEntry s d
  if !dirOf s t d then (some (.of .malformed), s)
  else
    match heldBusy s (3, d) with
    | some r => (some r, s)
    | none =>
      if op / 4 = 1 then
        let y := withSel s d (op / 2 % 2 == 1)
        doneJournaled s 0x0601 w (3, d) [dirRec d y] (fun s => jChange s [dirRec d y] (fun s => setDir s d y))
      else if op % 2 = 1 then
        if dRepl x = 1 then (some (.of .malformed), s)
        else doneJournaled s 0x0601 w (3, d) (lessRecs s d (dRepl x - 1)) (fun s => removeReplica s d (dRepl x - 1))
      else
        match replicaRoom s d with
        | none => (some (.of .noRoom), s)
        | some bs => startReply s 0x0601 (clientCode w) (3, d) (fun h s => addReplica s h d bs)

def execReplicate (w : Client) (s : State) : Host.Outcome State Fault Refusal :=
  .next (runReq s w 0x0601 (· == 4) (fun ps => decide (natAt ps 0 1 < 32 ∧ natAt ps 1 2 < 16384 ∧ natAt ps 3 1 < 8)) (fun s ps =>
    replicate s w (natAt ps 0 1) (natAt ps 1 2) (natAt ps 3 1)))

/-! ## Growth (R507, R544) -/

/-- The banks and the list place that growth of directory entry d takes: one bank for every replica; none where R544 refuses it. -/
def growRoom (s : State) (d : Nat) : Option (List Nat × Nat) :=
  let x := dirEntry s d
  if dSpan x = 4 ∨ 32 < (dSpan x + 1) * dRepl x ∨ capacityLeft s (dTnum x) = false then none
  else
    match freeBanks s (dTnum x) (dRepl x) with
    | some bs => (listPlace s ((dSpan x + 1) * dRepl x)).map (fun k => (bs, k))
    | none => none

/-- Directory entry d and its bank list with one more bank in the span of every replica, the list at place k (R544). -/
def wider (s : State) (d : Nat) (bs : List Nat) (k : Nat) : BitVec 80 × List Nat :=
  let x := dirEntry s d
  (bset 45 15 (bset 38 2 x (dSpan x)) k, (List.range (dRepl x)).flatMap (fun i => replicaBanks s x i ++ [bs.getD i 0]))

/-- The records of that growth (R507). -/
def growRecs (s : State) (d : Nat) (bs : List Nat) (k : Nat) : List JRec :=
  let t := dTnum (dirEntry s d)
  (bs.flatMap (withTwins s t)).map (fun b => bankRec b (some t)) ++ [dirRec d (wider s d bs k).1, listRec k (wider s d bs k).2]

/-- The span of every replica takes one more bank; then one directory write raises SPAN (R544). The new banks are empty. -/
def growSpan (s : State) (d : Nat) (bs : List Nat) (k : Nat) : State :=
  let t := dTnum (dirEntry s d)
  let y := wider s d bs k
  jChange s (growRecs s d bs k) (fun s =>
    let s := (bs.flatMap (withTwins s t)).foldl (fun s b => setBankState (setBankTable s b (some t)) b 1) s
    setDir (putList s k y.2) d y.1)

/-- GROW (R544). -/
def grow (s : State) (w : Client) (t d : Nat) : Executed :=
  if !dirOf s t d then (some (.of .malformed), s)
  else
    match heldBusy s (3, d) with
    | some r => (some r, s)
    | none =>
      match growRoom s d with
      | none => (some (.of .noRoom), s)
      | some (bs, k) => doneJournaled s 0x0602 w (3, d) (growRecs s d bs k) (fun s => growSpan s d bs k)

def execGrow (w : Client) (s : State) : Host.Outcome State Fault Refusal :=
  .next (runReq s w 0x0602 (· == 3) (fun ps => decide (natAt ps 0 1 < 32 ∧ natAt ps 1 2 < 16384)) (fun s ps => grow s w (natAt ps 0 1) (natAt ps 1 2)))

/-! ## The reading of the MATCH counts (R545, R546) -/

/-- The event policy (R573): a field of the EVENTS section. -/
def policy (s : State) (off len : Nat) : Nat := bn (8 * off) (8 * len) s.str.events

/-- A consecutive-reading count: key 2d for ADD, 2d + 1 for DROP of directory entry d, 32,768 + t for a refused growth of table t. -/
def getRun (s : State) (k : Nat) : Nat := sget 0 s.marker.runs k
def setRun (s : State) (k n : Nat) : State := { s with marker := { s.marker with runs := sput 0 s.marker.runs k n } }

/-- Waitos adds a replica of its own accord, when it may and can. -/
def autoAdd (s : State) (d : Nat) : State :=
  match (if s.waitos.autoRep then replicaRoom s d else none) with
  | none => s
  | some bs =>
    match startOp s 0x0601 qFW true (3, d) with
    | some (h, s1) => addReplica s1 h d bs
    | none => s

/-- Waitos removes the highest-numbered replica of its own accord. -/
def autoDrop (s : State) (d : Nat) : State :=
  if s.waitos.autoRep then autoWithin s 0x0601 (3, d) (fun s => removeReplica s d (dRepl (dirEntry s d) - 1)) else s

/-- Waitos grows the partition of table t that last refused an insert, when it may; whether it was refused NO_ROOM. -/
def autoGrow (s : State) (t : Nat) : Bool × State :=
  match sget 0 s.marker.refused t with
  | 0 => (false, s)
  | d + 1 =>
    if s.waitos.autoGrow && (holderOf s (3, d)).isNone && dirOf s t d && capacityLeft s t then
      match growRoom s d with
      | some (bs, k) => (false, growSpan s d bs k)
      | none => (true, s)
    else (false, s)

/-- The reading of one directory entry: its count is read and cleared, its load compared. An action on an entry that an
operation holds waits for a later reading, its run count held (R561); MARKER_SKEW is raised once, as the run is complete. -/
def readEntry_ (s : State) (d : Nat) : State :=
  let x := dirEntry s d
  let load := (sget 0 s.marker.count d).toNat / dRepl x
  let s := { s with marker := { s.marker with count := sput 0 s.marker.count d 0 } }
  let up := if policy s 0 4 ≤ load then getRun s (2 * d) + 1 else 0
  let down := if load < policy s 4 4 ∧ 1 < dRepl x then getRun s (2 * d + 1) + 1 else 0
  let held := s.waitos.autoRep && (holderOf s (3, d)).isSome
  if policy s 8 1 ≤ up ∧ up ≠ 0 then
    let s := if getRun s (2 * d) < policy s 8 1 then
        event s (if s.waitos.autoRep then [qFW] else [qFW, qSB]) 0x2006 (dTnum x + 2 ^ 16 * d) (min load (2 ^ 32 - 1)) else s
    if held then setRun (setRun s (2 * d) (policy s 8 1)) (2 * d + 1) 0 else setRun (setRun (autoAdd s d) (2 * d) 0) (2 * d + 1) 0
  else if policy s 9 1 ≤ down ∧ down ≠ 0 ∧ held = false then setRun (setRun (autoDrop s d) (2 * d) 0) (2 * d + 1) 0
  else setRun (setRun s (2 * d) up) (2 * d + 1) down

/-- The reading of one table's INS_NOROOM counter. A growth that was refused NO_ROOM is tried again after ADDRUN readings. -/
def readTable (s : State) (t : Nat) : State :=
  let c := counter s (0x041000 + 0x80 * t + 16)
  let rise := (c - sget 0 s.marker.lastNoRoom t).toNat
  let s := { s with marker := { s.marker with lastNoRoom := sput 0 s.marker.lastNoRoom t c } }
  let hit := decide (policy s 16 4 ≤ rise ∧ 0 < rise)
  let s := if hit then event s (if s.waitos.autoGrow then ownerFW s t else ownerFW s t ++ (if tOwner s t = qSB then [] else [qSB])) 0x2002 t (c.toNat % 2 ^ 32) else s
  let wait := getRun s (32768 + t)
  let try_ := fun (s : State) => let (no, s) := autoGrow s t; setRun s (32768 + t) (if no then policy s 8 1 else 0)
  if wait = 0 then (if hit then try_ s else s)
  else if wait = 1 then try_ s
  else setRun s (32768 + t) (wait - 1)

/-- MARKER_COUNT_READING (R545): every valid directory entry, then every TCAM table. -/
def countReading (s : State) : State :=
  let s := ((List.range 16384).filter (fun d => dValid (dirEntry s d))).foldl readEntry_ s
  ((List.range 32).filter (fun t => decide (tKind s t = 1))).foldl readTable s

def execMarkerCountReading (s : State) : Host.Outcome State Fault Refusal := .next (if maintains s then countReading s else s)

end Sys2Proof.Machine
end

