-- ==== Sys2Proof/Machine/WaitosImage.lean ====
section
/-! DEFINITION. Waitos's commands for resets, time, image sessions, live packages, debug and the store, and the end of operations (R292, R352, R480, R491, R503 to R505, R509, R510, R525, R549 to R558). -/

namespace Sys2Proof.Machine

open Sys2Proof

/-! ## Resets (R549) -/

/-- PORT_RESET: answered once step 1 has begun. -/
def execPortResetCommand (w : Client) (s : State) : Host.Outcome State Fault Refusal :=
  .next (runReq s w 0x0801 (· == 1) (fun ps => decide (natAt ps 0 1 ≤ 10)) (fun s ps => (some (.ok []), portReset s (natAt ps 0 1) 6 0)))

/-- The request at the head is answered OK, and then the die resets (R549, R560). -/
def answerThen (s : State) (w : Client) (f : State → State) : Executed :=
  match reqsOf s w with
  | r :: _ => (none, f (popReq (sendReply s w r (.ok [])) w))
  | [] => (none, s)

/-- WARM_RESET. -/
def execWarmResetCommand (w : Client) (s : State) : Host.Outcome State Fault Refusal :=
  .next (runReq s w 0x0802 (· == 0) (fun _ => true) (fun s _ => answerThen s w (fun s => warmReset s false)))

/-- CREW_RESET (R352). -/
def execCrewResetCommand (w : Client) (s : State) : Host.Outcome State Fault Refusal :=
  .next (runReq s w 0x0803 (· == 0) (fun _ => true) (fun s _ => answerThen s w startCrewReset))

/-! ## Time (R550) -/

/-- 30 days and one day in ns. -/
abbrev days30 : Nat := 2592000000000000
abbrev dayNs : Nat := 86400000000000

/-- TIME_ADVANCE: device time jumps, the epoch follows, a TIME record is journaled; elapsed time does not move. -/
def timeAdvance (s : State) (d : Nat) : Executed :=
  if days30 < s.clock.advanced + d then (some ⟨.malformed, false, (days30 - s.clock.advanced) / dayNs, []⟩, s)
  else
    let t := s.clock.time + BitVec.ofNat 64 d
    let s := newEpoch { s with clock := { s.clock with time := t, advanced := s.clock.advanced + d } }
    (some (.ok []), jNote s (.time t))

def execTimeAdvance (w : Client) (s : State) : Host.Outcome State Fault Refusal :=
  .next (runReq s w 0x0804 (· == 8) (fun ps => decide (1 ≤ natAt ps 0 8 ∧ natAt ps 0 8 ≤ days30)) (fun s ps => timeAdvance s (natAt ps 0 8)))

/-! ## Image sessions (R480, R552 to R556) -/

def setSession (s : State) (x : Option Session) : State := { s with waitos := { s.waitos with session := x } }

/-- The slot that an image session writes: the one that did not boot (R480). -/
def otherSlot (s : State) : Nat := 1 - s.boot.slot.toNat

/-- A slot of the boot store is erased. -/
def eraseSlot (s : State) (slot : Nat) : State :=
  { s with flash := s.flash.filter (fun e => !decide (slotBase slot ≤ e.1 ∧ e.1 < slotBase slot + slotLen)) }

/-- The longest image or package of a target. -/
def targetMax (target : Nat) : Nat := if target = 0 then 2 ^ 23 else 2 ^ 20

/-- IMG_BEGIN (R552): for the boot slot an operation that erases it, for live staging at once. -/
def imgBegin (s : State) (w : Client) (target len : Nat) : Executed :=
  if s.waitos.session.isSome then (some (.busy 5 0), s)
  else
    let x : Session := { live := decide (target = 1), len := len, next := 0, erased := decide (target = 1), head := [], staging := [], touched := now s, handle := 0, verified := false }
    if target = 1 then (some (.ok []), setSession s (some x))
    else startReply s 0x0901 (clientCode w) (7, 0) (fun h s => setSession (eraseSlot s (otherSlot s)) (some { x with handle := h }))

def execImgBegin (w : Client) (s : State) : Host.Outcome State Fault Refusal :=
  .next (runReq s w 0x0901 (· == 8) (fun ps => decide (natAt ps 0 1 ≤ 1 ∧ natAt ps 1 3 = 0 ∧ 512 ≤ natAt ps 4 4 ∧ natAt ps 4 4 ≤ targetMax (natAt ps 0 1)))
    (fun s ps => imgBegin s w (natAt ps 0 1) (natAt ps 4 4)))

/-- Image bytes at an offset: bytes 0 to 3 of a boot image are held back, the others programmed; a package is staged (R553,
R554). -/
def takeBytes (s : State) (x : Session) (off : Nat) (bs : List Byte) : State :=
  let y := { x with next := off + bs.length, touched := now s }
  if x.live then setSession s (some { y with staging := x.staging ++ bs })
  else
    let held := bs.take (4 - off)
    setSession (flashWrite s (slotBase (otherSlot s) + max off 4) (bs.drop (4 - off))) (some { y with head := x.head ++ held })

/-- IMG_DATA (R553). -/
def imgData (s : State) (off : Nat) (bs : List Byte) : Executed :=
  match s.waitos.session with
  | none => (some (.of .malformed), s)
  | some x =>
    let s := setSession s (some { x with touched := now s })
    if !x.erased || x.verified then (some (.busy 4 x.handle), s)
    else if off ≠ x.next then (some ⟨.staleVersion, false, 0, bytesOfNat 4 x.next⟩, s)
    else if x.len < off + bs.length then (some (.of .malformed), s)
    else (some (.ok []), takeBytes s x off bs)

def execImgData (w : Client) (s : State) : Host.Outcome State Fault Refusal :=
  .next (runReq s w 0x0902 (fun n => decide (9 ≤ n ∧ n ≤ 256)) (fun ps => decide (natAt ps 4 4 = 0)) (fun s ps => imgData s (natAt ps 0 4) (ps.drop 8)))

/-- The checks of R491 on the image in the other slot with its held bytes in place, but for the layout comparison: the reason of
a refusal, or whether its layout digest differs from LAYOUT (R555). -/
def verifySlot (s : State) (x : Session) : Sum (BitVec 4) (Bool × State) :=
  let c := flashWrite s (slotBase (otherSlot s)) x.head
  if !headerOk (flashBytes c (slotBase (otherSlot s)) 256) slotLen then .inl 1
  else
    let differs := layoutOf (sections (slotImage c (otherSlot s))) != s.boot.layout
    match tryImage c (otherSlot s) (Config.transferFails (slotBase (otherSlot s)) s.free) with
    | .inl 8 => .inr (differs, c)
    | .inl r => .inl r
    | .inr _ => .inr (differs, c)

/-- IMG_COMMIT of a boot image (R555): on success MAGIC is programmed. -/
def commitImage (s : State) (w : Client) (x : Session) : Executed :=
  startReply (setSession s none) 0x0903 (clientCode w) (7, 0) (fun h s =>
    match verifySlot s x with
    | .inl r => knowOp s h .malformed (bput 64 8 r.toNat)
    | .inr (differs, c) => knowOp { s with flash := c.flash } h .ok (if differs then 1 else 0))

/-- The package is one that R503 accepts, but for the locks and holds of its slots. -/
def packageOk (s : State) (x : Session) : Bool :=
  let img := x.staging
  let ss := sections img
  let c := (profilesOf ss).foldl (fun c p => putBuffer c p.1 (1 - activeBuf s p.1) (bufWords p.2)) s
  headerOk img (targetMax 1) && decide (imgLen img ≤ x.len) && headerRest img true && keyInForce s.fuses (sigKey img) && sigOk img &&
    decide (rollbackCount s.fuses ≤ imgSvn img) && decide (imgBase img = s.boot.strver.toNat) && sectsOk img true &&
    (!hasSect ss 5 || decide (natAt (sectData ss 5) 128 4 = s.str.stmap.toNat)) &&
    liveOk c ss (fun n => 1 - activeBuf s n) s.str.stmap (roleNow s)

/-- The records of a package: one LIVE record for each section, with the VER that each profile slot takes (R135, R504). -/
def packageRecs (s : State) (img : List Byte) : List JRec := (sections img).map (fun x => .live x.kind 0 (BitVec.ofNat 16 (imgVer img)) (stampSect s x).data)

/-- An accepted package is applied (R504): sections up to SHARES at once; the new weights wait for the next tick, and with them
the sections behind them, the structure version and the end of the session. -/
def applyPackage (s : State) (x : Session) (h : Nat) : State :=
  let ss := sections x.staging
  let s := applySects s (ss.takeWhile (fun y => y.kind != 5))
  if hasSect ss 5 then
    setSession { s with str := { s.str with wpend := weightsOf (sectData ss 5), spend := BitVec.allOnes 8 } } (some { x with verified := true, handle := h })
  else finishPackage (setSession s (some { x with verified := true, handle := h }))

/-- IMG_COMMIT of a live package (R503, R504, R555). -/
def commitPackage (s : State) (w : Client) (x : Session) : Executed :=
  let ps := profilesOf (sections x.staging)
  let refuse := fun (r : Reply) => ((some r, setSession s none) : Executed)
  if !packageOk s x then refuse (.of .malformed)
  else if ps.any (fun p => bit p.1 s.prot.plock) then refuse (.of .locked)
  else if ps.any (fun p => bufferHeld s p.1) || decide (s.str.spend ≠ 0 ∧ hasSect (sections x.staging) 5 = true) then (some (.busy 7 0), s)
  else if !(jAdmit s [packageRecs s x.staging]).1 then (some (.busy 6 0), (jAdmit s [packageRecs s x.staging]).2)
  else doneWithin s 0x0903 w (7, 0) (fun s =>
    (applyPackage (jCommit s (packageRecs s x.staging) true).2 x s.waitos.nextHandle, 0))

/-- IMG_COMMIT (R555): every byte has been received. -/
def imgCommit (s : State) (w : Client) : Executed :=
  match s.waitos.session with
  | none => (some (.of .malformed), s)
  | some x =>
    if x.verified || !x.erased then (some (.busy 4 x.handle), s)
    else if x.next ≠ x.len then (some (.of .malformed), setSession s (some { x with touched := now s }))
    else if x.live then commitPackage s w x
    else if !handleRoom s false then (some (.busy 5 0), s)
    else commitImage s w x

def execImgCommit (w : Client) (s : State) : Host.Outcome State Fault Refusal :=
  .next (runReq s w 0x0903 (· == 0) (fun _ => true) (fun s _ => imgCommit s w))

/-- IMG_ABORT (R556): the session closes, and an erase under way is abandoned; with none open there is nothing to close. -/
def imgAbort (s : State) : Executed :=
  match s.waitos.session with
  | none => (some (.ok []), s)
  | some x => if x.verified then (some (.busy 4 x.handle), s) else (some (.ok []), abandonSession s)

def execImgAbort (w : Client) (s : State) : Host.Outcome State Fault Refusal :=
  .next (runReq s w 0x0904 (· == 0) (fun _ => true) (fun s _ => imgAbort s))

/-- IMG_SESSION_TIMEOUT (R552): the open session is abandoned, and SB hears of it. -/
def sessionTimeout (s : State) : State :=
  match s.waitos.session with
  | none => s
  | some x => if x.verified then s else event (abandonSession s) [qSB] 0x2007 (x.handle + 4096 * 0x0901 + 2 ^ 28 * statusNum .late) x.next

def execImgSessionTimeout (s : State) : Host.Outcome State Fault Refusal := .next (if waitosRuns s then sessionTimeout s else s)

/-! ## Debug (R508 to R510, R557) -/

/-- DBG_NONCE. -/
def execDbgNonce (w : Client) (s : State) : Host.Outcome State Fault Refusal :=
  .next (runReq s w 0x0A01 (· == 0) (fun _ => true) (fun s _ => (some (.ok (toBytes 16 s.dbg.nonce)), s)))

/-- The first check of R509 that a grant fails, as DETAIL of R557; 0 for none. A grant whose MAGIC or zero bytes are wrong fails
as its signature does. -/
def grantFault (s : State) (g : List Byte) : Nat :=
  let t := s.clock.time.toNat
  let e := natAt g 32 8
  if natAt g 4 8 ≠ s.fuses.dieId.toNat then 1
  else if natAt g 12 16 ≠ s.dbg.nonce.toNat then 2
  else if e ≤ t ∨ t + dayNs < e then 3
  else if !keyInForce s.fuses (slice g 40 97) then 4
  else if natAt g 0 4 ≠ 0x47445A54 ∨ allZero (slice g 233 23) = false ∨ natAt g 28 4 ≥ 16 ∨ slice g 40 1 ≠ [4] ∨
    Config.ecdsaOk (slice g 40 97) (Config.sha384 (slice g 0 40)) (slice g 137 96) = false then 5
  else 0

/-- DBG_GRANT (R509, R510, R557): the nonce is renewed in every case. -/
def dbgGrant (s : State) (g : List Byte) : Executed :=
  if s.prot.dbgpol = 0 then (some (.of .locked), event (newNonce s) [qFW, qSB] 0x4007 0 0)
  else
    let f := grantFault s g
    if f ≠ 0 then (some ⟨.malformed, false, f, []⟩, event (newNonce s) [qFW, qSB] 0x4007 0 f)
    else
      let scope : BitVec 4 := BitVec.ofNat 4 (natAt g 28 1)
      let s := newNonce { s with dbg := { s.dbg with scope := scope, exp := BitVec.ofNat 64 (natAt g 32 8), granted := true, debugged := true } }
      (some (.ok []), event s ([qFW, qSB] ++ partnersOf s) 0xE00C 0 scope.toNat)

def execDbgGrant (w : Client) (s : State) : Host.Outcome State Fault Refusal :=
  .next (runReq s w 0x0A02 (· == 256) (fun _ => true) (fun s ps => dbgGrant s ps))

/-! ## The store (R558) -/

/-- STORE_INIT: accepted only while the boot is stopped with STORE_BLANK; the conditioning ends with OP_DONE. -/
def execStoreInit (w : Client) (s : State) : Host.Outcome State Fault Refusal :=
  .next (runReq s w 0x0A03 (· == 4) (fun _ => true) (fun s ps =>
    if s.boot.phase ≠ .stopped ∨ s.boot.stop ≠ 2 then (some (.of .locked), s)
    else if natAt ps 0 4 ≠ bn 0 32 s.fuses.dieId then (some (.of .malformed), s)
    else
      match heldBusy s (8, 0) with
      | some x => (some x, s)
      | none => startReply s 0x0A03 (clientCode w) (8, 0) (fun _ s => s)))

/-! ## The end of operations (R525) -/

/-- What an operation still does when its work has ended: an erased slot takes data (R552); a store is conditioned in every band
and ring (R558). -/
def opWork (s : State) (h : Nat) (x : Op) (ok : Bool) : State :=
  if x.cmd = 0x0901 then
    { s with waitos := { s.waitos with session := s.waitos.session.map (fun y => if y.handle = h then { y with erased := y.erased || ok } else y) } }
  else if x.cmd = 0x0A03 ∧ ok = true then
    let t := conditionStore s
    { t with store := { t.store with wear := s.store.wear + 2 * nPairs s * 32768 } }
  else s

/-- OP_DONE of a bank retirement whose clone has ended: the old site, under the number that replaced it, is retired (R540). -/
def retireDone (s : State) (h : Nat) (x : Op) : State :=
  if bankState s x.obj.2 = 4 then
    let s := retireNow s h x.obj.2
    match getOp s h with
    | some y => if y.st = 0 then endOp s h y.st y.progress else s
    | none => s
  else s

/-- OP_DONE (R525): a running operation ends, with the result that is known of it, else with the one given. Calibration,
self-test and REBALANCE end with their own commands; a retirement and a replication end when their clones have; a package waits
for its tick; a lane calibration ends once its lanes have run, or its port can run none (R535). -/
def opEnds (s : State) (h : Nat) (st : BitVec 4) (progress : Word) : State :=
  match getOp s h with
  | none => s
  | some x =>
    if !opRuns x || x.cmd == 0x0302 || x.cmd == 0x0501 || x.cmd == 0x0701 then s
    else if x.st ≠ 0xF then
      (if (match s.waitos.session with | some y => y.verified && y.handle == h | none => false) then s else endOp s h x.st x.progress)
    else if x.cmd = 0x0502 then retireDone s h x
    else if x.cmd = 0x0601 then (if x.data.all (fun b => bankState s b == 1) then writeReplica s h x.obj.2 x.data else s)
    else
      let code : BitVec 4 := if st = 0xF then 14 else st
      if x.cmd = 0x0303 then
        let p := getPort s x.obj.2
        if x.data.isEmpty && p.cal.isNone then endOp s h 0 x.progress
        else if p.st = pACTIVE ∧ p.calen = true then s
        else endOp s h code x.progress
      else endOp (opWork s h x (code == 0)) h code progress

/-- OP_DONE of a handle; of handle 0, the first operation that a reset has let resume ends, if it can (R525). -/
def opDone (s : State) (h : Nat) (st : BitVec 4) (progress : Word) : State :=
  if h ≠ 0 then opEnds s h st progress
  else
    match s.waitos.resumed with
    | [] => s
    | x :: rest =>
      let t := opEnds (setOp { s with waitos := { s.waitos with resumed := rest } } 0 (some x)) 0 st progress
      match getOp t 0 with
      | some y => if opRuns y then s else setOp t 0 none
      | none => t

def execOpDone (h : Nat) (status : BitVec 4) (progress : BitVec 64) (s : State) : Host.Outcome State Fault Refusal := .next (opDone s h status progress)

end Sys2Proof.Machine
end

