-- ==== Sys2Proof/Machine/Sideband.lean ====
section
/-! DEFINITION. The sideband target's own messages, the test access port, and the share-window tick (R280, R300, R309, R311, R325, R504, R508, R516, R578, R582, R609). -/

namespace Sys2Proof.Machine

open Sys2Proof

/-! ## MCTP control (R516)

R516 names the messages; their codes and layouts are those of the MCTP base specification (PRESUMED, log entry 96). -/

/-- A control response on the sideband: command code, completion code, data. -/
def mctpAnswer (s : State) (code : Nat) (done : Nat) (data : List Byte) : State :=
  { s with waitos := { s.waitos with sbTx := s.waitos.sbTx ++ [(0, sbPackets ([BitVec.ofNat 8 code, BitVec.ofNat 8 done] ++ data))] } }

/-- MCTP_CONTROL. Version numbers are not given; they are free values. -/
def mctp (s : State) (m : MctpCmd) : State :=
  match m with
  | .setEid e =>
    if e = 0 ∨ e = 0xFF then mctpAnswer s 1 2 []
    else mctpAnswer { s with waitos := { s.waitos with eid := e } } 1 0 [0, e, 0]
  | .getEid => mctpAnswer s 2 0 [s.waitos.eid, 0, 0]
  | .getVersion t =>
    if t = 0xFF ∨ t = 0 ∨ t = 0x7F then let (v, s) := fresh s; mctpAnswer s 4 0 (1 :: toBytes 4 v) else mctpAnswer s 4 0x80 []
  | .getMsgTypes => mctpAnswer s 5 0 [1, 0x7F]
  | .getVendor sel => if sel = 0 then let (v, s) := fresh s; mctpAnswer s 6 0 ([0xFF, 1] ++ enterprise ++ toBytes 2 v) else mctpAnswer s 6 2 []
  | .other c => mctpAnswer s c.toNat 5 []

def execMctpControl (m : MctpCmd) (s : State) : Host.Outcome State Fault Refusal := .next (if powered s then mctp s m else s)

/-- DYNAMIC_ADDRESS (R516): by ENTDAA or SETDASA. -/
def execDynamicAddress (_setdasa : Bool) (addr : BitVec 7) (s : State) : Host.Outcome State Fault Refusal :=
  .next (if powered s then { s with waitos := { s.waitos with dynAddr := addr, dynSet := true } } else s)

/-! ## The test access port (R508, R509, R582) -/

/-- The instruction register (0 BYPASS, 1 SAMPLE, 2 PRELOAD, 3 EXTEST, 4 internal read, 5 internal write) and the value that the
selected data register holds. -/
def setTap (s : State) (ir : Nat) (dr : Word) : State := { s with waitos := { s.waitos with tapIr := ir, tapDr := dr } }

/-- TAP_INSTRUCTION: the mandatory instructions always; an internal access only under a grant of its scope bit. What SAMPLE
captures is open: no rule lays out the boundary register. -/
def tap (s : State) (t : TapOp) : State :=
  match t with
  | .bypass => setTap s 0 0
  | .sample => let (v, s) := fresh s; setTap s 1 v
  | .preload v => setTap s 2 v
  | .extest => setTap s 3 s.waitos.tapDr
  | .internalRead off => if grantBit s 0 then let (v, _, s) := regRead s .jtag off.toNat; setTap s 4 (v.setWidth 64) else s
  | .internalWrite off v => if grantBit s 1 then setTap (regWrite s .jtag off.toNat v).2 5 (v.setWidth 64) else s

def execTapInstruction (t : TapOp) (s : State) : Host.Outcome State Fault Refusal := .next (if powered s then tap s t else s)

/-! ## The share-window tick -/

/-- STROKE (R300): a setpoint transition moves on, committed share tables and packages take effect, every credit counter is
refilled, a new stroke of credit pacing begins, the tally audits every pool, and a waiting GSNAP latches. -/
def stroke (s : State) : State :=
  let s := { s with clock := { s.clock with strokes := s.clock.strokes + 1 } }
  latchAll (auditAll (paceAll (refillAll (finishPackage (switchTables (voltageTick s))))))

def execStroke (s : State) : Host.Outcome State Fault Refusal := .next (if s.clock.running then stroke s else s)

end Sys2Proof.Machine
end

