-- ==== Sys2Proof/Machine/Dispatch.lean ====
section
/-! DEFINITION. The meaning of each command: one arm for each constructor of Instr. -/

namespace Sys2Proof.Machine

open Sys2Proof

def exec (i : Instr) (s : State) : Host.Outcome State Fault Refusal :=
  match i with
  | .powerUp e => Sys2Proof.Machine.execPowerUp e s
  | .pwrgdDrop lowNs => Sys2Proof.Machine.execPwrgdDrop lowNs s
  | .rstN high lowNs => Sys2Proof.Machine.execRstN high lowNs s
  | .pfail lowNs => Sys2Proof.Machine.execPfail lowNs s
  | .fenceClose => Sys2Proof.Machine.execFenceClose s
  | .saveComplete => Sys2Proof.Machine.execSaveComplete s
  | .holdEnd => Sys2Proof.Machine.execHoldEnd s
  | .vholdFloor => Sys2Proof.Machine.execVholdFloor s
  | .pfailRise vhok => Sys2Proof.Machine.execPfailRise vhok s
  | .saveBegun k => Sys2Proof.Machine.execSaveBegun k s
  | .srch p => Sys2Proof.Machine.execSrch p s
  | .matchStep tok step => Sys2Proof.Machine.execMatchStep tok step s
  | .disagreementResolution tok step => Sys2Proof.Machine.execDisagreementResolution tok step s
  | .repairWrite e => Sys2Proof.Machine.execRepairWrite e s
  | .indexStep tok step => Sys2Proof.Machine.execIndexStep tok step s
  | .levelEnd tok => Sys2Proof.Machine.execLevelEnd tok s
  | .srsp tok => Sys2Proof.Machine.execSrsp tok s
  | .lateWatchdog tok => Sys2Proof.Machine.execLateWatchdog tok s
  | .tokenRetire tok => Sys2Proof.Machine.execTokenRetire tok s
  | .fwd k => Sys2Proof.Machine.execFwd k s
  | .probe k => Sys2Proof.Machine.execProbe k s
  | .fans k => Sys2Proof.Machine.execFans k s
  | .pans k => Sys2Proof.Machine.execPans k s
  | .stroke => Sys2Proof.Machine.execStroke s
  | .arbiterDecision arb present => Sys2Proof.Machine.execArbiterDecision arb present s
  | .stallCutoff arb => Sys2Proof.Machine.execStallCutoff arb s
  | .dfrz who k v => Sys2Proof.Machine.execDfrz who k v s
  | .freezeTimeout g => Sys2Proof.Machine.execFreezeTimeout g s
  | .snap who => Sys2Proof.Machine.execSnap who s
  | .clr who => Sys2Proof.Machine.execClr who s
  | .commit who t => Sys2Proof.Machine.execCommit who t s
  | .autowarm => Sys2Proof.Machine.execAutowarm s
  | .audit who => Sys2Proof.Machine.execAudit who s
  | .tsnap who => Sys2Proof.Machine.execTsnap who s
  | .flit p bytes => Sys2Proof.Machine.execFlit p bytes s
  | .cred p => Sys2Proof.Machine.execCred p s
  | .creditReturn p => Sys2Proof.Machine.execCreditReturn p s
  | .temp p => Sys2Proof.Machine.execTemp p s
  | .flushed p => Sys2Proof.Machine.execFlushed p s
  | .resetReq p => Sys2Proof.Machine.execResetReq p s
  | .hello p => Sys2Proof.Machine.execHello p s
  | .mgmt src => Sys2Proof.Machine.execMgmt src s
  | .evt p => Sys2Proof.Machine.execEvt p s
  | .flitCrcError p => Sys2Proof.Machine.execFlitCrcError p s
  | .retrain p => Sys2Proof.Machine.execRetrain p s
  | .retrainLimit p => Sys2Proof.Machine.execRetrainLimit p s
  | .linkReset p => Sys2Proof.Machine.execLinkReset p s
  | .preset who p => Sys2Proof.Machine.execPreset who p s
  | .linkTrained p rate tx rx => Sys2Proof.Machine.execLinkTrained p rate tx rx s
  | .trainingFailure p => Sys2Proof.Machine.execTrainingFailure p s
  | .trainingRetry p => Sys2Proof.Machine.execTrainingRetry p s
  | .laneShift p lane rx => Sys2Proof.Machine.execLaneShift p lane rx s
  | .laneShiftAck p => Sys2Proof.Machine.execLaneShiftAck p s
  | .laneCalTimeout p => Sys2Proof.Machine.execLaneCalTimeout p s
  | .laneCalibrated p margin => Sys2Proof.Machine.execLaneCalibrated p margin s
  | .crewReady k => Sys2Proof.Machine.execCrewReady k s
  | .crewReadyTimeout => Sys2Proof.Machine.execCrewReadyTimeout s
  | .links k => Sys2Proof.Machine.execLinks k s
  | .linksPeriod => Sys2Proof.Machine.execLinksPeriod s
  | .crewReset k => Sys2Proof.Machine.execCrewReset k s
  | .rebal k => Sys2Proof.Machine.execRebal k s
  | .rebalAck k => Sys2Proof.Machine.execRebalAck k s
  | .rebalRetire => Sys2Proof.Machine.execRebalRetire s
  | .crewrst who => Sys2Proof.Machine.execCrewrst who s
  | .insert e => Sys2Proof.Machine.execInsert e s
  | .delete e => Sys2Proof.Machine.execDelete e s
  | .deleteIfIdle e => Sys2Proof.Machine.execDeleteIfIdle e s
  | .write e => Sys2Proof.Machine.execWrite e s
  | .read e => Sys2Proof.Machine.execRead e s
  | .repoint e budget => Sys2Proof.Machine.execRepoint e budget s
  | .hsweep e => Sys2Proof.Machine.execHsweep e s
  | .bankClone e => Sys2Proof.Machine.execBankClone e s
  | .cloneComplete e => Sys2Proof.Machine.execCloneComplete e s
  | .bankRetire e => Sys2Proof.Machine.execBankRetire e s
  | .bulkOpen e => Sys2Proof.Machine.execBulkOpen e s
  | .bulkRecord p => Sys2Proof.Machine.execBulkRecord p s
  | .dumpEntry p k => Sys2Proof.Machine.execDumpEntry p k s
  | .bulkClose e => Sys2Proof.Machine.execBulkClose e s
  | .iread e => Sys2Proof.Machine.execIread e s
  | .iwrite e => Sys2Proof.Machine.execIwrite e s
  | .ifield e => Sys2Proof.Machine.execIfield e s
  | .icas e => Sys2Proof.Machine.execIcas e s
  | .learnNote e => Sys2Proof.Machine.execLearnNote e s
  | .gateDrained g => Sys2Proof.Machine.execGateDrained g s
  | .replicaRelease d => Sys2Proof.Machine.execReplicaRelease d s
  | .mapBind e => Sys2Proof.Machine.execMapBind e s
  | .mapRelease e => Sys2Proof.Machine.execMapRelease e s
  | .mapPoison e => Sys2Proof.Machine.execMapPoison e s
  | .heatSet e => Sys2Proof.Machine.execHeatSet e s
  | .migBegin e => Sys2Proof.Machine.execMigBegin e s
  | .migCursor e => Sys2Proof.Machine.execMigCursor e s
  | .migCopied e => Sys2Proof.Machine.execMigCopied e s
  | .mapSwitch e => Sys2Proof.Machine.execMapSwitch e s
  | .migAbort e => Sys2Proof.Machine.execMigAbort e s
  | .logOpen e => Sys2Proof.Machine.execLogOpen e s
  | .logClose e => Sys2Proof.Machine.execLogClose e s
  | .logFree e => Sys2Proof.Machine.execLogFree e s
  | .logRepoint e budget => Sys2Proof.Machine.execLogRepoint e budget s
  | .conditionBegin e => Sys2Proof.Machine.execConditionBegin e s
  | .conditionDone e => Sys2Proof.Machine.execConditionDone e s
  | .refreshDone e => Sys2Proof.Machine.execRefreshDone e s
  | .memberFail e => Sys2Proof.Machine.execMemberFail e s
  | .rebuildAdvance e => Sys2Proof.Machine.execRebuildAdvance e s
  | .ovlPut e => Sys2Proof.Machine.execOvlPut e s
  | .ovlDrop e => Sys2Proof.Machine.execOvlDrop e s
  | .spareReserveRefill => Sys2Proof.Machine.execSpareReserveRefill s
  | .conditionQueueScan => Sys2Proof.Machine.execConditionQueueScan s
  | .refreshScan => Sys2Proof.Machine.execRefreshScan s
  | .wearBinUpdate => Sys2Proof.Machine.execWearBinUpdate s
  | .heatHalving => Sys2Proof.Machine.execHeatHalving s
  | .markerCountReading => Sys2Proof.Machine.execMarkerCountReading s
  | .composerGenerationCommit => Sys2Proof.Machine.execComposerGenerationCommit s
  | .epoch => Sys2Proof.Machine.execEpoch s
  | .refclkFault => Sys2Proof.Machine.execRefclkFault s
  | .refclkRestore => Sys2Proof.Machine.execRefclkRestore s
  | .refreshGroup bank => Sys2Proof.Machine.execRefreshGroup bank s
  | .refreshGuard => Sys2Proof.Machine.execRefreshGuard s
  | .guardReading => Sys2Proof.Machine.execGuardReading s
  | .readingDemand => Sys2Proof.Machine.execReadingDemand s
  | .demand who => Sys2Proof.Machine.execDemand who s
  | .conversionDone raw => Sys2Proof.Machine.execConversionDone raw s
  | .conversionTimeout => Sys2Proof.Machine.execConversionTimeout s
  | .bandWrite who band => Sys2Proof.Machine.execBandWrite who band s
  | .diodeRetry => Sys2Proof.Machine.execDiodeRetry s
  | .bandConfirm => Sys2Proof.Machine.execBandConfirm s
  | .calibration => Sys2Proof.Machine.execCalibration s
  | .calibrationDone => Sys2Proof.Machine.execCalibrationDone s
  | .calnow who => Sys2Proof.Machine.execCalnow who s
  | .calDeferred => Sys2Proof.Machine.execCalDeferred s
  | .mediaStaleCheck => Sys2Proof.Machine.execMediaStaleCheck s
  | .trackerReport => Sys2Proof.Machine.execTrackerReport s
  | .writeBack addr => Sys2Proof.Machine.execWriteBack addr s
  | .trackerAgeOut idx => Sys2Proof.Machine.execTrackerAgeOut idx s
  | .rowSparing addr => Sys2Proof.Machine.execRowSparing addr s
  | .columnSparing addr bit => Sys2Proof.Machine.execColumnSparing addr bit s
  | .fieldRepairProgram ok0 ok1 => Sys2Proof.Machine.execFieldRepairProgram ok0 ok1 s
  | .coalescerIssue key => Sys2Proof.Machine.execCoalescerIssue key s
  | .bankScrub e => Sys2Proof.Machine.execBankScrub e s
  | .sramScrub e => Sys2Proof.Machine.execSramScrub e s
  | .rederive => Sys2Proof.Machine.execRederive s
  | .romTrap core copy word both => Sys2Proof.Machine.execRomTrap core copy word both s
  | .dataSramTrap r => Sys2Proof.Machine.execDataSramTrap r s
  | .channelHalt c => Sys2Proof.Machine.execChannelHalt c s
  | .selfTestRotation => Sys2Proof.Machine.execSelfTestRotation s
  | .bankSelfTest bank result => Sys2Proof.Machine.execBankSelfTest bank result s
  | .selfTestDone bank => Sys2Proof.Machine.execSelfTestDone bank s
  | .rawrd who => Sys2Proof.Machine.execRawrd who s
  | .rawwr who => Sys2Proof.Machine.execRawwr who s
  | .inject who => Sys2Proof.Machine.execInject who s
  | .trd who => Sys2Proof.Machine.execTrd who s
  | .twr who => Sys2Proof.Machine.execTwr who s
  | .disarm who => Sys2Proof.Machine.execDisarm who s
  | .pageFrameClose => Sys2Proof.Machine.execPageFrameClose s
  | .journalDrain => Sys2Proof.Machine.execJournalDrain s
  | .timeRecord => Sys2Proof.Machine.execTimeRecord s
  | .checkpointBegin => Sys2Proof.Machine.execCheckpointBegin s
  | .checkpointSegment => Sys2Proof.Machine.execCheckpointSegment s
  | .checkpointComplete => Sys2Proof.Machine.execCheckpointComplete s
  | .cknow who => Sys2Proof.Machine.execCknow who s
  | .bandCondition band => Sys2Proof.Machine.execBandCondition band s
  | .superblockRingCondition pair => Sys2Proof.Machine.execSuperblockRingCondition pair s
  | .storeBlockRetire die block => Sys2Proof.Machine.execStoreBlockRetire die block s
  | .storeDieFail die => Sys2Proof.Machine.execStoreDieFail die s
  | .setlock who => Sys2Proof.Machine.execSetlock who s
  | .retry who e => Sys2Proof.Machine.execRetry who e s
  | .debugExpiry => Sys2Proof.Machine.execDebugExpiry s
  | .getInfo w => Sys2Proof.Machine.execGetInfo w s
  | .opStatus w => Sys2Proof.Machine.execOpStatus w s
  | .getKeyslots w => Sys2Proof.Machine.execGetKeyslots w s
  | .dirRead w => Sys2Proof.Machine.execDirRead w s
  | .migInfo w => Sys2Proof.Machine.execMigInfo w s
  | .mread w => Sys2Proof.Machine.execMread w s
  | .mwrite w => Sys2Proof.Machine.execMwrite w s
  | .ctxRead w => Sys2Proof.Machine.execCtxRead w s
  | .ctxWrite w => Sys2Proof.Machine.execCtxWrite w s
  | .ctxCas w => Sys2Proof.Machine.execCtxCas w s
  | .tempRead w => Sys2Proof.Machine.execTempRead w s
  | .diodeCal w => Sys2Proof.Machine.execDiodeCal w s
  | .laneCal w => Sys2Proof.Machine.execLaneCal w s
  | .scrubSet w => Sys2Proof.Machine.execScrubSet w s
  | .scrubNow w => Sys2Proof.Machine.execScrubNow w s
  | .bankTest w => Sys2Proof.Machine.execBankTest w s
  | .waitosBankRetire w => Sys2Proof.Machine.execWaitosBankRetire w s
  | .cellSpare w => Sys2Proof.Machine.execCellSpare w s
  | .replicate w => Sys2Proof.Machine.execReplicate w s
  | .grow w => Sys2Proof.Machine.execGrow w s
  | .autoSet w => Sys2Proof.Machine.execAutoSet w s
  | .rebalBegin w => Sys2Proof.Machine.execRebalBegin w s
  | .rebalReport w => Sys2Proof.Machine.execRebalReport w s
  | .portResetCommand w => Sys2Proof.Machine.execPortResetCommand w s
  | .warmResetCommand w => Sys2Proof.Machine.execWarmResetCommand w s
  | .crewResetCommand w => Sys2Proof.Machine.execCrewResetCommand w s
  | .timeAdvance w => Sys2Proof.Machine.execTimeAdvance w s
  | .imgBegin w => Sys2Proof.Machine.execImgBegin w s
  | .imgData w => Sys2Proof.Machine.execImgData w s
  | .imgCommit w => Sys2Proof.Machine.execImgCommit w s
  | .imgAbort w => Sys2Proof.Machine.execImgAbort w s
  | .imgSessionTimeout => Sys2Proof.Machine.execImgSessionTimeout s
  | .dbgNonce w => Sys2Proof.Machine.execDbgNonce w s
  | .dbgGrant w => Sys2Proof.Machine.execDbgGrant w s
  | .storeInit w => Sys2Proof.Machine.execStoreInit w s
  | .opDone h status progress => Sys2Proof.Machine.execOpDone h status progress s
  | .handleFree h => Sys2Proof.Machine.execHandleFree h s
  | .recordClose q => Sys2Proof.Machine.execRecordClose q s
  | .eqhead who q => Sys2Proof.Machine.execEqhead who q s
  | .eqpop who q v => Sys2Proof.Machine.execEqpop who q v s
  | .lclr who q => Sys2Proof.Machine.execLclr who q s
  | .gsnap who => Sys2Proof.Machine.execGsnap who s
  | .freeze who v => Sys2Proof.Machine.execFreeze who v s
  | .trclr who => Sys2Proof.Machine.execTrclr who s
  | .wideRead who off => Sys2Proof.Machine.execWideRead who off s
  | .registerWrite who off v => Sys2Proof.Machine.execRegisterWrite who off v s
  | .voltageRequest => Sys2Proof.Machine.execVoltageRequest s
  | .vreq who code => Sys2Proof.Machine.execVreq who code s
  | .coreLost core => Sys2Proof.Machine.execCoreLost core s
  | .romScrub b => Sys2Proof.Machine.execRomScrub b s
  | .mctpControl m => Sys2Proof.Machine.execMctpControl m s
  | .dynamicAddress setdasa addr => Sys2Proof.Machine.execDynamicAddress setdasa addr s
  | .tapInstruction t => Sys2Proof.Machine.execTapInstruction t s

end Sys2Proof.Machine
end

