-- ==== Sys2Proof/Safety.lean ====
section
/-! DEFINITION. What a safe run of the block is, and the parts of the state: the terms the statements use. -/

namespace Sys2Proof.Machine

open Sys2Proof

/-- A command completes from a state: exec answers a next state, neither a fault nor a refusal. -/
def Completes (c : Instr) (s : State) : Prop := ∃ t, exec c s = .next t

/-- A command completes from a state, and P holds of the state that it leaves. -/
def Gives (c : Instr) (s : State) (P : State → Prop) : Prop := ∃ t, exec c s = .next t ∧ P t

/-- A state from which the next step does not stop. -/
def SafeStep (s : State) : Prop := ∃ t, step s = .next t

/-- The parts of the state, one for each field of State. -/
inductive Part where
  | pins | clock | power | boot | fuses | flash | prot | dbg | str | tcam | marker | sram | search | update | life | ports | arbs | tally | journal | store | holdup | therm | integ | waitos | crew | events | mgmt | free | pending
deriving DecidableEq, Repr

/-- Two states agree on a part. -/
def Part.same (s t : State) : Part → Prop
  | .pins => t.pins = s.pins
  | .clock => t.clock = s.clock
  | .power => t.power = s.power
  | .boot => t.boot = s.boot
  | .fuses => t.fuses = s.fuses
  | .flash => t.flash = s.flash
  | .prot => t.prot = s.prot
  | .dbg => t.dbg = s.dbg
  | .str => t.str = s.str
  | .tcam => t.tcam = s.tcam
  | .marker => t.marker = s.marker
  | .sram => t.sram = s.sram
  | .search => t.search = s.search
  | .update => t.update = s.update
  | .life => t.life = s.life
  | .ports => t.ports = s.ports
  | .arbs => t.arbs = s.arbs
  | .tally => t.tally = s.tally
  | .journal => t.journal = s.journal
  | .store => t.store = s.store
  | .holdup => t.holdup = s.holdup
  | .therm => t.therm = s.therm
  | .integ => t.integ = s.integ
  | .waitos => t.waitos = s.waitos
  | .crew => t.crew = s.crew
  | .events => t.events = s.events
  | .mgmt => t.mgmt = s.mgmt
  | .free => t.free = s.free
  | .pending => t.pending = s.pending

/-- t agrees with s on every part that ps does not name: the frame of a command that may change ps. -/
structure SameBut (ps : List Part) (s t : State) : Prop where
  same : ∀ p, p ∉ ps → p.same s t

/-- The head command c of engine e ends in state s with answer r: it leaves its queue, is traced under its source, and is
answered the way it came (R146, R149). -/
def done (s : State) (e : Nat) (c : TCmd) (src : Nat) (r : TRsp) : State := answer (trace (popQueue s e) src) c.via (fill c r)

/-- Engine e comes to the command c of opcode opc, which needs the reservations that need names (R89, R158, R321): c is at the head
of its queue and has made no move; no repair write goes before it; no engine holds a reservation, or c may still start and none that
it needs is taken; the engine has begun no bulk record; and no bank that c touches is frozen (R34, R312). -/
structure AtHead (s : State) (e opc : Nat) (need : State → TCmd → List Nat) (c : TCmd) : Prop where
  head : headCmd s e opc = some c
  repaired : c.issuer < 8 → sget [] s.tcam.repairs e = []
  unmoved : (getEng s e).moves = 0
  may : s.update.eng.all (fun x => x.2.held.isEmpty) = true ∨
    ((getEng s e).restarts + (if mustRestart (getEng s e) (need s c) then 1 else 0) < 4 ∧ (need s c).any (resTaken s e) = false)
  alone : (getEng s e).record = none
  thawed : waitsFrozen s c = false

/-- A command completes from a state, P holds of what it leaves, and then the self-tests that wait and can start do so (R405). -/
def GivesTests (c : Instr) (s : State) (P : State → Prop) : Prop := ∃ t, exec c s = .next (startTests t) ∧ P t

/-- Step i of token tok stands in t as P says of the token and the step. -/
def StepIs (t : State) (tok i : Nat) (P : Token → StepRun → Prop) : Prop := ∃ tk, getTok t tok = some tk ∧ P tk (stepAt tk i)

/-- A step has ended with the winner x as its outcome: its result word, and its place and TAG, which a ROUTE step does not give
(R57, R62, R109). -/
structure HitBy (route : Bool) (x : Seen) (y : StepRun) : Prop where
  ended : y.ph = .ended
  hit : y.hit = true
  sound : y.fail = none
  word : y.o0 = x.res
  place : y.o1 = if route then 0 else
    bput 64 0 (x.bank * 4096 + x.win.slot) ||| bput 64 24 x.win.half ||| bput 64 25 x.win.tag ||| bput 64 32 0

/-- A step has ended without a hit, with a failure or with none. -/
structure MissBy (f : Option Status) (y : StepRun) : Prop where
  ended : y.ph = .ended
  hit : y.hit = false
  fail : y.fail = f

/-- A winner is read back sound and validates (R57, R87). -/
def Seen.good (x : Seen) : Bool := x.ok && x.par

/-- The bank of x is probed again with the slot of x masked (R87, R90). -/
def reprobe (s : State) (w : Nat) (snap : BitVec 64) (key : BitVec 192) (x : Seen) : Option Win :=
  probe s w x.bank x.site x.odd snap key (some (x.win.slot, x.win.half))

/-- The answer x of a twin pair has been used to repair bank o, on which one disagreement is counted, and none on x's own, in the
period that device time stands in (R87, R89, R409). -/
structure TwinRepaired (s t : State) (x : Seen) (o : Nat) : Prop where
  queued : ∃ r, sget [] t.tcam.repairs (octantOf (siteOf s o) % 8) = sget [] s.tcam.repairs (octantOf (siteOf s o) % 8) ++ [r] ∧
    r.src = x.bank ∧ r.dst = o ∧ r.slot = x.win.slot ∧ r.half = x.win.half ∧ r.rword = x.res ∧ r.chk = x.chk ∧ r.scrub = false
  counted : sget 0 t.tcam.disag o = satInc (sget 0 (newEpoch s).tcam.disag o)
  own : sget 0 t.tcam.disag x.bank = sget 0 (newEpoch s).tcam.disag x.bank

/-- Rules 1 and 2 of R148 for a lifecycle command that names the rows rs and whose sender is permitted when ok says so. -/
def lifeRefusal (s : State) (c : TCmd) (rs : List (Nat × Nat)) (ok : Bool) : Option Status :=
  firstStatus [(decide (cNeed s c ≠ some (cCont c)) || !rowsOk s rs, .malformed), (decide (c.issuer = qSB) || !ok, .notOwner)]

/-- Engine e comes to the lifecycle command c of opcode opc and may look at its rows rs: rules 1 and 2 pass, no coalescer entry waits
on them, no drain holds them, they are readable, and an injection armed for one of their words is one that a read corrects
(R148, R228, R371, R387, R411). -/
structure LifeReady (s : State) (e opc : Nat) (c : TCmd) (rs : List (Nat × Nat)) (ok : Bool) : Prop where
  head : AtHead s e opc (lifeNeed (fun _ _ => rs)) c
  allowed : lifeRefusal s c rs ok = none
  quiet : ∀ x ∈ rs, ∀ k ∈ rowKeys s x.1 x.2, sget none s.sram.coal k = none
  unheld : rowsHeld s (rs.filterMap (fun x => if x.1 = tBINF then some x.2 else none))
    (rs.filterMap (fun x => if x.1 = tBMAP then some x.2 else none)) = false
  readable : rs.any (fun x => rowBad s x.1 x.2) = false
  steady : ∀ x ∈ rs, ∀ k ∈ rowKeys s x.1 x.2, (secDec (cell s k)).data = (peek s k).data

/-- The journal takes a LIFE record and the records of n index words in one group (R33, R422, R423); what the words say takes
no part in it. -/
def LifeRoom (s : State) (c : TCmd) (n : Nat) : Prop :=
  (jAdmit s [lifeRec s c 0 :: List.replicate n (JRec.iword 0 0 0 0)]).1 = true

/-- The command x of engine e, whose operands are c, is answered OK under the next JSN; every word of ws stands in its place
with correct check bits, and no other SRAM word has changed. -/
def LifeOk (x : Instr) (s : State) (e : Nat) (c : TCmd) (ws : List RowWrite) : Prop :=
  ∃ s2 r, exec x s = .next (done s2 e c 1 r) ∧ r.st = .ok ∧ r.jsn = s.journal.last + 1 ∧
    s2.journal.last = s.journal.last + 1 ∧
    (∀ w ∈ ws, cell s2 (rowKey s w.1 w.2.1 w.2.2.1) = secEnc w.2.2.2) ∧
    (∀ k, k ∉ ws.map (fun w => rowKey s w.1 w.2.1 w.2.2.1) → cell s2 k = cell s k)

/-- The hold-up save has begun in t, from state s (R268, R438): phase and time are latched, every port whose domain is on
carries HOLD, a port that has sent READY is fenced, and nothing durable has changed. -/
structure SaveBegan (s t : State) : Prop where
  phase : t.holdup.ph = 1
  time : t.holdup.pftime = s.clock.time
  state : t.power.pstate = 2
  holds : ∀ p < 11, (getPort t p).hold = decide ((getPort s p).st ≠ pOFF) ∧ (getPort t p).fenced = (getPort s p).ready
  journal : t.journal = s.journal
  store : t.store = s.store
  sram : t.sram = s.sram
  tcam : t.tcam = s.tcam

/-- A demand for a reading has been made (R456): a conversion starts when none runs and none has started for 200 µs; within them the
demand waits, and the conversion of an earlier demand that waited so has begun when they ended; while one runs the demand waits. -/
structure DemandMade (s t : State) : Prop where
  starts : s.therm.conv = false → s.therm.held = false → s.therm.waiting = false →
    (s.therm.startedSet = false ∨ s.therm.started + 200000 ≤ now s) → t.therm.conv = true ∧ t.therm.started = now s ∧ t.therm.waiting = false
  spaced : s.therm.conv = false → s.therm.startedSet = true → now s < s.therm.started + 200000 →
    t.therm.conv = false ∧ t.therm.waiting = true
  due : s.therm.conv = false → s.therm.held = false → s.therm.waiting = true → s.therm.startedSet = true → s.therm.started + 200000 ≤ now s →
    t.therm.conv = true ∧ t.therm.started = s.therm.started + 200000 ∧ t.therm.waiting = true
  waits : s.therm.conv = true → t.therm.conv = true ∧ t.therm.waiting = true
  frame : SameBut [.therm] s t

/-- The request r at the head of w's queue, with command code n and parameters ps, is one that Waitos executes now (R518,
R520, R521, R559): it is laid out as it must be, its requester may issue it, and the device state admits it. -/
structure Asked (s : State) (w : Client) (n : Nat) (r : Req) (ps : List Byte) : Prop where
  head : (reqsOf s w).head? = some r
  code : rCmd r = n
  runs : waitosRuns s = true
  formed : reqFormed r = true
  params : rParams r = ps
  may : permitted w n = true
  admitted : stateBusy s n (imgTarget s r) = none

/-- The command c answers the request r of w with x, in state t: the answer is sent and the request leaves its queue (R519,
R521). -/
def Answers (c : Instr) (s : State) (w : Client) (r : Req) (x : Reply) (t : State) : Prop :=
  exec c s = .next (popReq (sendReply t w r x) w)

/-- The commands by which Waitos executes a request: the requester and the command code (R527). -/
def waitosCommand : Instr → Option (Client × Nat)
  | .getInfo w => some (w, 0x0001)
  | .opStatus w => some (w, 0x0002)
  | .getKeyslots w => some (w, 0x0003)
  | .dirRead w => some (w, 0x0004)
  | .migInfo w => some (w, 0x0005)
  | .mread w => some (w, 0x0101)
  | .mwrite w => some (w, 0x0102)
  | .ctxRead w => some (w, 0x0201)
  | .ctxWrite w => some (w, 0x0202)
  | .ctxCas w => some (w, 0x0203)
  | .tempRead w => some (w, 0x0301)
  | .diodeCal w => some (w, 0x0302)
  | .laneCal w => some (w, 0x0303)
  | .scrubSet w => some (w, 0x0401)
  | .scrubNow w => some (w, 0x0402)
  | .bankTest w => some (w, 0x0501)
  | .waitosBankRetire w => some (w, 0x0502)
  | .cellSpare w => some (w, 0x0503)
  | .replicate w => some (w, 0x0601)
  | .grow w => some (w, 0x0602)
  | .autoSet w => some (w, 0x0603)
  | .rebalBegin w => some (w, 0x0701)
  | .rebalReport w => some (w, 0x0702)
  | .portResetCommand w => some (w, 0x0801)
  | .warmResetCommand w => some (w, 0x0802)
  | .crewResetCommand w => some (w, 0x0803)
  | .timeAdvance w => some (w, 0x0804)
  | .imgBegin w => some (w, 0x0901)
  | .imgData w => some (w, 0x0902)
  | .imgCommit w => some (w, 0x0903)
  | .imgAbort w => some (w, 0x0904)
  | .dbgNonce w => some (w, 0x0A01)
  | .dbgGrant w => some (w, 0x0A02)
  | .storeInit w => some (w, 0x0A03)
  | _ => none

/-- Port p is in its next incarnation, in training, with nothing of the old one (R293). -/
structure PortRenewed (s t : State) (p : Nat) : Prop where
  training : (getPort t p).st = pTRAINING
  incarn : (getPort t p).incarn = (getPort s p).incarn + 1
  quiet : (getPort t p).ready = false
  tags : (getPort t p).tags = [] ∧ (getPort t p).ctags = [] ∧ (getPort t p).exch = []
  credits : (getPort t p).grants = [] ∧ (getPort t p).helds = []
  nonce : t.dbg.granted = false

/-- The memories of the die, SRAM words, page valid bits and TCAM rows, are in canonical form. -/
def MemoryCanonical (s : State) : Prop :=
  swf (⟨0, 0⟩ : Cw) none s.sram.words = true ∧ swf 0 none s.sram.pages = true ∧ swf TRow.blank none s.tcam.rows = true

/-- Fuses are only ever blown: what is programmed in f is programmed in g (R483, R488, R489). -/
structure FusesGrow (f g : Fuses) : Prop where
  initDone : f.initDone = true → g.initDone = true
  revoke0 : f.revoke0 = true → g.revoke0 = true
  rollback : f.rollback &&& g.rollback = f.rollback
  field : ∃ l, g.field = f.field ++ l
  dieId : g.dieId = f.dieId

/-- The parts that a command which may restart the die can change: all but the pins, the boot flash and the queue. -/
def Part.reset : List Part := [.clock, .power, .boot, .fuses, .prot, .dbg, .str, .tcam, .marker, .sram, .search, .update, .life, .ports, .arbs, .tally, .journal, .store, .holdup, .therm, .integ, .waitos, .crew, .events, .mgmt, .free]

/-- The parts of the state that each command may change, by the rules that give it its effect; the queue is never among them. -/
def touches : Instr → List Part
  | .powerUp _ => .pins :: Part.reset
  | .pwrgdDrop _ => [.pins, .power, .boot, .ports, .tally, .holdup, .waitos, .events, .mgmt, .free]
  | .rstN _ _ => [.pins, .clock, .power, .boot, .fuses, .prot, .dbg, .str, .tcam, .marker, .sram, .search, .update, .life, .ports, .arbs, .tally, .journal, .store, .holdup, .therm, .integ, .waitos, .crew, .events, .mgmt, .free]
  | .pfail _ => [.pins, .power, .boot, .ports, .tally, .holdup, .waitos, .events, .mgmt, .free]
  | .fenceClose => [.ports, .journal, .holdup]
  | .saveComplete => Part.reset
  | .holdEnd => Part.reset
  | .vholdFloor => Part.reset
  | .pfailRise _ => [.pins, .clock, .power, .boot, .dbg, .str, .tcam, .marker, .sram, .search, .update, .life, .ports, .arbs, .tally, .journal, .store, .holdup, .therm, .integ, .waitos, .crew, .events, .mgmt, .free]
  | .saveBegun _ => [.power, .boot, .ports, .tally, .holdup, .waitos, .events, .free]
  | .srch _ => [.marker, .sram, .search, .ports, .tally, .integ, .events, .mgmt, .free]
  | .matchStep _ _ => [.tcam, .sram, .search, .ports, .tally, .integ, .events, .mgmt, .free]
  | .disagreementResolution _ _ => [.clock, .tcam, .marker, .sram, .search, .update, .ports, .tally, .journal, .integ, .waitos, .events, .mgmt, .free]
  | .repairWrite _ => [.tcam, .sram, .integ, .events, .mgmt, .free]
  | .indexStep _ _ => [.sram, .search, .life, .integ, .events, .mgmt, .free]
  | .levelEnd _ => [.sram, .search, .life, .ports, .tally, .journal, .integ, .events, .mgmt, .free]
  | .srsp _ => [.search, .ports, .tally, .events, .mgmt, .free]
  | .lateWatchdog _ => [.search, .life, .ports, .tally, .events, .mgmt, .free]
  | .tokenRetire _ => [.search]
  | .fwd _ => [.marker, .sram, .search, .ports, .tally, .integ, .events, .mgmt, .free]
  | .probe _ => [.marker, .search, .ports, .tally, .integ, .events, .mgmt, .free]
  | .fans _ => [.search, .ports, .tally, .events, .mgmt, .free]
  | .pans _ => [.search, .ports, .tally, .events, .mgmt, .free]
  | .stroke => [.clock, .power, .boot, .str, .tcam, .marker, .sram, .search, .ports, .arbs, .tally, .waitos, .crew, .events, .mgmt, .free]
  | .arbiterDecision _ _ => [.tcam, .arbs, .events, .free]
  | .stallCutoff _ => [.tcam, .sram, .search, .update, .ports, .arbs, .tally, .waitos, .events, .mgmt, .free]
  | .dfrz _ _ _ => [.arbs]
  | .freezeTimeout _ => [.arbs, .events, .free]
  | .snap _ => [.arbs]
  | .clr _ => [.arbs]
  | .commit _ _ => [.str, .journal, .mgmt]
  | .autowarm => [.clock, .power, .boot, .dbg, .str, .tcam, .marker, .sram, .search, .update, .life, .ports, .arbs, .tally, .journal, .store, .holdup, .therm, .integ, .waitos, .crew, .events, .mgmt, .free]
  | .audit _ => [.tally, .events, .free]
  | .tsnap _ => [.tally]
  | .flit _ _ => [.update, .ports, .tally, .events, .mgmt, .free]
  | .cred _ => [.ports, .tally, .events, .mgmt, .free]
  | .creditReturn _ => [.power, .ports]
  | .temp _ => [.sram, .search, .ports, .tally, .journal, .therm, .integ, .events, .mgmt, .free]
  | .flushed _ => [.ports, .tally, .journal, .holdup, .events, .free]
  | .resetReq _ => [.dbg, .search, .update, .life, .ports, .tally, .crew, .events, .mgmt, .free]
  | .hello _ => [.dbg, .search, .update, .life, .ports, .tally, .crew, .events, .mgmt, .free]
  | .mgmt _ => [.ports, .tally, .waitos, .events, .mgmt, .free]
  | .evt _ => [.ports, .events]
  | .flitCrcError _ => [.mgmt]
  | .retrain _ => [.ports, .mgmt]
  | .retrainLimit _ => [.dbg, .search, .update, .life, .ports, .tally, .crew, .events, .mgmt, .free]
  | .linkReset _ => [.dbg, .search, .update, .life, .ports, .tally, .crew, .events, .mgmt, .free]
  | .preset _ _ => [.dbg, .search, .update, .life, .ports, .tally, .crew, .events, .mgmt, .free]
  | .linkTrained _ _ _ _ => [.ports, .tally, .events, .mgmt, .free]
  | .trainingFailure _ => [.ports, .events, .free]
  | .trainingRetry _ => [.ports]
  | .laneShift _ _ _ => [.ports, .waitos, .mgmt]
  | .laneShiftAck _ => [.ports, .waitos, .mgmt]
  | .laneCalTimeout _ => [.ports]
  | .laneCalibrated _ _ => [.ports, .waitos, .events, .mgmt, .free]
  | .crewReady _ => [.clock, .ports, .tally, .crew, .events, .mgmt, .free]
  | .crewReadyTimeout => [.ports, .crew, .events, .free]
  | .links _ => [.ports, .tally, .crew, .events, .free]
  | .linksPeriod => [.tcam, .marker, .sram, .search, .update, .life, .ports, .tally, .journal, .integ, .waitos, .crew, .events, .mgmt, .free]
  | .crewReset _ => [.clock, .power, .boot, .dbg, .str, .tcam, .marker, .sram, .search, .update, .life, .ports, .arbs, .tally, .journal, .store, .holdup, .therm, .integ, .waitos, .crew, .events, .mgmt, .free]
  | .rebal _ => [.tcam, .marker, .sram, .update, .ports, .tally, .journal, .integ, .waitos, .crew, .events, .mgmt, .free]
  | .rebalAck _ => [.tcam, .marker, .sram, .search, .update, .life, .ports, .tally, .journal, .integ, .waitos, .crew, .events, .mgmt, .free]
  | .rebalRetire => [.ports, .tally, .journal, .waitos, .crew, .events, .mgmt, .free]
  | .crewrst _ => [.clock, .power, .boot, .dbg, .str, .tcam, .marker, .sram, .search, .update, .life, .ports, .arbs, .tally, .journal, .store, .holdup, .therm, .integ, .waitos, .crew, .events, .mgmt, .free]
  | .insert _ => [.tcam, .marker, .sram, .update, .ports, .tally, .journal, .integ, .events, .mgmt, .free]
  | .delete _ => [.tcam, .marker, .sram, .update, .ports, .tally, .journal, .integ, .events, .mgmt, .free]
  | .deleteIfIdle _ => [.tcam, .marker, .sram, .update, .ports, .tally, .journal, .integ, .events, .mgmt, .free]
  | .write _ => [.tcam, .marker, .sram, .update, .ports, .tally, .journal, .integ, .events, .mgmt, .free]
  | .read _ => [.tcam, .sram, .update, .ports, .tally, .integ, .events, .mgmt, .free]
  | .repoint _ _ => [.tcam, .marker, .sram, .update, .ports, .tally, .journal, .integ, .events, .mgmt, .free]
  | .hsweep _ => [.tcam, .update, .ports, .tally, .events, .mgmt, .free]
  | .bankClone _ => [.tcam, .sram, .update, .ports, .tally, .journal, .integ, .events, .mgmt, .free]
  | .cloneComplete _ => [.tcam, .sram, .update, .ports, .tally, .journal, .integ, .events, .mgmt, .free]
  | .bankRetire _ => [.tcam, .update, .ports, .tally, .journal, .integ, .events, .mgmt, .free]
  | .bulkOpen _ => [.update, .ports, .tally, .events, .mgmt, .free]
  | .bulkRecord _ => [.tcam, .marker, .sram, .update, .ports, .tally, .journal, .integ, .events, .mgmt, .free]
  | .dumpEntry _ _ => [.sram, .update, .ports, .tally, .integ, .events, .mgmt, .free]
  | .bulkClose _ => [.update, .ports, .tally, .events, .mgmt, .free]
  | .iread _ => [.sram, .update, .ports, .tally, .integ, .events, .mgmt, .free]
  | .iwrite _ => [.sram, .search, .update, .ports, .tally, .journal, .integ, .events, .mgmt, .free]
  | .ifield _ => [.sram, .search, .update, .ports, .tally, .journal, .integ, .events, .mgmt, .free]
  | .icas _ => [.sram, .search, .update, .ports, .tally, .journal, .integ, .events, .mgmt, .free]
  | .learnNote _ => [.update, .ports, .tally, .events, .mgmt, .free]
  | .gateDrained _ => [.tcam, .marker, .sram, .update, .ports, .tally, .journal, .integ, .events, .mgmt, .free]
  | .replicaRelease _ => [.tcam, .marker]
  | .mapBind _ => [.sram, .search, .update, .life, .ports, .tally, .journal, .integ, .events, .mgmt, .free]
  | .mapRelease _ => [.sram, .search, .update, .life, .ports, .tally, .journal, .integ, .events, .mgmt, .free]
  | .mapPoison _ => [.sram, .search, .update, .life, .ports, .tally, .journal, .integ, .events, .mgmt, .free]
  | .heatSet _ => [.sram, .search, .update, .ports, .tally, .journal, .integ, .events, .mgmt, .free]
  | .migBegin _ => [.sram, .search, .update, .life, .ports, .tally, .journal, .integ, .events, .mgmt, .free]
  | .migCursor _ => [.sram, .search, .update, .ports, .tally, .journal, .integ, .events, .mgmt, .free]
  | .migCopied _ => [.sram, .search, .update, .ports, .tally, .journal, .integ, .events, .mgmt, .free]
  | .mapSwitch _ => [.sram, .search, .update, .life, .ports, .tally, .journal, .integ, .events, .mgmt, .free]
  | .migAbort _ => [.sram, .search, .update, .life, .ports, .tally, .journal, .integ, .events, .mgmt, .free]
  | .logOpen _ => [.sram, .search, .update, .life, .ports, .tally, .journal, .integ, .events, .mgmt, .free]
  | .logClose _ => [.sram, .search, .update, .ports, .tally, .journal, .integ, .events, .mgmt, .free]
  | .logFree _ => [.sram, .search, .update, .life, .ports, .tally, .journal, .integ, .events, .mgmt, .free]
  | .logRepoint _ _ => [.tcam, .marker, .sram, .update, .ports, .tally, .journal, .integ, .events, .mgmt, .free]
  | .conditionBegin _ => [.sram, .search, .update, .life, .ports, .tally, .journal, .integ, .events, .mgmt, .free]
  | .conditionDone _ => [.sram, .search, .update, .life, .ports, .tally, .journal, .integ, .events, .mgmt, .free]
  | .refreshDone _ => [.sram, .search, .update, .ports, .tally, .journal, .integ, .events, .mgmt, .free]
  | .memberFail _ => [.sram, .search, .update, .life, .ports, .tally, .journal, .integ, .events, .mgmt, .free]
  | .rebuildAdvance _ => [.sram, .search, .update, .ports, .tally, .journal, .integ, .events, .mgmt, .free]
  | .ovlPut _ => [.tcam, .marker, .sram, .update, .life, .ports, .tally, .journal, .integ, .events, .mgmt, .free]
  | .ovlDrop _ => [.tcam, .marker, .sram, .update, .ports, .tally, .journal, .integ, .events, .mgmt, .free]
  | .spareReserveRefill => [.life]
  | .conditionQueueScan => [.sram, .life, .integ, .events, .mgmt, .free]
  | .refreshScan => [.sram, .integ, .events, .mgmt, .free]
  | .wearBinUpdate => [.sram, .life, .integ, .events, .mgmt, .free]
  | .heatHalving => [.sram, .integ, .events, .mgmt, .free]
  | .markerCountReading => [.tcam, .marker, .update, .journal, .waitos, .events, .mgmt, .free]
  | .composerGenerationCommit => [.sram, .search, .update, .ports, .tally, .events, .mgmt, .free]
  | .epoch => [.clock, .tcam]
  | .refclkFault => [.pins, .clock, .events, .free]
  | .refclkRestore => [.pins, .clock]
  | .refreshGroup _ => [.tcam, .arbs, .events, .free]
  | .refreshGuard => [.tcam, .arbs, .therm, .events, .mgmt, .free]
  | .guardReading => [.therm]
  | .readingDemand => [.therm]
  | .demand _ => [.therm]
  | .conversionDone _ => [.power, .boot, .tcam, .ports, .arbs, .tally, .holdup, .therm, .waitos, .events, .mgmt, .free]
  | .conversionTimeout => [.tcam, .ports, .arbs, .tally, .therm, .waitos, .events, .mgmt, .free]
  | .bandWrite _ _ => [.tcam, .arbs, .therm, .waitos, .events, .mgmt, .free]
  | .diodeRetry => [.therm]
  | .bandConfirm => [.tcam, .arbs, .therm, .events, .mgmt, .free]
  | .calibration => [.therm, .waitos]
  | .calibrationDone => [.therm, .waitos, .events, .mgmt, .free]
  | .calnow _ => [.therm, .waitos]
  | .calDeferred => [.therm, .events, .free]
  | .mediaStaleCheck => [.sram, .search, .journal, .therm, .integ, .events, .mgmt, .free]
  | .trackerReport => [.tcam, .marker, .sram, .update, .journal, .integ, .waitos, .events, .mgmt, .free]
  | .writeBack _ => [.sram, .integ, .mgmt]
  | .trackerAgeOut _ => [.integ]
  | .rowSparing _ => [.sram, .integ, .waitos, .events, .mgmt, .free]
  | .columnSparing _ _ => [.sram, .integ, .waitos, .events, .mgmt, .free]
  | .fieldRepairProgram _ _ => [.fuses, .integ, .events, .free]
  | .coalescerIssue _ => [.sram, .update, .ports, .tally, .journal, .integ, .events, .mgmt, .free]
  | .bankScrub _ => [.clock, .tcam, .marker, .sram, .update, .journal, .integ, .waitos, .events, .mgmt, .free]
  | .sramScrub _ => [.sram, .update, .integ, .events, .mgmt, .free]
  | .rederive => [.tcam, .marker, .sram, .search, .journal, .therm, .integ, .waitos, .events, .mgmt, .free]
  | .romTrap _ _ _ _ => [.integ, .waitos, .events, .mgmt, .free]
  | .dataSramTrap _ => [.clock, .power, .boot, .dbg, .str, .tcam, .marker, .sram, .search, .update, .life, .ports, .arbs, .tally, .journal, .store, .holdup, .therm, .integ, .waitos, .crew, .events, .mgmt, .free]
  | .channelHalt _ => [.tcam, .sram, .search, .update, .ports, .tally, .journal, .store, .therm, .integ, .events, .mgmt, .free]
  | .selfTestRotation => [.tcam, .marker, .sram, .update, .journal, .integ, .waitos, .events, .mgmt, .free]
  | .bankSelfTest _ _ => [.tcam, .therm, .waitos]
  | .selfTestDone _ => [.tcam, .marker, .sram, .update, .journal, .integ, .waitos, .events, .mgmt, .free]
  | .rawrd _ => [.sram, .integ]
  | .rawwr _ => [.sram, .integ]
  | .inject _ => [.sram, .integ]
  | .trd _ => [.integ]
  | .twr _ => [.tcam, .integ]
  | .disarm _ => [.sram, .integ]
  | .pageFrameClose => [.journal]
  | .journalDrain => [.journal, .store, .mgmt]
  | .timeRecord => [.journal]
  | .checkpointBegin => [.store]
  | .checkpointSegment => [.sram, .store, .integ, .events, .mgmt, .free]
  | .checkpointComplete => [.fuses, .journal, .store, .mgmt]
  | .cknow _ => [.store]
  | .bandCondition _ => [.store]
  | .superblockRingCondition _ => [.store]
  | .storeBlockRetire _ _ => [.store, .events, .mgmt, .free]
  | .storeDieFail _ => [.store, .events, .free]
  | .setlock _ => [.prot]
  | .retry _ _ => [.clock, .power, .boot, .fuses, .prot, .str, .tcam, .marker, .sram, .search, .update, .life, .ports, .tally, .journal, .store, .holdup, .therm, .integ, .crew, .events, .mgmt, .free]
  | .debugExpiry => [.dbg]
  | .getInfo _ => [.ports, .tally, .waitos, .events, .mgmt, .free]
  | .opStatus _ => [.ports, .tally, .waitos, .events, .mgmt, .free]
  | .getKeyslots _ => [.ports, .tally, .waitos, .events, .mgmt, .free]
  | .dirRead _ => [.ports, .tally, .waitos, .events, .mgmt, .free]
  | .migInfo _ => [.sram, .ports, .tally, .integ, .waitos, .events, .mgmt, .free]
  | .mread _ => [.ports, .tally, .waitos, .events, .mgmt, .free]
  | .mwrite _ => Part.reset
  | .ctxRead _ => [.sram, .ports, .tally, .integ, .waitos, .events, .mgmt, .free]
  | .ctxWrite _ => [.sram, .search, .update, .ports, .tally, .journal, .integ, .waitos, .events, .mgmt, .free]
  | .ctxCas _ => [.sram, .search, .update, .ports, .tally, .journal, .integ, .waitos, .events, .mgmt, .free]
  | .tempRead _ => [.ports, .tally, .therm, .waitos, .events, .mgmt, .free]
  | .diodeCal _ => [.ports, .tally, .therm, .waitos, .events, .mgmt, .free]
  | .laneCal _ => [.ports, .tally, .waitos, .events, .mgmt, .free]
  | .scrubSet _ => [.ports, .tally, .integ, .waitos, .events, .mgmt, .free]
  | .scrubNow _ => [.clock, .tcam, .sram, .ports, .tally, .integ, .waitos, .events, .mgmt, .free]
  | .bankTest _ => [.tcam, .update, .ports, .tally, .journal, .waitos, .events, .mgmt, .free]
  | .waitosBankRetire _ => [.tcam, .update, .ports, .tally, .journal, .integ, .waitos, .events, .mgmt, .free]
  | .cellSpare _ => [.sram, .ports, .tally, .integ, .waitos, .events, .mgmt, .free]
  | .replicate _ => [.marker, .update, .ports, .tally, .journal, .waitos, .events, .mgmt, .free]
  | .grow _ => [.tcam, .marker, .ports, .tally, .journal, .waitos, .events, .mgmt, .free]
  | .autoSet _ => [.ports, .tally, .waitos, .events, .mgmt, .free]
  | .rebalBegin _ => [.ports, .tally, .journal, .waitos, .crew, .events, .mgmt, .free]
  | .rebalReport _ => [.tcam, .marker, .sram, .search, .update, .life, .ports, .tally, .journal, .integ, .waitos, .crew, .events, .mgmt, .free]
  | .portResetCommand _ => [.dbg, .search, .update, .life, .ports, .tally, .waitos, .crew, .events, .mgmt, .free]
  | .warmResetCommand _ => [.clock, .power, .boot, .dbg, .str, .tcam, .marker, .sram, .search, .update, .life, .ports, .arbs, .tally, .journal, .store, .holdup, .therm, .integ, .waitos, .crew, .events, .mgmt, .free]
  | .crewResetCommand _ => [.clock, .power, .boot, .dbg, .str, .tcam, .marker, .sram, .search, .update, .life, .ports, .arbs, .tally, .journal, .store, .holdup, .therm, .integ, .waitos, .crew, .events, .mgmt, .free]
  | .timeAdvance _ => [.clock, .tcam, .ports, .tally, .journal, .waitos, .events, .mgmt, .free]
  | .imgBegin _ => [.flash, .ports, .tally, .waitos, .events, .mgmt, .free]
  | .imgData _ => [.flash, .ports, .tally, .waitos, .events, .mgmt, .free]
  | .imgCommit _ => [.boot, .flash, .str, .tcam, .marker, .sram, .search, .ports, .tally, .journal, .waitos, .crew, .events, .mgmt, .free]
  | .imgAbort _ => [.ports, .tally, .waitos, .events, .mgmt, .free]
  | .imgSessionTimeout => [.waitos, .events, .free]
  | .dbgNonce _ => [.ports, .tally, .waitos, .events, .mgmt, .free]
  | .dbgGrant _ => [.dbg, .ports, .tally, .waitos, .events, .mgmt, .free]
  | .storeInit _ => [.ports, .tally, .waitos, .events, .mgmt, .free]
  | .opDone _ _ _ => [.tcam, .marker, .journal, .store, .integ, .waitos, .events, .mgmt, .free]
  | .handleFree _ => [.waitos]
  | .recordClose _ => [.events]
  | .eqhead _ _ => [.events]
  | .eqpop _ _ _ => [.events]
  | .lclr _ _ => [.events]
  | .gsnap _ => [.events]
  | .freeze _ _ => [.events]
  | .trclr _ => [.events]
  | .wideRead _ _ => [.events, .mgmt]
  | .registerWrite _ _ _ => Part.reset
  | .voltageRequest => [.power]
  | .vreq _ _ => [.power]
  | .coreLost _ => [.waitos, .events, .free]
  | .romScrub _ => [.clock, .power, .boot, .dbg, .str, .tcam, .marker, .sram, .search, .update, .life, .ports, .arbs, .tally, .journal, .store, .holdup, .therm, .integ, .waitos, .crew, .events, .mgmt, .free]
  | .mctpControl _ => [.waitos, .free]
  | .dynamicAddress _ _ => [.waitos]
  | .tapInstruction _ => Part.reset

/-- The commands that an engine runs at the head of its queue. -/
def runsAtHead : Instr → Bool
  | .insert _ | .delete _ | .deleteIfIdle _ | .write _ | .read _ | .hsweep _ | .bankClone _ | .bankRetire _ | .bulkOpen _
  | .bulkClose _ | .iread _ | .iwrite _ | .ifield _ | .icas _ | .learnNote _ | .mapBind _ | .mapRelease _ | .mapPoison _
  | .heatSet _ | .migBegin _ | .migCursor _ | .migCopied _ | .mapSwitch _ | .migAbort _ | .logOpen _ | .logClose _
  | .logFree _ | .conditionBegin _ | .conditionDone _ | .refreshDone _ | .memberFail _ | .rebuildAdvance _ | .ovlPut _
  | .ovlDrop _ => true
  | _ => false

/-- What the repair writes that wait at an engine may change: they go before a partner's command (R89). -/
def Part.ofRepairs : List Part := [.tcam, .sram, .integ, .events, .mgmt, .free]

/-- What finalising the drained gates may change: it comes first where a command waits for it (R82, R83). -/
def Part.ofGates : List Part := [.tcam, .marker, .sram, .update, .ports, .tally, .journal, .integ, .events, .mgmt, .free]

/-- The parts that c may change from s: its own, and what must go before it at its engine where there is any. -/
def mayChange (s : State) (c : Instr) : List Part :=
  touches c ++
    (if runsAtHead c && !s.tcam.repairs.isEmpty then Part.ofRepairs else []) ++
    (if runsAtHead c && s.marker.gates.any (fun g => decide (g.2.st = .draining)) then Part.ofGates else [])

end Sys2Proof.Machine
end

