-- ==== Sys2Proof/Certificates/Slice0/Obligations.lean ====
section
/-! DEFINITION. The statements about the TZ8, for the provers: what each command does, what it leaves, and what holds throughout. -/

open Sys2Proof Sys2Proof.Machine

/-! ## The block: its queue and its ticks -/

/-- A step with a command at the front of the queue is exec of that command on the state with the queue's rest. -/
def Obligations.StepTakesFrontCommand : Prop :=
  ∀ (c : Instr) (cs : List Instr) (s : State), step { s with pending := c :: cs } = exec c { s with pending := cs }

/-- On an empty queue nothing is commanded: the timebase advances by 1 ns when it runs, and every other part of the state
stays (the model's choice, log entry 8). -/
def Obligations.EmptyQueueTicks : Prop :=
  ∀ s : State, s.pending = [] →
    ∃ t, step s = .next t ∧ SameBut [.clock] s t ∧
      (s.clock.running = true → t.clock = { s.clock with time := s.clock.time + 1, elapsed := s.clock.elapsed + 1 }) ∧
      (s.clock.running = false → t = s)

/-! ## The whole machine -/

/-- The frame of every command: each completes from every state, and changes only the parts that the rules of its row name for it,
and those of the repair writes and of the drained gates that must go before it at its engine, where there are any (R82, R89); the
commands that wait behind it are never among them. -/
def Obligations.EveryCommandKeepsItsFrame : Prop :=
  ∀ (c : Instr) (s : State), Gives c s (fun t => SameBut (mayChange s c) s t ∧ t.pending = s.pending)

/-- Every step keeps the memories of the die, SRAM words, page valid bits and TCAM rows, in canonical form: equal memories are equal data. -/
def Obligations.StepsKeepMemoryCanonical : Prop :=
  ∀ s t : State, MemoryCanonical s → step s = .next t → MemoryCanonical t

/-- The lock holds (R14, R15, R497, R510): once LOCKED is set no command changes the protection set-up, and once DEBUGGED is set none clears
it; only POWER_UP may, and the commands that end a save or its hold, when power has come back (R46, R613). -/
def Obligations.OnlyColdBootUnlocks : Prop :=
  ∀ (c : Instr) (s t : State), exec c s = .next t → (∀ e, c ≠ .powerUp e) → c ≠ .saveComplete → c ≠ .holdEnd → c ≠ .vholdFloor →
    (s.prot.locked = true → t.prot = s.prot) ∧ (s.dbg.debugged = true → t.dbg.debugged = true)

/-- Fuses are only ever blown (R383, R384, R488, R489, R495): no command, a cold boot included, clears INIT_DONE, REVOKE0 or a bit of the
anti-rollback counter, or takes a field repair record back. -/
def Obligations.FusesOnlyGrow : Prop :=
  ∀ (c : Instr) (s t : State), exec c s = .next t → FusesGrow s.fuses t.fuses

/-- The state after reset meets what every step keeps: its memories are in canonical form, and no command waits. -/
def Obligations.ResetIsCanonical : Prop :=
  MemoryCanonical State.reset ∧ State.reset.pending = []

/-- At reset the registers of management space read as the register tables state it (R296, R327, R364, R412, R452, R453, R477, R513, R514,
R580, R624): identity, boot status, lock, protection, ports, crew, command registers, tally, thermal state with band T4, integrity, trace ring,
store, power. -/
def Obligations.ResetRegistersRead : Prop :=
  ∀ x ∈ ([(0x000000, 0x10738BCB), (0x000020, 0), (0x000024, 0), (0x00002C, 0), (0x000038, 0), (0x000064, 0), (0x010000, 0), (0x010010, 0xFFFFFFFF),
      (0x010014, 0xFFFFFFFF), (0x010018, 0xFFFFFFFF), (0x01001C, 0xFFFFFFFF), (0x010020, 0), (0x010030, 0), (0x010050, 0), (0x010058, 0), (0x010100, 0),
      (0x020000, 0x18), (0x020004, 1), (0x020008, 0), (0x02000C, 0x5DC), (0x020010, 0), (0x02A000, 0x18), (0x030004, 0), (0x030010, 0),
      (0x030020, 0), (0x040000, 0), (0x040004, 0), (0x040804, 0), (0x050000, 0), (0x050004, 2), (0x050008, 0), (0x050010, 0),
      (0x060000, 0), (0x062000, 0), (0x062020, 0), (0x080000, 0x4000), (0x080008, 0), (0x090000, 0), (0x09000C, 0), (0x092000, 3),
      (0x092004, 0xA), (0x092008, 0x3C), (0x092020, 0), (0x091000, 0), (0x094008, 0), (0x09400C, 0), (0x0A0000, 0), (0x0A1008, 0), (0x0A1010, 0), (0x0A2008, 0), (0x0A2018, 0),
      (0x0B0030, 0), (0x0B0038, 0), (0x0B003C, 0), (0x0B0048, 0x800), (0x0C0000, 0), (0x0C0008, 0), (0x0C0010, 0), (0x0C0018, 0),
      (0x0C0104, 0x0A28), (0x0C0108, 0x0C88), (0x0C010C, 0x28), (0x0C0110, 0x00800000), (0x108040, 0)] : List (Nat × Reg)),
    (regRead State.reset (.core 0) x.1).1 = x.2 ∧ (regRead State.reset (.core 0) x.1).2.1 = .ok

/-- Multi-byte fields are little-endian (R11): byte i of a word is its bits 8i to 8i + 7, and a word is read back from its bytes. -/
def Obligations.BytesAreLittleEndian : Prop :=
  (∀ (k : Nat) (x : BitVec (8 * k)), ofBytes (8 * k) (toBytes k x) = x) ∧
  (∀ (k : Nat) (x : BitVec (8 * k)), natOfBytes (toBytes k x) = x.toNat) ∧
  (∀ (k v : Nat), v < 2 ^ (8 * k) → natOfBytes (bytesOfNat k v) = v) ∧
  (∀ (n k i : Nat) (x : BitVec n) (j : Nat), i < k → j < 8 → (((toBytes k x)[i]?).map (fun b => bit j b)) = some (bit (8 * i + j) x))

/-- In-use bank n lies in octant n div 256 and spare bank 2048 + m in octant m div 8, so each octant holds 256 in-use banks and 8
spares (R6). -/
def Obligations.OctantsHoldTheirBanks : Prop :=
  (∀ n < 2048, octantOf n = n / 256) ∧ (∀ m < 64, octantOf (2048 + m) = m / 8) ∧
  (∀ o < 8, ((List.range 2048).filter (fun n => octantOf n = o)).length = 256 ∧
    ((List.range 64).filter (fun m => octantOf (2048 + m) = o)).length = 8)

/-! ## Searches -/

/-- An entry matches a key when its V bit is 1, its gate admits it, and every cared-for trit equals its key bit (R51); no gate
admits every entry. -/
def Obligations.EntryMatchesKey : Prop :=
  ∀ (s : State) (snap : BitVec 64) (b : Nat) (key : BitVec 192) (e : Entry),
    (entryMatches s snap b key e = true ↔
      e.side.v = true ∧ gateAdmits s snap b e.side.g = true ∧ ∀ i < 192, bit i e.care = true → bit i e.val = bit i key) ∧
    gateAdmits s snap b 0 = true

/-- A bank answers with the lowest slot that matches (R47, R51, R52, R60): the winner matches with its V set under the snapshot,
it carries its TAG, and no lower place of the bank that is not masked matches.
MATCH_STEP of an issued step (R57, R62, R66, R86, R312): it waits while a bank of it, of a 192-trit table the odd one too, is
frozen; else its banks are searched, no other step of the token changes, and of a step on one bank or twin pair: no match ends it
without a hit; a winner that validates ends it with a hit, its result word, address, half and TAG; one whose result slot is
uncorrectable ends it POISON; one that does not validate, and twins that differ in slot or half, leave it to be resolved. The H bit
of every winner is set. -/
def Obligations.BanksAnswerTheirLowestMatch : Prop :=
  (∀ (s : State) (w b site site2 : Nat) (snap : BitVec 64) (key : BitVec 192) (mask : Option (Nat × Nat)) (x : Win),
     w < 3 → swf TRow.blank none s.tcam.rows = true → probe s w b site site2 snap key mask = some x →
     entryMatches s snap b key (entryAt s w site site2 x.slot x.half) = true ∧ mask ≠ some (x.slot, x.half) ∧
     x.tag = (entryAt s w site site2 x.slot x.half).side.tag.toNat ∧
     ∀ r h, r < 4096 → (h = 0 ∨ (w = 0 ∧ h = 1)) → slotPos w r h < slotPos w x.slot x.half → mask ≠ some (r, h) →
       entryMatches s snap b key (entryAt s w site site2 r h) = false) ∧
  (∀ (tok : Nat) (i : Fin 4) (s : State) (tk : Token) (x : StepRun) (d : BitVec 128) (key : BitVec 192) (w : Nat),
     getTok s tok = some tk → tk.ph = .running → i.val < tk.steps.length → x = stepAt tk i.val → x.ph = .issued →
     d = tokDesc s tk i.val → key = stepKey s tk i.val → 2 ≤ sKind d → w = tWidth s (sTable d) →
     (frozenProbe s w x.banks = true → exec (.matchStep tok i) s = .next s) ∧
     (frozenProbe s w x.banks = false → (sKind d ≠ 4 ∨ crewSize s = 1) →
       Gives (.matchStep tok i) s (fun t => SameBut [.tcam, .sram, .search, .integ, .events, .mgmt, .free] s t ∧
         StepIs t tok i.val (fun tk' y => y = (searchStep s d key x).1 ∧ ∀ j, j ≠ i.val → stepAt tk' j = stepAt tk j)) ∧
       (∀ k, x.banks = [k] → x.hit = false → x.fail = none → x.shares = [] → x.await = [] → isBroadcast s (sTable d) = false →
         k.resolve = false → k.out = none → w < 3 →
         (k.twin = none →
           (probe s w k.bank k.site k.odd x.snap key none = none →
             Gives (.matchStep tok i) s (fun t => SameBut [.search] s t ∧ StepIs t tok i.val (fun _ y => MissBy none y))) ∧
           (∀ a v, probe s w k.bank k.site k.odd x.snap key none = some a → v = look s (sTable d) w key k.bank k.site k.odd a →
             Gives (.matchStep tok i) s (fun t => (entryAt t w k.site k.odd a.slot a.half).side.h = true ∧
               StepIs t tok i.val (fun _ y => (v.bad = true → MissBy (some .poison) y) ∧ (v.ok = true → HitBy (sKind d == 4) v y) ∧
                 (v.bad = false → v.ok = false → y.ph = .disagree))))) ∧
         (∀ b2 site2 odd2, k.twin = some (b2, site2, odd2) → (w = 2 → [k.site, k.odd, site2, odd2].Nodup) →
           (probe s w k.bank k.site k.odd x.snap key none = none → probe s w b2 site2 odd2 x.snap key none = none →
             Gives (.matchStep tok i) s (fun t => SameBut [.search] s t ∧ StepIs t tok i.val (fun _ y => MissBy none y))) ∧
           ((probe s w k.bank k.site k.odd x.snap key none).map (fun a => (a.slot, a.half)) ≠
               (probe s w b2 site2 odd2 x.snap key none).map (fun a => (a.slot, a.half)) →
             Gives (.matchStep tok i) s (fun t => StepIs t tok i.val (fun _ y => y.ph = .disagree))) ∧
           (∀ a v, probe s w k.bank k.site k.odd x.snap key none = some a →
             (probe s w b2 site2 odd2 x.snap key none).map (fun a => (a.slot, a.half)) = some (a.slot, a.half) →
             v = look s (sTable d) w key k.bank k.site k.odd a →
             Gives (.matchStep tok i) s (fun t => (entryAt t w k.site k.odd a.slot a.half).side.h = true ∧
               (entryAt t w site2 odd2 a.slot a.half).side.h = true ∧
               StepIs t tok i.val (fun _ y => (v.bad = true → MissBy (some .poison) y) ∧ (v.ok = true → HitBy (sKind d == 4) v y) ∧
                 (v.bad = false → v.ok = false → y.ph = .disagree))))))))

/-- SRCH at the head of a port's ingress (R24, R25, R122, R134): outside ready it waits; a search tag in use discards it with
DUP_TAG; a status that admission itself gives is answered at once, and counts toward the eighth that is sampled where it is
INTERNAL and the header reads well (R127); otherwise the token of the request takes the next number,
holds the tag, and latches the key, the context word, the buffer's version and the composer generation.
A search ends once (R26, R131 to R133, R266, R294): SRSP of a resolved partner's search answers it when the port is in the
incarnation of the request: while the link carries flits the tag returns as the response leaves, and until then, in a retrain, it stays in
flight (R282, R285); of an older incarnation it is discarded and counted; LATE_WATCHDOG answers an unresolved search
LATE with words of zero and gives its reservations back to their lists; TOKEN_RETIRE frees an answered token. -/
def Obligations.SearchesAdmittedAndAnsweredOnce : Prop :=
  (∀ (p : Fin 8) (s : State) (x : Slot), ingressHead s p.val cSRCH = some x →
     (admitting s = false → exec (.srch p) s = .next s) ∧
     (admitting s = true → (getPort s p.val).tags.contains (qTag x) = true →
       exec (.srch p) s = .next (event (countPort (takeHead s p.val cSRCH) p.val 2 1) [p.val] 0x1001 p.val (qTag x))) ∧
     (admitting s = true → (getPort s p.val).tags.contains (qTag x) = false → 8192 ≤ tokensOf s p.val (fun _ => true) →
       exec (.srch p) s = .next s) ∧
     (∀ st s1 s2, admitting s = true → (getPort s p.val).tags.contains (qTag x) = false → tokensOf s p.val (fun _ => true) < 8192 →
       admissionStatus s p.val x = some st → s1 = countPort (takeHead s p.val cSRCH) p.val 0 1 →
       s2 = (if profBad s (qProfile x) (activeBuf s (qProfile x)) then (profKeys (qProfile x) (activeBuf s (qProfile x))).foldl touchQ s1 else s1) →
       exec (.srch p) s = .next (answerAtAdmission
         (if st = .internal ∧ headerRead s (qProfile x) = true then heatCount s2 (admitToken s p.val x) else s2) p.val x st (hVer (header s (qProfile x) (activeBuf s (qProfile x)))))) ∧
     (admitting s = true → (getPort s p.val).tags.contains (qTag x) = false → tokensOf s p.val (fun _ => true) < 8192 →
       admissionStatus s p.val x = none → (1 < crewSize s ∧ bit (qProfile x) s.str.routed = true → False) →
       Gives (.srch p) s (fun t => t.search.next = s.search.next + 1 ∧
         ∃ tk, getTok t s.search.next = some tk ∧ tk.eng = p.val ∧ tk.kind = .partner ∧ tk.tag = qTag x ∧ tk.profile = qProfile x ∧
           tk.key = qKey x ∧ tk.cx = ctxWord s p.val x ∧ tk.gen = s.search.gen ∧ tk.t0 = now s ∧ tk.ph = .running ∧
           tk.ver = hVer (header s (qProfile x) (activeBuf s (qProfile x))) ∧ tk.level = 0))) ∧
  (∀ (tok : Nat) (s : State) (tk : Token), getTok s tok = some tk →
     (tk.ph = .resolved → tk.kind = .partner → tk.eng < 8 → (getPort s tk.eng).incarn = tk.incarn → tk.tag < 4096 →
       (getPort s tk.eng).tags.contains tk.tag = true →
       (linkUp (getPort s tk.eng) = true → (∀ m ∈ (getPort s tk.eng).egress, slotClass m ≠ cSRSP) →
         Gives (.srsp tok) s (fun t => (∃ tk', getTok t tok = some tk' ∧ tk'.ph = .answered) ∧
           (getPort t tk.eng).tags = (getPort s tk.eng).tags.erase tk.tag ∧ SameBut [.search, .ports] s t)) ∧
       ((getPort s tk.eng).st = pRETRAIN →
         Gives (.srsp tok) s (fun t => (∃ tk', getTok t tok = some tk' ∧ tk'.ph = .answered) ∧
           (getPort t tk.eng).tags = (getPort s tk.eng).tags ∧ SameBut [.search, .ports] s t ∧
           (getPort t tk.eng).egress = (getPort s tk.eng).egress ++
             [srspSlot tk.st tk.hits tk.tag tk.client tk.ver (tokFlags tk) tk.w0 tk.w1 tk.w2]))) ∧
     (tk.ph = .resolved → tk.kind = .partner → (getPort s tk.eng).incarn ≠ tk.incarn →
       swf Port.reset none s.ports = true → swf 0 none s.mgmt.counters = true →
       Gives (.srsp tok) s (fun t => (getPort t tk.eng) = getPort s tk.eng ∧
         counter t (0x020100 + 0x1000 * tk.eng + 8 * 8) = counter s (0x020100 + 0x1000 * tk.eng + 8 * 8) + 1)) ∧
     (tk.ph ≠ .resolved → exec (.srsp tok) s = .next s) ∧
     (tk.ph = .running ∨ tk.ph = .away →
       Gives (.lateWatchdog tok) s (fun t => (∃ tk', getTok t tok = some tk' ∧ tk'.ph = .answered ∧ tk'.st = .late ∧ tk'.w0 = 0 ∧
         tk'.w1 = 0 ∧ tk'.w2 = 0 ∧ tk'.resv = []) ∧ t.life = (returnResv s tk.resv).life)) ∧
     (tk.ph = .resolved ∨ tk.ph = .answered → exec (.lateWatchdog tok) s = .next s) ∧
     (tk.ph = .answered → swf none none s.search.tokens = true →
       Gives (.tokenRetire tok) s (fun t => getTok t tok = none ∧ SameBut [.search] s t)))

/-- DISAGREEMENT_RESOLUTION (R87, R90, R312): it waits while a bank that it probes again is frozen; else RSV is set, and no other step of
the token changes; the self-tests that wait then start, those that can (R405). On an unpaired bank one reprobe with
the rejected slot masked decides: a validated winner is the answer, anything else is POISON, and the rejected entry is queued for
re-derivation. Of a twin pair: an uncorrectable result slot is POISON; two sound winners with equal result slots are one answer and
count nothing; the first of the sound winners, by TAG and then slot, is the answer, the other twin is repaired from it and one
disagreement is counted there; with no sound winner, none in a reprobe is MISS, and an unsound one is POISON.
REPAIR_WRITE (R88, R89, R312): the repair at the head of an engine's queue leaves it, unless a bank of it is frozen; the answering copy
is written over the other, its result slot corrected, with no journal record, when it still holds what the resolution read and neither copy is gated, and otherwise nothing is written. Waiting
repairs go before a partner's table command. -/
def Obligations.DisagreementsResolve : Prop :=
  (∀ (tok : Nat) (i : Fin 4) (s : State) (tk : Token) (x : StepRun) (d : BitVec 128) (key : BitVec 192) (w : Nat),
     getTok s tok = some tk → tk.ph = .running → i.val < tk.steps.length → x = stepAt tk i.val → x.ph = .disagree →
     d = tokDesc s tk i.val → key = stepKey s tk i.val → w = tWidth s (sTable d) → (sKind d ≠ 4 ∨ crewSize s = 1) →
     (frozenProbe s w (x.banks.filter (·.resolve)) = true → exec (.disagreementResolution tok i) s = .next (startTests s)) ∧
     (frozenProbe s w (x.banks.filter (·.resolve)) = false →
     GivesTests (.disagreementResolution tok i) s (fun t => SameBut [.clock, .tcam, .sram, .search, .integ, .events, .mgmt, .free] s t ∧
       StepIs t tok i.val (fun tk' y => y = (resolveStep s d key x).1 ∧ tk'.rsv = true ∧ ∀ j, j ≠ i.val → stepAt tk' j = stepAt tk j)) ∧
     (∀ k, x.banks = [k] → x.hit = false → x.fail = none → x.shares = [] → x.await = [] → isBroadcast s (sTable d) = false →
       k.resolve = true → w < 3 →
       (∀ a v, k.twin = none → k.a = some a → v = look s (sTable d) w key k.bank k.site k.odd a → s.integ.rederive.length < 254 →
         GivesTests (.disagreementResolution tok i) s (fun t => Bad.entry k.bank a.slot a.half ∈ t.integ.rederive ∧
           StepIs t tok i.val (fun _ y =>
             (reprobe s w x.snap key v = none → MissBy (some .poison) y) ∧
             (∀ u z, reprobe s w x.snap key v = some u → z = look s (sTable d) w key k.bank k.site k.odd u →
               (z.ok = true → HitBy (sKind d == 4) z y) ∧ (z.ok = false → MissBy (some .poison) y))))) ∧
       (∀ b2 site2 odd2 fa fb, k.twin = some (b2, site2, odd2) → b2 ≠ k.bank → (w = 2 → [k.site, k.odd, site2, odd2].Nodup) →
         fa = k.a.map (look s (sTable d) w key k.bank k.site k.odd) → fb = k.b.map (look s (sTable d) w key b2 site2 odd2) →
         ((fa.toList ++ fb.toList).any (fun v => v.bad) = true →
           GivesTests (.disagreementResolution tok i) s (fun t => StepIs t tok i.val (fun _ y => MissBy (some .poison) y))) ∧
         (∀ u v, fa = some u → fb = some v → u.good = true → v.good = true → u.res = v.res → u.chk = v.chk →
           GivesTests (.disagreementResolution tok i) s (fun t => t.tcam = s.tcam ∧
             StepIs t tok i.val (fun _ y => HitBy (sKind d == 4) u y))) ∧
         (∀ u o, u.good = true →
           ((fa = some u ∧ fb = none ∧ o = b2) ∨ (fb = some u ∧ fa = none ∧ o = k.bank) ∨
            (∃ v, ((fa = some u ∧ fb = some v ∧ o = b2) ∨ (fb = some u ∧ fa = some v ∧ o = k.bank)) ∧ v.bad = false ∧ v.good = false ∧
              reprobe s w x.snap key v = none) ∨
            (∃ v, fa = some u ∧ fb = some v ∧ o = b2 ∧ v.good = true ∧ ¬ (u.res = v.res ∧ u.chk = v.chk) ∧ seenBefore w u v = true) ∨
            (∃ v, fb = some u ∧ fa = some v ∧ o = k.bank ∧ v.good = true ∧ ¬ (u.res = v.res ∧ u.chk = v.chk) ∧ seenBefore w v u = false)) →
           GivesTests (.disagreementResolution tok i) s (fun t => TwinRepaired s t u o ∧
             StepIs t tok i.val (fun _ y => HitBy (sKind d == 4) u y))) ∧
         ((∀ v ∈ fa.toList ++ fb.toList, v.good = false ∧ v.bad = false) →
           ((∀ v ∈ fa.toList ++ fb.toList, reprobe s w x.snap key v = none) →
             GivesTests (.disagreementResolution tok i) s (fun t => StepIs t tok i.val (fun _ y => MissBy none y))) ∧
           ((∃ v ∈ fa.toList ++ fb.toList, (reprobe s w x.snap key v).isSome = true) →
             (∀ v ∈ fa.toList ++ fb.toList, ∀ u, reprobe s w x.snap key v = some u →
               (look s (sTable d) w key v.bank v.site v.odd u).good = false) →
             GivesTests (.disagreementResolution tok i) s (fun t => StepIs t tok i.val (fun _ y => MissBy (some .poison) y)))))))) ∧
  (∀ (e : Fin 8) (s : State), (∀ r ∈ sget [] s.tcam.repairs e.val, repairFrozen s r = true) → exec (.repairWrite e) s = .next s) ∧
  (∀ (e : Fin 8) (s s1 : State) (r : Repair) (rest : List Repair),
     sget [] s.tcam.repairs e.val = r :: rest → repairFrozen s r = false →
     s1 = { s with tcam := { s.tcam with repairs := sput [] s.tcam.repairs e.val rest } } →
     (bankTable s r.src = none → exec (.repairWrite e) s = .next s1) ∧
     (∀ t, bankTable s r.src = some t →
       ((repairHolds s t r = false ∨ (getEntry s (tWidth s t) r.src r.slot r.half).side.g ≠ 0 ∨
           (getEntry s (tWidth s t) r.dst r.slot r.half).side.g ≠ 0) → exec (.repairWrite e) s = .next s1) ∧
       (repairHolds s t r = true → (getEntry s (tWidth s t) r.src r.slot r.half).side.g = 0 →
         (getEntry s (tWidth s t) r.dst r.slot r.half).side.g = 0 →
         exec (.repairWrite e) s = .next (if r.scrub then countI (copyEntry s1 t r.src r.dst r.slot r.half) 12
           else copyEntry s1 t r.src r.dst r.slot r.half) ∧
         (tWidth s t < 3 → r.src ≠ r.dst → mirrorsOf s r.dst = [] → (tWidth s t = 2 → siteOf s r.dst ≠ siteOf s (r.dst + 1)) →
           swf [] none s.tcam.repairs = true → MemoryCanonical s →
           Gives (.repairWrite e) s (fun u => SameBut [.tcam, .sram, .integ, .events, .mgmt, .free] s u ∧ sget [] u.tcam.repairs e.val = rest ∧
             cell u (kSlot r.dst r.slot r.half 0) = (carried s (kSlot r.src r.slot r.half 0)).1 ∧
             cell u (kSlot r.dst r.slot r.half 1) = (carried s (kSlot r.src r.slot r.half 1)).1 ∧
             (getEntry u (tWidth s t) r.dst r.slot r.half).side.h = false ∧
             (getEntry u (tWidth s t) r.dst r.slot r.half).side.v = (getEntry s (tWidth s t) r.src r.slot r.half).side.v ∧
             (getEntry u (tWidth s t) r.dst r.slot r.half).side.tag = (getEntry s (tWidth s t) r.src r.slot r.half).side.tag ∧
             (getEntry u (tWidth s t) r.dst r.slot r.half).care = (getEntry s (tWidth s t) r.src r.slot r.half).care ∧
             (getEntry u (tWidth s t) r.dst r.slot r.half).val =
               (getEntry s (tWidth s t) r.src r.slot r.half).val &&& (getEntry s (tWidth s t) r.src r.slot r.half).care))))) ∧
  (∀ (e : Fin 8) (s : State) (c : TCmd),
     (headCmd s e.val 1 = some c → c.issuer < 8 → exec (.insert e) s = exec (.insert e) (serveRepairs s e.val)) ∧
     (headCmd s e.val 2 = some c → c.issuer < 8 → exec (.delete e) s = exec (.delete e) (serveRepairs s e.val)) ∧
     (headCmd s e.val 4 = some c → c.issuer < 8 → exec (.write e) s = exec (.write e) (serveRepairs s e.val)) ∧
     (headCmd s e.val 5 = some c → c.issuer < 8 → exec (.read e) s = exec (.read e) (serveRepairs s e.val)))

/-- INDEX_STEP (R108, R109, R112, R233), of the step's table and row, or of its alternate ones when the alternate condition holds: a
readable row in range gives its words as the step's outcome, an uncorrectable one is POISON; a row beyond the table ends the
search, INTERNAL where the row number came from another step and MALFORMED where it came from the request; an allocation takes the
head of its list and reserves it, and an empty list, or list 17 of an alternate, ends the step without a hit; with 1,024 blocks in
hand and in reservations there it is MALFORMED.
LEVEL_END (R105, R113, R122, R123, R341): while a step of the level has not ended nothing changes; a probed token resolves with its
share; a step's failure resolves the search with its status and words of zero, and its reservations go back; a next level is
issued; with none left the composer resolves the search: POISON when it fails, BUSY_RETRY when the journal takes no allocation,
else with its status and words, and the reservations enter the port's in-hand set. -/
def Obligations.StepsAndLevelsGoOn : Prop :=
  (∀ (tok : Nat) (i : Fin 4) (s : State) (tk : Token) (d : BitVec 128) (alt : Bool) (tb row : Nat),
     getTok s tok = some tk → tk.ph = .running → i.val < tk.steps.length → (stepAt tk i.val).ph = .issued →
     d = tokDesc s tk i.val → sKind d = 1 → alt = (decide (frReg (sCond d) ≠ 31) && condHolds tk d) →
     tb = (if alt then sAtable d else sTable d) → row = frVal (stepReg tk) (if alt then sArow d else sRow d) →
     (row < tCap s tb → tKind s tb ≠ 4 → rowBad s tb row = false →
       Gives (.indexStep tok i) s (fun t => SameBut [.sram, .search, .integ, .events, .mgmt, .free] s t ∧
         StepIs t tok i.val (fun _ y => y.ph = .ended ∧ y.hit = true ∧ y.o0 = bf 0 64 (rowVal s tb row) ∧
           y.o1 = bf 64 64 (rowVal s tb row) ∧ y.o2 = bf 128 64 (rowVal s tb row) ∧ y.o3 = bf 192 64 (rowVal s tb row)))) ∧
     (row < tCap s tb → tKind s tb ≠ 4 → rowBad s tb row = true →
       Gives (.indexStep tok i) s (fun t => StepIs t tok i.val (fun _ y => y.ph = .ended ∧ y.fail = some .poison))) ∧
     (tCap s tb ≤ row →
       Gives (.indexStep tok i) s (fun t => StepIs t tok i.val (fun _ y => y.ph = .ended ∧
         y.fail = some (if fromOutcome (if alt then sArow d else sRow d) then .internal else .malformed)))) ∧
     (row < tCap s tb → tKind s tb = 4 → row = 17 → alt = true →
       Gives (.indexStep tok i) s (fun t => SameBut [.search] s t ∧ StepIs t tok i.val (fun tk' y => y.ph = .ended ∧
         y.o0 = (stepAt tk (frReg (sCond d) / 4)).o0 ∧ tk'.resv = tk.resv))) ∧
     (row < tCap s tb → tKind s tb = 4 → ¬ (row = 17 ∧ alt = true) → 1024 ≤ (sget [] s.life.inhand tk.eng).length + reserving s tk.eng →
       Gives (.indexStep tok i) s (fun t => StepIs t tok i.val (fun _ y => y.ph = .ended ∧ y.fail = some .malformed))) ∧
     (∀ pa rest, row < tCap s tb → tKind s tb = 4 → ¬ (row = 17 ∧ alt = true) →
       (sget [] s.life.inhand tk.eng).length + reserving s tk.eng < 1024 → sget [] s.life.lists row = pa :: rest →
       swf [] none s.life.lists = true →
       Gives (.indexStep tok i) s (fun t => sget [] t.life.lists row = rest ∧ SameBut [.search, .life] s t ∧
         StepIs t tok i.val (fun tk' y => y.ph = .ended ∧ y.hit = true ∧ tk'.resv = tk.resv ++ [⟨row, pa⟩]))) ∧
     (row < tCap s tb → tKind s tb = 4 → ¬ (row = 17 ∧ alt = true) → (sget [] s.life.inhand tk.eng).length + reserving s tk.eng < 1024 →
       sget [] s.life.lists row = [] → (stepAt tk i.val).hit = false →
       Gives (.indexStep tok i) s (fun t => SameBut [.search] s t ∧ StepIs t tok i.val (fun tk' y => y.ph = .ended ∧ y.hit = false ∧
         tk'.resv = tk.resv)))) ∧
  (∀ (tok : Nat) (s : State) (tk : Token) (xs : List StepRun) (more : Bool),
     getTok s tok = some tk → tk.ph = .running →
     xs = ((List.range tk.steps.length).filter (fun i => decide (sKind (tokDesc s tk i) ≠ 0) && decide (sLevel (tokDesc s tk i) = tk.level))).map (stepAt tk) →
     more = (List.range tk.steps.length).any (fun i => decide (sKind (tokDesc s tk i) ≠ 0) && decide (sLevel (tokDesc s tk i) = tk.level + 1)) →
     (xs.any (fun x => x.ph ≠ .ended) = true → exec (.levelEnd tok) s = .next s) ∧
     (xs.any (fun x => x.ph ≠ .ended) = false → isProbed tk = true →
       Gives (.levelEnd tok) s (fun t => SameBut [.search] s t ∧ ∃ tk', getTok t tok = some tk' ∧ tk'.ph = .resolved ∧
         tk'.st = ((stepAt tk 0).fail.getD (if (stepAt tk 0).hit then .ok else .miss)))) ∧
     (∀ st, xs.any (fun x => x.ph ≠ .ended) = false → isProbed tk = false → levelFail xs = some st →
       Gives (.levelEnd tok) s (fun t => SameBut [.sram, .search, .life, .integ, .events, .mgmt, .free] s t ∧
         (∃ tk', getTok t tok = some tk' ∧ tk'.ph = .resolved ∧ tk'.st = st ∧
           tk'.w0 = 0 ∧ tk'.w1 = 0 ∧ tk'.w2 = 0 ∧ tk'.resv = []) ∧ t.life = (returnResv s tk.resv).life)) ∧
     (xs.any (fun x => x.ph ≠ .ended) = false → isProbed tk = false → levelFail xs = none → more = true →
       exec (.levelEnd tok) s = .next (issueLevel s tok (tk.level + 1))) ∧
     (xs.any (fun x => x.ph ≠ .ended) = false → isProbed tk = false → levelFail xs = none → more = false → (compose s tk).1.bad = true →
       Gives (.levelEnd tok) s (fun t => ∃ tk', getTok t tok = some tk' ∧ tk'.ph = .resolved ∧ tk'.st = .poison ∧
         tk'.w0 = 0 ∧ tk'.w1 = 0 ∧ tk'.w2 = 0 ∧ tk'.resv = [])) ∧
     (xs.any (fun x => x.ph ≠ .ended) = false → isProbed tk = false → levelFail xs = none → more = false → (compose s tk).1.bad = false →
       tk.resv ≠ [] → (jAdmit s [tk.resv.map (fun r => JRec.alloc r.list r.block tk.eng)]).1 = false →
       Gives (.levelEnd tok) s (fun t => ∃ tk', getTok t tok = some tk' ∧ tk'.ph = .resolved ∧ tk'.st = .busyRetry ∧
         tk'.w0 = 0 ∧ tk'.w1 = 0 ∧ tk'.w2 = 0 ∧ tk'.resv = [])) ∧
     (xs.any (fun x => x.ph ≠ .ended) = false → isProbed tk = false → levelFail xs = none → more = false → (compose s tk).1.bad = false →
       (tk.resv = [] ∨ (jAdmit s [tk.resv.map (fun r => JRec.alloc r.list r.block tk.eng)]).1 = true) →
       Gives (.levelEnd tok) s (fun t => (∃ tk', getTok t tok = some tk' ∧ tk'.ph = .resolved ∧ tk'.st = (compose s tk).1.st ∧
           tk'.w0 = (compose s tk).1.w0 ∧ tk'.w1 = (compose s tk).1.w1 ∧ tk'.hits = hitMask tk ∧ tk'.resv = []) ∧
         (tk.resv ≠ [] → sget [] t.life.inhand tk.eng = sget [] s.life.inhand tk.eng ++ tk.resv.map (fun r => (r.block, r.list)) ∧
           t.journal.last = s.journal.last + 1))))

/-! ## Table commands -/

/-- An entry command that a rule refuses (R148) is answered with that rule's status, and nothing else happens: INSERT,
DELETE, DELETE_IF_IDLE and WRITE write; READ also serves FW and SB; HSWEEP also serves FW. An address that names no bank of the table
is one of the field checks of rule 1.
An index command that a rule refuses (R148) is answered with that rule's status, and nothing else happens.
A lifecycle command that rules 1 or 2 refuse (R148, R228) is answered with that status, and nothing else happens: one
line for each command with the rows it names and who may send it. -/
def Obligations.RefusedCommandsAnswerTheirStatus : Prop :=
  (∀ (e : Fin 8) (s : State) (c : TCmd) (st : Status),
     (AtHead s e.val 1 entryNeed c → entryRefusal s c (formBad s c) [] true = some st → exec (.insert e) s = .next (done s e.val c 0 (TRsp.of st))) ∧
     (AtHead s e.val 2 entryNeed c → entryRefusal s c false [] true = some st → exec (.delete e) s = .next (done s e.val c 0 (TRsp.of st))) ∧
     (AtHead s e.val 3 entryNeed c → entryRefusal s c false [] true = some st → exec (.deleteIfIdle e) s = .next (done s e.val c 0 (TRsp.of st))) ∧
     (AtHead s e.val 4 entryNeed c → entryRefusal s c (!cByKey c && (formBad s c || noBank s c)) [] true = some st →
       exec (.write e) s = .next (done s e.val c 0 (TRsp.of st))) ∧
     (AtHead s e.val 5 noNeed c → entryRefusal s c (!cByKey c && noBank s c) [qFW, qSB] false = some st → exec (.read e) s = .next (done s e.val c 0 (TRsp.of st))) ∧
     (AtHead s e.val 7 sweepNeed c → entryRefusal s c false [qFW] false = some st → exec (.hsweep e) s = .next (done s e.val c 0 (TRsp.of st)))) ∧
  (∀ (e : Fin 8) (s : State) (c : TCmd) (st : Status),
     (AtHead s e.val 0x10 noNeed c → indexRefusal s c false [qFW, qSB] false = some st → exec (.iread e) s = .next (done s e.val c 0 (TRsp.of st))) ∧
     (AtHead s e.val 0x11 rowNeed c → indexRefusal s c false [] true = some st → exec (.iwrite e) s = .next (done s e.val c 0 (TRsp.of st))) ∧
     (AtHead s e.val 0x12 rowNeed c → indexRefusal s c (!fieldOk s c) [] true = some st → exec (.ifield e) s = .next (done s e.val c 0 (TRsp.of st))) ∧
     (AtHead s e.val 0x13 rowNeed c → indexRefusal s c (!fieldOk s c) [] true = some st → exec (.icas e) s = .next (done s e.val c 0 (TRsp.of st)))) ∧
  (∀ (e : Fin 8) (s : State) (c : TCmd) (st : Status),
     (AtHead s e.val 0x40 (lifeNeed (fun s c => [(tBMAP, cLblk c), (tBINF, cPA c)])) c → lifeRefusal s c [(tBMAP, cLblk c), (tBINF, cPA c)] true = some st →
       exec (.mapBind e) s = .next (done s e.val c 1 (TRsp.of st))) ∧
     (AtHead s e.val 0x41 (lifeNeed (fun s c => [(tBMAP, cLblk c), (tBINF, bmPsb (bmap s (cLblk c)))])) c → lifeRefusal s c [(tBMAP, cLblk c), (tBINF, bmPsb (bmap s (cLblk c)))] true = some st →
       exec (.mapRelease e) s = .next (done s e.val c 1 (TRsp.of st))) ∧
     (AtHead s e.val 0x42 (lifeNeed (fun s c => [(tBMAP, cLblk c), (tBINF, bmPsb (bmap s (cLblk c)))])) c → lifeRefusal s c [(tBMAP, cLblk c), (tBINF, bmPsb (bmap s (cLblk c)))] (permPsb s c) = some st →
       exec (.mapPoison e) s = .next (done s e.val c 1 (TRsp.of st))) ∧
     (AtHead s e.val 0x43 (lifeNeed (fun s c => [(tBMAP, cLblk c)])) c → lifeRefusal s c [(tBMAP, cLblk c)] true = some st →
       exec (.heatSet e) s = .next (done s e.val c 1 (TRsp.of st))) ∧
     (AtHead s e.val 0x44 (lifeNeed (fun s c => (migRows s c ++ [(tBINF, cPA c), (tBINF, bmPsb (bmap s (cLblk c)))]))) c → lifeRefusal s c (migRows s c ++ [(tBINF, cPA c), (tBINF, bmPsb (bmap s (cLblk c)))]) (permPsb s c) = some st →
       exec (.migBegin e) s = .next (done s e.val c 1 (TRsp.of st))) ∧
     (AtHead s e.val 0x45 (lifeNeed (fun s c => (migRows s c))) c → lifeRefusal s c (migRows s c) (permHolder s c) = some st →
       exec (.migCursor e) s = .next (done s e.val c 1 (TRsp.of st))) ∧
     (AtHead s e.val 0x46 (lifeNeed (fun s c => (migRows s c))) c → lifeRefusal s c (migRows s c) (permHolder s c) = some st →
       exec (.migCopied e) s = .next (done s e.val c 1 (TRsp.of st))) ∧
     (AtHead s e.val 0x47 (lifeNeed (fun s c => (migRowsAll s c))) c → lifeRefusal s c (migRowsAll s c) (permHolder s c) = some st →
       exec (.mapSwitch e) s = .next (done s e.val c 1 (TRsp.of st))) ∧
     (AtHead s e.val 0x48 (lifeNeed (fun s c => (migRowsAll s c))) c → lifeRefusal s c (migRowsAll s c) (permHolder s c) = some st →
       exec (.migAbort e) s = .next (done s e.val c 1 (TRsp.of st))) ∧
     (AtHead s e.val 0x49 (lifeNeed (fun s c => [(tBINF, cPA c)])) c → lifeRefusal s c [(tBINF, cPA c)] (permPA s c) = some st →
       exec (.logOpen e) s = .next (done s e.val c 1 (TRsp.of st))) ∧
     (AtHead s e.val 0x4A (lifeNeed (fun s c => [(tBINF, cPA c)])) c → lifeRefusal s c [(tBINF, cPA c)] (permPA s c) = some st →
       exec (.logClose e) s = .next (done s e.val c 1 (TRsp.of st))) ∧
     (AtHead s e.val 0x4B (lifeNeed (fun s c => [(tBINF, cPA c)])) c → lifeRefusal s c [(tBINF, cPA c)] (permPA s c) = some st →
       exec (.logFree e) s = .next (done s e.val c 1 (TRsp.of st))) ∧
     (AtHead s e.val 0x4D (lifeNeed condRows) c → lifeRefusal s c (condRows s c) (permCond s c) = some st →
       exec (.conditionBegin e) s = .next (done s e.val c 1 (TRsp.of st))) ∧
     (AtHead s e.val 0x50 (lifeNeed (fun _ c => [(tSHT, cGroup c)])) c → lifeRefusal s c [(tSHT, cGroup c)] (permPA s c) = some st →
       exec (.memberFail e) s = .next (done s e.val c 1 (TRsp.of st))) ∧
     (AtHead s e.val 0x4E (lifeNeed (fun s c => [(tBINF, cPA c)])) c → lifeRefusal s c [(tBINF, cPA c)] (permPA s c) = some st →
       exec (.conditionDone e) s = .next (done s e.val c 1 (TRsp.of st))) ∧
     (AtHead s e.val 0x4F (lifeNeed (fun s c => [(tBINF, cPA c)])) c → lifeRefusal s c [(tBINF, cPA c)] (permPA s c) = some st →
       exec (.refreshDone e) s = .next (done s e.val c 1 (TRsp.of st))) ∧
     (AtHead s e.val 0x51 (lifeNeed (fun s c => [(tSHT, cGroup c)])) c → lifeRefusal s c [(tSHT, cGroup c)] (permPA s c) = some st →
       exec (.rebuildAdvance e) s = .next (done s e.val c 1 (TRsp.of st))))

/-- INSERT of an entry that no exact probe finds, placed in every partition that it intersects, gated or not (R154, R155, R157,
R160): once the relocation moves of its plans, whose result words read well, are made and drained it is answered OK, without EXISTED, with the address of its first
place, CHAIN and the number of moves, and the JSN of its own record, which follows those of the moves.
INSERT on a table without copies, links or gates, with a free slot (R154, R55, R57): the entry stands at its place with V
set, G clear, H clear and its parity made, its result slot holds the result word and its check word, and every other
entry of the table's banks is as it was.
INSERT of an entry that is installed, without REPLACE (R154): OK with EXISTED, the address, half and TAG of the entry, no
JSN; no table entry changes but by the repairs of the exact probe. -/
def Obligations.InsertInstallsOrFinds : Prop :=
  (∀ (e : Fin 8) (s s1 s3 : State) (c : TCmd) (ps : List Plan) (n : Nat),
     AtHead s e.val 1 entryNeed c → entryRefusal s c (formBad s c) [] true = none →
     dirsFor s (cTable c) (cMask s c) (cKey s c) ≠ [] →
     findEntry (issueLinks s (cTable c) (linkRow s (cTable c) (cRes c)).toList) (cTable c) (cMask s c) (cKey s c) (cPlen c)
       (dirsFor s (cTable c) (cMask s c) (cKey s c)) = ([], s1) →
     rowsHeld s1 (linkRow s (cTable c) (cRes c)).toList [] = false →
     wordRefusal s1 (cTable c) none (linkRow s (cTable c) (cRes c)) (cRes c) = none →
     planAll s1 (cTable c) (cPlen c) (cNochain c) (dirsFor s (cTable c) (cMask s c) (cKey s c)) = some ps →
     (isGated s1 (cTable c) (dirsFor s (cTable c) (cMask s c) (cKey s c)) = true →
       canGate s1 e.val 1 ((copiesOf s1 (cTable c) (ps.map (·.loc))).map (·.1)) = true ∧ (freeGate s3 e.val).isSome = true) →
     (jAdmit s1 (moveGroups s1 (cTable c) (planMoves ps) ++ [ps.map (fun p => entryRec s1 (cTable c) p.loc (cMask s c) (cKey s c) (cPlen c) (cRes c))
       ++ linkIncRec s1 (cTable c) none (linkRow s1 (cTable c) (cRes c))])).1 = true →
     (planMoves ps).findSome? (moveBad s1 (cTable c)) = none → relocateAll e.val (cTable c) (planMoves ps) 0 s1 = (s3, n, true) →
     ∃ s2 r, exec (.insert e) s = .next (done s2 e.val c 0 r) ∧ r.st = .ok ∧ r.existed = false ∧
       r.moves = BitVec.ofNat 5 n ∧ r.chain = decide (0 < n) ∧
       (∀ p q, ps = p :: q → r.addr = BitVec.ofNat 24 (locAddr s1 p.loc) ∧ r.half = decide (p.loc.h = 1)) ∧
       r.jsn = s2.journal.last ∧ s2.journal.last = s3.journal.last + 1) ∧
  (∀ (e : Fin 8) (s : State) (c : TCmd) (d : Nat) (p : Plan),
     AtHead s e.val 1 entryNeed c → entryRefusal s c (formBad s c) [] true = none →
     tWidth s (cTable c) < 2 → tLink s (cTable c) = 0 → rpBlocks s (cTable c) (cRes c) = false →
     dirsFor s (cTable c) (cMask s c) (cKey s c) = [d] → isGated s (cTable c) [d] = false →
     findEntry s (cTable c) (cMask s c) (cKey s c) (cPlen c) [d] = ([], s) →
     planOne s (cTable c) (cPlen c) (cNochain c) d = some p → p.moves = [] →
     mirrorsOf s (primaryBank s p.loc) = [] → copyBanks s (cTable c) d p.loc.j = [primaryBank s p.loc] → p.loc.d = d →
     (jAdmit s [[entryRec s (cTable c) p.loc (cMask s c) (cKey s c) (cPlen c) (cRes c)]]).1 = true →
     swf TRow.blank none s.tcam.rows = true → swf (⟨0, 0⟩ : Cw) none s.sram.words = true →
     Gives (.insert e) s (fun t =>
       getEntry t (tWidth s (cTable c)) (primaryBank s p.loc) p.loc.r p.loc.h =
         mkEntry (cMask s c) (cKey s c) (BitVec.ofNat 7 (cPlen c)) true 0 ∧
       cell t (kSlot (primaryBank s p.loc) p.loc.r p.loc.h 0) = secEnc (cRes c) ∧
       cell t (kSlot (primaryBank s p.loc) p.loc.r p.loc.h 1) = secEnc (mkCheck s (cTable c) (cMask s c) (cKey s c) (cPlen c)) ∧
       t.journal.last = s.journal.last + 1 ∧
       (∀ site r, site * 4096 + r ≠ siteOf s (primaryBank s p.loc) * 4096 + p.loc.r → getRow t site r = getRow s site r))) ∧
  (∀ (e : Fin 8) (s s1 : State) (c : TCmd) (l : Loc) (ls : List Loc),
     AtHead s e.val 1 entryNeed c → entryRefusal s c (formBad s c) [] true = none → cReplace c = false →
     findEntry (issueLinks s (cTable c) (linkRow s (cTable c) (cRes c)).toList) (cTable c) (cMask s c) (cKey s c) (cPlen c)
       (dirsFor s (cTable c) (cMask s c) (cKey s c)) = (l :: ls, s1) →
     exec (.insert e) s = .next (done (countT s1 (cTable c) 1 1) e.val c 0
       { TRsp.of .ok with existed := true, addr := BitVec.ofNat 24 (locAddr s1 l), half := decide (l.h = 1), tag := BitVec.ofNat 7 (cPlen c) }))

/-- DELETE of an installed entry that no gated change governs any more (R162, R83): where the count of its link row reads
uncorrectable it is POISON and nothing is written (R371); else the answer is OK with the entry's result word and TAG and the JSN of the delete
record. Where no gate is needed it is done at once, and no copy of it has V set; on a gated table one gate opens over every copy with
delete sense.
DELETE of an entry that no exact probe finds is answered MISS, and DEL_MISS counts (R162, R191).
DELETE_IF_IDLE (R167): when a copy's H bit is set it is answered RECENTLY_HIT and nothing is journaled; otherwise, on
every table, its record enters the journal and one gate opens over every copy, with the answer held for the drain. -/
def Obligations.DeletesRemoveEntries : Prop :=
  (∀ (e : Fin 8) (s s1 s2 : State) (c : TCmd) (l : Loc) (ls : List Loc),
     AtHead s e.val 2 entryNeed c → entryRefusal s c false [] true = none →
     findEntry s (cTable c) (cMask s c) (cKey s c) (cPlen c) (dirsFor s (cTable c) (cMask s c) (cKey s c)) = (l :: ls, s1) →
     (resAt s1 l).bad = false →
     s2 = issueLinks (touchQ s1 (resKey s1 l)) (cTable c) (linkRow s1 (cTable c) (resAt s1 l).data).toList →
     rowsHeld s2 (linkRow s1 (cTable c) (resAt s1 l).data).toList [] = false →
     (copiesOf s1 (cTable c) (l :: ls)).all (fun k => (getEntry s2 (tWidth s1 (cTable c)) k.1 k.2.1 k.2.2).side.g == 0) = true →
     ((linkRow s1 (cTable c) (resAt s1 l).data).toList.any (linkBad s2 (cTable c)) = true →
       ∃ s3 r, exec (.delete e) s = .next (done s3 e.val c 0 r) ∧ r.st = .poison ∧ s3.journal = s2.journal ∧ s3.tcam = s2.tcam) ∧
     ((linkRow s1 (cTable c) (resAt s1 l).data).toList.any (linkBad s2 (cTable c)) = false →
     (isGated s2 (cTable c) ((l :: ls).map (·.d)) = true →
       canGate s2 e.val 1 ((copiesOf s1 (cTable c) (l :: ls)).map (·.1)) = true) →
     (jAdmit s2 [(l :: ls).map (fun x => JRec.del (cTable c) x.h (locAddr s2 x)) ++
       linkFallRec s2 (cTable c) (linkRow s1 (cTable c) (resAt s1 l).data).toList]).1 = true →
     ∃ s3 r, exec (.delete e) s = .next (done s3 e.val c 0 r) ∧ r.st = .ok ∧ r.res = (resAt s1 l).data ∧
       r.tag = BitVec.ofNat 7 (cPlen c) ∧ r.jsn = s3.journal.last ∧ s3.journal.last = s2.journal.last + 1 ∧
       (isGated s2 (cTable c) ((l :: ls).map (·.d)) = false →
         (∀ k ∈ copiesOf s1 (cTable c) (l :: ls), mirrorsOf s1 k.1 = []) → MemoryCanonical s2 → tWidth s1 (cTable c) < 2 →
         ∀ k ∈ copiesOf s1 (cTable c) (l :: ls), (getEntry s3 (tWidth s1 (cTable c)) k.1 k.2.1 k.2.2).side.v = false) ∧
       (isGated s2 (cTable c) ((l :: ls).map (·.d)) = true → ∃ g, (getGate s3 g).st = .draining ∧ (getGate s3 g).opened = true ∧
         (getGate s3 g).table = cTable c ∧
         (getGate s3 g).copies.map (fun x => (x.bank, x.slot, x.half, x.ins)) =
           (copiesOf s1 (cTable c) (l :: ls)).map (fun x => (x.1, x.2.1, x.2.2, false))))) ∧
  (∀ (e : Fin 8) (s s1 : State) (c : TCmd),
     AtHead s e.val 2 entryNeed c → entryRefusal s c false [] true = none →
     findEntry s (cTable c) (cMask s c) (cKey s c) (cPlen c) (dirsFor s (cTable c) (cMask s c) (cKey s c)) = ([], s1) →
     exec (.delete e) s = .next (done (countT s1 (cTable c) 5 1) e.val c 0 (TRsp.of .miss))) ∧
  (∀ (e : Fin 8) (s s1 s2 : State) (c : TCmd) (l : Loc) (ls : List Loc),
     AtHead s e.val 3 entryNeed c → entryRefusal s c false [] true = none →
     findEntry s (cTable c) (cMask s c) (cKey s c) (cPlen c) (dirsFor s (cTable c) (cMask s c) (cKey s c)) = (l :: ls, s1) →
     (resAt s1 l).bad = false →
     s2 = issueLinks (touchQ s1 (resKey s1 l)) (cTable c) (linkRow s1 (cTable c) (resAt s1 l).data).toList →
     rowsHeld s2 (linkRow s1 (cTable c) (resAt s1 l).data).toList [] = false →
     (copiesOf s1 (cTable c) (l :: ls)).all (fun k => (getEntry s2 (tWidth s1 (cTable c)) k.1 k.2.1 k.2.2).side.g == 0) = true →
     (anyH s2 (tWidth s1 (cTable c)) (copiesOf s1 (cTable c) (l :: ls)) = true →
       ∃ r, exec (.deleteIfIdle e) s = .next (done (countT s2 (cTable c) 6 1) e.val c 0 r) ∧ r.st = .recentlyHit) ∧
     (anyH s2 (tWidth s1 (cTable c)) (copiesOf s1 (cTable c) (l :: ls)) = false →
       (linkRow s1 (cTable c) (resAt s1 l).data).toList.any (linkBad s2 (cTable c)) = false →
       canGate s2 e.val 1 ((copiesOf s1 (cTable c) (l :: ls)).map (·.1)) = true →
       (jAdmit s2 [(l :: ls).map (fun x => JRec.del (cTable c) x.h (locAddr s2 x)) ++
         linkFallRec s2 (cTable c) (linkRow s1 (cTable c) (resAt s1 l).data).toList]).1 = true →
       ∃ s3 g, exec (.deleteIfIdle e) s = .next (trace (popQueue s3 e.val) 0) ∧ s3.journal.last = s2.journal.last + 1 ∧
         (getGate s3 g).st = .draining ∧ (getGate s3 g).opened = true ∧ (getGate s3 g).dii = true ∧
         (getGate s3 g).reply.isSome = true ∧
         (getGate s3 g).copies.map (fun x => (x.bank, x.slot, x.half, x.ins)) =
           (copiesOf s1 (cTable c) (l :: ls)).map (fun x => (x.1, x.2.1, x.2.2, false))))

/-- WRITE by key on a table that is not gated (R163): the answer is OK with the result word that stood there before, and
the JSN of its record; every copy's result slot holds the new word.
READ by key or by address (R165, R146): of a valid entry with good parity and a readable result word, its TAG, result word, and HIT
over every copy, with key and mask in the continuation slots; of one with bad parity or an uncorrectable word, POISON; of a free
slot or a key that is not found, MISS; of an address outside the table, MALFORMED.
HSWEEP (R166): answered OK with the number of entries in scope that had H set in a copy, a straddling entry once; no copy of
an entry in scope has H set afterwards. -/
def Obligations.WriteReadAndSweep : Prop :=
  (∀ (e : Fin 8) (s s1 s2 : State) (c : TCmd) (l : Loc) (ls : List Loc),
     AtHead s e.val 4 entryNeed c → cByKey c = true → entryRefusal s c false [] true = none →
     findEntry s (cTable c) (cMask s c) (cKey s c) (cPlen c) (dirsFor s (cTable c) (cMask s c) (cKey s c)) = (l :: ls, s1) →
     (resAt s1 l).bad = false →
     s2 = issueLinks (touchQ s1 (resKey s1 l)) (cTable c) ((linkRow s1 (cTable c) (resAt s1 l).data).toList ++ (linkRow s1 (cTable c) (cRes c)).toList) →
     rowsHeld s2 (linkFall (linkRow s1 (cTable c) (resAt s1 l).data) (linkRow s1 (cTable c) (cRes c)) ++ (linkRow s1 (cTable c) (cRes c)).toList) [] = false →
     wordRefusal s2 (cTable c) (linkRow s1 (cTable c) (resAt s1 l).data) (linkRow s1 (cTable c) (cRes c)) (cRes c) = none →
     (linkFall (linkRow s1 (cTable c) (resAt s1 l).data) (linkRow s1 (cTable c) (cRes c))).any (linkBad s2 (cTable c)) = false →
     isGated s2 (cTable c) ((l :: ls).map (·.d)) = false →
     (jAdmit s2 [(l :: ls).map (fun x => entryRec s2 (cTable c) x (cMask s c) (cKey s c) (cPlen c) (cRes c)) ++
       linkIncRec s2 (cTable c) (linkRow s1 (cTable c) (resAt s1 l).data) (linkRow s1 (cTable c) (cRes c)) ++
       linkFallRec s2 (cTable c) (linkFall (linkRow s1 (cTable c) (resAt s1 l).data) (linkRow s1 (cTable c) (cRes c)))]).1 = true →
     ∃ s3 r, exec (.write e) s = .next (done s3 e.val c 0 r) ∧ r.st = .ok ∧ r.existed = false ∧ r.res = (resAt s1 l).data ∧
       r.addr = BitVec.ofNat 24 (locAddr s2 l) ∧ r.half = decide (l.h = 1) ∧ r.jsn = s3.journal.last ∧ s3.journal.last = s2.journal.last + 1 ∧
       (tLink s (cTable c) = 0 → MemoryCanonical s2 →
         ∀ k ∈ copiesOf s2 (cTable c) (l :: ls), cell s3 (kSlot k.1 k.2.1 k.2.2 0) = secEnc (cRes c))) ∧
  (∀ (e : Fin 8) (s : State) (c : TCmd), AtHead s e.val 5 noNeed c → entryRefusal s c (!cByKey c && noBank s c) [qFW, qSB] false = none →
     (∀ s1, cByKey c = true → findEntry s (cTable c) (cMask s c) (cKey s c) (cPlen c) (dirsFor s (cTable c) (cMask s c) (cKey s c)) = ([], s1) →
       exec (.read e) s = .next (done s1 e.val c 0 (TRsp.of .miss))) ∧
     (∀ (s1 : State) (b : Nat) (l : Loc) (x : Entry),
       ((cByKey c = true ∧ ∃ ls, findEntry s (cTable c) (cMask s c) (cKey s c) (cPlen c) (dirsFor s (cTable c) (cMask s c) (cKey s c)) = (l :: ls, s1) ∧
           b = primaryBank s1 l) ∨
        (cByKey c = false ∧ s1 = s ∧ b = cAddr c / 4096 ∧ ∃ d j, locateBank s (cTable c) b = some (d, j) ∧
           l = ⟨d, j, cAddr c % 4096, if tWidth s (cTable c) = 0 then cHalf c else 0⟩)) →
       x = getEntry s1 (tWidth s1 (cTable c)) b l.r l.h →
       (x.side.v = false → exec (.read e) s = .next (done s1 e.val c 0 (TRsp.of .miss))) ∧
       (x.side.v = true → parityOk x = false → ∃ s2 q, exec (.read e) s = .next (done s2 e.val c 0 q) ∧ q.st = .poison ∧
         q.addr = BitVec.ofNat 24 (b * 4096 + l.r) ∧ s2 = tcamReject s1 (cTable c) b l.r l.h .poison 2) ∧
       (x.side.v = true → parityOk x = true → (peek s1 (kSlot b l.r l.h 0)).bad = true →
         ∃ q, exec (.read e) s = .next (done (touchQ s1 (kSlot b l.r l.h 0)) e.val c 0 q) ∧ q.st = .poison) ∧
       (x.side.v = true → parityOk x = true → (peek s1 (kSlot b l.r l.h 0)).bad = false →
         ∃ s2 q, exec (.read e) s = .next (done s2 e.val c 0 q) ∧ q.st = .ok ∧ q.addr = BitVec.ofNat 24 (b * 4096 + l.r) ∧
           q.half = decide (l.h = 1) ∧ q.res = (peek s1 (kSlot b l.r l.h 0)).data ∧ q.tag = x.side.tag ∧
           q.hit = anyH s1 (tWidth s1 (cTable c)) (everyCopy s1 (cTable c) l x) ∧
           q.cont = readCont (tWidth s1 (cTable c)) x ∧ s2.tcam = s1.tcam))) ∧
  (∀ (e : Fin 8) (s : State) (c : TCmd), AtHead s e.val 5 noNeed c → cByKey c = false → locateBank s (cTable c) (cAddr c / 4096) = none →
     exec (.read e) s = .next (done s e.val c 0 (TRsp.of .malformed))) ∧
  (∀ (e : Fin 8) (s : State) (c : TCmd) (es : List (Loc × Entry)),
     AtHead s e.val 7 sweepNeed c → entryRefusal s c false [qFW] false = none →
     swf TRow.blank none s.tcam.rows = true →
     es = (tableEntries s (cTable c)).filter (fun x => inScope (cScopeKey c) (cScopeMask c) x.2) →
     ∃ s2 r, exec (.hsweep e) s = .next (done s2 e.val c 0 r) ∧ r.st = .ok ∧ SameBut [.tcam] s s2 ∧
       r.res = BitVec.ofNat 64 ((((es.filter (fun x => anyH s (tWidth s (cTable c)) (copiesOf s (cTable c) [x.1]))).map
         (fun x => (x.2.care, x.2.val, x.2.side.tag))).dedup).length) ∧
       ∀ x ∈ es, ∀ k ∈ copiesOf s (cTable c) [x.1], (getEntry s2 (tWidth s (cTable c)) k.1 k.2.1 k.2.2).side.h = false)

/-- IREAD (R176): of an index table, the row's low word in bytes 16 to 23 and, of a row wider than 64 bits, the rest in one
continuation slot, an uncorrectable word giving POISON; of a table of counters, the counter; of an allocator table, OK (log entry
106).
IWRITE (R173, R32, R120, R386): every word of the row takes the row data cut to the row's width, with correct check bits, also where
narrower writes waited in its words' coalescer entries; with none waiting it takes the next JSN and no other word changes; on a
composer's table the words wait for a generation with the answer.
ICAS on a field within one word of a row, BINF's reserved rows apart (R174): where the field does not hold the expected value,
STALE_VERSION with the current value and the row unchanged; where it does, OK under the next JSN with the previous value, and the
word takes the new value in the field alone, on a composer's table by a generation. -/
def Obligations.IndexRowsReadWriteAndCompare : Prop :=
  (∀ (e : Fin 8) (s : State) (c : TCmd), AtHead s e.val 0x10 noNeed c → indexRefusal s c false [qFW, qSB] false = none →
     (tKind s (cTable c) = 2 → rowBad s (cTable c) (cRow c) = false →
       ∃ s2 r, exec (.iread e) s = .next (done s2 e.val c 0 r) ∧ r.st = .ok ∧ r.res = bf 0 64 (rowVal s (cTable c) (cRow c)) ∧
         (tRowW s (cTable c) ≤ 64 → r.cont = []) ∧
         (64 < tRowW s (cTable c) → ∃ x, r.cont = [x] ∧ bf 64 192 x = bf 64 192 (rowVal s (cTable c) (cRow c))) ∧
         SameBut [.sram, .integ, .events, .mgmt, .free] s s2) ∧
     (tKind s (cTable c) = 2 → rowBad s (cTable c) (cRow c) = true →
       exec (.iread e) s = .next (done ((rowKeys s (cTable c) (cRow c)).foldl touchQ s) e.val c 0 (TRsp.of .poison))) ∧
     (∀ k, tKind s (cTable c) = 3 → k = 64 / max 1 (tRowW s (cTable c)) → (peek s (kIndex (cTable c) (cRow c / k))).bad = false →
       ∃ s2 r, exec (.iread e) s = .next (done s2 e.val c 0 r) ∧ r.st = .ok ∧
         r.res = BitVec.ofNat 64 (bn (tRowW s (cTable c) * (cRow c % k)) (tRowW s (cTable c)) (peek s (kIndex (cTable c) (cRow c / k))).data) ∧
         SameBut [.sram, .integ, .events, .mgmt, .free] s s2) ∧
     (tKind s (cTable c) = 4 → ∃ s2 r, exec (.iread e) s = .next (done s2 e.val c 0 r) ∧ r.st = .ok ∧ SameBut [.free] s s2)) ∧
  (∀ (e : Fin 8) (s : State) (c : TCmd) (v : BitVec 256) (ws : List (Nat × Word)),
     AtHead s e.val 0x11 rowNeed c → indexRefusal s c false [] true = none →
     (rowsHeld s [cRow c] [] && decide (cTable c = tBINF)) = false →
     v = cRowData c &&& BitVec.ofNat 256 (2 ^ tRowW s (cTable c) - 1) →
     ws = (List.range (rowWords s (cTable c))).map (fun j => (j, bf (64 * j) 64 v)) →
     (jAdmit s (coalGroups s (cTable c) (cRow c) ws ++ [ws.map (fun w => JRec.iword (cTable c) w.1 (cRow c) w.2)])).1 = true →
     swf (⟨0, 0⟩ : Cw) none s.sram.words = true →
     (tComposer s (cTable c) = false → (rowKeys s (cTable c) (cRow c)).any (coalFull s) = false →
       (∃ s2 r, exec (.iwrite e) s = .next (done s2 e.val c 0 r) ∧ r.st = .ok ∧ r.jsn = s2.journal.last ∧
         (∀ j < rowWords s (cTable c), cell s2 (rowKey s (cTable c) (cRow c) j) = secEnc (bf (64 * j) 64 v))) ∧
       ((∀ k ∈ rowKeys s (cTable c) (cRow c), sget none s.sram.coal k = none) →
         ∃ s2 r, exec (.iwrite e) s = .next (done s2 e.val c 0 r) ∧ r.st = .ok ∧
           r.jsn = s.journal.last + 1 ∧ s2.journal.last = s.journal.last + 1 ∧
           (∀ k, k ∉ rowKeys s (cTable c) (cRow c) → cell s2 k = cell s k))) ∧
     (tComposer s (cTable c) = true → ∃ s2, exec (.iwrite e) s = .next (trace (popQueue s2 e.val) 0) ∧
       s2.journal.last = s.journal.last + 1 ∧ s2.search.cur = s.search.cur ∧
       s2.search.waiting.length = s.search.waiting.length + rowWords s (cTable c))) ∧
  (∀ (e : Fin 8) (s : State) (c : TCmd),
     AtHead s e.val 0x13 rowNeed c → indexRefusal s c (!fieldOk s c) [] true = none →
     (∀ k ∈ rowKeys s (cTable c) (cRow c), sget none s.sram.coal k = none) →
     (peek s (rowKey s (cTable c) (cRow c) (cLsb c / 64))).bad = false →
     (rowsHeld s [cRow c] [] && decide (cTable c = tBINF)) = false →
     (fieldOf s (cTable c) (cRow c) (cLsb c) (cWid c) ≠ (cVal c).toNat % 2 ^ cWid c →
       ∃ s2 r, exec (.icas e) s = .next (done s2 e.val c 0 r) ∧ r.st = .staleVersion ∧
         r.res = BitVec.ofNat 64 (fieldOf s (cTable c) (cRow c) (cLsb c) (cWid c)) ∧ s2.sram.words = s.sram.words ∧
         s2.journal = s.journal) ∧
     (fieldOf s (cTable c) (cRow c) (cLsb c) (cWid c) = (cVal c).toNat % 2 ^ cWid c →
       (jAdmit s [[JRec.iword (cTable c) (cLsb c / 64) (cRow c) (fieldWord s (cTable c) (cRow c) (cLsb c) (cWid c) (cNew c).toNat)]]).1 = true →
       swf (⟨0, 0⟩ : Cw) none s.sram.words = true →
       (tComposer s (cTable c) = false → ∃ s2 r, exec (.icas e) s = .next (done s2 e.val c 0 r) ∧ r.st = .ok ∧ r.jsn = s.journal.last + 1 ∧
         r.res = BitVec.ofNat 64 (fieldOf s (cTable c) (cRow c) (cLsb c) (cWid c)) ∧
         cell s2 (rowKey s (cTable c) (cRow c) (cLsb c / 64)) =
           secEnc (fieldWord s (cTable c) (cRow c) (cLsb c) (cWid c) (cNew c).toNat)) ∧
       (tComposer s (cTable c) = true → ∃ s2, exec (.icas e) s = .next (trace (popQueue s2 e.val) 0) ∧
         s2.journal.last = s.journal.last + 1 ∧ s2.search.waiting.length = s.search.waiting.length + 1)))

/-- IFIELD (R175, R386, R120): on a composer's table the word waits for a generation with the answer; on another the write merges into its word's coalescer entry, later bits over
earlier ones, and waits with its answer there; the issue of the entry writes the merged word in one transfer and answers
each waiting command under a JSN of its own.
Writes to a composer table wait for a generation (R120, R121): while a token holds the previous one the commit changes
nothing; otherwise every waiting write commits in the next generation, which becomes the current one, and the one before
it is kept for its holders.
LEARN_NOTE from a partner (R184): a note of kind 1 raises its line's count, and the fourth raises LINE_RECUR with DETAIL 4
to that partner and sets the count back to 0, but with every core lost nothing is learned (R42); a note of kind 2 changes no count and writes one trace entry of source 5; the
answer is OK and no table changes. Any other kind is answered MALFORMED, and one of FW or SB NOT_OWNER. -/
def Obligations.FieldsGenerationsAndNotes : Prop :=
  ((∀ (e : Fin 8) (s : State) (c : TCmd) (x : Coal),
     AtHead s e.val 0x12 rowNeed c → indexRefusal s c (!fieldOk s c) [] true = none → tComposer s (cTable c) = false →
     (peek s (rowKey s (cTable c) (cRow c) (cLsb c / 64))).bad = false →
     coalFull s (rowKey s (cTable c) (cRow c) (cLsb c / 64)) = false →
     x = (sget none s.sram.coal (rowKey s (cTable c) (cRow c) (cLsb c / 64))).getD ⟨0, 0, []⟩ →
     ∃ s2 y, exec (.ifield e) s = .next (trace (popQueue s2 e.val) 0) ∧ SameBut [.sram] s s2 ∧
       sget none s2.sram.coal (rowKey s (cTable c) (cRow c) (cLsb c / 64)) = some y ∧
       y.mask = x.mask ||| fieldMask c ∧ y.val &&& ~~~ (fieldMask c) = x.val &&& ~~~ (fieldMask c) ∧
       bn (cLsb c % 64) (cWid c) y.val = (cVal c).toNat % 2 ^ cWid c ∧
       y.waits.length = x.waits.length + 1 ∧ s2.sram.words = s.sram.words) ∧
   (∀ (e : Fin 8) (s : State) (c : TCmd),
     AtHead s e.val 0x12 rowNeed c → indexRefusal s c (!fieldOk s c) [] true = none → tComposer s (cTable c) = true →
     (peek s (rowKey s (cTable c) (cRow c) (cLsb c / 64))).bad = false →
     (jAdmit s [[JRec.iword (cTable c) (cLsb c / 64) (cRow c) (fieldWord s (cTable c) (cRow c) (cLsb c) (cWid c) (cVal c).toNat)]]).1 = true →
     ∃ s2, exec (.ifield e) s = .next (trace (popQueue s2 e.val) 0) ∧ s2.journal.last = s.journal.last + 1 ∧
       s2.search.waiting.length = s.search.waiting.length + 1) ∧
   (∀ (s : State) (key : Nat) (c : Coal) (j : Nat),
     sget none s.sram.coal key = some c → (peek s key).bad = false → swf none none s.sram.coal = true →
     swf (⟨0, 0⟩ : Cw) none s.sram.words = true → c.waits.length = j →
     (jAdmit s (c.waits.map (fun _ => [JRec.iword ((tableOfPlace key).getD 0)
       ((key - kIndex ((tableOfPlace key).getD 0) 0) % rowWords s ((tableOfPlace key).getD 0))
       ((key - kIndex ((tableOfPlace key).getD 0) 0) / rowWords s ((tableOfPlace key).getD 0))
       (((peek s key).data &&& ~~~ c.mask) ||| (c.val &&& c.mask))]))).1 = true →
     Gives (.coalescerIssue key) s (fun t =>
       sget none t.sram.coal key = none ∧ t.journal.last = s.journal.last + BitVec.ofNat 64 j ∧
       cell t key = secEnc (((peek s key).data &&& ~~~ c.mask) ||| (c.val &&& c.mask))))) ∧
  (∀ s : State, s.search.waiting ≠ [] →
     (prevHeld s = true → exec .composerGenerationCommit s = .next s) ∧
     (prevHeld s = false → Gives .composerGenerationCommit s (fun t =>
       t.search.waiting = [] ∧ t.search.gen = s.search.gen + 1 ∧ t.search.prev = s.search.cur ∧
       t.search.cur = s.search.waiting.foldl (fun m w => sput 0 m w.key w.val) s.search.cur ∧
       SameBut [.sram, .search, .update, .ports, .tally, .events, .mgmt, .free] s t))) ∧
  (∀ (e : Fin 8) (s : State) (c : TCmd) (n : Nat),
     AtHead s e.val 0x14 noNeed c → cCont c = 0 → c.issuer < 8 →
     n = ((s.update.learn.find? (fun x => x.1 == bn 128 48 c.s0)).map (·.2)).getD 0 →
     (bn 64 8 c.s0 = 1 → coresServe s = false → exec (.learnNote e) s = .next (done s e.val c 0 (TRsp.of .ok))) ∧
     (bn 64 8 c.s0 = 1 → coresServe s = true → n + 1 < 4 → ∃ s2, exec (.learnNote e) s = .next (done s2 e.val c 0 (TRsp.of .ok)) ∧
       s2.update.learn.head? = some (bn 128 48 c.s0, n + 1) ∧ SameBut [.update] s s2) ∧
     (bn 64 8 c.s0 = 1 → coresServe s = true → 4 ≤ n + 1 → ∃ s2, exec (.learnNote e) s = .next (done (event s2 [c.issuer] 0x2005 (bn 128 48 c.s0) 4) e.val c 0 (TRsp.of .ok)) ∧
       s2.update.learn.head? = some (bn 128 48 c.s0, 0) ∧ SameBut [.update] s s2) ∧
     (bn 64 8 c.s0 = 2 → exec (.learnNote e) s = .next (done (trace s 5) e.val c 0 (TRsp.of .ok))) ∧
     (bn 64 8 c.s0 ≠ 1 → bn 64 8 c.s0 ≠ 2 → exec (.learnNote e) s = .next (done s e.val c 0 (TRsp.of .malformed)))) ∧
  (∀ (e : Fin 8) (s : State) (c : TCmd),
     AtHead s e.val 0x14 noNeed c → cCont c = 0 → 8 ≤ c.issuer → (bn 64 8 c.s0 = 1 ∨ bn 64 8 c.s0 = 2) →
     exec (.learnNote e) s = .next (done s e.val c 0 (TRsp.of .notOwner)))

/-- BANK_CLONE of FW (R177, R178): the destination, of a 192-trit pair both its banks, becomes CLONE_DEST, every write of the source
goes to it too, the clone is the engine's, its record takes the next JSN, and the answer waits for the clone's end; the rows are
copied in ascending order up to the first row with bad parity (R404), or none while a bank of the clone is frozen (R312).
CLONE_COMPLETE (R178, R98): once every row is copied and no gated change holds the source, in MOVE mode each logical number takes its
destination's site and the mirror ends; once no search probes an old site any more it becomes TESTING under the destination's number, and
the clone is over (R407); in COPY mode the destination
becomes IN_USE, belongs to the source's table, and goes on taking its writes (R75).
BANK_RETIRE of FW on a bank that its mode admits (R179): the bank takes the state of the mode and belongs to no table, its
record takes the next JSN, a permanent retirement queues one field repair record, and a bank that goes back holds no entry (log
entry 108).
Banks that searches leave (R76) and refresh (R91, R93): the banks of a removed replica stay while a live step holds one of
them and become FREE, of no table, once none does; the group period of a refreshed site asks at its bank's arbiter, which refreshes
the next group of 512 at once when nothing else asks and lets the request wait behind another class's transfer. -/
def Obligations.BanksCloneRetireAndReplicate : Prop :=
  (∀ (e : Fin 8) (s : State) (c : TCmd),
     AtHead s e.val 8 cloneNeed c → cCont c = 0 → c.issuer = qFW → cBank c < 2112 → cBank2 c < 2112 →
     cloneDestOk s (cBank c) (cBank2 c) (decide (cMode c % 2 = 1)) = true →
     (getEng s e.val).clone = none → saving s = false →
     (jAdmit s [[.bank 1 (cBank c) (cBank2 c) 0 3]]).1 = true →
     ∃ s2 x, exec (.bankClone e) s = .next (trace (popQueue s2 e.val) 0) ∧ (getEng s2 e.val).clone = some x ∧
       x.src = cBank c ∧ x.dst = cBank2 c ∧ x.copy = decide (cMode c % 2 = 1) ∧ x.cmd = some c ∧
       bankState s2 (cBank2 c) = 3 ∧ (isPair s (cBank c) = true → bankState s2 (cBank2 c + 1) = 3) ∧
       (cBank2 c, x.copy) ∈ mirrorsOf s2 (cBank c) ∧ s2.journal.last = s.journal.last + 1 ∧
       x.row = (if cloneFrozen s x = true then 0 else (badFrom s ((bankTable s (cBank c)).getD 0) (cBank c) 0).getD 4096) ∧ x.moved = false ∧
       (isPair s (cBank c) = false → swf TRow.blank none s.tcam.rows = true →
         ∀ r < x.row, r < 4096 → getRow s2 (siteOf s (cBank2 c)) r = getRow s (siteOf s (cBank c)) r) ∧
       SameBut [.tcam, .sram, .update, .journal, .integ, .events, .mgmt, .free] s s2) ∧
  (∀ (e : Fin 8) (s : State) (x : Clone),
     (getEng s e.val).clone = some x → saving s = false → x.moved = false → cloneFrozen s x = false → ((clonePairs s x).flatMap (fun p => [p.1, p.2])).Nodup →
     (∀ p ∈ clonePairs s x, ungoverned s p.1 = true) → badFrom s ((bankTable s x.src).getD 0) x.src x.row = none →
     (jAdmit (advanceClone s e.val) ((clonePairs s x).map (fun p => cloneRec (advanceClone s e.val) ((bankTable s x.src).getD 0) p.1 p.2 x.copy))).1 = true →
     swf 0 none s.tcam.site = true → swf 0 none s.tcam.state = true → swf Engine.reset none s.update.eng = true →
     ((x.copy = false ∧ (clonePairs s x).any (fun p => siteProbed s (isPair s x.src) (siteOf s p.1)) = true) →
       Gives (.cloneComplete e) s (fun t => t.journal.last = s.journal.last + BitVec.ofNat 64 (clonePairs s x).length ∧
         (∃ y, (getEng t e.val).clone = some y ∧ y.moved = true ∧ y.row = 4096 ∧ y.jsn = t.journal.last) ∧
         ∀ p ∈ clonePairs s x, siteOf t p.1 = siteOf s p.2 ∧ siteOf t p.2 = siteOf s p.1 ∧ bankState t p.2 = bankState s p.2)) ∧
     ((x.copy = true ∨ (clonePairs s x).any (fun p => siteProbed s (isPair s x.src) (siteOf s p.1)) = false) →
     Gives (.cloneComplete e) s (fun t =>
       (getEng t e.val).clone = none ∧ t.journal.last = s.journal.last + BitVec.ofNat 64 (clonePairs s x).length ∧
       (x.copy = false → (∀ b, ∀ m ∈ mirrorsOf t b, m.1 ≠ x.dst) ∧
         ∀ p ∈ clonePairs s x, siteOf t p.1 = siteOf s p.2 ∧ siteOf t p.2 = siteOf s p.1 ∧ bankState t p.2 = 4) ∧
       (x.copy = true → t.tcam.mirror = s.tcam.mirror ∧ t.tcam.site = s.tcam.site ∧
         ∀ p ∈ clonePairs s x, bankState t p.2 = 1 ∧ bankTable t p.2 = some ((bankTable s x.src).getD 0))))) ∧
  (∀ (e : Fin 8) (s : State) (x : Clone),
     (getEng s e.val).clone = some x → saving s = false → x.moved = true → x.copy = false → x.row = 4096 → ((clonePairs s x).map (·.2)).Nodup →
     swf Engine.reset none s.update.eng = true →
     ((clonePairs s x).any (fun p => siteProbed s (isPair s x.src) (siteOf s p.2)) = true →
       Gives (.cloneComplete e) s (fun t => (getEng t e.val).clone = some x ∧ t.tcam = s.tcam ∧ t.journal = s.journal)) ∧
     ((clonePairs s x).any (fun p => siteProbed s (isPair s x.src) (siteOf s p.2)) = false →
       Gives (.cloneComplete e) s (fun t => (getEng t e.val).clone = none ∧ t.tcam.site = s.tcam.site ∧ t.journal = s.journal ∧
         ∀ p ∈ clonePairs s x, bankState t p.2 = 4))) ∧
  (∀ (e : Fin 8) (s : State) (c : TCmd) (st : BitVec 4),
     AtHead s e.val 9 (fun _ c => [resBank (cBank c)]) c → cCont c = 0 → cBank c < 2112 → c.issuer = qFW →
     retireState s (cBank c) (cMode c) = some st → (jAdmit s [[.bank 4 (cBank c) 0 0 0]]).1 = true →
     swf 0 none s.tcam.state = true → swf 0 none s.tcam.table = true →
     ∃ s2 r, exec (.bankRetire e) s = .next (done s2 e.val c 0 r) ∧ r.st = .ok ∧ r.jsn = s.journal.last + 1 ∧
       bankState s2 (cBank c) = st ∧ bankTable s2 (cBank c) = none ∧
       s2.integ.repairs.length = s.integ.repairs.length + (if cMode c = 0 then 1 else 0) ∧
       (cMode c ≠ 0 → ∀ r < 4096, getRow s2 (siteOf s (cBank c)) r = TRow.blank)) ∧
  (∀ s : State,
     (∀ d r, s.marker.releases.find? (fun r => r.1 = d) = some r → r.2.2.any (bankHeld s) = true →
       exec (.replicaRelease d) s = .next s) ∧
     (∀ d r, s.marker.releases.find? (fun r => r.1 = d) = some r → r.2.2.any (bankHeld s) = false → swf 0 none s.tcam.state = true →
       swf 0 none s.tcam.table = true →
       Gives (.replicaRelease d) s (fun t => t.marker.releases = s.marker.releases.erase r ∧
         (∀ b ∈ r.2.2, bankState t b = 0 ∧ bankTable t b = none) ∧ SameBut [.tcam, .marker] s t)) ∧
     (∀ b, refreshed s (logicalOf s b) = true → b < 2112 →
       (((getArb s b).holder = none ∨ (getArb s b).holder = some 12) → (∀ k, k ≠ 12 → (getClass (getArb s b) k).waits = []) →
         swf 0 none s.tcam.refGroup = true → swf 0 none s.tcam.refDue = true →
         Gives (.refreshGroup b) s (fun t => SameBut [.tcam, .arbs, .events, .free] s t ∧ t.tcam.rows = s.tcam.rows ∧
           (getArb t b).holder = some 12 ∧ sget 0 t.tcam.refDue b = sget 0 s.tcam.refDue b ∧
           sget 0 t.tcam.refGroup b = (sget 0 s.tcam.refGroup b + 1) % 512)) ∧
       (∀ k, (getArb s b).holder = some k → k ≠ 12 →
         Gives (.refreshGroup b) s (fun t => SameBut [.tcam, .arbs] s t ∧ t.tcam.rows = s.tcam.rows ∧
           t.tcam.refGroup = s.tcam.refGroup ∧ sget 0 t.tcam.refDue b = sget 0 s.tcam.refDue b + 1 ∧
           (getClass (getArb t b) 12).waits ≠ []))) ∧
     (∀ b, refreshed s (logicalOf s b) = false → exec (.refreshGroup b) s = .next s))

/-- BULK_OPEN and BULK_CLOSE (R180, R183): the open stream has its table, direction and REPLACE and no records yet; the close
answers the counts of committed and rejected records once no record waits, and closes the stream.
BULK_RECORD (R181): of a stream that is open for LOAD or DELETE, the waiting record that comes next in sequence order is taken from
the port and answered on its stream, once its engine has its turn for it and its reservations and no bank of it is frozen. An entry
record of the stream's table and of one stream and sequence number is applied as its command (R34, R158, R272): a
LOAD record of a new entry on a table without copies, links or gates installs it, one of an installed entry is answered EXISTED, and a
DELETE record of an entry that is not there MISS; any other is rejected as MALFORMED. A record of a stream that is not open is a bad
slot.
DUMP_ENTRY (R182): the open DUMP stream delivers its next entry and moves past it; with no entry left it closes itself, and on a port
sends the end of the dump with the number sent. FW's and SB's streams deliver through their register sets (log entry 16).
GATE_DRAINED (R82, R312): once no step that holds an older snapshot is probing, and no bank of its copies is frozen, the gate is FREE and closed, no selector names
it, and its change is no longer open in the journal; before that nothing changes. -/
def Obligations.StreamsAndGates : Prop :=
  (∀ (e : Fin 8) (s : State) (c : TCmd),
     (AtHead s e.val 0x0A noNeed c →
       entryRefusal s c (cDir c = 3) (if cDir c = 2 then [qFW, qSB] else []) (cDir c ≠ 2) = none →
       (getStream s c.issuer (cStream c)).isOpen = false →
       ∃ s2, exec (.bulkOpen e) s = .next (done s2 e.val c 0 (TRsp.of .ok)) ∧
         getStream s2 c.issuer (cStream c) = { Stream.reset with isOpen := true, table := cTable c, dir := BitVec.ofNat 2 (cDir c), replace := cStreamReplace c, eng := e.val } ∧
         SameBut [.update] s s2) ∧
     (AtHead s e.val 0x0B noNeed c → cCont c = 0 → tKind s (cTable c) = 1 →
       (getStream s c.issuer (cStream c)).isOpen = true → (getStream s c.issuer (cStream c)).table = cTable c →
       (c.issuer < 8 → bulkWaits s c.issuer = false) → swf Stream.reset none s.update.streams = true →
       ∃ s2 r, exec (.bulkClose e) s = .next (done s2 e.val c 0 r) ∧ r.st = .ok ∧
         bn 0 32 r.res = (getStream s c.issuer (cStream c)).committed % 2 ^ 32 ∧
         bn 32 32 r.res = (getStream s c.issuer (cStream c)).rejected % 2 ^ 32 ∧
         (getStream s2 c.issuer (cStream c)).isOpen = false ∧ SameBut [.update] s s2)) ∧
  (∀ (p : Fin 8) (s : State) (r : List Slot) (rs : List (List Slot)),
     bulkRecords s p.val = r :: rs →
     (((getStream s p.val (bStream (r.headD 0))).isOpen = false ∨ (getStream s p.val (bStream (r.headD 0))).dir = 2) →
       exec (.bulkRecord p) s = .next (badSlot (takeBulk s p.val 0) p.val)) ∧
     (∀ (st : Stream) (i : Nat) (x : List Slot) (c : TCmd) (fin : State → State),
       st = getStream s p.val (bStream (r.headD 0)) → st.isOpen = true → st.dir ≠ 2 →
       nextRecord s p.val (bStream (r.headD 0)) = some (i, x) → bStream (x.headD 0) = bStream (r.headD 0) →
       c = recordCmd p.val st (x.headD 0) (x.getD 1 0) (x.getD 2 0) →
       sget [] s.tcam.repairs st.eng = [] → recordTurn (getEng s st.eng) (p.val * 4 + bStream (x.headD 0)) = true →
       (getEng s st.eng).restarts + (if mustRestart (getEng s st.eng) (entryNeed s c) then 1 else 0) < 4 →
       (entryNeed s c).any (resTaken s st.eng) = false → waitsFrozen s c = false →
       (∀ y, fin y = setStream (takeBulk (dropRecordOf y st.eng) p.val i) p.val (bStream (r.headD 0))
         { getStream (takeBulk (dropRecordOf y st.eng) p.val i) p.val (bStream (r.headD 0)) with seq := bSeq (x.headD 0) + 1 }) →
       ((cTable c ≠ st.table ∨ recordWhole x = false) →
         exec (.bulkRecord p) s = .next (answer (fin s) c.via (TRsp.of .malformed))) ∧
       (cTable c = st.table → recordWhole x = true →
         (∀ s2 q, (if st.dir = 0 then runInsert st.eng s c else runDelete false st.eng s c) = .ends s2 q →
           exec (.bulkRecord p) s = .next (answer (fin s2) c.via (q.getD (TRsp.of .ok)))) ∧
         (st.dir = 1 → ∀ s1, entryRefusal s c false [] true = none →
           findEntry s (cTable c) (cMask s c) (cKey s c) (cPlen c) (dirsFor s (cTable c) (cMask s c) (cKey s c)) = ([], s1) →
           exec (.bulkRecord p) s = .next (answer (fin (countT s1 (cTable c) 5 1)) c.via (TRsp.of .miss))) ∧
         (st.dir = 0 → ∀ s1 l ls, entryRefusal s c (formBad s c) [] true = none → cReplace c = false →
           findEntry (issueLinks s (cTable c) (linkRow s (cTable c) (cRes c)).toList) (cTable c) (cMask s c) (cKey s c) (cPlen c)
             (dirsFor s (cTable c) (cMask s c) (cKey s c)) = (l :: ls, s1) →
           ∃ q, exec (.bulkRecord p) s = .next (answer (fin (countT s1 (cTable c) 1 1)) c.via q) ∧ q.st = .ok ∧ q.existed = true ∧ q.jsn = 0) ∧
         (st.dir = 0 → ∀ (d : Nat) (pl : Plan), entryRefusal s c (formBad s c) [] true = none →
           tWidth s (cTable c) < 2 → tLink s (cTable c) = 0 → rpBlocks s (cTable c) (cRes c) = false →
           dirsFor s (cTable c) (cMask s c) (cKey s c) = [d] → isGated s (cTable c) [d] = false →
           findEntry s (cTable c) (cMask s c) (cKey s c) (cPlen c) [d] = ([], s) →
           planOne s (cTable c) (cPlen c) (cNochain c) d = some pl → pl.moves = [] → pl.loc.d = d →
           mirrorsOf s (primaryBank s pl.loc) = [] → copyBanks s (cTable c) d pl.loc.j = [primaryBank s pl.loc] →
           swf TRow.blank none s.tcam.rows = true → s.journal.last + 1 ≠ 0 →
           (jAdmit s [[entryRec s (cTable c) pl.loc (cMask s c) (cKey s c) (cPlen c) (cRes c)]]).1 = true →
           Gives (.bulkRecord p) s (fun t =>
             getEntry t (tWidth s (cTable c)) (primaryBank s pl.loc) pl.loc.r pl.loc.h =
               mkEntry (cMask s c) (cKey s c) (BitVec.ofNat 7 (cPlen c)) true 0 ∧
             t.journal.last = s.journal.last + 1 ∧
             (getStream t p.val (bStream (r.headD 0))).committed = st.committed + 1))))) ∧
  (∀ (p : Fin 10) (k : Fin 4) (s : State),
     (getStream s p.val k.val).isOpen = true → (getStream s p.val k.val).dir = 2 → (8 ≤ p.val → (dumpSet s p.val).busy = false) →
     (nextEntry s (getStream s p.val k.val).table (getStream s p.val k.val).pos = none →
       (p.val < 8 → exec (.dumpEntry p k) s = .next (send (setStream s p.val k.val Stream.reset) p.val [endOfDump k.val (getStream s p.val k.val).sent])) ∧
       (8 ≤ p.val → exec (.dumpEntry p k) s = .next (setStream s p.val k.val Stream.reset))) ∧
     (∀ l en, nextEntry s (getStream s p.val k.val).table (getStream s p.val k.val).pos = some (l, en) → parityOk en = true →
       getEntry s (tWidth s (getStream s p.val k.val).table) (primaryBank s l) l.r l.h = en → en.side.v = true →
       (peek s (kSlot (primaryBank s l) l.r l.h 0)).bad = false →
       (frozenAt s (getStream s p.val k.val).table (primaryBank s l) = true → exec (.dumpEntry p k) s = .next s) ∧
       (frozenAt s (getStream s p.val k.val).table (primaryBank s l) = false → Gives (.dumpEntry p k) s (fun t =>
         (getStream t p.val k.val).sent = (getStream s p.val k.val).sent + 1 ∧
         (getStream t p.val k.val).pos = locAddr s l * 2 + l.h + 1 ∧
         (getStream t p.val k.val).seq = (getStream s p.val k.val).seq + 1 ∧ t.tcam = s.tcam)))) ∧
  (∀ (g : Fin 64) (s : State),
     (drained s (getGate s g.val).seq = false → exec (.gateDrained g) s = .next s) ∧
     ((getGate s g.val).copies.any (fun c => frozenAt s (getGate s g.val).table c.bank) = true → exec (.gateDrained g) s = .next s) ∧
     ((getGate s g.val).st = .draining → drained s (getGate s g.val).seq = true →
       (getGate s g.val).copies.any (fun c => frozenAt s (getGate s g.val).table c.bank) = false → swf Gate.reset none s.marker.gates = true →
       Gives (.gateDrained g) s (fun t =>
         getGate t g.val = Gate.reset ∧ (∀ k i, (k, some (g.val, i)) ∉ t.tcam.sels) ∧
         (getGate s g.val).jsn ∉ t.journal.open_)))

/-! ## Lifecycle commands -/

/-- Binding (R230, R233): MAP_BIND of a FREE_CONDITIONED block that its sender may bind makes it HOME with the epoch and no
references, and points the logical stripe-block at it; MAP_RELEASE of a bound one without bastings sets it UNBOUND's RELEASED
state and the block FREE_DIRTY, and of a poisoned one the row alone; MAP_POISON poisons it; HEAT_SET writes its heat class alone. -/
def Obligations.BindingCommandsWriteRows : Prop :=
  ∀ (e : Fin 8) (s : State) (c : TCmd), swf (⟨0, 0⟩ : Cw) none s.sram.words = true →
    (LifeReady s e.val 0x40 c [(tBMAP, cLblk c), (tBINF, cPA c)] true →
      (bmState (bmap s (cLblk c)) = 0 ∨ bmState (bmap s (cLblk c)) = 2) → mayBind s c.issuer (cPA c) = true →
      biState (binf s (cPA c)) = 0 →
      LifeRoom s c 2 → ∃ i b, biState i = 3 ∧ biEpoch i = s.clock.epoch ∧ biRef i = 0 ∧ biWear i = biWear (binf s (cPA c)) ∧
        bmPsb b = cPA c ∧ bmState b = 1 ∧ bmRot b = rotOf (cLblk c) ∧ bn 48 2 b = cHeat c ∧
        bmBaste b = bmBaste (bmap s (cLblk c)) ∧
        LifeOk (.mapBind e) s e.val c [(tBINF, cPA c, 0, i), (tBMAP, cLblk c, 0, b)]) ∧
    (LifeReady s e.val 0x41 c [(tBMAP, cLblk c), (tBINF, bmPsb (bmap s (cLblk c)))] true →
      bmState (bmap s (cLblk c)) = 1 → bmBaste (bmap s (cLblk c)) = 0 →
      LifeRoom s c 2 → ∃ b i, bmState b = 2 ∧ bmPsb b = bmPsb (bmap s (cLblk c)) ∧ biState i = 1 ∧
        biWear i = biWear (binf s (bmPsb (bmap s (cLblk c)))) ∧
        LifeOk (.mapRelease e) s e.val c [(tBMAP, cLblk c, 0, b), (tBINF, bmPsb (bmap s (cLblk c)), 0, i)]) ∧
    (LifeReady s e.val 0x41 c [(tBMAP, cLblk c), (tBINF, bmPsb (bmap s (cLblk c)))] true →
      bmState (bmap s (cLblk c)) = 1 → bmBaste (bmap s (cLblk c)) ≠ 0 →
      ∃ s2 r, exec (.mapRelease e) s = .next (done s2 e.val c 1 r) ∧ r.st = .stillReferenced ∧
        s2.sram.words = s.sram.words ∧ s2.journal = s.journal) ∧
    (LifeReady s e.val 0x41 c [(tBMAP, cLblk c), (tBINF, bmPsb (bmap s (cLblk c)))] true →
      bmState (bmap s (cLblk c)) = 3 → LifeRoom s c 1 → ∃ b, bmState b = 2 ∧ bmPsb b = bmPsb (bmap s (cLblk c)) ∧
        LifeOk (.mapRelease e) s e.val c [(tBMAP, cLblk c, 0, b)]) ∧
    (LifeReady s e.val 0x42 c [(tBMAP, cLblk c), (tBINF, bmPsb (bmap s (cLblk c)))] (permPsb s c) →
      bmState (bmap s (cLblk c)) = 1 →
      LifeRoom s c 2 → ∃ b i, bmState b = 3 ∧ biState i = 1 ∧
        LifeOk (.mapPoison e) s e.val c [(tBMAP, cLblk c, 0, b), (tBINF, bmPsb (bmap s (cLblk c)), 0, i)]) ∧
    (LifeReady s e.val 0x43 c [(tBMAP, cLblk c)] true → bmState (bmap s (cLblk c)) ≠ 0 →
      LifeRoom s c 1 → ∃ b, bn 48 2 b = cHeat c ∧ bn 0 48 b = bn 0 48 (bmap s (cLblk c)) ∧ bn 50 14 b = bn 50 14 (bmap s (cLblk c)) ∧
        LifeOk (.heatSet e) s e.val c [(tBMAP, cLblk c, 0, b)])

/-- Migration (R230, R231, R237, R238): MIG_BEGIN of a bound block to a free target opens its MIG row at step 1, free or switched for
4 µs, and marks source, target and map row; MIG_CURSOR raises the cursor, and a lower one is refused with the cursor; MIG_COPIED at cursor 4096 ends the copy; MAP_SWITCH makes the target
HOME and the source FREE_DIRTY or RETIRED; MIG_ABORT before any cursor undoes the beginning. -/
def Obligations.MigrationCommandsWriteRows : Prop :=
  ∀ (e : Fin 8) (s : State) (c : TCmd) (l r src tgt : Nat), swf (⟨0, 0⟩ : Cw) none s.sram.words = true →
    l = cLblk c → r = bmRot (bmap s l) →
    (src = bmPsb (bmap s l) →
      LifeReady s e.val 0x44 c (migRows s c ++ [(tBINF, cPA c), (tBINF, src)]) (permPsb s c) →
      bmState (bmap s l) = 1 → mayBind s c.issuer (cPA c) = true → biState (binf s (cPA c)) = 0 → cPA c ≠ src →
      rowOfRebal s l = false → (miStep (mig0 s r) = 0 ∨ (miStep (mig0 s r) = 3 ∧ (migSide s r).since + 4000 ≤ now s)) →
      LifeRoom s c 5 → ∃ m y t i b, miStep m = 1 ∧ miSrc m = src ∧ miTgt y = cPA c ∧ miCursor y = 0 ∧ biState t = 7 ∧ biState i = 6 ∧ bmState b = 8 ∧ bmPsb b = src ∧
        LifeOk (.migBegin e) s e.val c [(tMIG, r, 0, m), (tMIG, r, 1, y), (tBINF, cPA c, 0, t), (tBINF, src, 0, i), (tBMAP, l, 0, b)]) ∧
    (LifeReady s e.val 0x45 c (migRows s c) (permHolder s c) → bmState (bmap s l) = 8 →
      miStep (mig0 s r) = 1 → cV c ≤ 4096 → miCursor (mig1 s r) < cV c →
      LifeRoom s c 1 → ∃ y, miCursor y = cV c ∧ miTgt y = miTgt (mig1 s r) ∧
        LifeOk (.migCursor e) s e.val c [(tMIG, r, 1, y)]) ∧
    (LifeReady s e.val 0x45 c (migRows s c) (permHolder s c) → bmState (bmap s l) = 8 →
      miStep (mig0 s r) = 1 → cV c < miCursor (mig1 s r) → cV c ≤ 4096 →
      ∃ s2 q, exec (.migCursor e) s = .next (done s2 e.val c 1 q) ∧ q.st = .staleVersion ∧
        q.res = BitVec.ofNat 64 (miCursor (mig1 s r)) ∧ s2.sram.words = s.sram.words ∧ s2.journal = s.journal) ∧
    (LifeReady s e.val 0x45 c (migRows s c) (permHolder s c) → bmState (bmap s l) = 8 →
      miStep (mig0 s r) = 1 → cV c = miCursor (mig1 s r) → cV c ≤ 4096 →
      ∃ s2 q, exec (.migCursor e) s = .next (done s2 e.val c 1 q) ∧ q.st = .ok ∧ s2.sram.words = s.sram.words ∧ s2.journal = s.journal) ∧
    (LifeReady s e.val 0x46 c (migRows s c) (permHolder s c) → bmState (bmap s l) = 8 →
      miStep (mig0 s r) = 1 → miCursor (mig1 s r) = 4096 →
      LifeRoom s c 1 → ∃ m, miStep m = 2 ∧ miSrc m = miSrc (mig0 s r) ∧
        LifeOk (.migCopied e) s e.val c [(tMIG, r, 0, m)]) ∧
    (src = miSrc (mig0 s r) → tgt = miTgt (mig1 s r) → src ≠ tgt →
      LifeReady s e.val 0x47 c (migRowsAll s c) (permHolder s c) → bmState (bmap s l) = 8 → miStep (mig0 s r) = 2 →
      LifeRoom s c 4 → ∃ t b m i, biState t = 3 ∧ biEpoch t = (migSide s r).bepoch ∧ bmState b = 1 ∧ bmPsb b = tgt ∧ miStep m = 3 ∧
        biState i = (if (migSide s r).rsrc then 8 else 1) ∧
        LifeOk (.mapSwitch e) s e.val c [(tBINF, tgt, 0, t), (tBMAP, l, 0, b), (tMIG, r, 0, m), (tBINF, src, 0, i)]) ∧
    (src = miSrc (mig0 s r) → tgt = miTgt (mig1 s r) → src ≠ tgt →
      LifeReady s e.val 0x48 c (migRowsAll s c) (permHolder s c) → bmState (bmap s l) = 8 → miStep (mig0 s r) = 1 →
      miCursor (mig1 s r) = 0 →
      LifeRoom s c 4 → ∃ i b m t, biState i = 3 ∧ bmState b = 1 ∧ bmPsb b = bmPsb (bmap s l) ∧ miStep m = 0 ∧ biState t = 1 ∧
        LifeOk (.migAbort e) s e.val c [(tBINF, src, 0, i), (tBMAP, l, 0, b), (tMIG, r, 0, m), (tBINF, tgt, 0, t)])

/-- Log blocks, conditioning and refresh (R230, R244, R246, R251): LOG_OPEN, LOG_CLOSE and LOG_FREE take a block from
FREE_CONDITIONED through LOG_OPEN and LOG_CLOSED to FREE_DIRTY; CONDITION_BEGIN takes a FREE_DIRTY block to CONDITIONING;
CONDITION_DONE raises its wear and makes it FREE_CONDITIONED in its bin, or RETIRED at the wear limit or on failure;
REFRESH_DONE sets a newer epoch.
Rebuild (R248 to R250): MEMBER_FAIL of a group without a failed member assigns a free hot-spare die and starts the rebuild at
block 0, and without a free spare it marks the group; REBUILD_ADVANCE raises the rebuild
position. The row waits for a composer generation, and the answer with it. The same member again is answered OK; a second failure is
answered NO_ROOM, raises MEMBER_DOUBLE to every partner and FW, and with room in the journal the group's free blocks become RETIRED
(R250; at once, by the device's own FW: log entry 109). -/
def Obligations.BlockAndRebuildCommandsWriteRows : Prop :=
  (∀ (e : Fin 8) (s : State) (c : TCmd) (pa : Nat), pa = cPA c → pa ≠ 0xFFFFFF → swf (⟨0, 0⟩ : Cw) none s.sram.words = true →
     (LifeReady s e.val 0x49 c [(tBINF, pa)] (permPA s c) → mayBind s c.issuer pa = true → biState (binf s pa) = 0 →
       LifeRoom s c 1 → ∃ i, biState i = 4 ∧ biEpoch i = s.clock.epoch ∧ biRef i = 0 ∧ biWear i = biWear (binf s pa) ∧
         LifeOk (.logOpen e) s e.val c [(tBINF, pa, 0, i)]) ∧
     (LifeReady s e.val 0x4A c [(tBINF, pa)] (permPA s c) → biState (binf s pa) = 4 →
       LifeRoom s c 1 → ∃ i, biState i = 5 ∧ biRef i = biRef (binf s pa) ∧ biWear i = biWear (binf s pa) ∧
         LifeOk (.logClose e) s e.val c [(tBINF, pa, 0, i)]) ∧
     (LifeReady s e.val 0x4B c [(tBINF, pa)] (permPA s c) → biState (binf s pa) = 5 → biRef (binf s pa) = 0 →
       LifeRoom s c 1 → ∃ i, biState i = 1 ∧ biWear i = biWear (binf s pa) ∧
         LifeOk (.logFree e) s e.val c [(tBINF, pa, 0, i)]) ∧
     (LifeReady s e.val 0x4B c [(tBINF, pa)] (permPA s c) → biState (binf s pa) = 5 → biRef (binf s pa) ≠ 0 →
       ∃ s2 q, exec (.logFree e) s = .next (done s2 e.val c 1 q) ∧ q.st = .stillReferenced ∧ s2.sram.words = s.sram.words) ∧
     (LifeReady s e.val 0x4D c [(tBINF, pa)] (permPA s c) → biState (binf s pa) = 1 → biRef (binf s pa) = 0 →
       LifeRoom s c 1 → ∃ i, biState i = 2 ∧ biWear i = biWear (binf s pa) ∧
         LifeOk (.conditionBegin e) s e.val c [(tBINF, pa, 0, i)]) ∧
     (LifeReady s e.val 0x4E c [(tBINF, pa)] (permPA s c) → biState (binf s pa) = 2 → biWear (binf s pa) + cE c < 2 ^ 24 →
       LifeRoom s c 1 → ∃ i, biWear i = biWear (binf s pa) + cE c ∧
         biState i = (if cFail c = true ∨ s.str.wearLimit.toNat ≤ biWear (binf s pa) + cE c then 8 else 0) ∧
         LifeOk (.conditionDone e) s e.val c [(tBINF, pa, 0, i)]) ∧
     (LifeReady s e.val 0x4F c [(tBINF, pa)] (permPA s c) → (biState (binf s pa) = 3 ∨ biState (binf s pa) = 4 ∨ biState (binf s pa) = 5) →
       (s.clock.epoch - BitVec.ofNat 16 (cE c)).toNat ≤ (s.clock.epoch - biEpoch (binf s pa)).toNat →
       LifeRoom s c 1 → ∃ i, biEpoch i = BitVec.ofNat 16 (cE c) ∧ biState i = biState (binf s pa) ∧ biWear i = biWear (binf s pa) ∧
         LifeOk (.refreshDone e) s e.val c [(tBINF, pa, 0, i)])) ∧
  (∀ (e : Fin 8) (s : State) (c : TCmd), cGroup c < 240 →
     (LifeReady s e.val 0x50 c [(tSHT, cGroup c)] (permPA s c) → cMember c ≤ 16 → shFmem (sht s (cGroup c)) = 31 →
       LifeRoom s c 1 → ∃ v, shFmem v = cMember c ∧ shRblk v = 0 ∧
         (∀ d, [2 * portOfGroup (cGroup c), 2 * portOfGroup (cGroup c) + 1].find? (fun d => !spareTaken s (cGroup c) d) = some d →
           shSpare v = d ∧ shNosp v = false) ∧
         ([2 * portOfGroup (cGroup c), 2 * portOfGroup (cGroup c) + 1].find? (fun d => !spareTaken s (cGroup c) d) = none →
           shNosp v = true) ∧
         ∃ s2 x, exec (.memberFail e) s = .next (trace (popQueue s2 e.val) 1) ∧ s2.journal.last = s.journal.last + 1 ∧
             s2.search.waiting = s.search.waiting ++ [x] ∧ x.key = rowKey s tSHT (cGroup c) 0 ∧ x.val = v) ∧
     (LifeReady s e.val 0x50 c [(tSHT, cGroup c)] (permPA s c) → cMember c ≤ 16 → shFmem (sht s (cGroup c)) ≠ 31 → shFmem (sht s (cGroup c)) ≠ cMember c →
       ∃ s2 r, exec (.memberFail e) s = .next (done (retireGroup (event s2 [8, 0, 1, 2, 3, 4, 5, 6, 7] 0xF006 (cGroup c) (cMember c)) (cGroup c)) e.val c 1 r) ∧
         r.st = .noRoom ∧ SameBut [.sram, .integ, .mgmt] s s2 ∧ s2.sram.words = s.sram.words) ∧
     (LifeReady s e.val 0x50 c [(tSHT, cGroup c)] (permPA s c) → shFmem (sht s (cGroup c)) = cMember c → cMember c ≤ 16 →
       ∃ s2 r, exec (.memberFail e) s = .next (done s2 e.val c 1 r) ∧ r.st = .ok ∧ s2.sram.words = s.sram.words ∧ s2.journal = s.journal) ∧
     (LifeReady s e.val 0x51 c [(tSHT, cGroup c)] (permPA s c) → shFmem (sht s (cGroup c)) ≠ 31 → shNosp (sht s (cGroup c)) = false →
       shRblk (sht s (cGroup c)) < cV c → cV c ≤ 0x7FFF →
       LifeRoom s c 1 → ∃ v, shRblk v = cV c ∧ shFmem v = shFmem (sht s (cGroup c)) ∧ shSpare v = shSpare (sht s (cGroup c)) ∧
         ∃ s2 x, exec (.rebuildAdvance e) s = .next (trace (popQueue s2 e.val) 1) ∧ s2.journal.last = s.journal.last + 1 ∧
             s2.search.waiting = s.search.waiting ++ [x] ∧ x.key = rowKey s tSHT (cGroup c) 0 ∧ x.val = v) ∧
     (LifeReady s e.val 0x51 c [(tSHT, cGroup c)] (permPA s c) → shFmem (sht s (cGroup c)) ≠ 31 → shNosp (sht s (cGroup c)) = false →
       cV c ≤ shRblk (sht s (cGroup c)) →
       ∃ s2 r, exec (.rebuildAdvance e) s = .next (done s2 e.val c 1 r) ∧ r.st = .staleVersion ∧ s2.sram.words = s.sram.words)) ∧
  (∀ (s : State) (g : Nat), s.sram.inj = none → swf (⟨0, 0⟩ : Cw) none s.sram.words = true →
     (jAdmit s [(freeBlocks s g).map (fun pa => JRec.iword tBINF 0 pa (setBiState (binf s pa) 8))]).1 = true →
     ∀ pa ∈ freeBlocks s g, biState (binf (retireGroup s g) pa) = 8)

/-- Overlays (R239, R240, R230): OVL_PUT of a new overlay takes the way of INSERT, once the moves of its plans have drained, its LIFE record and the raised basting counts
in one group with the entry; OVL_DROP opens a delete gate that lowers the basting counts at its drain and answers then; with
CMPW and another result word it is answered STALE_VERSION and removes nothing.
REPOINT and LOG_REPOINT (R169, R170, R228, R243): an admitted command starts with nothing visited, LOG_REPOINT under the JSN of its
LIFE record and holding the rows of its two blocks, for which it waits, from its checks on; each visited entry moves it on, one out of scope or of another kind unchanged; after the last entry it leaves the queue and is answered OK with the
number of entries rewritten and the JSN of its first group, or, resumed after a reset, raises CMD_DONE.
The lists that Waitos keeps (R211, R244, R247, R252), while a core is in service (R42): the refill fills the reserve or empties every bin; the scan queues
every FREE_DIRTY block that its partner's queue has room for; the wear bins become 15 rising boundaries; the refresh scan
raises nothing while no block is of age, and REFRESH_DUE to the partner of a block that is.
HEAT_HALVING (R210, R385): with no injection armed, every written HEAT word that is readable takes the halves of its four
counters, with correct check bits; no word outside HEAT changes. -/
def Obligations.OverlaysRepointsAndLists : Prop :=
  (∀ (e : Fin 8) (s s0 s1 : State) (c : TCmd),
     (∀ l ∈ coveredBlocks (cMask s c) (cKey s c) (cPlen c), ∀ k ∈ rowKeys s tBMAP l, sget none s.sram.coal k = none) →
     (∀ ps s3 n, AtHead s e.val 0x58 ovlNeed c → ovlRefusal s c true = none →
       (findEntry s tOVL (cMask s c) (cKey s c) (cPlen c) (dirsFor s tOVL (cMask s c) (cKey s c))).1 = [] →
       (∀ l ∈ coveredBlocks (cMask s c) (cKey s c) (cPlen c), rowBad s tBMAP l = false ∧ bmBaste (bmap s l) < 255) →
       rowsHeld s [] (coveredBlocks (cMask s c) (cKey s c) (cPlen c)) = false →
       (ovlTarget c).any (rowBad s tBINF) = false → s0 = (ovlTarget c).foldl (fun u r => touchAll u (rowKeys u tBINF r)) s →
       dirsFor s0 tOVL (cMask s c) (cKey s c) ≠ [] →
       findEntry (issueLinks s0 tOVL (linkRow s0 tOVL (cRes c)).toList) tOVL (cMask s c) (cKey s c) (cPlen c)
         (dirsFor s0 tOVL (cMask s c) (cKey s c)) = ([], s1) →
       wordRefusal s1 tOVL none (linkRow s0 tOVL (cRes c)) (cRes c) = none →
       rowsHeld s1 (linkRow s0 tOVL (cRes c)).toList (coveredBlocks (cMask s c) (cKey s c) (cPlen c)) = false →
       planAll s1 tOVL (cPlen c) (cNochain c) (dirsFor s0 tOVL (cMask s c) (cKey s c)) = some ps →
       (isGated s1 tOVL (dirsFor s0 tOVL (cMask s c) (cKey s c)) = true →
         canGate s1 e.val 1 ((copiesOf s1 tOVL (ps.map (·.loc))).map (·.1)) = true ∧ (freeGate s3 e.val).isSome = true) →
       (planMoves ps).findSome? (moveBad s1 tOVL) = none → relocateAll e.val tOVL (planMoves ps) 0 s1 = (s3, n, true) →
       (jAdmit s1 (moveGroups s1 tOVL (planMoves ps) ++ [(lifeRec s0 c 0 :: (coveredBlocks (cMask s c) (cKey s c) (cPlen c)).map
         (fun l => fieldRec s0 tBMAP l 28 8 (bmBaste (bmap s0 l) + 1))) ++
         ps.map (fun p => entryRec s1 tOVL p.loc (cMask s c) (cKey s c) (cPlen c) (cRes c)) ++
         linkIncRec s1 tOVL none (linkRow s1 tOVL (cRes c))])).1 = true →
       ∃ s2 r, exec (.ovlPut e) s = .next (done s2 e.val c 1 r) ∧ r.st = .ok ∧ r.existed = false ∧ r.moves = BitVec.ofNat 5 n ∧
         r.jsn = s2.journal.last ∧ s2.journal.last = s3.journal.last + 1) ∧
     (∀ l ls, AtHead s e.val 0x59 ovlNeed c → ovlRefusal s c false = none →
       findEntry s tOVL (cMask s c) (cKey s c) (cPlen c) (dirsFor s tOVL (cMask s c) (cKey s c)) = (l :: ls, s1) →
       (resAt s1 l).bad = false →
       (cCmpw c = true → (resAt s1 l).data ≠ cRes c →
         ∃ r, exec (.ovlDrop e) s = .next (done (touch s1 (resKey s1 l)) e.val c 1 r) ∧ r.st = .staleVersion ∧ r.res = (resAt s1 l).data) ∧
       (∀ s2, (cCmpw c = false ∨ (resAt s1 l).data = cRes c) →
         (coveredBlocks (cMask s c) (cKey s c) (cPlen c)).any (rowBad s1 tBMAP) = false →
         s2 = issueLinks (touchQ s1 (resKey s1 l)) tOVL (linkRow s1 tOVL (resAt s1 l).data).toList →
         rowsHeld s2 (linkRow s1 tOVL (resAt s1 l).data).toList (coveredBlocks (cMask s c) (cKey s c) (cPlen c)) = false →
         (copiesOf s1 tOVL (l :: ls)).all (fun k => (getEntry s2 (tWidth s1 tOVL) k.1 k.2.1 k.2.2).side.g == 0) = true →
         (linkRow s1 tOVL (resAt s1 l).data).toList.any (linkBad s2 tOVL) = false →
         canGate s2 e.val 1 ((copiesOf s1 tOVL (l :: ls)).map (·.1)) = true →
         (jAdmit s2 [(lifeRec s1 c 0 :: (coveredBlocks (cMask s c) (cKey s c) (cPlen c)).map (fun b => fieldRec s1 tBMAP b 28 8 (bmBaste (bmap s1 b) - 1))) ++
           (l :: ls).map (fun x => JRec.del tOVL x.h (locAddr s2 x)) ++ linkFallRec s2 tOVL (linkRow s1 tOVL (resAt s1 l).data).toList]).1 = true →
         ∃ s3 g, exec (.ovlDrop e) s = .next (trace (popQueue s3 e.val) 1) ∧ s3.journal.last = s2.journal.last + 1 ∧
           (getGate s3 g).st = .draining ∧ (getGate s3 g).opened = true ∧
           (getGate s3 g).basteDec = coveredBlocks (cMask s c) (cKey s c) (cPlen c) ∧ (getGate s3 g).reply.isSome = true))) ∧
  (∀ (e : Fin 8) (s : State) (c : TCmd), (c.issuer < 8 → sget [] s.tcam.repairs e.val = []) → (getEng s e.val).record = none →
     (headCmd s e.val 6 = some c → (getEng s e.val).repoint = none → (rpCheck s c).1 = none →
       Gives (.repoint e 0) s (fun t => (getEng t e.val).repoint = some ⟨c, 0, 0, 0, 0, false⟩ ∧ SameBut [.update] s t)) ∧
     (headCmd s e.val 0x4C = some c → rpTake s e.val c = none →
       Gives (.logRepoint e 0) s (fun t => SameBut [.update] s t ∧ (getEng t e.val).queue = (getEng s e.val).queue)) ∧
     (∀ s0 s1, headCmd s e.val 0x4C = some c → (getEng s e.val).repoint = none → rpTake s e.val c = some s0 →
       logRepointCheck s0 c = (none, s1) → (jAdmit s1 [[lifeRec s1 c 0]]).1 = true →
       Gives (.logRepoint e 0) s (fun t => (getEng t e.val).repoint = some ⟨c, 0, 0, 0, s.journal.last + 1, false⟩ ∧
         (rpRows c).all (getEng t e.val).held.contains = true ∧
         t.journal.last = s.journal.last + 1 ∧ SameBut [.sram, .update, .journal, .integ, .events, .mgmt, .free] s t)) ∧
     ((rpRows c).all (getEng s e.val).held.contains = true →
     (∀ x l en, (getEng s e.val).repoint = some x → nextEntry s (rpSpec x.cmd).table x.cursor = some (l, en) →
       (∀ s1 y w, rpVisit s e.val x l en = (s1, y, none, w) →
         (headCmd s e.val 6 = some c → exec (.repoint e 1) s = .next (setRepoint s1 e.val (some y))) ∧
         (headCmd s e.val 0x4C = some c → exec (.logRepoint e 1) s = .next (setRepoint s1 e.val (some y)))) ∧
       ((resAt s l).bad = false → (inScope (rpSpec x.cmd).scopeKey (rpSpec x.cmd).scopeMask en && rpHits (rpSpec x.cmd) (resAt s l).data) = false →
         (headCmd s e.val 6 = some c → exec (.repoint e 1) s =
           .next (setRepoint (touch s (resKey s l)) e.val (some { x with cursor := locAddr s l * 2 + l.h + 1 }))) ∧
         (headCmd s e.val 0x4C = some c → exec (.logRepoint e 1) s =
           .next (setRepoint (touch s (resKey s l)) e.val (some { x with cursor := locAddr s l * 2 + l.h + 1 }))))) ∧
     (∀ x z budget, (getEng s e.val).repoint = some x → nextEntry s (rpSpec x.cmd).table x.cursor = none →
       z = setRepoint (popQueue (jNote s (cursorRec x true)) e.val) e.val none →
       (x.resumed = false →
         (headCmd s e.val 6 = some c → exec (.repoint e (budget + 1)) s =
           .next (answer z x.cmd.via (fill x.cmd { TRsp.of .ok with res := BitVec.ofNat 64 x.count, jsn := x.jsn }))) ∧
         (headCmd s e.val 0x4C = some c → exec (.logRepoint e (budget + 1)) s =
           .next (answer z x.cmd.via (fill x.cmd { TRsp.of .ok with res := BitVec.ofNat 64 x.count, jsn := x.jsn })))) ∧
       (x.resumed = true →
         (headCmd s e.val 6 = some c → cOpc x.cmd = 6 → exec (.repoint e (budget + 1)) s =
           .next (event z [tOwner s (rpSpec x.cmd).table] 0x2008 ((rpSpec x.cmd).table + 256 * 6) x.count)) ∧
         (headCmd s e.val 0x4C = some c → cOpc x.cmd = 0x4C → exec (.logRepoint e (budget + 1)) s =
           .next (event z [x.cmd.issuer] 0x2008 (tOVL + 256 * 0x4C) x.count)))))) ∧
  (∀ s : State, coresServe s = false → exec .spareReserveRefill s = .next s ∧ exec .conditionQueueScan s = .next s ∧
     exec .wearBinUpdate s = .next s ∧ exec .refreshScan s = .next s ∧ exec .heatHalving s = .next s) ∧
  (∀ s : State, coresServe s = true →
     Gives .spareReserveRefill s (fun t => SameBut [.life] s t ∧ t.life.refillDue = false ∧
       (s.str.reserve.toNat ≤ (freeList t 16).length ∨ fullestBin t = none)) ∧
     Gives .conditionQueueScan s (fun t => SameBut [.sram, .life, .integ, .events, .mgmt, .free] s t ∧
       ∀ x ∈ binfRows s, biState x.2 = 1 → x.1 ∈ condq t (portOfBlock x.1) ∨ 8192 ≤ (condq t (portOfBlock x.1)).length) ∧
     Gives .wearBinUpdate s (fun t => SameBut [.sram, .life, .integ, .events, .mgmt, .free] s t ∧ t.life.bins.length = 15 ∧ t.life.bins.Pairwise (· ≤ ·)) ∧
     Gives .refreshScan s (fun t => SameBut [.sram, .integ, .events, .mgmt, .free] s t) ∧
     ((∀ x ∈ binfRows s, (s.clock.epoch - biEpoch x.2).toNat < s.str.dueAge.toNat ∧
         (s.clock.epoch - biEpoch x.2).toNat < s.str.critAge.toNat) → exec .refreshScan s = .next (scanBinf s)) ∧
     (∀ pa w, binfRows s = [(pa, w)] → biState w = 3 → s.str.dueAge.toNat ≤ (s.clock.epoch - biEpoch w).toNat →
       (s.clock.epoch - biEpoch w).toNat < s.str.critAge.toNat →
       exec .refreshScan s = .next (event (scanBinf s) [portOfBlock pa] 0x3001 pa (s.clock.epoch - biEpoch w).toNat))) ∧
  (∀ s : State, coresServe s = true → s.sram.inj = none → swf (⟨0, 0⟩ : Cw) none s.sram.words = true →
     Gives .heatHalving s (fun t =>
       (∀ x ∈ s.sram.words, isHeat s x.1 = true → (peek s x.1).bad = false → cell t x.1 = secEnc (halveWord (peek s x.1).data)) ∧
       (∀ k, isHeat s k = false → cell t k = cell s k) ∧ SameBut [.sram, .integ, .events, .mgmt, .free] s t))

/-! ## Stored data -/

/-- The SECDED code (R366 to R368): a word read as written is clean; any one wrong bit, data or check, is corrected and its
syndrome is not zero; any two wrong data bits, and the poison pattern, are uncorrectable.
SRAM words (R391, R392): after a write of a word the place holds it, an invalid page having been filled with zeros first, and
every other place holds what it held.
The ECC test block (R410, R411): a test operation of a writer without access changes nothing; without ARM it is refused with
REJ; with ARM each runs: RAWRD delivers the stored word with its syndrome, RAWWR stores data and check bits as given, INJECT
arms one injection and DISARM withdraws it, TRD delivers an entry's trits and side fields, TWR writes them. -/
def Obligations.StoredWordsAreSecded : Prop :=
  (∀ d : Word,
     secDec (secEnc d) = ⟨d, 0, false⟩ ∧
     (∀ i < 64, (secDec ⟨d ^^^ (1 <<< i), secChk d⟩).data = d ∧ (secDec ⟨d ^^^ (1 <<< i), secChk d⟩).bad = false ∧
       (secDec ⟨d ^^^ (1 <<< i), secChk d⟩).syn ≠ 0) ∧
     (∀ i < 8, (secDec ⟨d, secChk d ^^^ (1 <<< i)⟩).data = d ∧ (secDec ⟨d, secChk d ^^^ (1 <<< i)⟩).bad = false ∧
       (secDec ⟨d, secChk d ^^^ (1 <<< i)⟩).syn ≠ 0) ∧
     (∀ i j, i < 64 → j < 64 → i ≠ j → (secDec ⟨d ^^^ (1 <<< i) ^^^ (1 <<< j), secChk d⟩).bad = true) ∧
     (secDec (secPoison d)).bad = true) ∧
  (∀ (s : State) (key : Nat) (w : Cw), swf (⟨0, 0⟩ : Cw) none s.sram.words = true →
     cell (putCw s key w) key = w ∧ (∀ k, k ≠ key → cell (putCw s key w) k = cell s k) ∧
     swf (⟨0, 0⟩ : Cw) none (putCw s key w).sram.words = true) ∧
  (∀ (who : Requester) (s : State),
     (etWriter s who = false → exec (.rawrd who) s = .next s ∧ exec (.rawwr who) s = .next s ∧ exec (.inject who) s = .next s ∧
       exec (.trd who) s = .next s ∧ exec (.twr who) s = .next s ∧ exec (.disarm who) s = .next s) ∧
     (etWriter s who = true → s.integ.arm = false → exec (.rawwr who) s = .next { s with integ := { s.integ with etrej := true } }) ∧
     (etWriter s who = true → s.integ.arm = true → s.integ.etbusy = false →
       (∀ key, addrOk s.integ.etaddr = true → key = placeAt s.integ.etaddr → isComp key = false →
         Gives (.rawrd who) s (fun t => t.integ.etdata = (cellInj s key).data ∧ t.integ.etchk = (cellInj s key).chk ∧
           t.integ.syn = secSyn (cellInj s key) ∧ t.integ.etst = 0 ∧ t.integ.etdone = true ∧ SameBut [.sram, .integ] s t) ∧
         (swf (⟨0, 0⟩ : Cw) none s.sram.words = true →
           Gives (.rawwr who) s (fun t => cell t key = ⟨s.integ.etdata, s.integ.etchk⟩ ∧ t.integ.etst = 0 ∧ SameBut [.sram, .integ] s t))) ∧
       (addrOk s.integ.etaddr = true → Gives (.inject who) s (fun t => t.sram.inj = some (s.integ.etaddr, s.integ.etflipd, s.integ.etflipc) ∧
         SameBut [.sram, .integ] s t)) ∧
       Gives (.disarm who) s (fun t => t.sram.inj = none ∧ SameBut [.sram, .integ] s t) ∧
       (∀ b r h w, etEntry s = some (b, r, h, w) →
         Gives (.trd who) s (fun t => t.integ.etkey = bf 0 96 (rowEntry w (getRow s (siteOf s b) r) TRow.blank h).val ∧
           t.integ.etmask = bf 0 96 (rowEntry w (getRow s (siteOf s b) r) TRow.blank h).care ∧ SameBut [.integ] s t) ∧
         (swf TRow.blank none s.tcam.rows = true → w = 1 → bit 13 s.integ.etside = true →
           Gives (.twr who) s (fun t => getRow t (siteOf s b) r = { care := s.integ.etmask, val := s.integ.etkey, s0 := sideOf s.integ.etside, s1 := Side.zero } ∧
             SameBut [.tcam, .integ] s t)))))

/-- The recurrence tracker (R372 to R374): the oldest report opens an entry with count 1 for a new word, raises the count of a
known one and raises CE_RECUR when it reaches 4, and makes an entry HARD with CE_HARD when the correction follows the
rewrite; WRITE_BACK rewrites a word whose count has reached 4; an entry ages out. -/
def Obligations.TrackerFollowsCorrections : Prop :=
  ∀ (s : State) (r : Report) (rest : List Report), s.integ.queue = r :: rest →
    (∀ i, trackOf s r.addr = none → (List.range 1024).find? (fun i => !(getTrack s i).valid) = some i →
      Gives .trackerReport s (fun t => t.integ.queue = rest ∧ (getTrack t i).valid = true ∧ (getTrack t i).addr = r.addr ∧
        (getTrack t i).count = 1 ∧ (getTrack t i).syn = r.syn ∧ (getTrack t i).hard = false ∧ SameBut [.integ] s t)) ∧
    (∀ i x, trackOf s r.addr = some (i, x) → x.rewritten = false → x.count ≠ 3 →
      Gives .trackerReport s (fun t => t.integ.queue = rest ∧ getTrack t i = { x with count := satInc x.count, syn := r.syn, last := r.time } ∧
        SameBut [.integ] s t)) ∧
    (∀ i x, trackOf s r.addr = some (i, x) → x.rewritten = false → x.count = 3 →
      ∃ s1, exec .trackerReport s = .next (event s1 [qFW] 0x4001 r.addr.toNat r.syn.toNat) ∧ (getTrack s1 i).count = 4 ∧
        s1.integ.queue = rest ∧ SameBut [.integ, .mgmt] s s1) ∧
    (∀ i x, trackOf s r.addr = some (i, x) → x.rewritten = true → x.rewroteAt < r.elapsed → bankOfPlace (placeAt r.addr) = none →
      ∃ s1, exec .trackerReport s = .next (event s1 [qFW] 0x4002 r.addr.toNat r.syn.toNat) ∧ (getTrack s1 i).hard = true ∧
        SameBut [.integ, .mgmt] s s1) ∧
    (∀ i x, trackOf s r.addr = some (i, x) → maintains s = true → x.rewritten = false → 4 ≤ x.count.toNat →
      exec (.writeBack r.addr) s = .next (setTrack (writeBackWord s (placeAt r.addr)) i { x with rewritten := true, count := 0, rewroteAt := now s })) ∧
    (∀ i : Fin 1024, (getTrack s i.val).valid = true → (getTrack s i.val).rewritten = true → swf Track.reset none s.integ.track = true →
      Gives (.trackerAgeOut i) s (fun t => (getTrack t i.val).valid = false ∧ SameBut [.integ] s t))

/-- Sparing (R376 to R384): the row of a HARD word, and a column due, are mapped to the lowest free spare, with one repair record
for it, as an operation of Waitos's own on a macro that none holds; without a spare SPARE_EXHAUSTED is raised; the oldest waiting record is programmed in both copies, or OTP_FULL is
raised when every record is used. -/
def Obligations.SparingMapsAndRecords : Prop :=
  ∀ (s : State) (a : BitVec 28), maintains s = true → holderOf s (2, macroOfAddr a) = none →
    (∀ i x k, trackOf s a = some (i, x) → x.hard = true → (∀ b, synBit x.syn = some b → columnDue s (macroOfAddr a) b = false) →
      spareFor s (macroOfAddr a) false = some k →
      Gives (.rowSparing a) s (fun t => sget 0 t.sram.rowMap (macroOfAddr a * 1024 + rowOfAddr a) = k + 1 ∧
        t.integ.repairs.length = s.integ.repairs.length + 1 ∧ SameBut [.sram, .integ, .waitos, .events, .mgmt, .free] s t)) ∧
    (∀ i x, trackOf s a = some (i, x) → x.hard = true → (∀ b, synBit x.syn = some b → columnDue s (macroOfAddr a) b = false) →
      spareFor s (macroOfAddr a) false = none → exec (.rowSparing a) s = .next (event s [qFW] 0xE008 (macroOfAddr a) 0)) ∧
    (∀ (b : Fin 72) k, columnDue s (macroOfAddr a) b.val = true → spareFor s (macroOfAddr a) true = some k →
      Gives (.columnSparing a b) s (fun t => sget 0 t.sram.colMap (macroOfAddr a * 128 + b.val) = k + 1 ∧
        t.integ.repairs.length = s.integ.repairs.length + 1 ∧ SameBut [.sram, .integ, .waitos, .events, .mgmt, .free] s t)) ∧
    (∀ b : Fin 72, columnDue s (macroOfAddr a) b.val = true → spareFor s (macroOfAddr a) true = none →
      exec (.columnSparing a b) s = .next (event s [qFW] 0xE008 (macroOfAddr a) 1)) ∧
    (∀ ok0 ok1 r rest, s.integ.repairs = r :: rest → s.fuses.field.length < 256 →
      Gives (.fieldRepairProgram ok0 ok1) s (fun t => t.integ.repairs = rest ∧
        t.fuses = { s.fuses with field := s.fuses.field ++ [⟨if ok0 then r else 0, if ok1 then r else 0⟩] } ∧ SameBut [.fuses, .integ] s t)) ∧
    (∀ ok0 ok1 r rest, s.integ.repairs = r :: rest → 256 ≤ s.fuses.field.length →
      ∃ s1, exec (.fieldRepairProgram ok0 ok1) s = .next (event s1 [qFW] 0xE009 0 0) ∧ s1.integ.otpFull = true ∧ s1.integ.repairs = rest ∧
        SameBut [.integ] s s1)

/-- Scrub (R393 to R397): a sequencer with its scrub enabled reads back its next row and moves past it, or ends its pass after
its last bank, and waits at a frozen bank (R312); of an unpaired table's row, an entry that fails a check is queued, and one that passes stays as it is; the SRAM
sequencer reads its next word when its page is valid and passes over it when it is not; the corrected word of
a scrub read is written back with correct check bits, and an uncorrectable one is queued for re-derivation.
REDERIVE (R399, R401): the oldest queued item leaves the queue; an index word that still reads uncorrectable takes the
store's copy, or its poison pattern when the store cannot be read; a word that reads well again stays. -/
def Obligations.ScrubAndRederivation : Prop :=
  (∀ (e : Fin 8) (s : State), maintains s = true →
     (s.integ.bankScrub = true → s.integ.selfTest = [] → (scrubBanks s e.val).find? (fun b => decide ((getEng s e.val).scrubBank ≤ b)) = none →
       Gives (.bankScrub e) s (fun t => t.integ.bankPass = s.integ.bankPass + 1 ∧ SameBut [.update, .integ] s t)) ∧
     (∀ b, s.integ.bankScrub = true → s.integ.selfTest = [] → (scrubBanks s e.val).find? (fun b => decide ((getEng s e.val).scrubBank ≤ b)) = some b →
       (bankFrozen s (siteOf s b) = true → exec (.bankScrub e) s = .next s) ∧
       (bankFrozen s (siteOf s b) = false → scanTable s b = none → b ≠ 0 → Gives (.bankScrub e) s (fun t => SameBut [.update, .integ] s t ∧
         (getEng t e.val).scrubRow = ((if b = (getEng s e.val).scrubBank then (getEng s e.val).scrubRow else 0) + 1) % 4096))) ∧
     (∀ b t r, s.integ.bankScrub = true → (scrubBanks s e.val).find? (fun b => decide ((getEng s e.val).scrubBank ≤ b)) = some b →
       r = (if b = (getEng s e.val).scrubBank then (getEng s e.val).scrubRow else 0) → bankFrozen s (siteOf s b) = false → scanTable s b = some t → tKind s t = 1 → tWidth s t = 1 →
       tPaired s t = false → (getRow s (siteOf s b) r).s0.g = 0 → (getRow s (siteOf s b) r).s1.g = 0 → unreserved s b = true →
       (getEntry s 1 b r 0).side.v = true → s.sram.inj = none → swf (⟨0, 0⟩ : Cw) none s.sram.words = true →
       (scrubOk s t b r 0 (getEntry s 1 b r 0) = false → s.integ.rederive.length < 254 →
         Gives (.bankScrub e) s (fun u => Bad.entry b r 0 ∈ u.integ.rederive)) ∧
       (scrubOk s t b r 0 (getEntry s 1 b r 0) = true → s.integ.selfTest = [] →
         Gives (.bankScrub e) s (fun u => u.tcam = s.tcam ∧ (getEng u e.val).scrubBank = (if r = 4095 then b + 1 else b) ∧
           (getEng u e.val).scrubRow = (r + 1) % 4096))) ∧
     (s.integ.sramScrub = true → 640 * 8192 ≤ (getEng s e.val).scrubWord →
       Gives (.sramScrub e) s (fun t => t.integ.sramPass = s.integ.sramPass + 1 ∧ SameBut [.update, .integ] s t)) ∧
     (∀ key, s.integ.sramScrub = true → (getEng s e.val).scrubWord < 640 * 8192 →
       key = placeAt (BitVec.ofNat 28 ((e.val + 8 * ((getEng s e.val).scrubWord / 8192)) * 8192 + (getEng s e.val).scrubWord % 8192)) →
       (pageValid s key = true → Gives (.sramScrub e) s (fun t => (getEng t e.val).scrubWord = (getEng s e.val).scrubWord + 1 ∧
         t.sram = (scrubWord s key).sram)) ∧
       (pageValid s key = false → Gives (.sramScrub e) s (fun t => (getEng t e.val).scrubWord = (getEng s e.val).scrubWord + 1 ∧
         SameBut [.update] s t))) ∧
     (∀ key, s.sram.inj = none → swf (⟨0, 0⟩ : Cw) none s.sram.words = true → (peek s key).bad = false → (peek s key).syn ≠ 0 →
       cell (scrubWord s key) key = secEnc (peek s key).data)) ∧
  (∀ (s : State) (key t : Nat) (rest : List Bad), maintains s = true → s.integ.rederive = .word key :: rest →
     tableOfPlace key = some t → tKind s t = 2 → s.sram.inj = none → (t = tSHT → s.therm.dcolDue = []) →
     ((peek s key).bad = false → Gives .rederive s (fun u => u.integ.rederive = rest ∧ SameBut [.integ, .waitos, .events, .mgmt, .free] s u)) ∧
     ((peek s key).bad = true → storeUnread s key (copyUnread s) = false → swf (⟨0, 0⟩ : Cw) none s.sram.words = true →
       Gives .rederive s (fun u => u.integ.rederive = rest ∧
         cell u key = storedWord s t ((key - kIndex t 0) / rowWords s t) ((key - kIndex t 0) % rowWords s t))) ∧
     ((peek s key).bad = true → storeUnread s key (copyUnread s) = true →
       Gives .rederive s (fun u => u.integ.rederive = rest ∧ (secDec (cell u key)).bad = true)))

/-- Traps (R398, R402, R403): a core that fetches a bad ROM word switches to the other copy, and with both bad is lost; Waitos's
own scrub read moves every core to the other copy; a bad copy of an event record drops the record, unless it is critical or fatal and
its other copy is good (R571).
CHANNEL_HALT of a journal drain (R371, R404, R454): UE names the word, a hole stands in the record's place with its first bytes and is
counted, the halt is reported to FW, and outside a save a new checkpoint begins; a DUMP whose next entry is good does not halt. -/
def Obligations.TrapsAndChannelHalts : Prop :=
  (∀ s : State,
     (∀ (c : Fin 4) (copy : Fin 2) w, bit c.val s.waitos.cores = true → bn c.val 1 s.integ.romPri = copy.val →
       Gives (.romTrap c copy w false) s (fun t => bn c.val 1 t.integ.romPri = 1 - copy.val ∧ sget false t.integ.romBad copy.val = true ∧
         SameBut [.integ, .events, .mgmt, .free] s t)) ∧
     (∀ (c : Fin 4) (copy : Fin 2) w, bit c.val s.waitos.cores = true → bn c.val 1 s.integ.romPri = copy.val →
       Gives (.romTrap c copy w true) s (fun t => bit c.val t.waitos.cores = false ∧ bit c.val t.integ.coreOut = true)) ∧
     (∀ (c : Fin 4) (copy : Fin 2) w both, (bit c.val s.waitos.cores = false ∨ bn c.val 1 s.integ.romPri ≠ copy.val) →
       exec (.romTrap c copy w both) s = .next s) ∧
     (∀ (copy : Fin 2) w, maintains s = true → Gives (.romScrub (.rom copy w)) s (fun t => t.integ.romPri = (if copy = 0 then 15 else 0) ∧
       SameBut [.integ, .mgmt] s t)) ∧
     (∀ (q : Fin 10) n both, waitosRuns s = true → q ≠ 8 → swf EvQueue.reset none s.events.queues = true →
       ((both = true ∨ ∀ r ∈ (getQueue s q.val).recs, r.qseq = n → r.sev.toNat < 2) →
         Gives (.dataSramTrap (.eventRecord q n both)) s (fun t => ∀ r ∈ (getQueue t q.val).recs, r.qseq ≠ n)) ∧
       ((both = false ∧ ∀ r ∈ (getQueue s q.val).recs, r.qseq = n → 2 ≤ r.sev.toNat) →
         Gives (.dataSramTrap (.eventRecord q n both)) s (fun t => (getQueue t q.val).recs = (getQueue s q.val).recs))) ∧
     (∀ g, waitosRuns s = false → exec (.dataSramTrap g) s = .next s)) ∧
  (∀ s : State,
     (∀ f r ok a syn, s.boot.phase = .ready → saving s = false →
       exec (.channelHalt (.drain f r ok a syn)) s = .next (beginCkpt (punchHole (event (ueAt s a syn) [qFW] 0x4006 3 f) f r ok))) ∧
     (∀ f r ok a syn, saving s = true →
       exec (.channelHalt (.save f r ok a syn)) s = .next (punchHole (event (ueAt s a syn) [qFW] 0x4006 2 f) f r ok)) ∧
     (∀ f r ok a syn x e, saving s = true → swf 0 none s.mgmt.counters = true → s.journal.frames[f]? = some x → x.drained = false → x.recs[r]? = some e →
       Gives (.channelHalt (.save f r ok a syn)) s (fun t => ∃ y, t.journal.frames[f]? = some y ∧
         y.recs[r]? = some { e with body := .hole (if ok then some (firstBytes e) else none) } ∧
         counter t (0x0B0100 + 8 * 6) = counter s (0x0B0100 + 8 * 6) + 1)) ∧
     (∀ p k, (getStream s p.val k.val).isOpen = false → exec (.channelHalt (.bulkDump p k)) s = .next s))

/-- Bank self-tests (R405 to R409, R438): the rotation asks for the next bank in use; the retention test begins, and its pass is not
taken before two refresh intervals of the band in force; the tests' result stands in TEST of the site and no entry is left there; a
save, and a frozen bank, hold them up; a site that passed is SPARE or FREE again, and one that failed is RETIRED with a repair record. -/
def Obligations.SelfTestsRetireOrReturn : Prop :=
  ∀ s : State,
    (maintains s = false → exec .selfTestRotation s = .next s) ∧
    (∀ b, maintains s = true → ((List.range 2112).map (fun i => (s.integ.rotation + i) % 2112)).find? (fun b => bankState s b == 1) = some b →
      Gives .selfTestRotation s (fun t => t.integ.rotation = b + 1)) ∧
    (∀ b (r : BitVec 4), bankState s b = 4 → (saving s = true ∨ bankFrozen s (siteOf s b) = true) →
      exec (.bankSelfTest b r) s = .next s ∧ (saving s = true → exec (.selfTestDone b) s = .next s)) ∧
    (∀ b (r : BitVec 4), bankState s b = 4 → r ≠ 0 → r.toNat < 8 → saving s = false → bankFrozen s (siteOf s b) = false →
      ((r = 1 ∨ r = 5) → retentionOver s (siteOf s b) = false → exec (.bankSelfTest b r) s = .next s) ∧
      (((r = 1 ∨ r = 5) → retentionOver s (siteOf s b) = true) →
        Gives (.bankSelfTest b r) s (fun t => sget 0 t.tcam.test (siteOf s b) = r ∧ SameBut [.tcam, .therm, .waitos] s t ∧
          (s.therm.deferred = none → SameBut [.tcam] s t) ∧ siteOf s b ∉ t.tcam.retain.map (·.1) ∧
          ∀ row, row < 4096 → getRow t (siteOf s b) row = TRow.blank))) ∧
    (∀ b, bankState s b = 4 → saving s = false → bankFrozen s (siteOf s b) = false →
      Gives (.bankSelfTest b 8) s (fun t => (siteOf s b, now s) ∈ t.tcam.retain ∧ t.tcam.test = s.tcam.test ∧ SameBut [.tcam] s t ∧
        ∀ row, row < 4096 → getRow t (siteOf s b) row = TRow.blank)) ∧
    (∀ b st, saving s = false → bankState s b = 4 → sget 0 s.tcam.test (siteOf s b) = 1 → retireState s b 1 = some st → (jAdmit s [[.bank 4 b 0 0 0]]).1 = true →
      s.integ.selfTest = [] → swf 0 none s.tcam.state = true →
      Gives (.selfTestDone b) s (fun t => bankState t b = st ∧ t.integ.repairs = s.integ.repairs ∧ t.journal.last = s.journal.last + 1)) ∧
    (∀ b, saving s = false → bankState s b = 4 → sget 0 s.tcam.test (siteOf s b) = 3 → (jAdmit s [[.bank 4 b 0 0 0]]).1 = true →
      s.integ.selfTest = [] → swf 0 none s.tcam.state = true →
      Gives (.selfTestDone b) s (fun t => bankState t b = 5 ∧ t.integ.repairs.length = s.integ.repairs.length + 1))

/-! ## Time and power -/

/-- The timebase's commands (R13, R37, R38, R42, R43): the epoch follows device time, and DISAG is cleared at a multiple of
64; a lost REFCLK passes to the ring oscillator without a step of device time and back; a core that fails leaves service; with
no band confirmed the guard forces T4, and every refreshed bank begins a group period of that length at once (R94).
The supply (R608 to R610): a VREQ write by a core starts a transition to the code held within VMIN to VMAX, upward by the
code first and downward by pacing first; a write during a transition is held; after a power failure no code changes. Waitos
requests the code that it wants. -/
def Obligations.TimebaseAndVoltage : Prop :=
  (∀ s : State,
     (s.clock.running = true → epochOf s.clock.time ≠ s.clock.epoch →
       Gives .epoch s (fun t => t.clock = { s.clock with epoch := epochOf s.clock.time } ∧
         t.tcam.disag = (if (epochOf s.clock.time).toNat % 64 = 0 then [] else s.tcam.disag) ∧ SameBut [.clock, .tcam] s t)) ∧
     (s.clock.running = true → s.clock.ring = false →
       exec .refclkFault s = .next (event { s with pins := { s.pins with refclk := false }, clock := { s.clock with ring := true } } [qFW, qSB] 0xE004 0 0)) ∧
     Gives .refclkRestore s (fun t => t.pins.refclk = true ∧ t.clock = { s.clock with ring := false } ∧ SameBut [.pins, .clock] s t) ∧
     (∀ c : Fin 4, bit c.val s.waitos.cores = true →
       ∃ s1, exec (.coreLost c) s = .next (event s1 [qFW, qSB] 0xE001 c.val 0) ∧ bit c.val s1.waitos.cores = false ∧
         (∀ d : Fin 4, d ≠ c → bit d.val s1.waitos.cores = bit d.val s.waitos.cores) ∧ SameBut [.waitos] s s1) ∧
     (s.clock.running = true → s.therm.guard = false →
       ∃ s1 t, exec .refreshGuard s = .next t ∧ t = bandChanged (event s1 [qFW, qSB] 0xE005 0xFF 1) (bandInForce s) ∧ bandInForce s1 = 4 ∧
         SameBut [.therm, .mgmt] s s1 ∧
         (bandInForce s < 4 → ∀ b < 2112, refreshed s b = true → sget 0 t.tcam.refBand (siteOf s b) = 4))) ∧
  (∀ s : State,
     (∀ who code, mayTrigger s who false = false → exec (.vreq who code) s = .next s) ∧
     (∀ who code, mayTrigger s who false = true →
       Gives (.vreq who code) s (fun t => t.power.vreq = code ∧ SameBut [.power] s t ∧
         (s.holdup.ph ≠ 0 → t.power.vid = s.power.vid ∧ t.power.trans = s.power.trans) ∧
         (s.holdup.ph = 0 → s.power.trans.isSome = true → t.power.held = some code ∧ t.power.trans = s.power.trans) ∧
         (s.holdup.ph = 0 → s.power.trans = none → s.power.vid < clampCode s code →
           t.power.vid = clampCode s code ∧ t.power.trans = some ⟨true, clampCode s code, 0, now s⟩) ∧
         (s.holdup.ph = 0 → s.power.trans = none → clampCode s code < s.power.vid →
           t.power.vid = s.power.vid ∧ t.power.trans = some ⟨false, clampCode s code, 3, now s⟩))) ∧
     (waitosRuns s = true →
       Gives .voltageRequest s (fun t => t.power.vreq = BitVec.ofNat 6 (wantedCode s) ∧ t.power.peak = 0 ∧ SameBut [.power] s t)) ∧
     (∀ code, s.power.vmin ≤ s.power.vmax → s.power.vmin ≤ clampCode s code ∧ clampCode s code ≤ s.power.vmax))

/-- A power failure (R46, R362, R437, R438, R613): after ready, and in a warm reset that RST_N holds, PFAIL_N, PWRGD, or the note SAVE_BEGUN of a crew member starts
the save; before ready the boot stops and nothing is written; a dip of less than 200 ns is only counted.
The save (R438, R439, R442, R444): the fence closes at its time, or early once every fenced port has sent FLUSHED, and
seals the journal at the last JSN; with every frame drained behind the seal, no gated change open, and the superblock written it is complete, also
after the ports have stopped while VHOLD holds (R444); at the end of the hold window every port stops. With a pair FAILED no save can complete, and what waits for
it in power's return goes on: with SAVE_COMPLETE, or at the end of the hold (R42, R46; the model's choice, log entry 130). -/
def Obligations.PowerFailureRunsTheSave : Prop :=
  (∀ s : State,
     ((s.boot.phase = .ready ∨ s.boot.phase = .resetHeld) → s.holdup.ph = 0 → swf Port.reset none s.ports = true →
       (∀ ns, 200 ≤ ns → Gives (.pfail ns) s (fun t => SaveBegan s t ∧ t.pins.pfailN = false)) ∧
       (∀ ns, 200 ≤ ns → Gives (.pwrgdDrop ns) s (fun t => SaveBegan s t ∧ t.pins.pwrgd = false ∧ t.holdup.byPwrgd = true)) ∧
       (∀ (k : Fin 3) x, ingressHead s (8 + k.val) cNOTE = some x → bn 8 8 x = 0x11 →
         Gives (.saveBegun k) s (fun t => SaveBegan s t ∧ t.pins = s.pins))) ∧
     (s.boot.phase = .booting ∨ s.boot.phase = .holdRst →
       (∀ ns, 200 ≤ ns → Gives (.pfail ns) s (fun t => t.boot.phase = .stopped ∧ t.boot.stop = 5 ∧ SameBut [.pins, .boot, .power, .holdup] s t)) ∧
       (∀ ns, 200 ≤ ns → Gives (.pwrgdDrop ns) s (fun t => t.boot.phase = .stopped ∧ t.boot.stop = 5 ∧ SameBut [.pins, .boot, .power, .holdup, .mgmt] s t))) ∧
     (s.boot.phase ≠ .off → ∀ ns, ns < 200 →
       exec (.pfail ns) s = .next (countStore s 11 1) ∧ exec (.pwrgdDrop ns) s = .next (countP s 1 1))) ∧
  (∀ s : State,
     (s.holdup.ph = 1 →
       Gives .fenceClose s (fun t => t.holdup.ph = 2 ∧ t.holdup.sealJsn = s.journal.last ∧ t.journal = { s.journal with sealed := true } ∧
         SameBut [.holdup, .journal, .ports] s t)) ∧
     (∀ (p : Fin 8) x, ingressHead s p.val cNOTE = some x → bn 8 8 x = 3 → s.holdup.ph = 1 → (getPort s p.val).fenced = true →
       ((∀ q < 8, q ≠ p.val → (getPort s q).fenced = true → (getPort s q).flushed = true) →
         Gives (.flushed p) s (fun t => t.holdup.ph = 2 ∧ t.holdup.early = true ∧ t.holdup.sealJsn = s.journal.last ∧ t.journal.sealed = true)) ∧
       (∀ q < 8, q ≠ p.val → (getPort s q).fenced = true → (getPort s q).flushed = false →
         Gives (.flushed p) s (fun t => t.holdup.ph = 1 ∧ bit p.val t.holdup.flushed = true ∧ t.journal = s.journal))) ∧
     (∀ s2 s3, (s.holdup.ph = 2 ∨ (s.holdup.ph = 5 ∧ s.holdup.incomplete = true ∧ s.pins.vhok = true)) → s.journal.sealed = true →
       s.pins.rstN = true → storeIdle (drainAll s) = true → storeDown s = false → s.holdup.reboot = false → s.holdup.recover = false → undrained (drainAll s) = false →
       s2 = drainAll (jPut (drainAll s) (.seal (drainAll s).clock.time)) → undrained s2 = false → writeSuper s2 (some s2.holdup.sealJsn) = some s3 →
       Gives .saveComplete s (fun t => t = savedState s3 ∧ t.holdup.ph = (if s.holdup.ph = 5 then 5 else 4) ∧ t.power.pstate = (if s.holdup.ph = 5 then 4 else 3) ∧ bit 11 t.power.dom = false ∧ t.store = s3.store)) ∧
     (s.holdup.ph ≠ 1 → saveRuns s = true → s.journal.sealed = true → storeDown s = true → exec .saveComplete s = .next (powerBack s)) ∧
     (s.holdup.ph ≠ 0 → s.holdup.ph ≠ 5 →
       (∃ u, exec .holdEnd s = .next (if u.holdup.incomplete = false ∧ s.pins.vhok = true then powerBack u else u) ∧
         u.holdup.incomplete = (decide (s.holdup.ph = 1 ∨ s.holdup.ph = 2) && !storeDown s) ∧ u.holdup.ph = 5 ∧ u.power.pstate = 4 ∧
         ∀ p < 11, (getPort u p).st = pOFF ∨ (getPort u p).st = pDOWN) ∧
       Gives .vholdFloor s (fun t => t.pins.vhok = false ∧ t.holdup.ph = 5 ∧ ∀ p < 11, (getPort t p).st = pOFF ∨ (getPort t p).st = pDOWN)))

/-- Power, reset and retry (R44, R46, R329, R491, R494, R497, R510, R613, R615): a cold boot stops on bad straps, on a power
failure, and when neither image slot has a valid header, and holds before step 4 while RST_N is low; with an image that R491 accepts and a store that reads, or is new, it reaches ready; what has no power supply
of the die is kept; RST_N holds a warm reset and its rise ends it, one shorter than 1 µs is ignored, and a boot stopped with a code that RETRY does not take stays stopped through one
(log entry 142); power that returns in a save is acted on afterwards, and after one, or in one that can never complete because a store pair is FAILED (log entry 130),
makes a warm reset, which RST_N low holds; RETRY boots again from step 5; SETLOCK locks once; a grant expires. -/
def Obligations.PowerAndResetPins : Prop :=
  ∀ s : State,
    (∀ e, s.pins.pwrgd = false → (saveRuns s && !storeDown s) = false →
      (s.pins.crewSz = 2 ∨ s.pins.crewSz.toNat < s.pins.crewRk.toNat →
        Gives (.powerUp e) s (fun t => t.boot.phase = .stopped ∧ t.boot.stop = 4 ∧ t.fuses = s.fuses ∧ t.flash = s.flash)) ∧
      (s.pins.crewSz ≠ 2 → s.pins.crewRk.toNat ≤ s.pins.crewSz.toNat →
        (s.pins.pfailN = false → Gives (.powerUp e) s (fun t => t.boot.phase = .stopped ∧ t.boot.stop = 5 ∧ t.fuses = s.fuses ∧ t.flash = s.flash)) ∧
        (s.pins.pfailN = true → s.pins.rstN = false →
          Gives (.powerUp e) s (fun t => t.boot.phase = .holdRst ∧ t.boot.step = 3 ∧ t.clock.running = true ∧ t.clock.time = 0 ∧
            t.power.crewSz = s.pins.crewSz ∧ t.power.crewRk = s.pins.crewRk ∧ t.dbg.granted = false ∧ t.fuses = s.fuses ∧ t.flash = s.flash)) ∧
        (s.pins.pfailN = true → s.pins.rstN = true → candidates s = [] →
          Gives (.powerUp e) s (fun t => t.boot.phase = .stopped ∧ t.boot.stop = 1 ∧ t.boot.rejA = 1 ∧ t.boot.rejB = 1 ∧ t.fuses = s.fuses ∧ t.flash = s.flash)) ∧
        (∀ s5 s6 slot c img b, s.pins.pfailN = true → s.pins.rstN = true →
          s5 = tryImages (stepDone_ (throughStep3 (resetDebug (coldState { s with pins := { s.pins with pwrgd := true } } e))) 4) →
          chooseImage s5 (candidates s5) = (s6, some (slot, c, img)) → b = replaceDies (throughStep7 slot c img) → storeDown b = false →
          (newestSuper b = none → b.fuses.initDone = false) →
          Gives (.powerUp e) s (fun t => t.boot.phase = .ready ∧ t.boot.step = 9 ∧ t.power.pstate = 1 ∧ t.boot.slot = BitVec.ofNat 1 slot ∧
            t.boot.imgver = BitVec.ofNat 16 (imgVer img))))) ∧
    (∀ e, s.pins.pwrgd = false → saveRuns s = true → storeDown s = false →
      exec (.powerUp e) s = .next { s with pins := { s.pins with pwrgd := true }, holdup := { s.holdup with reboot := true }, boot := { s.boot with env := e } }) ∧
    (s.pins.pwrgd = true →
      (s.holdup.ph = 1 ∨ s.holdup.ph = 2 ∨ (s.holdup.ph = 5 ∧ s.holdup.incomplete = true) → storeDown s = false →
        exec (.pfailRise true) s = .next { s with pins := { s.pins with pfailN := true, vhok := true }, holdup := { s.holdup with recover := true } }) ∧
      (s.holdup.ph = 4 ∨ (s.holdup.ph = 5 ∧ s.holdup.incomplete = false) ∨ (s.holdup.ph ≠ 0 ∧ storeDown s = true) → s.therm.tripped = false → s.pins.rstN = false →
        Gives (.pfailRise true) s (fun t => t.boot.phase = .resetHeld ∧ t.holdup.ph = 0 ∧ t.holdup.warm = true)) ∧
      (s.holdup.ph = 4 ∨ (s.holdup.ph = 5 ∧ s.holdup.incomplete = false) ∨ (s.holdup.ph ≠ 0 ∧ storeDown s = true) → s.therm.tripped = false → s.pins.rstN = true →
        Gives (.pfailRise true) s (fun t => t.boot.phase = .ready ∧ t.boot.step = 9 ∧ t.holdup.ph = 0 ∧ t.holdup.warm = true ∧ t.power.pstate = 1))) ∧
    (∀ ns, 1000 ≤ ns → s.boot.phase = .ready → s.holdup.ph = 0 →
      Gives (.rstN false ns) s (fun t => t.boot.phase = .resetHeld ∧ t.pins.rstN = false ∧ t.holdup.warm = true)) ∧
    (∀ ns, ns < 1000 → exec (.rstN false ns) s = .next s) ∧
    (∀ ns, 1000 ≤ ns → s.boot.phase = .booting →
      exec (.rstN false ns) s = .next { s with pins := { s.pins with rstN := false }, boot := { s.boot with phase := .holdRst } }) ∧
    (∀ ns, 1000 ≤ ns → s.boot.phase = .stopped → s.boot.stop ≠ 1 → s.boot.stop ≠ 2 →
      exec (.rstN false ns) s = .next { s with pins := { s.pins with rstN := false } }) ∧
    (∀ ns, s.boot.phase = .resetHeld → s.holdup.ph = 0 →
      Gives (.rstN true ns) s (fun t => t.boot.phase = .ready ∧ t.boot.step = 9 ∧ t.pins.rstN = true ∧ t.power.pstate = 1)) ∧
    (∀ who e, mayTrigger s who true = true → s.boot.phase = .stopped → s.boot.stop = 1 ∨ s.boot.stop = 2 → candidates s = [] →
      Gives (.retry who e) s (fun t => t.boot.phase = .stopped ∧ t.boot.stop = 1 ∧ t.boot.rejA = 1 ∧ t.boot.rejB = 1 ∧ SameBut [.boot, .power] s t)) ∧
    (∀ who e s5 s6 slot c img b, mayTrigger s who true = true → s.boot.phase = .stopped → s.boot.stop = 1 ∨ s.boot.stop = 2 →
      s5 = tryImages { s with boot := { s.boot with env := e } } → chooseImage s5 (candidates s5) = (s6, some (slot, c, img)) →
      b = replaceDies (throughStep7 slot c img) → storeDown b = false → (newestSuper b = none → b.fuses.initDone = false ∨ b.store.blank = true) →
      Gives (.retry who e) s (fun t => t.boot.phase = .ready ∧ t.boot.step = 9 ∧ t.power.pstate = 1 ∧ t.boot.slot = BitVec.ofNat 1 slot)) ∧
    (∀ who, isCore who = true → s.prot.locked = false → s.boot.phase = .booting ∨ s.boot.phase = .stopped →
      exec (.setlock who) s = .next { s with prot := { s.prot with locked := true } }) ∧
    (s.dbg.granted = true → s.dbg.exp.toNat ≤ s.clock.time.toNat →
      exec .debugExpiry s = .next { s with dbg := { s.dbg with granted := false, scope := 0, exp := 0 } })

/-! ## The crew -/

/-- Searches between dies (R25, R337, R338, R341, R347): FWD and PROBE wait outside ready, are discarded with DUP_TAG when
their tag is in use, and else take a token that holds their key; a FWD whose version no buffer holds is answered
STALE_VERSION. FANS resolves the search that waits for it, with FWD set unless the peer ran nothing (log entry 128), PANS adds a share to its step; an answer to nothing is counted. -/
def Obligations.CrewSearchesAct : Prop :=
  ∀ (k : Fin 3) (s : State),
    (∀ x y l, sget [] (getPort s (8 + k.val)).ingress cFWD = x :: y :: l →
      (admitting s = false → exec (.fwd k) s = .next s) ∧
      (admitting s = true → crewTagBusy s (8 + k.val) false (bn 16 11 x) (bn 48 2 x) = true →
        exec (.fwd k) s = .next (event (countPort (takeHead (takeHead s (8 + k.val) cFWD) (8 + k.val) cFWD) (8 + k.val) 2 1) [qFW] 0x1001 (8 + k.val) (bn 16 11 x))) ∧
      (admitting s = true → crewTagBusy s (8 + k.val) false (bn 16 11 x) (bn 48 2 x) = false → tokensOf s (8 + k.val) (fun tk => !isProbed tk) < 1536 →
        (bufferOf s (qProfile x) (bf 32 16 x) = none →
          exec (.fwd k) s = .next (sendBy (countPort (takeHead (takeHead s (8 + k.val) cFWD) (8 + k.val) cFWD) (8 + k.val) 0 1) (8 + k.val) (bn 48 2 x)
            [fansSlot .staleVersion 0 (bn 16 11 x) 0 0 0 0])) ∧
        (∀ f, bufferOf s (qProfile x) (bf 32 16 x) = some f → profBad s (qProfile x) f = false →
          Gives (.fwd k) s (fun t => t.search.next = s.search.next + 1 ∧ ∃ tk, getTok t s.search.next = some tk ∧ tk.eng = 8 + k.val ∧
            tk.kind = .fwdd (8 + k.val) (bn 16 11 x) (bn 48 2 x) (bit 14 x) ∧ tk.key = qKey x ∧ tk.cx = bf 64 64 y ∧ tk.ver = bf 32 16 x ∧
            tk.buf = f ∧ tk.ph = .running ∧ tk.level = (if bit 14 x then 0 else 1))))) ∧
    (∀ x, ingressHead s (8 + k.val) cPROBE = some x →
      (admitting s = false → exec (.probe k) s = .next s) ∧
      (admitting s = true → crewTagBusy s (8 + k.val) true (bn 16 11 x) (bn 32 2 x) = false → tokensOf s (8 + k.val) isProbed < 512 →
        Gives (.probe k) s (fun t => t.search.next = s.search.next + 1 ∧ ∃ tk, getTok t s.search.next = some tk ∧ tk.eng = 8 + k.val ∧
          tk.kind = .probed (8 + k.val) (bn 16 11 x) (bn 32 2 x) (bn 8 5 x) ∧ tk.key = qKey x ∧ tk.ph = .running))) ∧
    (∀ x, ingressHead s (8 + k.val) cFANS = some x →
      (swf Port.reset none s.ports = true → (getPort s (8 + k.val)).fwdTags.find? (fun e => e.1 = bn 16 11 x) = none →
        exec (.fans k) s = .next (countPort (takeHead s (8 + k.val) cFANS) (8 + k.val) 8 1)) ∧
      (∀ n tk, (getPort s (8 + k.val)).fwdTags.find? (fun e => e.1 = bn 16 11 x) = some (bn 16 11 x, n) → getTok s n = some tk →
        tk.ph = .away → tk.away = some (bn 16 11 x, 8 + k.val) →
        Gives (.fans k) s (fun t => SameBut [.ports, .search, .tally, .events, .free] s t ∧ ∃ u, getTok t n = some u ∧ u.ph = .resolved ∧ u.st = statusOf (bn 8 4 x) ∧
          u.hits = (hitMask tk ||| bf 12 4 x) ∧ u.fwdFlag = decide (u.st ≠ .staleVersion) ∧
          u.w0 = bf 64 64 x ∧ u.w1 = bf 128 64 x ∧ u.w2 = (if isComposed (statusOf (bn 8 4 x)) then withAdvisory s tk (bf 192 64 x) else bf 192 64 x) ∧ u.away = none))) ∧
    (∀ x n w tk, ingressHead s (8 + k.val) cPANS = some x →
      (getPort s (8 + k.val)).probeTags.find? (fun e => e.1 = bn 16 11 x) = some (bn 16 11 x, n, w) → getTok s n = some tk →
      (∀ e ∈ s.search.tokens, e.1 = n → e.2 = some tk) → (∀ y ∈ tk.steps, y.unsent = []) →
      tk.ph = .running → (stepAt tk (w / 4)).await.contains (w % 4) = true → bn 8 4 x = 0 →
      Gives (.pans k) s (fun t => SameBut [.search, .ports, .tally, .events, .mgmt, .free] s t ∧ ∃ u, getTok t n = some u ∧ (stepAt u (w / 4)).await.contains (w % 4) = false ∧
        ({ tag := bn 32 7 x, rank := w % 4, addr := bn 40 24 x, half := bn 39 1 x, rword := bf 64 64 x } : Share) ∈ (stepAt u (w / 4)).shares))

/-- Crew notes, links and resets (R350 to R352, R358): CREW_READY marks its sender as taking part and moves device time forward
to rank 0's; after the time-out the crew is no longer waited for; LINKS is stored for its rank, and sent to every active
neighbour each period; CREW_RESET and CREWRST make a warm reset.
REBALANCE between dies (R353, R354): b joins a COPY whose conditions hold, journals it, and stays out of one whose conditions
do not; a note that may make a step waits while the journal takes no record; it answers the coordinator's question whether one may begin (that message is the model's, log entry 76); the coordinator takes an awaited acknowledgement; when its hold has passed it sends RETIRE, first to b. -/
def Obligations.CrewNotesAndRebalance : Prop :=
  (∀ (k : Fin 3) (s : State),
     (∀ x s1, crewNote s k.val 0x10 = some (x, s1) →
       Gives (.crewReady k) s (fun t => bit (bn 128 2 x) t.crew.readyFrom = true ∧
         t.clock.time = (if bn 128 2 x = 0 ∧ rank s ≠ 0 ∧ s.clock.time.toNat < (bf 64 64 x + 1000).toNat then bf 64 64 x + 1000 else s.clock.time) ∧
         SameBut [.clock, .ports, .tally, .crew, .events, .mgmt, .free] s t)) ∧
     (s.boot.phase = .ready → Gives .crewReadyTimeout s (fun t => t.crew.timedOut = true ∧ SameBut [.crew, .ports, .events, .mgmt, .free] s t)) ∧
     (∀ x s1, crewNote s k.val 0x14 = some (x, s1) → swf 0 none s.crew.links = true →
       Gives (.links k) s (fun t => sget 0 t.crew.links (rankAt s (8 + k.val)) = bf 64 3 x ∧ bit (rankAt s (8 + k.val)) t.crew.linksSeen = true ∧
         SameBut [.ports, .tally, .crew, .events, .free] s t)) ∧
     (s.crew.phase ≠ 2 → s.crew.phase ≠ 3 → s.crew.phase ≠ 5 → Gives .linksPeriod s (fun t => SameBut [.ports] s t ∧ ∀ q, q = 8 ∨ q = 9 ∨ q = 10 → portActive s q = true →
       note 0x14 [(64, linksMask s)] ∈ (getPort t q).tx.flatten ++ (getPort t q).egress)) ∧
     (∀ x s1, crewNote s k.val 0x15 = some (x, s1) → s.boot.phase = .ready → s.holdup.ph = 0 →
       Gives (.crewReset k) s (fun t => t.boot.phase = .ready ∧ t.boot.step = 9 ∧ t.holdup.warm = true ∧ t.holdup.ph = 0)) ∧
     (∀ who, mayTrigger s who false = true → s.boot.phase = .ready → s.holdup.ph = 0 →
       Gives (.crewrst who) s (fun t => t.boot.phase = .ready ∧ t.boot.step = 9 ∧ t.holdup.warm = true ∧ t.holdup.ph = 0)) ∧
     (∀ who, mayTrigger s who false = false → exec (.crewrst who) s = .next s)) ∧
  (∀ (k : Fin 3) (s : State),
     (∀ x s1, crewNote s k.val 0x12 = some (x, s1) → bn 72 8 x ≠ rank s → bn 80 8 x = rank s → s.crew.phase = 0 → bn 64 8 x = 1 → bn 160 8 x = 0 → rebalTakes s x = true →
       (rebalJoinOk s (bn 96 26 x) (bn 128 26 x) = false → exec (.rebal k) s = .next s1) ∧
       (rebalJoinOk s (bn 96 26 x) (bn 128 26 x) = true →
         (jAdmit s [[rebalRec [1, bn 72 8 x, bn 80 8 x, 0, bn 96 26 x, bn 128 26 x, s.clock.time.toNat]]]).1 = true →
         Gives (.rebal k) s (fun t => t.crew.phase = 1 ∧ t.crew.src = BitVec.ofNat 2 (bn 72 8 x) ∧ t.crew.dst = BitVec.ofNat 2 (rank s) ∧
           t.crew.gran = bf 96 26 x ∧ t.crew.part = bf 128 26 x ∧ t.crew.cursor = 0 ∧ t.crew.start = s.clock.time ∧
           t.journal.last = s.journal.last + 1))) ∧
     (∀ x s1, crewNote s k.val 0x12 = some (x, s1) → rebalTakes s x = false → exec (.rebal k) s = .next s) ∧
     (∀ x s1, crewNote s k.val 0x12 = some (x, s1) → bn 64 8 x = 0 → bn 72 8 x ≠ rank s → s.crew.phase = 0 →
       exec (.rebal k) s = .next (sendRank s1 (bn 72 8 x) [rebalAckNote s1 (rebalVerdict s1 (bn 80 8 x) (bn 96 26 x) (bn 128 26 x))])) ∧
     (∀ x s1, crewNote s k.val 0x13 = some (x, s1) → s.crew.ask = none → rank s = s.crew.src.toNat → s.crew.phase = 1 → bn 64 8 x = 1 →
       bit (ackRank s1 s.crew.await (8 + k.val)) s.crew.await = true →
       exec (.rebalAck k) s = .next (answerReports { s1 with crew := { s1.crew with await := bset (ackRank s1 s.crew.await (8 + k.val)) 1 s.crew.await 0 } })) ∧
     (s.crew.phase = 4 → rank s = s.crew.src.toNat → maintains s = true → (jAdmit s [[rebalRec (numSet (rebalNums s) 0 5)]]).1 = true →
       Gives .rebalRetire s (fun t => t.crew.phase = 5 ∧ t.crew.await = rankSet [s.crew.dst.toNat] ∧ t.crew.retireSent = false ∧ t.crew.retireAcks = 0 ∧
         t.crew.gran = s.crew.gran ∧ t.journal.last = s.journal.last + 1)) ∧
     (s.crew.phase ≠ 4 → exec .rebalRetire s = .next s))

/-! ## Arbitration and tally -/

/-- ARBITER_DECISION (R93, R299, R301 to R304, R312): the winner is a class that asks and that R299 makes a member there, on a frozen
bank only REF or a multi-cycle holder; it holds the grant and is counted, a grant of REF refreshes the bank's group, and nothing
else but the arbiter changes; with no winner nothing holds it; a search that withdrew after its grant costs a dead slot.
Cut-offs and freeze bits (R305, R306, R312, R313): the holder of a cut arbiter loses its grant and is counted; a write of a freeze
word by a core or the sideband sets that word and no other; a freeze that times out ends and is reported.
Arbiter snapshots and live share tables (R308 to R310, R315, R590): SNAP latches the shadow of the arbiter that the writer has
selected, CLR also clears its live counts; COMMIT is refused while one waits or where the weights break R308, and else
waits for the tick under the next JSN. -/
def Obligations.ArbitersGrantAndFreeze : Prop :=
  (∀ (a : Nat) (q : ArbAsk) (s : State) (cs : List Nat) (x : Arb),
     a < 7251 → cs = asking s a q.classes → x = present (now s) q cs (dropGrant q.dead (getArb s a)) →
     (∀ c line, decideWinner (creditNow s a x) x (now s) (mayGrant s a x cs) = some (c, line) →
       (bit c q.classes = true ∨ (c = 12 ∧ a < 2112 ∧ sget 0 s.tcam.refDue a ≠ 0)) ∧ isMember a c = true ∧
       (a < 2112 → bankFrozen s a = true → c = 12 ∨ (isMulti c = true ∧ x.holder = some c)) ∧
       Gives (.arbiterDecision a q) s (fun t => (getArb t a).holder = some c ∧ (getArb t a).prev = c ∧
         (getClass (getArb t a) c).grants = (getClass x c).grants + 1 ∧ (∀ b, b ≠ a → getArb t b = getArb s b) ∧
         (if a < 2112 ∧ c = 12 then swf 0 none s.tcam.refGroup = true → sget 0 t.tcam.refGroup a = (sget 0 s.tcam.refGroup a + 1) % 512 else t.tcam = s.tcam) ∧
         SameBut [.arbs, .tcam, .events, .free] s t)) ∧
     (swf Arb.reset none s.arbs.live = true →
       (decideWinner (creditNow s a x) x (now s) (mayGrant s a x cs) = none →
         Gives (.arbiterDecision a q) s (fun t => (getArb t a).holder = none ∧ SameBut [.arbs] s t)) ∧
       (∀ h, q.dead = true → (getArb s a).holder = some h → h ≤ 10 → swf ArbClass.reset none (getArb s a).classes = true →
         Gives (.arbiterDecision a q) s (fun t => (getClass (getArb t a) h).dead = (getClass (getArb s a) h).dead + 1)))) ∧
  (∀ a q s, 7251 ≤ a → exec (.arbiterDecision a q) s = .next s) ∧
  (∀ s : State,
     (∀ a c, (getArb s a).holder = some c → swf ArbClass.reset none (getArb s a).classes = true →
       Gives (.stallCutoff a) s (fun t => (getArb t a).holder = none ∧ (getArb t a).cut = true ∧
         (getClass (getArb t a) c).cuts = (getClass (getArb s a) c).cuts + 1)) ∧
     (∀ a, (getArb s a).holder = none → exec (.stallCutoff a) s = .next s) ∧
     (∀ who (k : Fin 3) v, mayTrigger s who true = true →
       Gives (.dfrz who k v) s (fun t => (∀ i < 66, i / 32 = k.val → bit i t.arbs.dfrz = bit (i % 32) v) ∧
         (∀ i < 66, i / 32 ≠ k.val → bit i t.arbs.dfrz = bit i s.arbs.dfrz) ∧ SameBut [.arbs] s t)) ∧
     (∀ who k v, mayTrigger s who true = false → exec (.dfrz who k v) s = .next s) ∧
     (∀ g, bit g s.arbs.dfrz = true → ∃ s1, exec (.freezeTimeout g) s = .next (event s1 [qFW, qSB] 0x4005 g 0) ∧
       bit g s1.arbs.dfrz = false ∧ bit g s1.arbs.frzto = true ∧ SameBut [.arbs] s s1)) ∧
  (∀ (who : Requester) (s : State),
     (mayTrigger s who true = true → (selsOf s who).csel.toNat < 7251 →
       Gives (.snap who) s (fun t => sget none t.arbs.shadow (selsOf s who).csel.toNat = some (shadowOf s (selsOf s who).csel.toNat) ∧
         t.arbs.live = s.arbs.live ∧ SameBut [.arbs] s t) ∧
       Gives (.clr who) s (fun t => sget none t.arbs.shadow (selsOf s who).csel.toNat = some (shadowOf s (selsOf s who).csel.toNat) ∧ SameBut [.arbs] s t ∧
         (swf Arb.reset none s.arbs.live = true → swf ArbClass.reset none (getArb s (selsOf s who).csel.toNat).classes = true →
           ∀ c < 16, getClass (getArb t (selsOf s who).csel.toNat) c = clearCounts (getClass (getArb s (selsOf s who).csel.toNat) c)))) ∧
     (∀ k : Fin 8, mayTrigger s who false = true →
       (bit k.val s.str.spend = true → Gives (.commit who k) s (fun t => bit k.val t.str.srej = true ∧ t.journal = s.journal ∧ SameBut [.str] s t)) ∧
       (bit k.val s.str.spend = false → shareOk s.str.stmap (pendingIn s k.val) (roleNow s) k.val = false →
         Gives (.commit who k) s (fun t => bit k.val t.str.srej = true ∧ sget 0 t.str.cstat k.val = 13 ∧ SameBut [.str] s t)) ∧
       (bit k.val s.str.spend = false → shareOk s.str.stmap (pendingIn s k.val) (roleNow s) k.val = true →
         (jAdmit s [[.live 5 (16 * k.val) s.boot.strver ((List.range 16).map (fun c => sget 0 s.str.wpend (16 * k.val + c)))]]).1 = false →
         Gives (.commit who k) s (fun t => bit k.val t.str.srej = true ∧ t.str.spend = s.str.spend ∧ SameBut [.str, .mgmt] s t)) ∧
       (bit k.val s.str.spend = false → shareOk s.str.stmap (pendingIn s k.val) (roleNow s) k.val = true →
         (jAdmit s [[.live 5 (16 * k.val) s.boot.strver ((List.range 16).map (fun c => sget 0 s.str.wpend (16 * k.val + c)))]]).1 = true →
         Gives (.commit who k) s (fun t => bit k.val t.str.spend = true ∧ t.str.wact = s.str.wact ∧ t.journal.last = s.journal.last + 1 ∧
           SameBut [.str, .journal, .mgmt] s t))))

/-- The tally (R323 to R328): an audit counts, and the first pool that breaks the invariant, or that made a move not permitted, is recorded, stops admission and is
reported; a sample is taken into the writer's own words; with AUTOWARM a violation leads to a warm reset that clears it. -/
def Obligations.TallyAuditsAndStops : Prop :=
  ∀ s : State,
    (∀ who, mayTrigger s who true = true →
      Gives (.audit who) s (fun t => t.tally.audits = s.tally.audits + 1) ∧
      (brokenPool s = none → Gives (.audit who) s (fun t => t.tally = { s.tally with audits := s.tally.audits + 1 } ∧ SameBut [.tally] s t)) ∧
      (∀ id c, brokenPool s = some (id, c) → s.tally.viol = false →
        Gives (.audit who) s (fun t => t.tally.viol = true ∧ t.tally.admstop = true ∧ t.tally.poolId = BitVec.ofNat 16 id ∧ t.tally.vrec = countWords c ∧
          SameBut [.tally, .events, .mgmt, .free] s t)) ∧
      (∀ c, poolCounts s (selsOf s who).tsel.toNat = some c →
        Gives (.tsnap who) s (fun t => (if isSide who then t.tally.tvalS else t.tally.tvalC) = countWords c ∧ SameBut [.tally] s t)) ∧
      (poolCounts s (selsOf s who).tsel.toNat = none →
        Gives (.tsnap who) s (fun t => (if isSide who then t.tally.tvalS else t.tally.tvalC) = [0, 0, 0, 0] ∧ SameBut [.tally] s t))) ∧
    (s.tally.viol = true → s.tally.autowarm = true → maintains s = true →
      Gives .autowarm s (fun t => t.tally.viol = false ∧ t.tally.admstop = false ∧ t.boot.phase = .ready ∧ t.holdup.warm = true)) ∧
    (s.tally.autowarm = false → exec .autowarm s = .next s)

/-! ## Thermal -/

/-- Demands (R455, R456, R458, R466, R469): every source of a demand makes one, the sources that need a condition only under it.
A finished conversion that nobody waits for (R457, R460 to R467, R470): its value and time are held; the band goes up at once, and
down by one only on two low readings in a row after 100 ms; a value out of range, one that jumps from a good reading of the last
10 ms, or none at all makes the fault state with T3 at least, which the fifth good reading in a row ends; 112 °C trips, and starts the
save, but a jump to it only when the next reading confirms it. -/
def Obligations.DemandsAndReadings : Prop :=
  (∀ s : State,
     (∀ who, mayTrigger s who false = true → s.clock.running = true → Gives (.demand who) s (DemandMade s)) ∧
     (∀ who, mayTrigger s who false = false → exec (.demand who) s = .next s) ∧
     (waitosRuns s = true → Gives .readingDemand s (DemandMade s)) ∧
     (s.therm.guard = true → Gives .guardReading s (DemandMade s)) ∧
     (s.therm.guard = false → exec .guardReading s = .next s) ∧
     (s.therm.fault = true → waitosRuns s = true → Gives .diodeRetry s (DemandMade s))) ∧
  (∀ (raw : BitVec 12) (s : State), s.therm.conv = true → s.therm.waiting = false → s.therm.readers = [] → s.therm.confirming = false → waitosRuns s = true →
     (outOfRange raw.toInt = false → jumps s.therm (now s) raw.toInt = false → raw.toInt < 896 →
       Gives (.conversionDone raw) s (fun t => t.therm.reading = raw ∧ t.therm.ttime = s.clock.time ∧ t.therm.conv = false ∧ (now s, raw.toInt) ∈ t.therm.goods) ∧
       (s.therm.fault = false → s.therm.band.toNat < bandOf raw.toInt →
         Gives (.conversionDone raw) s (fun t => t.therm.band.toNat = bandOf raw.toInt ∧ t.therm.entered = now s ∧ t.therm.guard = false)) ∧
       (s.therm.fault = true → Gives (.conversionDone raw) s (fun t => t.therm.fault = decide (s.therm.run + 1 < 5) ∧
         t.therm.band.toNat = max s.therm.band.toNat (bandOf raw.toInt))) ∧
       (s.therm.fault = false → bandOf raw.toInt ≤ s.therm.band.toNat →
         (0 < s.therm.band.toNat ∧ raw.toInt ≤ lowBound s.therm.band.toNat ∧ s.therm.pair = true ∧ s.therm.entered + 100000000 ≤ now s →
           Gives (.conversionDone raw) s (fun t => t.therm.band.toNat = s.therm.band.toNat - 1)) ∧
         (¬(0 < s.therm.band.toNat ∧ raw.toInt ≤ lowBound s.therm.band.toNat ∧ s.therm.pair = true ∧ s.therm.entered + 100000000 ≤ now s) →
           Gives (.conversionDone raw) s (fun t => t.therm.band = s.therm.band)))) ∧
     (outOfRange raw.toInt = true → Gives (.conversionDone raw) s (fun t => t.therm.fault = true ∧ 3 ≤ t.therm.band.toNat ∧ t.therm.reading = raw)) ∧
     (outOfRange raw.toInt = false → jumps s.therm (now s) raw.toInt = true →
       Gives (.conversionDone raw) s (fun t => t.therm.fault = true ∧ 3 ≤ t.therm.band.toNat ∧ t.therm.reading = raw ∧ t.therm.tripped = s.therm.tripped ∧
         (896 ≤ raw.toInt → t.therm.confirming = true ∧ t.therm.suspect = raw.toInt ∧ (t.therm.conv = true ∨ t.therm.waiting = true)))) ∧
     Gives .conversionTimeout s (fun t => t.therm.fault = true ∧ 3 ≤ t.therm.band.toNat ∧ t.therm.reading = s.therm.reading) ∧
     (outOfRange raw.toInt = false → jumps s.therm (now s) raw.toInt = false → 896 ≤ raw.toInt → s.boot.phase = .ready → s.holdup.ph = 0 →
       Gives (.conversionDone raw) s (fun t => t.therm.tripped = true ∧ t.holdup.ph = 1 ∧ t.holdup.byTrip = true ∧ t.power.pstate = 2))) ∧
  (∀ (raw : BitVec 12) (s : State), s.therm.conv = true → s.therm.confirming = true → outOfRange raw.toInt = false → 896 ≤ raw.toInt → s.boot.phase = .ready → s.holdup.ph = 0 →
     Gives (.conversionDone raw) s (fun t => t.therm.tripped = true ∧ t.holdup.ph = 1 ∧ t.holdup.byTrip = true))

/-- Band writes and calibration (R43, R94, R464, R466, R468, R477): a write of BAND by a core takes codes 0 to 4 and confirms the
band; upward, every refreshed bank starts a group period of the new length at once and every retention test begins again, and else refresh is left alone;
a calibration holds the reading, takes a handle when one is free and gives up a running conversion (log entry 139), or is deferred, and when done leaves a new calibration time.
Media bands (R269, R270, R472 to R474): a report that is not newer is ignored; an applied entry stands as its group's value and
raises the group's band at once while a management core serves; a group without an entry for 500 ms is stale. -/
def Obligations.BandsCalibrationAndMedia : Prop :=
  (∀ s : State,
     (∀ who (b : BitVec 3), mayTrigger s who false = true → b.toNat ≤ 4 →
       Gives (.bandWrite who b) s (fun t => t.therm.band = b ∧ t.therm.confirmed = now s ∧ t.therm.guard = false ∧
         (if bandInForce s < b.toNat then SameBut [.therm, .mgmt, .waitos, .arbs, .tcam, .events, .free] s t ∧
            t.tcam.retain = s.tcam.retain.map (fun e => (e.1, now s)) ∧ ∀ a < 2112, refreshed s a = true → sget 0 t.tcam.refBand (siteOf s a) = b.toNat
          else SameBut [.therm, .mgmt, .waitos] s t) ∧ (s.therm.deferred = none → t.waitos = s.waitos))) ∧
     (∀ who (b : BitVec 3), 4 < b.toNat → exec (.bandWrite who b) s = .next s) ∧
     (s.therm.fault = true ∨ s.therm.held = true → waitosRuns s = true →
       Gives .bandConfirm s (fun t => t.therm.band = s.therm.band ∧ t.therm.confirmed = now s ∧ t.therm.guard = false ∧ SameBut [.therm, .mgmt, .arbs, .tcam, .events, .free] s t)) ∧
     (waitosRuns s = true → s.therm.held = false →
       (calDefer s = 0 → Gives .calibration s (fun t => t.therm.held = true ∧ t.therm.deferred = none)) ∧
       (calDefer s ≠ 0 → Gives .calibration s (fun t => t.therm.held = false ∧ t.therm.deferred.isSome = true ∧ SameBut [.therm] s t))) ∧
     (∀ who, mayTrigger s who false = true → s.clock.running = true → s.therm.held = false → calDefer s = 0 →
       Gives (.calnow who) s (fun t => t.therm.held = true ∧ t.therm.conv = false ∧ SameBut [.therm, .waitos] s t ∧
         t.waitos = (match startOp s 0x0302 qFW true (5, 0) with | some (_, s1) => s1.waitos | none => s.waitos))) ∧
     (s.therm.held = true → Gives .calibrationDone s (fun t => t.therm.held = false ∧ t.therm.calTime = s.clock.time)) ∧
     (s.therm.deferred.isSome = true → waitosRuns s = true → calDefer s ≠ 0 →
       ∃ s1, exec .calDeferred s = .next (event s1 [qFW] 0x4008 0 (calDefer s)) ∧ SameBut [.therm] s s1)) ∧
  (∀ s : State,
     (∀ (p : Fin 8) m, ingressHead s p.val cTEMP = some m →
       ((getPort s p.val).rseqSet = true → (bf 16 16 m - (getPort s p.val).rseq = 0 ∨ 32768 ≤ (bf 16 16 m - (getPort s p.val).rseq).toNat) →
         exec (.temp p) s = .next (takeHead s p.val cTEMP)) ∧
       (∀ g v, swf Port.reset none s.ports = true →
         ¬((getPort s p.val).rseqSet = true ∧ (bf 16 16 m - (getPort s p.val).rseq = 0 ∨ 32768 ≤ (bf 16 16 m - (getPort s p.val).rseq).toNat)) → bn 8 4 m = 1 → g = bn 64 8 m → v = (bf 72 12 m).toInt → portOfGroup g = p.val → g < 240 → -320 ≤ v → v ≤ 1200 →
         Gives (.temp p) s (fun t => (getPort t p.val).rseq = bf 16 16 m ∧ (getGroup t g).value = v ∧ (getGroup t g).stale = false ∧
           (coresServe s = true → (getGroup s g).band < mediaBand s v → (getGroup t g).band = mediaBand s v)))) ∧
     (s.boot.phase = .ready → s.waitos.cores ≠ 0 → ∀ g, g < min 240 (tCap s tSHT) → isStale s g = true →
       Gives .mediaStaleCheck s (fun t => (getGroup t g).stale = true ∧ (getGroup t g).subst = true)) ∧
     (s.waitos.cores = 0 → exec .mediaStaleCheck s = .next s))

/-! ## Waitos -/

/-- Requests to Waitos that run nothing (R518, R520, R527, R559): one that is not laid out as it must be is answered MALFORMED, and
what the device state refuses is never executed: it is answered, and no part of the state but the requester's queue,
its port, and the queued answer changes. A command that is not at the head of its queue changes nothing.
Requests and handles (R271, R516, R517, R523, R525, R535): a request that fits one segment joins its partner's queue, one whose packets make
up a Waitos message on the sideband the sideband's; an operation that has ended holds its status, the one known of it where one is; a lane
calibration ends when its lanes have run; its handle is free once it is freed; under handle 0 nothing ends but what a reset has let resume. -/
def Obligations.WaitosRefusesAndKeepsHandles : Prop :=
  (∀ (c : Instr) (w : Client) (n : Nat) (s : State), waitosCommand c = some (w, n) →
     (reqsOf s w = [] → exec c s = .next s) ∧
     (∀ r rest, reqsOf s w = r :: rest → rCmd r ≠ n → exec c s = .next s) ∧
     (∀ r rest, reqsOf s w = r :: rest → rCmd r = n → waitosRuns s = true →
       (reqFormed r = false → Answers c s w r (.of .malformed) s) ∧
       (∀ x, stateBusy s n (imgTarget s r) = some x → Gives c s (fun t => SameBut [.ports, .tally, .events, .mgmt, .waitos, .free] s t ∧
         (Answers c s w r (.of .malformed) s ∨ Answers c s w r (.of .notOwner) s ∨ Answers c s w r x s))))) ∧
  (∀ s : State,
     (∀ (p : Fin 8) x bs, ingressHead s p.val cMGMT = some x → swf Port.reset none s.ports = true → bit 8 x = false → bit 9 x = true → bn 24 4 x = 0 →
       0 < bn 32 5 x → bn 32 5 x ≤ 24 → (getPort s p.val).exch.find? (fun e => e.id == bf 16 8 x) = none → (getPort s p.val).exch.length < 8 →
       reqsOf s (.port p) = [] → bs = (toBytes 24 (bf 64 192 x)).take (bn 32 5 x) → listed (natAt bs 0 2) = true →
       Gives (.mgmt (.port p)) s (fun t => reqsOf t (.port p) = [⟨bf 16 8 x, (getPort s p.val).incarn, bs⟩] ∧ SameBut [.ports, .tally, .events, .waitos, .free] s t)) ∧
     (∀ ep tag ps bs, s.boot.phase = .ready → sbMessage ps = some bs → reqsOf s .sb = [] → listed (natAt bs 0 2) = true →
       Gives (.mgmt (.sideband ep tag ps)) s (fun t => reqsOf t .sb = [⟨tag.setWidth 8, ep.setWidth 16, bs⟩] ∧ SameBut [.waitos] s t)) ∧
     (∀ ep tag ps, s.boot.phase = .off ∨ sbMessage ps = none → exec (.mgmt (.sideband ep tag ps)) s = .next s) ∧
     (∀ h st progress x, h ≠ 0 → getOp s h = some x → opRuns x = true → x.st = 0xF → x.cmd = 0x0402 ∨ x.cmd = 0x0602 ∨ x.cmd = 0x0503 →
       Gives (.opDone h st progress) s (fun t => ∃ y, getOp t h = some y ∧ opRuns y = false ∧ y.st = (if st = 0xF then 14 else st) ∧ y.progress = progress ∧
         y.end_ = s.clock.time ∧ SameBut [.waitos, .events, .free] s t)) ∧
     (∀ h st progress x, h ≠ 0 → getOp s h = some x → opRuns x = true → x.st ≠ 0xF → x.cmd = 0x0402 ∨ x.cmd = 0x0602 ∨ x.cmd = 0x0503 → s.waitos.session = none →
       Gives (.opDone h st progress) s (fun t => ∃ y, getOp t h = some y ∧ opRuns y = false ∧ y.st = x.st ∧ y.progress = x.progress ∧ y.end_ = s.clock.time ∧
         SameBut [.waitos, .events, .free] s t)) ∧
     (∀ h st progress x, h ≠ 0 → getOp s h = some x → opRuns x = true → x.st = 0xF → x.cmd = 0x0303 →
       (x.data = [] → (getPort s x.obj.2).cal = none → Gives (.opDone h st progress) s (fun t => ∃ y, getOp t h = some y ∧ opRuns y = false ∧ y.st = 0 ∧
         y.progress = x.progress ∧ SameBut [.waitos, .events, .free] s t)) ∧
       (x.data ≠ [] → (getPort s x.obj.2).st = pACTIVE → (getPort s x.obj.2).calen = true → exec (.opDone h st progress) s = .next s)) ∧
     (∀ h st progress x, h ≠ 0 → getOp s h = some x → opRuns x = false → exec (.opDone h st progress) s = .next s) ∧
     (∀ st progress, s.waitos.resumed = [] → exec (.opDone 0 st progress) s = .next s) ∧
     (∀ st progress x rest, s.waitos.resumed = x :: rest → opRuns x = true → x.st = 0xF → x.cmd = 0x0601 → x.data.all (fun b => bankState s b == 1) = false →
       exec (.opDone 0 st progress) s = .next s) ∧
     (∀ h x, getOp s h = some x → opRuns x = false → swf none none s.waitos.ops = true → Gives (.handleFree h) s (fun t => getOp t h = none ∧ SameBut [.waitos] s t)) ∧
     (∀ h x, getOp s h = some x → opRuns x = true → exec (.handleFree h) s = .next s))

/-- Information (R231, R502, R525, R528, R557): each command answers what stands in the state, and changes nothing else.
REBALANCE's commands and the reading of the MATCH counts (R353, R354, R545, R547, R548): REBAL_BEGIN asks every other die (by a message
of the model's, log entry 76), and with no objection journals COPY with G and its G′ and answers a handle; with one it is refused; a report of a row behind the cursor is answered OK, and a RETIRE acknowledgement is counted; the
reading clears the count of every valid directory entry. -/
def Obligations.WaitosInformsAndRebalances : Prop :=
  (∀ (s : State) (w : Client) (r : Req) (ps : List Byte),
     (Asked s w 0x0001 r ps → ps.length = 0 → Answers (.getInfo w) s w r (.ok (infoBytes s)) s) ∧
     (Asked s w 0x0002 r ps → ps.length = 2 → 1 ≤ natAt ps 0 2 → natAt ps 0 2 ≤ 4095 →
       (getOp s (natAt ps 0 2) = none → Answers (.opStatus w) s w r (.of .miss) s) ∧
       (∀ x, getOp s (natAt ps 0 2) = some x → Answers (.opStatus w) s w r (.ok (opBytes (natAt ps 0 2) x)) s)) ∧
     (∀ p : Fin 8, Asked s (.port p) 0x0003 r ps → ps.length = 0 → Answers (.getKeyslots (.port p)) s (.port p) r (.ok (keySlots s p.val)) s) ∧
     (Asked s .sb 0x0003 r ps → ps.length = 1 → natAt ps 0 1 < 8 → Answers (.getKeyslots .sb) s .sb r (.ok (keySlots s (natAt ps 0 1))) s) ∧
     (Asked s w 0x0004 r ps → ps.length = 2 → natAt ps 0 2 < 16384 → Answers (.dirRead w) s w r (.ok (dirBytes s (natAt ps 0 2))) s) ∧
     (Asked s w 0x0005 r ps → ps.length = 2 → natAt ps 0 2 < 4096 → rowBad s tMIG (natAt ps 0 2) = false →
       ∃ t bs, Answers (.migInfo w) s w r (.ok bs) t ∧ bs.length = 32 ∧ bs.take 16 = toBytes 16 (rowVal s tMIG (natAt ps 0 2)) ∧
         SameBut [.sram, .integ, .mgmt, .events, .free] s t) ∧
     (Asked s w 0x0A01 r ps → ps.length = 0 → Answers (.dbgNonce w) s w r (.ok (toBytes 16 s.dbg.nonce)) s)) ∧
  (∀ s : State,
     (∀ w r ps g b h, Asked s w 0x0701 r ps → ps.length = 5 → g = natAt ps 0 4 → g < 2 ^ 26 → b = natAt ps 4 1 → b < 4 → rteOwner s g = some (rank s) → holderOf s (6, 0) = none →
       partnerGran s g b = some h → s.crew.phase = 0 → b ≠ rank s → (otherRanks s).all (reaches s) = true → winCovers s h = false → granMigrating s g = false → rteRoom s g h = true →
       (s.crew.ask = none → Gives (.rebalBegin w) s (fun t => t.crew.ask = some ⟨g, b, rankSet (otherRanks s), 0⟩ ∧ (reqsOf t w).head? = some r ∧ SameBut [.crew, .ports, .mgmt] s t)) ∧
       (s.crew.ask = some ⟨g, b, 0, 6⟩ → ∃ t, Answers (.rebalBegin w) s w r (.of .noRoom) t ∧ t.crew.ask = none ∧ SameBut [.crew] s t) ∧
       (s.crew.ask = some ⟨g, b, 0, 7⟩ → ∃ t, Answers (.rebalBegin w) s w r (.busy 7 0) t ∧ t.crew.ask = none ∧ SameBut [.crew] s t) ∧
       (∀ n s1, s.crew.ask = some ⟨g, b, 0, 0⟩ →
       (jAdmit s [[rebalRec [1, rank s, b, 0, g, h, s.clock.time.toNat]]]).1 = true → startOp s 0x0701 (clientCode w) false (6, 0) = some (n, s1) →
       ∃ t, Answers (.rebalBegin w) s w r (.handle n) t ∧ t.crew.phase = 1 ∧ t.crew.src = BitVec.ofNat 2 (rank s) ∧ t.crew.dst = BitVec.ofNat 2 b ∧
         t.crew.gran = BitVec.ofNat 26 g ∧ t.crew.part = BitVec.ofNat 26 h ∧ t.crew.cursor = 0 ∧ t.crew.handle = n ∧ t.crew.await = rankSet [b] ∧
         t.journal.last = s.journal.last + 1)) ∧
     (∀ w r ps g, Asked s w 0x0701 r ps → ps.length = 5 → g = natAt ps 0 4 → g < 2 ^ 26 → natAt ps 4 1 < 4 → rteOwner s g ≠ some (rank s) →
       Answers (.rebalBegin w) s w r ⟨.malformed, false, (rteOwner s g).getD 0, []⟩ s) ∧
     (∀ w r ps, Asked s w 0x0702 r ps → ps.length = 2 → natAt ps 1 1 < 64 →
       (natAt ps 0 1 = 0 → rank s = s.crew.src.toNat → s.crew.phase ≠ 0 → s.crew.phase.toNat ≤ 3 → s.crew.await = 0 → natAt ps 1 1 < s.crew.cursor.toNat →
         Answers (.rebalReport w) s w r (.ok []) s) ∧
       (natAt ps 0 1 = 1 → s.crew.phase = 5 → s.crew.retireSent = true → ∀ t, t = { s with crew := { s.crew with retireAcks := bset (clientCode w) 1 s.crew.retireAcks 1 } } →
         retireAll t = false → Answers (.rebalReport w) s w r (.ok []) t)) ∧
     (maintains s = true → swf 0 none s.marker.count = true →
       Gives .markerCountReading s (fun t => ∀ d < 16384, dValid (dirEntry s d) = true → sget 0 t.marker.count d = 0)) ∧
     (maintains s = false → exec .markerCountReading s = .next s))

/-- Management space and region contexts (R529 to R531): MREAD and MWRITE read and write words as their requester and as the
sideband, and stop at the first word that does not complete OK, saying which, or, where it is BUSY_RETRY, why (R524); CTX_READ answers the row; CTX_WRITE and
CTX_CAS write and compare it as the IWRITE and ICAS of FW that they run do. -/
def Obligations.WaitosReachesSpaceAndContexts : Prop :=
  ∀ (s : State) (w : Client) (r : Req) (ps : List Byte),
    (Asked s w 0x0101 r ps → ps.length = 4 → natAt ps 0 3 % 4 = 0 → natAt ps 3 1 = 1 →
      (∀ v t, regRead s (asRequester w) (natAt ps 0 3) = (v, .ok, t) → Answers (.mread w) s w r (.ok (toBytes 4 v)) t) ∧
      (∀ v st t, regRead s (asRequester w) (natAt ps 0 3) = (v, st, t) → st ≠ .ok → Answers (.mread w) s w r ⟨st, false, wordDetail t st 0, []⟩ t)) ∧
    (Asked s w 0x0101 r ps → ps.length = 4 → natAt ps 0 3 % 4 = 0 → 1 ≤ natAt ps 3 1 → natAt ps 3 1 ≤ 64 →
      (∀ bs t, readWords (asRequester w) (natAt ps 3 1) (natAt ps 0 3) 0 s = (bs, none, t) → Answers (.mread w) s w r (.ok bs) t) ∧
      (∀ bs st i t, readWords (asRequester w) (natAt ps 3 1) (natAt ps 0 3) 0 s = (bs, some (st, i), t) →
        Answers (.mread w) s w r ⟨st, false, wordDetail t st i, bs⟩ t ∧ bs.length = 4 * i ∧ i < natAt ps 3 1)) ∧
    (Asked s w 0x0102 r ps → ps.length = 12 → natAt ps 0 3 % 4 = 0 → natAt ps 3 1 = 1 → natAt ps 4 4 = 0 →
      (∀ t, regWrite s .sb (natAt ps 0 3) (ofBytes 32 (slice ps 8 4)) = (.ok, t) → Answers (.mwrite w) s w r (.ok []) t) ∧
      (∀ st t, regWrite s .sb (natAt ps 0 3) (ofBytes 32 (slice ps 8 4)) = (st, t) → st ≠ .ok → Answers (.mwrite w) s w r ⟨st, false, wordDetail t st 0, []⟩ t)) ∧
    (∀ n ws, Asked s w 0x0102 r ps → ps.length = 8 + 4 * n → natAt ps 0 3 % 4 = 0 → natAt ps 3 1 = n → 1 ≤ n → n ≤ 62 → natAt ps 4 4 = 0 →
      ws = (List.range n).map (fun i => ofBytes 32 (slice ps (8 + 4 * i) 4)) →
      (∀ t, writeWords .sb ws (natAt ps 0 3) 0 s = (none, t) → Answers (.mwrite w) s w r (.ok []) t) ∧
      (∀ st i t, writeWords .sb ws (natAt ps 0 3) 0 s = (some (st, i), t) → Answers (.mwrite w) s w r ⟨st, false, wordDetail t st i, []⟩ t ∧ i < n)) ∧
    (Asked s w 0x0201 r ps → ps.length = 3 → natAt ps 0 3 < 2 ^ 20 →
      (tCap s tCTX ≤ natAt ps 0 3 → Answers (.ctxRead w) s w r (.of .malformed) s) ∧
      (tKind s tCTX = 2 → natAt ps 0 3 < tCap s tCTX → rowBad s tCTX (natAt ps 0 3) = false →
        Answers (.ctxRead w) s w r (.ok (toBytes 32 (rowVal s tCTX (natAt ps 0 3)))) (touchAll s (rowKeys s tCTX (natAt ps 0 3))))) ∧
    (Asked s w 0x0202 r ps → ps.length = 40 → natAt ps 0 3 < 2 ^ 20 → natAt ps 3 5 = 0 → ∀ c v ws,
      c = ctxCmd s 0x11 (natAt ps 0 3) (bput 256 64 (natAt ps 8 24)) (bput 256 64 (natAt ps 32 8)) → indexRefusal s c false [] true = none →
      v = cRowData c &&& BitVec.ofNat 256 (2 ^ tRowW s tCTX - 1) → cTable c = tCTX → cRow c = natAt ps 0 3 →
      ws = (List.range (rowWords s tCTX)).map (fun j => (j, bf (64 * j) 64 v)) → tComposer s tCTX = false → (rowKeys s tCTX (natAt ps 0 3)).any (coalFull s) = false →
      (jAdmit s (coalGroups s tCTX (natAt ps 0 3) ws ++ [ws.map (fun w => JRec.iword tCTX w.1 (natAt ps 0 3) w.2)])).1 = true →
      ∃ t, Answers (.ctxWrite w) s w r (.ok []) t ∧
        (swf (⟨0, 0⟩ : Cw) none s.sram.words = true → ∀ j < rowWords s tCTX, cell t (rowKey s tCTX (natAt ps 0 3) j) = secEnc (bf (64 * j) 64 v))) ∧
    (Asked s w 0x0203 r ps → ps.length = 24 → natAt ps 0 3 < 2 ^ 20 → natAt ps 3 1 ≤ 3 → natAt ps 4 4 = 0 → ∀ c key,
      c = ctxCmd s 0x13 (natAt ps 0 3) (mkSlot [(64, 64 * natAt ps 3 1), (72, 63), (128, natAt ps 8 8), (192, natAt ps 16 8)]) 0 →
      cTable c = tCTX → cRow c = natAt ps 0 3 → key = rowKey s tCTX (natAt ps 0 3) (cLsb c / 64) → indexRefusal s c (!fieldOk s c) [] true = none →
      (∀ k ∈ rowKeys s tCTX (natAt ps 0 3), sget none s.sram.coal k = none) → (peek s key).bad = false →
      (fieldOf s tCTX (natAt ps 0 3) (cLsb c) (cWid c) ≠ (cVal c).toNat % 2 ^ cWid c →
        ∃ t, Answers (.ctxCas w) s w r ⟨.staleVersion, false, 0, toBytes 8 (BitVec.ofNat 64 (fieldOf s tCTX (natAt ps 0 3) (cLsb c) (cWid c)))⟩ t ∧ t.sram.words = s.sram.words) ∧
      (fieldOf s tCTX (natAt ps 0 3) (cLsb c) (cWid c) = (cVal c).toNat % 2 ^ cWid c →
        (jAdmit s [[JRec.iword tCTX (cLsb c / 64) (natAt ps 0 3) (fieldWord s tCTX (natAt ps 0 3) (cLsb c) (cWid c) (cNew c).toNat)]]).1 = true →
        ∃ t, Answers (.ctxCas w) s w r (.ok []) t ∧ (tComposer s tCTX = false → swf (⟨0, 0⟩ : Cw) none s.sram.words = true →
          cell t key = secEnc (fieldWord s tCTX (natAt ps 0 3) (cLsb c) (cWid c) (cNew c).toNat))))

/-- Temperature, lanes, scrub and policy (R533 to R537, R546): TEMP_READ demands a reading and waits for it; DIODE_CAL, LANE_CAL and
SCRUB_NOW start an operation and answer its handle, LANE_CAL with the lanes that it is to calibrate; SCRUB_SET and AUTO_SET write what they name. -/
def Obligations.WaitosCalibratesAndScrubs : Prop :=
  ∀ (s : State) (w : Client) (r : Req) (ps : List Byte),
    (Asked s w 0x0301 r ps → ps.length = 0 → s.therm.readers = [] →
      Gives (.tempRead w) s (fun t => t.therm.readers.map (·.1) = [if (catchUp s).therm.conv then clientCode w + 256 else clientCode w] ∧ DemandMade s t)) ∧
    (Asked s w 0x0302 r ps → ps.length = 0 →
      (calDefer s ≠ 0 → Answers (.diodeCal w) s w r (.busy 6 (calDefer s)) s) ∧
      (∀ h s1, calDefer s = 0 → holderOf s (5, 0) = none → s.therm.held = false → startOp s 0x0302 (clientCode w) false (5, 0) = some (h, s1) →
        ∃ t, Answers (.diodeCal w) s w r (.handle h) t ∧ t.therm.held = true ∧ t.therm.conv = false ∧ SameBut [.therm, .waitos] s t)) ∧
    (Asked s w 0x0303 r ps → ps.length = 3 → natAt ps 0 1 ≤ 10 → natAt ps 1 1 ≤ 63 ∨ natAt ps 1 1 = 255 → natAt ps 2 1 ≤ 2 → holderOf s (4, natAt ps 0 1) = none →
      ((getPort s (natAt ps 0 1)).st ≠ pACTIVE → Answers (.laneCal w) s w r (.busy 6 4) s) ∧
      (∀ h s1, (getPort s (natAt ps 0 1)).st = pACTIVE → (getPort s (natAt ps 0 1)).calen = true →
        startOp s 0x0303 (clientCode w) false (4, natAt ps 0 1) = some (h, s1) →
        ∃ t, Answers (.laneCal w) s w r (.handle h) t ∧ SameBut [.waitos] s t ∧ ∃ x, getOp t h = some x ∧ opRuns x = true ∧ x.obj = (4, natAt ps 0 1) ∧ x.st = 0xF ∧ x.progress = 0 ∧
          x.data = laneList (natAt ps 1 1) (natAt ps 2 1))) ∧
    (Asked s w 0x0401 r ps → ps.length = 6 → natAt ps 0 1 < 4 → natAt ps 1 1 = 0 → 1 ≤ natAt ps 2 2 → natAt ps 2 2 ≤ 600 → 10 ≤ natAt ps 4 2 → natAt ps 4 2 ≤ 3600 →
      ∃ t, Answers (.scrubSet w) s w r (.ok []) t ∧ t.integ.bankScrub = (natAt ps 0 1 % 2 == 1) ∧ t.integ.sramScrub = (natAt ps 0 1 / 2 == 1) ∧
        t.integ.bankPer.toNat = natAt ps 2 2 ∧ t.integ.sramPer.toNat = natAt ps 4 2 ∧ SameBut [.integ] s t) ∧
    (Asked s w 0x0402 r ps → ps.length = 3 → natAt ps 0 1 = 0 →
      (scrubBad s 0 (natAt ps 1 2) = true → Answers (.scrubNow w) s w r (.of .malformed) s) ∧
      (∀ h s1, scrubBad s 0 (natAt ps 1 2) = false → bankBusy s (natAt ps 1 2) = none → startOp s 0x0402 (clientCode w) false (1, natAt ps 1 2) = some (h, s1) →
        Answers (.scrubNow w) s w r (.handle h) (knowOp (scrubPass s1 0 (natAt ps 1 2)) h .ok (scrubFound s1 (scrubPass s1 0 (natAt ps 1 2)))))) ∧
    (Asked s w 0x0603 r ps → ps.length = 1 → natAt ps 0 1 < 4 →
      ∃ t, Answers (.autoSet w) s w r (.ok []) t ∧ t.waitos.autoRep = (natAt ps 0 1 % 2 == 1) ∧ t.waitos.autoGrow = (natAt ps 0 1 / 2 == 1) ∧ SameBut [.waitos] s t)

/-- Banks, cells and partitions (R539 to R544): BANK_TEST of a spare makes it TESTING, of a bank in use clones it out first, a pair from its even bank;
BANK_RETIRE of a free site retires it; CELL_SPARE maps a spare; REPLICATE and GROW are refused where the list or banks
do not suffice, or the journal takes no more; a removal takes the last replica out, and SETSEL writes SEL. -/
def Obligations.WaitosMaintainsBanks : Prop :=
  ∀ (s : State) (w : Client) (r : Req) (ps : List Byte),
    (Asked s w 0x0501 r ps → ps.length = 2 → natAt ps 0 2 < 2112 → bankBusy s (natAt ps 0 2) = none → octantBusy s (natAt ps 0 2) = none →
      (bankState s (natAt ps 0 2) = 1 → replacement s (cloneLead s (natAt ps 0 2)) = none → Answers (.bankTest w) s w r (.of .noRoom) s) ∧
      (∀ dst h s1, bankState s (natAt ps 0 2) = 1 → replacement s (cloneLead s (natAt ps 0 2)) = some dst →
        startOp s 0x0501 (clientCode w) false (1, oldSiteNo s (natAt ps 0 2) dst) = some (h, s1) →
        ∃ t x, Answers (.bankTest w) s w r (.handle h) t ∧ getOp t h = some x ∧ opRuns x = true ∧ x.obj = (1, oldSiteNo s (natAt ps 0 2) dst) ∧
          (isPair s (natAt ps 0 2) = false → x.data = [dst, natAt ps 0 2])) ∧
      (∀ h s1, bankState s (natAt ps 0 2) = 2 → (jAdmit s [[.bank 4 (natAt ps 0 2) 0 0 4]]).1 = true → startOp s 0x0501 (clientCode w) false (1, natAt ps 0 2) = some (h, s1) →
        swf 0 none s.tcam.state = true →
        ∃ t, Answers (.bankTest w) s w r (.handle h) t ∧ bankState t (natAt ps 0 2) = 4 ∧ t.journal.last = s.journal.last + 1)) ∧
    (Asked s w 0x0502 r ps → ps.length = 2 → natAt ps 0 2 < 2112 → bankState s (natAt ps 0 2) = 0 → bankBusy s (natAt ps 0 2) = none → octantBusy s (natAt ps 0 2) = none →
      (jAdmit s [[.bank 4 (natAt ps 0 2) 0 0 4], [.bank 4 (natAt ps 0 2) 0 0 0]]).1 = true → (jAdmit s [[.bank 4 (natAt ps 0 2) 0 0 0]]).1 = true →
      swf 0 none s.tcam.state = true → ∀ h s1, startOp s 0x0502 (clientCode w) false (1, natAt ps 0 2) = some (h, s1) →
      ∃ t, Answers (.waitosBankRetire w) s w r (.handle h) t ∧ bankState t (natAt ps 0 2) = 5 ∧ t.integ.repairs.length = s.integ.repairs.length + 1) ∧
    (∀ (a : BitVec 28) b, Asked s w 0x0503 r ps → ps.length = 6 → a = BitVec.ofNat 28 (natAt ps 0 4) → natAt ps 0 4 < 2 ^ 28 → b = natAt ps 5 1 → addrOk a = true → holderOf s (2, macroOfAddr a) = none →
      (natAt ps 4 1 = 0 → spareFor s (macroOfAddr a) false = none → Answers (.cellSpare w) s w r (.of .noRoom) s) ∧
      (∀ k h s1, natAt ps 4 1 = 0 → spareFor s (macroOfAddr a) false = some k → startOp s 0x0503 (clientCode w) false (2, macroOfAddr a) = some (h, s1) →
        ∃ t, Answers (.cellSpare w) s w r (.handle h) t ∧ sget 0 t.sram.rowMap (macroOfAddr a * 1024 + rowOfAddr a) = k + 1) ∧
      (∀ k h s1, natAt ps 4 1 = 1 → b ≤ 71 → spareFor s (macroOfAddr a) true = some k → startOp s 0x0503 (clientCode w) false (2, macroOfAddr a) = some (h, s1) →
        ∃ t, Answers (.cellSpare w) s w r (.handle h) t ∧ sget 0 t.sram.colMap (macroOfAddr a * 128 + b) = k + 1)) ∧
    (∀ d, Asked s w 0x0601 r ps → ps.length = 4 → natAt ps 0 1 < 32 → d = natAt ps 1 2 → natAt ps 3 1 < 8 → dirOf s (natAt ps 0 1) d = true → holderOf s (3, d) = none →
      (natAt ps 3 1 = 0 → replicaRoom s d = none → Answers (.replicate w) s w r (.of .noRoom) s) ∧
      (∀ bs h s1, natAt ps 3 1 = 0 → replicaRoom s d = some bs → startOp s 0x0601 (clientCode w) false (3, d) = some (h, s1) →
        ∃ t x, Answers (.replicate w) s w r (.handle h) t ∧ getOp t h = some x ∧ opRuns x = true ∧ x.obj = (3, d)) ∧
      (natAt ps 3 1 = 1 → dRepl (dirEntry s d) = 1 → Answers (.replicate w) s w r (.of .malformed) s) ∧
      (∀ sel h s1, natAt ps 3 1 = (if sel then 6 else 4) → (jAdmit s [[dirRec d (bset 60 1 (dirEntry s d) (if sel then 1 else 0))]]).1 = true →
        startOp s 0x0601 (clientCode w) false (3, d) = some (h, s1) →
        ∃ t, Answers (.replicate w) s w r (.handle h) t ∧ dSel (dirEntry t d) = sel ∧ t.journal.last = s.journal.last + 1) ∧
      (∀ h s1, natAt ps 3 1 = 1 → 1 < dRepl (dirEntry s d) → (jAdmit s [lessRecs s d (dRepl (dirEntry s d) - 1)]).1 = true →
        startOp s 0x0601 (clientCode w) false (3, d) = some (h, s1) →
        ∃ t, Answers (.replicate w) s w r (.handle h) t ∧ dRepl (dirEntry t d) = dRepl (dirEntry s d) - 1 ∧
          t.marker.releases.length = s.marker.releases.length + 1)) ∧
    (∀ d, Asked s w 0x0602 r ps → ps.length = 3 → natAt ps 0 1 < 32 → d = natAt ps 1 2 → dirOf s (natAt ps 0 1) d = true → holderOf s (3, d) = none →
      (growRoom s d = none → Answers (.grow w) s w r (.of .noRoom) s) ∧
      (∀ bs k, growRoom s d = some (bs, k) → (jAdmit s [growRecs s d bs k]).1 = false → ∃ t, Answers (.grow w) s w r (.busy 6 0) t ∧ SameBut [.mgmt] s t) ∧
      (∀ bs k h s1, growRoom s d = some (bs, k) → (jAdmit s [growRecs s d bs k]).1 = true → startOp s 0x0602 (clientCode w) false (3, d) = some (h, s1) →
        Answers (.grow w) s w r (.handle h) (knowOp (growSpan s1 d bs k) h .ok 0)))

/-- Resets, time, debug and the store (R509, R510, R549, R550, R557, R558): a reset command is answered first; TIME_ADVANCE moves device
time and not elapsed time, up to 30 days in all; a grant is refused where the policy or a check fails, renews the nonce
in every case, and else takes force; STORE_INIT runs only in a boot stopped with STORE_BLANK. -/
def Obligations.WaitosResetsTimeAndDebug : Prop :=
  ∀ (s : State) (w : Client) (r : Req) (ps : List Byte),
    (Asked s w 0x0801 r ps → ps.length = 1 → natAt ps 0 1 ≤ 10 → Answers (.portResetCommand w) s w r (.ok []) (portReset s (natAt ps 0 1) 6 0)) ∧
    (Asked s w 0x0802 r ps → ps.length = 0 →
      exec (.warmResetCommand w) s = .next (warmReset (popReq (sendReply s w r (.ok [])) w) false)) ∧
    (Asked s w 0x0803 r ps → ps.length = 0 →
      exec (.crewResetCommand w) s = .next (startCrewReset (popReq (sendReply s w r (.ok [])) w))) ∧
    (∀ d, Asked s w 0x0804 r ps → ps.length = 8 → d = natAt ps 0 8 → 1 ≤ d → d ≤ days30 →
      (days30 < s.clock.advanced + d → Answers (.timeAdvance w) s w r ⟨.malformed, false, (days30 - s.clock.advanced) / dayNs, []⟩ s) ∧
      (s.clock.advanced + d ≤ days30 → ∃ t, Answers (.timeAdvance w) s w r (.ok []) t ∧ t.clock.time = s.clock.time + BitVec.ofNat 64 d ∧
        t.clock.elapsed = s.clock.elapsed ∧ t.clock.advanced = s.clock.advanced + d ∧ SameBut [.clock, .tcam, .journal] s t)) ∧
    (Asked s w 0x0A02 r ps → ps.length = 256 →
      (s.prot.dbgpol = 0 → ∃ t, Answers (.dbgGrant w) s w r (.of .locked) t ∧ t.dbg.granted = s.dbg.granted ∧ t.dbg.scope = s.dbg.scope) ∧
      (s.prot.dbgpol ≠ 0 → grantFault s ps ≠ 0 → ∃ t, Answers (.dbgGrant w) s w r ⟨.malformed, false, grantFault s ps, []⟩ t ∧
        t.dbg.granted = s.dbg.granted ∧ t.dbg.scope = s.dbg.scope) ∧
      (s.prot.dbgpol ≠ 0 → grantFault s ps = 0 → ∃ t, Answers (.dbgGrant w) s w r (.ok []) t ∧ t.dbg.granted = true ∧ t.dbg.debugged = true ∧
        t.dbg.scope = BitVec.ofNat 4 (natAt ps 28 1) ∧ t.dbg.exp = BitVec.ofNat 64 (natAt ps 32 8))) ∧
    (Asked s w 0x0A03 r ps → ps.length = 4 →
      (s.boot.phase ≠ .stopped ∨ s.boot.stop ≠ 2 → Answers (.storeInit w) s w r (.of .locked) s) ∧
      (∀ h s1, s.boot.phase = .stopped → s.boot.stop = 2 → natAt ps 0 4 = bn 0 32 s.fuses.dieId → holderOf s (8, 0) = none →
        startOp s 0x0A03 (clientCode w) false (8, 0) = some (h, s1) → Answers (.storeInit w) s w r (.handle h) s1))

/-- Image sessions (R552 to R556): a session for live staging opens at once, one for a boot slot erases it under a handle; data goes
in at the next offset and no other; a commit of too few bytes, or of an image or package that fails its checks, is refused or
ends MALFORMED with nothing changed in a slot; an abort or time-out closes the session. -/
def Obligations.ImageSessions : Prop :=
  ∀ (s : State) (w : Client) (r : Req) (ps : List Byte),
    (Asked s w 0x0901 r ps → ps.length = 8 → natAt ps 1 3 = 0 → 512 ≤ natAt ps 4 4 →
      (natAt ps 0 1 = 1 → natAt ps 4 4 ≤ 2 ^ 20 → s.waitos.session = none → ∃ t x, Answers (.imgBegin w) s w r (.ok []) t ∧ SameBut [.waitos] s t ∧
        t.waitos.session = some x ∧ x.live = true ∧ x.len = natAt ps 4 4 ∧ x.next = 0 ∧ x.erased = true ∧ x.verified = false) ∧
      (∀ h s1, natAt ps 0 1 = 0 → natAt ps 4 4 ≤ 2 ^ 23 → s.waitos.session = none → startOp s 0x0901 (clientCode w) false (7, 0) = some (h, s1) →
        ∃ t x, Answers (.imgBegin w) s w r (.handle h) t ∧ SameBut [.waitos, .flash] s t ∧ t.flash = (eraseSlot s (otherSlot s)).flash ∧
          t.waitos.session = some x ∧ x.live = false ∧ x.len = natAt ps 4 4 ∧ x.erased = false ∧ x.handle = h) ∧
      (natAt ps 0 1 = 1 → natAt ps 4 4 ≤ 2 ^ 20 → s.waitos.session.isSome = true → Answers (.imgBegin w) s w r (.busy 5 0) s)) ∧
    (∀ x, Asked s w 0x0902 r ps → 9 ≤ ps.length → natAt ps 4 4 = 0 → s.waitos.session = some x → x.erased = true → x.verified = false →
      (natAt ps 0 4 ≠ x.next → ∃ t, Answers (.imgData w) s w r ⟨.staleVersion, false, 0, bytesOfNat 4 x.next⟩ t ∧ SameBut [.waitos] s t) ∧
      (natAt ps 0 4 = x.next → natAt ps 0 4 + (ps.length - 8) ≤ x.len → x.live = true → ∃ t y, Answers (.imgData w) s w r (.ok []) t ∧ SameBut [.waitos] s t ∧
        t.waitos.session = some y ∧ y.staging = x.staging ++ ps.drop 8 ∧ y.next = x.next + (ps.length - 8))) ∧
    (Asked s w 0x0903 r ps → ps.length = 0 →
      (s.waitos.session = none → Answers (.imgCommit w) s w r (.of .malformed) s) ∧
      (∀ x, s.waitos.session = some x → x.erased = true → x.verified = false →
        (x.next ≠ x.len → ∃ t, Answers (.imgCommit w) s w r (.of .malformed) t ∧ SameBut [.waitos] s t) ∧
        (x.next = x.len → x.live = true → packageOk s x = false → Answers (.imgCommit w) s w r (.of .malformed) (setSession s none)) ∧
        (∀ h s1, x.next = x.len → x.live = true → packageOk s x = true → (profilesOf (sections x.staging)).any (fun p => bit p.1 s.prot.plock) = false →
          (profilesOf (sections x.staging)).any (fun p => bufferHeld s p.1) = false → (s.str.spend = 0 ∨ hasSect (sections x.staging) 5 = false) →
          (jAdmit s [packageRecs s x.staging]).1 = true → startOp s 0x0903 (clientCode w) false (7, 0) = some (h, s1) →
          ∃ t, Answers (.imgCommit w) s w r (.handle h) t) ∧
        (∀ h s1, x.next = x.len → x.live = false → handleRoom s false = true → startOp (setSession s none) 0x0903 (clientCode w) false (7, 0) = some (h, s1) →
          (∀ code, verifySlot s1 x = .inl code → Answers (.imgCommit w) s w r (.handle h) (knowOp s1 h .malformed (bput 64 8 code.toNat))) ∧
          (∀ d c, verifySlot s1 x = .inr (d, c) → Answers (.imgCommit w) s w r (.handle h) (knowOp { s1 with flash := c.flash } h .ok (if d then 1 else 0)))))) ∧
    (Asked s w 0x0904 r ps → ps.length = 0 → (s.waitos.session = none → Answers (.imgAbort w) s w r (.ok []) s) ∧
      (∀ x, s.waitos.session = some x → x.verified = false → ∃ t, Answers (.imgAbort w) s w r (.ok []) t ∧ t.waitos.session = none ∧ SameBut [.waitos] s t)) ∧
    (∀ x, s.waitos.session = some x → x.verified = false → waitosRuns s = true →
      ∃ s1, exec .imgSessionTimeout s = .next (event s1 [qSB] 0x2007 (x.handle + 4096 * 0x0901 + 2 ^ 28 * 11) x.next) ∧ s1.waitos.session = none ∧ SameBut [.waitos] s s1)

/-! ## Management space -/

/-- Reads (R577, R582, R584, R591): an access without a path, or to an offset that no register occupies, changes nothing and reads zero with
MALFORMED; a read of the lowest word of a wide register latches it for its requester, and its other words are then read
from the latch; a read changes nothing but the latch and the mark of an event record.
Writes of registers (R188, R189, R477, R514, R581, R582): without a path nothing changes; before the lock a core writes the protection
fields; a schedule or bound that breaks its rule is refused whole; a staging register takes its word, and while a command
runs only REJECTED is set; the sideband may not write set 0, nor, without a debug grant of scope bit 2, any word of the ECC test
and integrity block (R410). -/
def Obligations.RegistersReadAndWrite : Prop :=
  (∀ (who : Requester) (off : BitVec 24) (s : State),
     (mayRead s who = false → exec (.wideRead who off) s = .next s) ∧
     (regAt s (isSide who) (selsOf s who) off.toNat = none → off.toNat < 0x800000 → regRead s who off.toNat = (0, .malformed, s)) ∧
     (mayRead s who = true → Gives (.wideRead who off) s (fun t => SameBut [.mgmt, .events] s t)) ∧
     (∀ ws, mayRead s who = true → off.toNat % 4 = 0 → off.toNat < 0x800000 → regAt s (isSide who) (selsOf s who) off.toNat = some (off.toNat, ws) → 1 < ws.length →
       readLocked s who off.toNat = false →
       Gives (.wideRead who off) s (fun t => sget (0, []) t.mgmt.latch (latchOf who) = (off.toNat + 1, ws)) ∧ (regRead s who off.toNat).1 = ws.getD 0 0) ∧
     (∀ base ws old, off.toNat % 4 = 0 → off.toNat < 0x800000 → regAt s (isSide who) (selsOf s who) off.toNat = some (base, ws) → off.toNat ≠ base →
       readLocked s who off.toNat = false → sget (0, []) s.mgmt.latch (latchOf who) = (base + 1, old) → regRead s who off.toNat = (old.getD ((off.toNat - base) / 4) 0, .ok, s))) ∧
  (∀ (who : Requester) (v : BitVec 32) (s : State),
     (∀ off, mayWrite s who = false → exec (.registerWrite who off v) s = .next s) ∧
     (mayWrite s who = true → isCore who = true →
       (s.prot.locked = false → Gives (.registerWrite who 0x010030 v) s (fun t => t.prot = { s.prot with dbgpol := bf 0 2 v } ∧ SameBut [.prot, .mgmt] s t)) ∧
       (schedOk (bf 0 24 v) = true → Gives (.registerWrite who 0x080014 v) s (fun t => t.str.thermal.tsched = bf 0 24 v ∧ SameBut [.str, .mgmt] s t)) ∧
       (schedOk (bf 0 24 v) = false → Gives (.registerWrite who 0x080014 v) s (fun t => SameBut [.mgmt] s t)) ∧
       (s.update.set0.busy = false → Gives (.registerWrite who 0x040008 v) s (fun t => t.update.set0 = { s.update.set0 with addr := bf 0 24 v } ∧ SameBut [.update, .mgmt] s t)) ∧
       (s.update.set0.busy = true → ∀ off : BitVec 24, (off = 0x040000 ∨ off = 0x040008 ∨ off = 0x04000C) →
         Gives (.registerWrite who off v) s (fun t => t.update.set0 = { s.update.set0 with rejected := true } ∧ SameBut [.update, .mgmt] s t))) ∧
     (∀ off : BitVec 24, 0x040000 ≤ off.toNat → off.toNat < 0x040800 → isSide who = true → Gives (.registerWrite who off v) s (fun t => SameBut [.mgmt] s t)) ∧
     (∀ off : BitVec 24, 0x090000 ≤ off.toNat → off.toNat < 0x0A0000 → off.toNat % 4 = 0 → isSide who = true → etWriter s who = false →
       (regAt s true (selsOf s who) off.toNat).isSome = true → (regWrite s who off.toNat v).1 = .locked ∧ Gives (.registerWrite who off v) s (fun t => SameBut [.mgmt] s t)))

/-- After the lock a write to an RWL field leaves the field unchanged and completes LOCKED, whoever writes; the fields are the
ownership map, PLOCK, DBGPOL, KSMAP, and PROLE of a port whose domain is on (R15, R514). -/
def Obligations.LockedFieldsStay : Prop :=
  ∀ (who : Requester) (off : Nat) (v : BitVec 32) (s : State), s.prot.locked = true → off % 4 = 0 →
    ((0x010010 ≤ off ∧ off < 0x010028) ∨ off = 0x010030 ∨ (0x010100 ≤ off ∧ off < 0x010200) ∨
      (∃ p < 11, off = 0x020010 + 0x1000 * p ∧ (getPort s p).st ≠ pOFF)) →
    (regWrite s who off v).1 = .locked ∧ (regWrite s who off v).2.prot = s.prot ∧ SameBut [.mgmt] s (regWrite s who off v).2

/-- An offset that no block occupies reads as zero and ignores writes, both with MALFORMED (R17). -/
def Obligations.UnoccupiedOffsetsReadZero : Prop :=
  ∀ (who : Requester) (off : Nat) (v : Reg) (s : State), off < 0x800000 → regAt s (isSide who) (selsOf s who) off = none →
    regRead s who off = (0, .malformed, s) ∧ regWrite s who off v = (.malformed, s)

/-- Event queues (R285, R566 to R569, R580): a read of the head closes its record and marks it seen, a pop by who may pop takes it when its QSEQ is
named and nothing else does; LCLR clears the loss count; records of 10 ms close; EVT sends the oldest unsent record in a flit for
a credit, with PSN set and its COUNT lost where egress finds it uncorrectable (R285). -/
def Obligations.EventQueuesAct : Prop :=
  ∀ s : State, swf EvQueue.reset none s.events.queues = true →
    (∀ who (q : Fin 10) r rs, powered s = true → headReader s who = true → (getQueue s q.val).recs = r :: rs →
      Gives (.eqhead who q) s (fun t => getQueue t q.val = { getQueue s q.val with recs := { r with isOpen := false, seen := true } :: rs } ∧ SameBut [.events] s t)) ∧
    (∀ who (q : Fin 10) v r rs, powered s = true → mayPop s who q.val = true → (getQueue s q.val).recs = r :: rs →
      (r.qseq = v → Gives (.eqpop who q v) s (fun t => getQueue t q.val = { getQueue s q.val with recs := rs } ∧ SameBut [.events] s t)) ∧
      (r.qseq ≠ v → exec (.eqpop who q v) s = .next s)) ∧
    (∀ who (q : Fin 10) v, mayPop s who q.val = false → exec (.eqpop who q v) s = .next s) ∧
    (∀ who (q : Fin 10), powered s = true → mayTrigger s who true = true →
      Gives (.lclr who q) s (fun t => getQueue t q.val = { getQueue s q.val with lost := 0, first := 0 } ∧ SameBut [.events] s t)) ∧
    (∀ q : Fin 10, Gives (.recordClose q) s (fun t => SameBut [.events] s t ∧ (getQueue t q.val).recs.length = (getQueue s q.val).recs.length ∧
      ∀ r ∈ (getQueue t q.val).recs, r.seenAt + 10000000 ≤ now s → r.isOpen = false)) ∧
    (∀ (p : Fin 8) r, (getQueue s p.val).recs.find? (fun r => !r.sent) = some r → (getPort s p.val).st = pACTIVE → (getPort s p.val).ready = true →
      0 < (getHeld (getPort s p.val) cEVT).avail →
      ∀ bad, Gives (.evt ⟨p, bad⟩) s (fun t => (getPort t p.val).tx = (getPort s p.val).tx ++ [mkFlit (getPort s p.val) bad [packEvent p.val r]] ∧
        (getQueue t p.val).lost = (if bad then (getQueue s p.val).lost + BitVec.ofNat 64 r.count.toNat else (getQueue s p.val).lost) ∧ (getPort t p.val).evtSent = (getPort s p.val).evtSent + 1 ∧
        { r with sent := true, isOpen := false } ∈ (getQueue t p.val).recs ∧ SameBut [.ports, .events] s t)) ∧
    (∀ (p : Fin 8) bad, (getPort s p.val).ready = false → exec (.evt ⟨p, bad⟩) s = .next s)

/-- The share-window tick and the trace ring (R280, R300, R309, R325, R576 to R580): a tick takes up committed tables, paces credits anew, audits,
and latches a snapshot that was asked for; FREEZE sets and clears the freeze; TRCLR empties a frozen ring only.
The sideband target and the test access port (R508, R516): an endpoint identifier and a dynamic address are taken while the die has power; the
mandatory TAP instructions always run; an internal access runs only under a grant of its scope bit. -/
def Obligations.TicksTraceAndSideband : Prop :=
  (∀ s : State,
     (s.clock.running = true → Gives .stroke s (fun t => t.clock = { s.clock with strokes := s.clock.strokes + 1 } ∧ t.tally.audits = s.tally.audits + 1 ∧
       t.events.gpend = false ∧ (s.events.gpend = true → t.events.gtime = s.clock.time ∧ t.events.gseq = s.events.gseq + 1) ∧
       (∀ p < 8, (getPort s p).st ≠ pOFF → (getPort t p).credlim = BitVec.ofNat 11 (paceLimit (bandInForce s) t.power.vfact.toNat) ∧ (getPort t p).strokeRet = 0))) ∧
     (s.clock.running = false → exec .stroke s = .next s) ∧
     (∀ who, powered s = true → mayTrigger s who true = true →
       Gives (.gsnap who) s (fun t => t.events = { s.events with gpend := true } ∧ SameBut [.events] s t) ∧
       (∀ v, Gives (.freeze who v) s (fun t => t.events = { s.events with frozen := v } ∧ SameBut [.events] s t)) ∧
       (s.events.frozen = true → Gives (.trclr who) s (fun t => t.events = { s.events with ring := [] } ∧ SameBut [.events] s t)) ∧
       (s.events.frozen = false → exec (.trclr who) s = .next s)) ∧
     (∀ who v, mayTrigger s who true = false → exec (.freeze who v) s = .next s ∧ exec (.trclr who) s = .next s ∧ exec (.gsnap who) s = .next s)) ∧
  (∀ s : State, powered s = true →
     (∀ e, e ≠ 0 → e ≠ 0xFF → Gives (.mctpControl (.setEid e)) s (fun t => t.waitos.eid = e ∧ t.waitos.sbTx.length = s.waitos.sbTx.length + 1 ∧ SameBut [.waitos] s t)) ∧
     (∀ m, Gives (.mctpControl m) s (fun t => t.waitos.sbTx.length = s.waitos.sbTx.length + 1 ∧ SameBut [.waitos, .free] s t)) ∧
     (∀ b a, Gives (.dynamicAddress b a) s (fun t => t.waitos.dynAddr = a ∧ t.waitos.dynSet = true ∧ SameBut [.waitos] s t)) ∧
     Gives (.tapInstruction .bypass) s (fun t => t.waitos.tapIr = 0 ∧ SameBut [.waitos] s t) ∧
     (∀ v, Gives (.tapInstruction (.preload v)) s (fun t => t.waitos.tapIr = 2 ∧ t.waitos.tapDr = v ∧ SameBut [.waitos] s t)) ∧
     Gives (.tapInstruction .extest) s (fun t => t.waitos.tapIr = 3 ∧ t.waitos.tapDr = s.waitos.tapDr ∧ SameBut [.waitos] s t) ∧
     (∀ off, grantBit s 0 = true → Gives (.tapInstruction (.internalRead off)) s (fun t => t.waitos.tapIr = 4 ∧
       t.waitos.tapDr = (regRead s .jtag off.toNat).1.setWidth 64 ∧ SameBut [.waitos, .mgmt, .events] s t)) ∧
     (∀ off v, grantBit s 1 = true → exec (.tapInstruction (.internalWrite off v)) s = .next (setTap (regWrite s .jtag off.toNat v).2 5 (v.setWidth 64))) ∧
     (∀ off, grantBit s 0 = false → exec (.tapInstruction (.internalRead off)) s = .next s) ∧
     (∀ off v, grantBit s 1 = false → exec (.tapInstruction (.internalWrite off v)) s = .next s))

/-! ## The store -/

/-- Dies, bands and blocks of the store (R416 to R420, R436): a die that fails leaves its pair DEGRADED, or FAILED when it was the last; a band
ahead that holds nothing is conditioned; a bad block takes the lowest free spare of its die, its live page being written again at the write pointer; a ring block is conditioned
once a superblock written in the one before has been read back valid, and none of its own is newer.
The rolling checkpoint (R430 to R434, R452, R495): a generation begins at the JSN after the applied mark; one higher than the last that began; each segment is copied in turn and
listed with its pages, the last with the structure; with all written and the directory behind them, a superblock names it as the newest, the journal bytes behind it are taken off, and
INIT_DONE is blown; with every management core lost none begins or goes on (R42). -/
def Obligations.StoreAndCheckpoints : Prop :=
  (∀ s : State,
     (∀ die : Fin 16, die.val / 2 < nPairs s → bit die.val s.store.die = true →
       (bit (die.val ^^^ 1) s.store.die = true → Gives (.storeDieFail die) s (fun t => bit die.val t.store.die = false ∧ bit (die.val / 2) t.store.degraded = true ∧
         t.store.failed = s.store.failed ∧ SameBut [.store, .events, .mgmt, .free] s t)) ∧
       (bit (die.val ^^^ 1) s.store.die = false → Gives (.storeDieFail die) s (fun t => bit die.val t.store.die = false ∧ bit (die.val / 2) t.store.failed = true ∧
         bit (die.val / 2) t.store.degraded = false ∧ storeDown t = true ∧ SameBut [.store, .events, .mgmt, .free] s t))) ∧
     (∀ k, 8 ≤ k → k ≤ 32255 → k ≠ s.store.band → s.store.conditioned.contains k = false → bandLive s k = false → storeDown s = false →
       Gives (.bandCondition k) s (fun t => t.store.conditioned = s.store.conditioned ++ [k] ∧ SameBut [.store] s t)) ∧
     (∀ k, bandLive s k = true → exec (.bandCondition k) s = .next s) ∧
     (∀ (die : Fin 16) block, die.val < 2 * nPairs s → block < 32768 → s.store.remap.any (fun r => decide (r.1 = die.val ∧ r.2.1 = block)) = false →
       (∀ b, freeSpare s die.val = some b → Gives (.storeBlockRetire die block) s (fun t => t.store.remap = s.store.remap ++ [(die.val, block, b)] ∧
         t.store.pages.length = s.store.pages.length ∧ (blockPages s die.val block = [] → t.store.pages = s.store.pages ∧ t.store.ckpt = s.store.ckpt ∧ t.store.run = s.store.run) ∧
         (∀ n s1, blockPages s die.val block = [n] → advance s 1 = some s1 → ∀ p ∈ s.store.pages, p.num = n →
           ({ p with num := s.store.nextPage, band := s.store.band, unit := s.store.unit } : JPage) ∈ t.store.pages) ∧ SameBut [.store, .mgmt] s t)) ∧
       (freeSpare s die.val = none → ∃ s1, exec (.storeBlockRetire die block) s = .next (event s1 [qFW, qSB] 0xE003 die.val 2) ∧ SameBut [.store, .mgmt] s s1)) ∧
     (∀ (p : Fin 8) k, k = (sget 0 s.store.ringPos p.val / 256 + 1) % 8 →
       (p.val < nPairs s → bit p.val s.store.failed = false → ringFree s p.val k true = true → sget false s.store.ringCond (p.val * 8 + k) = false →
         Gives (.superblockRingCondition ⟨p, true⟩) s (fun t => sget false t.store.ringCond (p.val * 8 + k) = true ∧
           (swf [] none s.store.rings = true → ringBlock t p.val k = []) ∧ SameBut [.store] s t)) ∧
       exec (.superblockRingCondition ⟨p, false⟩) s = .next s ∧
       (ringFree s p.val k true = false → exec (.superblockRingCondition ⟨p, true⟩) s = .next s))) ∧
  (∀ s : State,
     (s.boot.phase = .ready → s.holdup.ph = 0 →
       (s.store.run = none → s.waitos.cores ≠ 0 → Gives .checkpointBegin s (fun t => t.store.seg = 0 ∧ SameBut [.store] s t ∧
         ∃ c, t.store.run = some c ∧ c.gen = s.store.lastGen + 1 ∧ t.store.lastGen = c.gen ∧ c.rfjsn = amark s + 1 ∧ c.rows = [] ∧ c.words = [] ∧ c.segs = [])) ∧
       (s.store.run.isSome = true ∨ s.waitos.cores = 0 → exec .checkpointBegin s = .next s) ∧
       (∀ who, mayTrigger s who false = true → Gives (.cknow who) s (fun t => t.store.seg = 0 ∧ SameBut [.store] s t ∧ ∃ c, t.store.run = some c ∧ c.gen = s.store.lastGen + 1 ∧ t.store.lastGen = c.gen ∧ c.rfjsn = amark s + 1))) ∧
     (∀ c n, s.store.run = some c → segAfter s s.store.seg = some n → s.holdup.ph = 0 → storeDown s = false → s.waitos.cores ≠ 0 →
       (∀ e, (segWords s n).find? (fun e => unstorable s e.1) = some e → exec .checkpointSegment s = .next (touchQ s e.1)) ∧
       (∀ s1 ps, (segWords s n).find? (fun e => unstorable s e.1) = none → placePages s (segSpans s n) = some (s1, ps) →
       Gives .checkpointSegment s (fun t => t.store.seg = n + 1 ∧ SameBut [.sram, .store, .integ, .events, .mgmt, .free] s t ∧ ∃ d, t.store.run = some d ∧ d.gen = c.gen ∧ d.rfjsn = c.rfjsn ∧
         d.segs = c.segs ++ [segOf s n ps] ∧ ps.length = (segSpans s n).length ∧
         (n = segStruct → d.hasStruct = true ∧ d.dir = s.marker.dirA ∧ d.list = s.marker.list ∧ d.wact = s.str.wact ∧ d.site = s.tcam.site ∧
           d.inhand = s.life.inhand ∧ d.image = bootHeader s)))) ∧
     (∀ c s1 ps d s2, s.store.run = some c → segAfter s s.store.seg = none → s.holdup.ph = 0 → storeDown s = false → s.waitos.cores ≠ 0 →
       placePages s (List.replicate ((32 * c.segs.length + 4095) / 4096) []) = some (s1, ps) → d = { c with segs := c.segs ++ [dirSeg c ps] } →
       writeSuper (ckptDone s1 d) none = some s2 →
       Gives .checkpointComplete s (fun t => t.store.ckpt = some d ∧ t.store.run = none ∧ t.store.sbgen = s.store.sbgen + 1 ∧ t.fuses.initDone = true ∧
         t.journal.since = s.journal.since - c.sinceMark ∧ SameBut [.store, .journal, .fuses, .mgmt] s t)) ∧
     (s.waitos.cores = 0 → exec .checkpointSegment s = .next s ∧ exec .checkpointComplete s = .next s) ∧
     (∀ sj t, writeSuper s sj = some t → t.store.sbgen = s.store.sbgen + 1 ∧ SameBut [.store] s t ∧
       ∃ b l, sget [] t.store.rings (t.store.sbgen.toNat % nPairs s) = b :: l ∧ b.sbgen = t.store.sbgen ∧ b.saved = sj.isSome ∧ b.sealJsn = sj.getD 0 ∧
         b.ckgen = (s.store.ckpt.map (·.gen)).getD 0 ∧ b.rfjsn = (s.store.ckpt.map (·.rfjsn)).getD 1 ∧ b.ckdir = ckdirOf s.store.ckpt ∧ b.jloc = jlocOf s b.rfjsn ∧
         b.pairs = nPairs s ∧ b.remap = remapKept s ∧ b.dtime = s.clock.time))

/-- The journal (R31, R32, R428, R447): a commit takes the next JSN and its records enter behind all others; a TIME record takes none, and stays out of a sealed or full buffer; the open
page frame closes, at once when it is full; the oldest closed frame is written as the next page of the store, and waits while a pair is FAILED. -/
def Obligations.JournalKeepsCommitOrder : Prop :=
  ∀ s : State,
    (∀ rs applied, (jCommit s rs applied).1 = s.journal.last + 1 ∧ (jCommit s rs applied).2.journal.last = s.journal.last + 1 ∧
      (jCommit s rs applied).2.journal.frames.flatMap (fun f => f.recs) = s.journal.frames.flatMap (fun f => f.recs) ++ groupOf (s.journal.last + 1) rs ∧
      SameBut [.journal, .mgmt] s (jCommit s rs applied).2) ∧
    (s.boot.phase = .ready → jRoom s (.time s.clock.time) = true → Gives .timeRecord s (fun t => t.journal.last = s.journal.last ∧
      t.journal.frames.flatMap (fun f => f.recs) = s.journal.frames.flatMap (fun f => f.recs) ++ [⟨s.journal.last, false, .time s.clock.time⟩] ∧ SameBut [.journal] s t)) ∧
    (s.boot.phase ≠ .ready ∨ jRoom s (.time s.clock.time) = false → exec .timeRecord s = .next s) ∧
    (∀ (f : Frame) (e : JEntry), f.takes e = true → f.used + recUnits e.body = 256 → (f.push e).closed = true) ∧
    Gives .pageFrameClose s (fun t => t.journal.frames.map (fun f => f.recs) = s.journal.frames.map (fun f => f.recs) ∧
      (∀ f ∈ t.journal.frames, f.recs ≠ [] → f.closed = true) ∧ SameBut [.journal] s t) ∧
    (∀ f s1, s.journal.frames.find? (fun f => f.closed && !f.drained) = some f → storeDown s = false → bit 11 s.power.dom = true → advance s 1 = some s1 →
      Gives .journalDrain s (fun t => t.store.pages = s.store.pages ++ [({ num := s.store.nextPage, band := s.store.band, unit := s.store.unit, recs := f.recs } : JPage)] ∧
        t.store.nextPage = s.store.nextPage + 1 ∧ SameBut [.store, .journal, .mgmt] s t)) ∧
    (storeDown s = true → exec .journalDrain s = .next s)

/-! ## Ports -/

/-- Flits and credits (R259, R263, R274 to R281, R285): nothing is taken on a link that is down; a flit of another format is counted; a search in
a flit spends a credit and waits in ingress; one marked corrupt, or found uncorrectable in the ingress buffer, is discarded and its credit freed; a CRED entry raises what the other side has granted; freed credits are returned. -/
def Obligations.FlitsAndCredits : Prop :=
  ∀ (p : Fin 11) (s : State),
    (linkUp (getPort s p.val) = false → (∀ f ecc, exec (.flit p ⟨f, ecc⟩) s = .next s) ∧ exec (.creditReturn p) s = .next s ∧ exec (.flitCrcError p) s = .next s) ∧
    (linkUp (getPort s p.val) = true → exec (.flitCrcError p) s = .next (countPort s p.val 9 1)) ∧
    (∀ (f : BitVec 2048) ecc, linkUp (getPort s p.val) = true → bn 0 4 f ≠ 1 → exec (.flit p ⟨f, ecc⟩) s = .next (badSlot s p.val)) ∧
    (∀ (f : BitVec 2048) (ecc : BitVec 8), linkUp (getPort s p.val) = true → p.val < 8 → (getPort s p.val).ready = true → s.tally.admstop = false → bn 0 4 f = 1 →
      (entriesAt (bf 0 256 f) 32 6).all (fun e => e.1 == 0) = true → bf 8 8 f = 2 → slotClass (bf 256 256 f) = cSRCH →
      0 < (getGrant (getPort s p.val) cSRCH).avail →
      ((bit 17 f || bit 1 ecc) = true → Gives (.flit p ⟨f, ecc⟩) s (fun t => (getPort t p.val).ingress = (getPort s p.val).ingress ∧
        (getGrant (getPort t p.val) cSRCH).avail = (getGrant (getPort s p.val) cSRCH).avail - 1 ∧
        (getGrant (getPort t p.val) cSRCH).queued = (getGrant (getPort s p.val) cSRCH).queued ∧
        (getGrant (getPort t p.val) cSRCH).freed = (getGrant (getPort s p.val) cSRCH).freed + 1 ∧ SameBut [.ports, .events, .mgmt, .free] s t)) ∧
      ((bit 17 f || bit 1 ecc) = false → Gives (.flit p ⟨f, ecc⟩) s (fun t => sget [] (getPort t p.val).ingress cSRCH = sget [] (getPort s p.val).ingress cSRCH ++ [bf 256 256 f] ∧
        (getGrant (getPort t p.val) cSRCH).avail = (getGrant (getPort s p.val) cSRCH).avail - 1 ∧
        (getGrant (getPort t p.val) cSRCH).queued = (getGrant (getPort s p.val) cSRCH).queued + 1 ∧ SameBut [.ports] s t))) ∧
    (∀ x, p.val < 8 → swf Port.reset none s.ports = true → ingressHead s p.val cCRED = some x → bn 8 4 x = 1 → bn 16 4 x ≠ 0 → bn 16 4 x ≠ cEVT →
      0 < (bf 24 16 x - (getHeld (getPort s p.val) (bn 16 4 x)).a).toNat → (bf 24 16 x - (getHeld (getPort s p.val) (bn 16 4 x)).a).toNat < 32768 →
      Gives (.cred p) s (fun t => (getHeld (getPort t p.val) (bn 16 4 x)).a = bf 24 16 x ∧
        (getHeld (getPort t p.val) (bn 16 4 x)).total = (getHeld (getPort s p.val) (bn 16 4 x)).total + (bf 24 16 x - (getHeld (getPort s p.val) (bn 16 4 x)).a).toNat)) ∧
    (∀ c n, linkUp (getPort s p.val) = true → swf Grant.reset none (getPort s p.val).grants = true → n = mayReturn s p.val c (getPort s p.val) →
      (c ≠ 1 ∨ 8 ≤ p.val ∨ admitting s = true) →
      Gives (.creditReturn p) s (fun t => (getGrant (getPort t p.val) c).freed = (getGrant (getPort s p.val) c).freed - n ∧
        (getGrant (getPort t p.val) c).avail = (getGrant (getPort s p.val) c).avail + n ∧
        (getGrant (getPort t p.val) c).cum = (getGrant (getPort s p.val) c).cum + BitVec.ofNat 16 n ∧ SameBut [.ports, .power] s t))

/-- Bring-up and retraining (R257, R285 to R289): a trained link sends HELLO and grants its first credits; a training that fails tries the next lower
rate, and at the lowest leaves the port DOWN until it tries again; without PHYREF no port trains (R612); an accepted HELLO makes the port ACTIVE, a bad one DOWN, one on an ACTIVE port resets it;
a link that retrains goes on where it was, and the other dies of the crew hear of it (R358).
Port resets (R292, R293, R510): whatever starts one, the port is renewed; a port whose domain is off has nothing to reset. -/
def Obligations.BringUpAndResets : Prop :=
  (∀ (p : Fin 11) (s : State),
     (s.pins.phyref = false → ∀ rate tx rx, exec (.linkTrained p rate tx rx) s = .next s) ∧
     ((getPort s p.val).st = pTRAINING →
       (∀ rate tx rx, s.pins.phyref = true → rate ≤ (getPort s p.val).trying → (lanesOk tx && lanesOk rx) = true →
         Gives (.linkTrained p rate tx rx) s (fun t => (getPort t p.val).st = pHELLO ∧ (getPort t p.val).rate = rate ∧
           (getPort t p.val).txRed = redOf tx ∧ (getPort t p.val).rxRed = redOf rx ∧
           helloNote s p.val ∈ (getPort t p.val).tx.flatten ∧ (getGrant (getPort t p.val) cNOTE).avail = (if p.val < 8 then 4 else 8) ∧ SameBut [.ports, .mgmt] s t)) ∧
       (∀ rate tx rx, s.pins.phyref = true → rate ≤ (getPort s p.val).trying → (lanesOk tx && lanesOk rx) = false → (getPort s p.val).trying ≠ 0 →
         Gives (.linkTrained p rate tx rx) s (fun t => (getPort t p.val).st = pTRAINING ∧ (getPort t p.val).trying = (getPort s p.val).trying - 1 ∧ SameBut [.ports] s t)) ∧
       ((getPort s p.val).trying ≠ 0 → Gives (.trainingFailure p) s (fun t => (getPort t p.val).st = pTRAINING ∧
         (getPort t p.val).trying = (getPort s p.val).trying - 1 ∧ SameBut [.ports] s t)) ∧
       ((getPort s p.val).trying = 0 → ∃ s1, exec (.trainingFailure p) s = .next (event s1 [qFW, qSB] 0x1003 p.val 0) ∧ (getPort s1 p.val).st = pDOWN ∧ SameBut [.ports] s s1)) ∧
     ((getPort s p.val).st = pDOWN → s.holdup.ph ≠ 5 → Gives (.trainingRetry p) s (fun t => (getPort t p.val).st = pTRAINING ∧
       (getPort t p.val).trying = maxRate s p.val ∧ SameBut [.ports] s t)) ∧
     (∀ x, ingressHead s p.val cHELLO = some x →
       ((getPort s p.val).st = pHELLO → helloOk s p.val x = true → Gives (.hello p) s (fun t => (getPort t p.val).st = pACTIVE ∧ (getPort t p.val).hello = true)) ∧
       ((getPort s p.val).st = pHELLO → helloOk s p.val x = false → Gives (.hello p) s (fun t => (getPort t p.val).st = pDOWN ∧ SameBut [.ports, .events, .free] s t)) ∧
       ((getPort s p.val).st = pACTIVE ∨ ((getPort s p.val).st = pRETRAIN ∧ (getPort s p.val).hello = true) →
         exec (.hello p) s = .next (portReset (takeHead s p.val cHELLO) p.val 7 0)) ∧
       ((getPort s p.val).st = pRETRAIN → (getPort s p.val).hello = false → exec (.hello p) s = .next s)) ∧
     (linkUp (getPort s p.val) = true →
       Gives (.retrain p) s (fun t => (getPort t p.val).st = pRETRAIN ∧ (getPort t p.val).hello = (getPort s p.val).hello ∧ SameBut [.ports, .mgmt] s t) ∧
       (8 ≤ p.val → (getPort s p.val).st = pACTIVE → Gives (.retrain p) s (fun t => ∀ q, q = 8 ∨ q = 9 ∨ q = 10 → q ≠ p.val → portActive s q = true →
         note 0x14 [(64, linksMask t)] ∈ (getPort t q).tx.flatten ++ (getPort t q).egress))) ∧
     ((getPort s p.val).st = pRETRAIN →
       (∀ rate tx rx, s.pins.phyref = true → rate < 3 → (lanesOk tx && lanesOk rx) = true → Gives (.linkTrained p rate tx rx) s (fun t =>
         (getPort t p.val).st = (if (getPort s p.val).hello then pACTIVE else pHELLO) ∧ (getPort t p.val).rate = rate)) ∧
       exec (.retrainLimit p) s = .next (portReset s p.val 3 0)) ∧
     ((getPort s p.val).st ≠ pRETRAIN → exec (.retrainLimit p) s = .next s)) ∧
  (∀ (p : Fin 11) (s : State),
     ((getPort s p.val).st ≠ pOFF → s.holdup.ph ≠ 5 →
       Gives (.linkReset p) s (fun t => PortRenewed s t p.val) ∧
       (∀ who, mayTrigger s who true = true → Gives (.preset who p) s (fun t => PortRenewed s t p.val)) ∧
       ((getPort s p.val).st = pRETRAIN → Gives (.retrainLimit p) s (fun t => PortRenewed s t p.val))) ∧
     ((getPort s p.val).st = pOFF → exec (.linkReset p) s = .next s ∧ (∀ who, exec (.preset who p) s = .next s)) ∧
     (∀ who, mayTrigger s who true = false → exec (.preset who p) s = .next s) ∧
     (∀ (q : Fin 8) x, ingressHead s q.val cNOTE = some x → bn 8 8 x = 5 → (getPort s q.val).st ≠ pOFF → s.holdup.ph ≠ 5 →
       Gives (.resetReq q) s (fun t => PortRenewed s t q.val)))

/-- Rolling calibration (R289 to R291, R535): a lane is shifted on one port at a time, onto the lowest free redundant lane of its group of
32, with LANE_SHIFT; a group that has none is skipped, and counted once in a pass; agreed, the lane is calibrated and LANE_RETURN
goes out, whose acknowledgement ends it, or it stays on the redundant lane where its margin is short; a message that is not
acknowledged leaves the lane where it is. The lanes of a LANE_CAL run
before the routine pass, in their order, and no other lane (R535). The order of lanes of a pass, and what begins one, are the model's (log entry 113). -/
def Obligations.LanesCalibrateInTurn : Prop :=
  ∀ (p : Fin 11) (s : State), swf Port.reset none s.ports = true →
    (∀ (lane : Fin 64) rx, (getPort s p.val).st = pACTIVE → (getPort s p.val).calen = true → s.ports.any (fun e => e.2.cal.isSome) = false →
      (laneTurn s p.val (64 * b2n rx + lane.val) = false → exec (.laneShift p lane rx) s = .next s) ∧
      (∀ h x rest, laneOp s = some (h, x) → x.obj = (4, p.val) → x.data = (64 * b2n rx + lane.val) :: rest → ∀ q, freeRed (getPort s p.val) rx (lane.val / 32) = some q →
        Gives (.laneShift p lane rx) s (fun t => (∃ y, getOp t h = some y ∧ y.data = rest ∧ y.progress = x.progress) ∧ (getPort t p.val).pass = (getPort s p.val).pass)) ∧
      (∀ q, laneTurn s p.val (64 * b2n rx + lane.val) = true → freeRed (getPort s p.val) rx (lane.val / 32) = some q →
        Gives (.laneShift p lane rx) s (fun t => (getPort t p.val).cal = some ⟨lane.val, rx, q, 0, now s⟩ ∧ SameBut [.ports, .waitos] s t ∧ (laneOp s = none → t.waitos = s.waitos) ∧
          ∃ m, (getPort t p.val).lmsg = (getPort s p.val).lmsg ++ [m] ∧ m.back = false ∧ m.lane = lane.val ∧ m.rx = rx ∧ m.red = q ∧
            (getPort s p.val).tx.length + 256 ≤ m.flit)) ∧
      (∀ y, laneTurn s p.val (64 * b2n rx + lane.val) = true → freeRed (getPort s p.val) rx (lane.val / 32) = none →
        y = (if (laneOp s).isSome then getPort s p.val else passTo (getPort s p.val) (64 * b2n rx + lane.val)) →
        Gives (.laneShift p lane rx) s (fun t => (getPort t p.val).cal = none ∧ redSet (getPort t p.val) rx = redSet (getPort s p.val) rx ∧
          SameBut [.ports, .waitos, .mgmt] s t ∧
          t.mgmt = (if bit (groupBit rx (lane.val / 32)) y.skipped = true then s.mgmt
            else (countPort s p.val 13 1).mgmt)))) ∧
    (∀ lane rx, s.ports.any (fun e => e.2.cal.isSome) = true → exec (.laneShift p lane rx) s = .next s) ∧
    (∀ c, (getPort s p.val).cal = some c →
      (c.ph = 0 → Gives (.laneShiftAck p) s (fun t => (getPort t p.val).cal = some { c with ph := 1 } ∧ SameBut [.ports] s t) ∧
        Gives (.laneCalTimeout p) s (fun t => (getPort t p.val).cal = none ∧ redSet (getPort t p.val) c.rx = redSet (getPort s p.val) c.rx ∧ SameBut [.ports] s t)) ∧
      (c.ph = 2 → Gives (.laneShiftAck p) s (fun t => (getPort t p.val).cal = none ∧ redSet (getPort t p.val) c.rx = redSet (getPort s p.val) c.rx ∧
          t.mgmt = (countPort s p.val 12 1).mgmt ∧ SameBut [.ports, .waitos, .mgmt] s t) ∧
        Gives (.laneCalTimeout p) s (fun t => (getPort t p.val).cal = none ∧
          redSet (getPort t p.val) c.rx = redSet (getPort s p.val) c.rx ||| (1 <<< (2 * (c.lane / 32) + c.red)) ∧ SameBut [.ports] s t)) ∧
      (c.ph = 1 → exec (.laneShiftAck p) s = .next s ∧ exec (.laneCalTimeout p) s = .next s ∧ ∀ margin : BitVec 8,
        ((bf 8 8 (sget 0 s.str.portPol p.val)).toNat ≤ margin.toNat → Gives (.laneCalibrated p margin) s (fun t =>
          (getPort t p.val).cal = some { c with ph := 2 } ∧ SameBut [.ports] s t ∧
          ∃ m, (getPort t p.val).lmsg = (getPort s p.val).lmsg ++ [m] ∧ m.back = true ∧ m.lane = c.lane ∧ m.rx = c.rx ∧ m.red = c.red)) ∧
        (margin.toNat < (bf 8 8 (sget 0 s.str.portPol p.val)).toNat → Gives (.laneCalibrated p margin) s (fun t => (getPort t p.val).cal = none ∧
          redSet (getPort t p.val) c.rx = redSet (getPort s p.val) c.rx ||| (1 <<< (2 * (c.lane / 32) + c.red)) ∧
          redSet (getPort t p.val) (!c.rx) = redSet (getPort s p.val) (!c.rx)))))

/-! ## Layouts -/

/-- What is written in bytes reads back as it was written (R417, R424, R425, R434, R435, R516): the packets of a sideband message, each of at most
64 B, give the message; a superblock's page holds its MAGIC and its CRC; a record fills the units of its size with the low bits of its JSN in
bytes 2 and 3, from which BASE gives the whole JSN within 65,536; a store location gives pair, block and offset. -/
def Obligations.WordsReadBackAsWritten : Prop :=
  (∀ bs : List Byte, sbAssemble (sbPackets bs) = some bs ∧ sbMessage (sbPackets (sbHead ++ bs)) = some bs ∧ ∀ x ∈ sbPackets bs, x.data.length ≤ 64) ∧
  (∀ b : Superblock, b.bytes.length = 4096 ∧ superReads b.bytes = true) ∧
  (∀ e : JEntry, (recBytes e).length = 16 * recUnits e.body ∧ ofBytes 16 (slice (recBytes e) 2 2) = bf 0 16 e.jsn) ∧
  (∀ base j : Word, (j - base).toNat < 65536 → jsnFull base (bf 0 16 j) = j) ∧
  (∀ n band unit page, 0 < n → band < 2 ^ 15 → unit < 2 ^ 7 → page < 2 ^ 4 →
    slocPlace n (slocOf band unit page) = (unit % n, band, unit / n * 65536 + page * 4096))
end

