-- ==== Sys2Proof/Laws/Mem.lean ====
section
/-! SUPPORT. Laws of the sparse stores (Machine/Mem.lean): a read after a write, writes keep the canonical form, and two stores in canonical
form that read alike are the same data. -/

namespace Sys2Proof.Machine

open Sys2Proof

variable {α : Type}

@[simp] theorem sget_nil (d : α) (i : Nat) : sget d [] i = d := rfl

theorem sget_cons (d : α) (e : Nat × α) (m : Sparse α) (i : Nat) : sget d (e :: m) i = if i = e.1 then e.2 else sget d m i := rfl

variable [DecidableEq α]

@[simp] theorem swf_nil (d : α) (lo : Option Nat) : swf d lo [] = true := rfl

/-- The canonical form of a listed entry: its key is above the bound, it differs from what an unlisted key holds, and what
follows it lies above it. -/
theorem swf_cons {d : α} {lo : Option Nat} {k : Nat} {v : α} {m : Sparse α} :
    swf d lo ((k, v) :: m) = true ↔ (∀ l, lo = some l → l < k) ∧ v ≠ d ∧ swf d (some k) m = true := by
  cases lo <;> simp [swf, and_assoc]

/-- A lower bound may be lowered. -/
theorem swf_lower {d : α} {m : Sparse α} {k : Nat} (h : swf d (some k) m = true) (lo : Option Nat) (hl : ∀ l, lo = some l → l ≤ k) :
    swf d lo m = true := by
  cases m with
  | nil => rfl
  | cons e m =>
    obtain ⟨h1, h2, h3⟩ := swf_cons.mp h
    exact swf_cons.mpr ⟨fun l hlo => Nat.lt_of_le_of_lt (hl l hlo) (h1 k rfl), h2, h3⟩

/-- A key below every listed key reads as an unlisted one. -/
theorem sget_below {d : α} {m : Sparse α} {k i : Nat} (h : swf d (some k) m = true) (hi : i ≤ k) : sget d m i = d := by
  induction m generalizing k with
  | nil => rfl
  | cons e m ih =>
    obtain ⟨h1, -, h3⟩ := swf_cons.mp h
    have hk := h1 k rfl
    rw [sget_cons, if_neg (by omega)]
    exact ih h3 (by omega)

/-- A write keeps the canonical form. -/
theorem swf_sput {d : α} {m : Sparse α} {lo : Option Nat} (h : swf d lo m = true) (i : Nat) (v : α) (hi : ∀ l, lo = some l → l < i) :
    swf d lo (sput d m i v) = true := by
  induction m generalizing lo with
  | nil =>
    rw [sput]
    split
    · rfl
    · exact swf_cons.mpr ⟨hi, ‹_›, rfl⟩
  | cons e m ih =>
    obtain ⟨h1, h2, h3⟩ := swf_cons.mp h
    rw [sput]
    split
    · split
      · exact h
      · exact swf_cons.mpr ⟨hi, ‹_›, swf_cons.mpr ⟨fun l hl => by cases hl; assumption, h2, h3⟩⟩
    · split
      · split
        · exact swf_lower h3 lo (fun l hl => Nat.le_of_lt (h1 l hl))
        · subst i
          exact swf_cons.mpr ⟨h1, ‹_›, h3⟩
      · exact swf_cons.mpr ⟨h1, h2, ih h3 (fun l hl => by cases hl; omega)⟩

/-- The key written reads as what was written, every other key as before. -/
theorem sget_sput {d : α} {m : Sparse α} {lo : Option Nat} (h : swf d lo m = true) (i : Nat) (v : α) (j : Nat) :
    sget d (sput d m i v) j = if j = i then v else sget d m j := by
  induction m generalizing lo with
  | nil => by_cases hv : v = d <;> simp [sput, hv, sget_cons]
  | cons e m ih =>
    obtain ⟨k, w⟩ := e
    obtain ⟨-, h2, h3⟩ := swf_cons.mp h
    have low : ∀ x, x ≤ k → sget d m x = d := fun x hx => sget_below h3 hx
    rw [sput]
    by_cases hik : i < k
    · by_cases hv : v = d
      · have := low i (by omega)
        by_cases hj : j = i <;> simp_all [sget_cons]
        omega
      · simp [hik, hv, sget_cons]
    · by_cases he : i = k
      · have := low k (le_refl k)
        by_cases hv : v = d <;> by_cases hj : j = k <;> simp_all [sget_cons]
      · rw [if_neg hik, if_neg he, sget_cons, sget_cons, ih h3]
        by_cases hj : j = k <;> simp [hj]
        intro hki
        omega

theorem swf_smod {d : α} {m : Sparse α} (h : swf d none m = true) (i : Nat) (f : α → α) : swf d none (smod d m i f) = true :=
  swf_sput h i _ (fun _ hl => nomatch hl)

theorem sget_smod {d : α} {m : Sparse α} {lo : Option Nat} (h : swf d lo m = true) (i : Nat) (f : α → α) (j : Nat) :
    sget d (smod d m i f) j = if j = i then f (sget d m i) else sget d m j := sget_sput h i _ j

/-- Taking keys off keeps the canonical form. -/
theorem swf_sdrop {d : α} {m : Sparse α} {lo : Option Nat} (h : swf d lo m = true) (p : Nat → Bool) : swf d lo (sdrop m p) = true := by
  induction m generalizing lo with
  | nil => rfl
  | cons e m ih =>
    obtain ⟨h1, h2, h3⟩ := swf_cons.mp h
    have := ih h3
    rw [sdrop] at this ⊢
    by_cases hp : p e.1 = true
    · simpa [hp] using swf_lower this lo (fun l hl => Nat.le_of_lt (h1 l hl))
    · simpa [hp] using swf_cons.mpr ⟨h1, h2, this⟩

/-- Two stores in canonical form that read alike at every key are the same data. -/
theorem sparse_ext {d : α} {m n : Sparse α} {lo : Option Nat} (hm : swf d lo m = true) (hn : swf d lo n = true)
    (h : ∀ i, sget d m i = sget d n i) : m = n := by
  induction m generalizing n lo with
  | nil =>
    cases n with
    | nil => rfl
    | cons e n =>
      have := h e.1
      obtain ⟨-, h2, -⟩ := swf_cons.mp hn
      simp [sget_cons] at this
      exact absurd this.symm h2
  | cons e m ih =>
    obtain ⟨k, v⟩ := e
    obtain ⟨a1, a2, a3⟩ := swf_cons.mp hm
    cases n with
    | nil =>
      have := h k
      simp [sget_cons] at this
      exact absurd this a2
    | cons f n =>
      obtain ⟨l, w⟩ := f
      obtain ⟨b1, b2, b3⟩ := swf_cons.mp hn
      have hkl : k = l := by
        rcases Nat.lt_trichotomy k l with hlt | heq | hgt
        · have := h k
          simp only [sget_cons, if_true, if_neg (Nat.ne_of_lt hlt), sget_below b3 (Nat.le_of_lt hlt)] at this
          exact absurd this a2
        · exact heq
        · have := h l
          simp only [sget_cons, if_true, if_neg (Nat.ne_of_lt hgt), sget_below a3 (Nat.le_of_lt hgt)] at this
          exact absurd this.symm b2
      subst hkl
      have hv : v = w := by simpa [sget_cons] using h k
      subst hv
      refine congrArg _ (ih a3 b3 (fun i => ?_))
      by_cases hi : i = k
      · subst hi
        rw [sget_below a3 (le_refl _), sget_below b3 (le_refl _)]
      · simpa [sget_cons, hi] using h i

end Sys2Proof.Machine
end

