-- ==== Sys2Proof/Laws/State.lean ====
section
/-! SUPPORT. Frames: how SameBut composes, one lemma for each part, and one for each way a record update changes it. -/

namespace Sys2Proof.Machine

open Sys2Proof

theorem SameBut.refl (ps : List Part) (s : State) : SameBut ps s s :=
  ⟨fun p _ => by cases p <;> rfl⟩

theorem SameBut.trans {ps : List Part} {s t u : State} (h : SameBut ps s t) (k : SameBut ps t u) : SameBut ps s u :=
  ⟨fun p hp => by
    have a := h.same p hp
    have b := k.same p hp
    cases p <;> exact b.trans a⟩

theorem SameBut.mono {ps qs : List Part} {s t : State} (h : SameBut ps s t) (hq : ps ⊆ qs) : SameBut qs s t :=
  ⟨fun p hp => h.same p (fun hm => hp (hq hm))⟩

/-- A last step whose frame is smaller. -/
theorem SameBut.step {ps qs : List Part} {s t u : State} (k : SameBut qs t u) (hq : qs ⊆ ps) (h : SameBut ps s t) :
    SameBut ps s u := h.trans (k.mono hq)

theorem SameBut.of_snd {α : Type} {ps : List Part} {s t : State} {a : α} {x : α × State} (h : x = (a, t)) (k : SameBut ps s x.2) :
    SameBut ps s t := by
  subst h
  exact k

theorem SameBut.of_fst {α : Type} {ps : List Part} {s t : State} {a : α} {x : State × α} (h : x = (t, a)) (k : SameBut ps s x.1) :
    SameBut ps s t := by
  subst h
  exact k

theorem SameBut.foldl {α : Type} {ps : List Part} {g : State → α → State} (h : ∀ s a, SameBut ps s (g s a)) (l : List α)
    (s : State) : SameBut ps s (l.foldl g s) := by
  induction l generalizing s with
  | nil => exact SameBut.refl ps s
  | cons a l ih => exact (h s a).trans (ih (g s a))

theorem SameBut.iter {ps : List Part} {g : State → State} (h : ∀ s, SameBut ps s (g s)) (k : Nat) (s : State) :
    SameBut ps s (iter k g s) := by
  induction k generalizing s with
  | zero => exact SameBut.refl ps s
  | succ k ih => exact (h s).trans (ih (g s))

theorem SameBut.pins {ps : List Part} {s t : State} (h : SameBut ps s t) (hp : Part.pins ∉ ps := by decide) : t.pins = s.pins := h.same .pins hp
theorem SameBut.clock {ps : List Part} {s t : State} (h : SameBut ps s t) (hp : Part.clock ∉ ps := by decide) : t.clock = s.clock := h.same .clock hp
theorem SameBut.power {ps : List Part} {s t : State} (h : SameBut ps s t) (hp : Part.power ∉ ps := by decide) : t.power = s.power := h.same .power hp
theorem SameBut.boot {ps : List Part} {s t : State} (h : SameBut ps s t) (hp : Part.boot ∉ ps := by decide) : t.boot = s.boot := h.same .boot hp
theorem SameBut.fuses {ps : List Part} {s t : State} (h : SameBut ps s t) (hp : Part.fuses ∉ ps := by decide) : t.fuses = s.fuses := h.same .fuses hp
theorem SameBut.flash {ps : List Part} {s t : State} (h : SameBut ps s t) (hp : Part.flash ∉ ps := by decide) : t.flash = s.flash := h.same .flash hp
theorem SameBut.prot {ps : List Part} {s t : State} (h : SameBut ps s t) (hp : Part.prot ∉ ps := by decide) : t.prot = s.prot := h.same .prot hp
theorem SameBut.dbg {ps : List Part} {s t : State} (h : SameBut ps s t) (hp : Part.dbg ∉ ps := by decide) : t.dbg = s.dbg := h.same .dbg hp
theorem SameBut.str {ps : List Part} {s t : State} (h : SameBut ps s t) (hp : Part.str ∉ ps := by decide) : t.str = s.str := h.same .str hp
theorem SameBut.tcam {ps : List Part} {s t : State} (h : SameBut ps s t) (hp : Part.tcam ∉ ps := by decide) : t.tcam = s.tcam := h.same .tcam hp
theorem SameBut.marker {ps : List Part} {s t : State} (h : SameBut ps s t) (hp : Part.marker ∉ ps := by decide) : t.marker = s.marker := h.same .marker hp
theorem SameBut.sram {ps : List Part} {s t : State} (h : SameBut ps s t) (hp : Part.sram ∉ ps := by decide) : t.sram = s.sram := h.same .sram hp
theorem SameBut.search {ps : List Part} {s t : State} (h : SameBut ps s t) (hp : Part.search ∉ ps := by decide) : t.search = s.search := h.same .search hp
theorem SameBut.update {ps : List Part} {s t : State} (h : SameBut ps s t) (hp : Part.update ∉ ps := by decide) : t.update = s.update := h.same .update hp
theorem SameBut.life {ps : List Part} {s t : State} (h : SameBut ps s t) (hp : Part.life ∉ ps := by decide) : t.life = s.life := h.same .life hp
theorem SameBut.ports {ps : List Part} {s t : State} (h : SameBut ps s t) (hp : Part.ports ∉ ps := by decide) : t.ports = s.ports := h.same .ports hp
theorem SameBut.arbs {ps : List Part} {s t : State} (h : SameBut ps s t) (hp : Part.arbs ∉ ps := by decide) : t.arbs = s.arbs := h.same .arbs hp
theorem SameBut.tally {ps : List Part} {s t : State} (h : SameBut ps s t) (hp : Part.tally ∉ ps := by decide) : t.tally = s.tally := h.same .tally hp
theorem SameBut.journal {ps : List Part} {s t : State} (h : SameBut ps s t) (hp : Part.journal ∉ ps := by decide) : t.journal = s.journal := h.same .journal hp
theorem SameBut.store {ps : List Part} {s t : State} (h : SameBut ps s t) (hp : Part.store ∉ ps := by decide) : t.store = s.store := h.same .store hp
theorem SameBut.holdup {ps : List Part} {s t : State} (h : SameBut ps s t) (hp : Part.holdup ∉ ps := by decide) : t.holdup = s.holdup := h.same .holdup hp
theorem SameBut.therm {ps : List Part} {s t : State} (h : SameBut ps s t) (hp : Part.therm ∉ ps := by decide) : t.therm = s.therm := h.same .therm hp
theorem SameBut.integ {ps : List Part} {s t : State} (h : SameBut ps s t) (hp : Part.integ ∉ ps := by decide) : t.integ = s.integ := h.same .integ hp
theorem SameBut.waitos {ps : List Part} {s t : State} (h : SameBut ps s t) (hp : Part.waitos ∉ ps := by decide) : t.waitos = s.waitos := h.same .waitos hp
theorem SameBut.crew {ps : List Part} {s t : State} (h : SameBut ps s t) (hp : Part.crew ∉ ps := by decide) : t.crew = s.crew := h.same .crew hp
theorem SameBut.events {ps : List Part} {s t : State} (h : SameBut ps s t) (hp : Part.events ∉ ps := by decide) : t.events = s.events := h.same .events hp
theorem SameBut.mgmt {ps : List Part} {s t : State} (h : SameBut ps s t) (hp : Part.mgmt ∉ ps := by decide) : t.mgmt = s.mgmt := h.same .mgmt hp
theorem SameBut.free {ps : List Part} {s t : State} (h : SameBut ps s t) (hp : Part.free ∉ ps := by decide) : t.free = s.free := h.same .free hp
theorem SameBut.pending {ps : List Part} {s t : State} (h : SameBut ps s t) (hp : Part.pending ∉ ps := by decide) : t.pending = s.pending := h.same .pending hp

/-- The record update of x that leaves its queue and takes the fields named: what a record update is to be seen as, so that a
frame can be read off it. -/
def State.updated (a0 : Pins) (a1 : Clock) (a2 : Power) (a3 : Boot) (a4 : Fuses) (a5 : List Host.Cell) (a6 : Prot) (a7 : Debug) (a8 : Struct) (a9 : Tcam) (a10 : Marker) (a11 : Sram) (a12 : Search) (a13 : Update) (a14 : Life) (a15 : Sparse Port) (a16 : Arbiters) (a17 : Tally) (a18 : Journal) (a19 : Store) (a20 : HoldUp) (a21 : Therm) (a22 : Integ) (a23 : Waitos) (a24 : Crew) (a25 : Events) (a26 : Mgmt) (a27 : Nat) (x : State) : State := State.mk a0 a1 a2 a3 a4 a5 a6 a7 a8 a9 a10 a11 a12 a13 a14 a15 a16 a17 a18 a19 a20 a21 a22 a23 a24 a25 a26 a27 x.pending

theorem State.mk_eq_updated (a0 : Pins) (a1 : Clock) (a2 : Power) (a3 : Boot) (a4 : Fuses) (a5 : List Host.Cell) (a6 : Prot) (a7 : Debug) (a8 : Struct) (a9 : Tcam) (a10 : Marker) (a11 : Sram) (a12 : Search) (a13 : Update) (a14 : Life) (a15 : Sparse Port) (a16 : Arbiters) (a17 : Tally) (a18 : Journal) (a19 : Store) (a20 : HoldUp) (a21 : Therm) (a22 : Integ) (a23 : Waitos) (a24 : Crew) (a25 : Events) (a26 : Mgmt) (a27 : Nat) (x : State) : State.mk a0 a1 a2 a3 a4 a5 a6 a7 a8 a9 a10 a11 a12 a13 a14 a15 a16 a17 a18 a19 a20 a21 a22 a23 a24 a25 a26 a27 x.pending = State.updated a0 a1 a2 a3 a4 a5 a6 a7 a8 a9 a10 a11 a12 a13 a14 a15 a16 a17 a18 a19 a20 a21 a22 a23 a24 a25 a26 a27 x := rfl

/-- A record update of x has the frame that its fields show. -/
theorem SameBut.upd {ps : List Part} {s x : State} {a0 : Pins} {a1 : Clock} {a2 : Power} {a3 : Boot} {a4 : Fuses} {a5 : List Host.Cell} {a6 : Prot} {a7 : Debug} {a8 : Struct} {a9 : Tcam} {a10 : Marker} {a11 : Sram} {a12 : Search} {a13 : Update} {a14 : Life} {a15 : Sparse Port} {a16 : Arbiters} {a17 : Tally} {a18 : Journal} {a19 : Store} {a20 : HoldUp} {a21 : Therm} {a22 : Integ} {a23 : Waitos} {a24 : Crew} {a25 : Events} {a26 : Mgmt} {a27 : Nat} (hx : SameBut ps s x)
    (h : ∀ p, p ∉ ps → p.same x (State.mk a0 a1 a2 a3 a4 a5 a6 a7 a8 a9 a10 a11 a12 a13 a14 a15 a16 a17 a18 a19 a20 a21 a22 a23 a24 a25 a26 a27 x.pending)) : SameBut ps s (State.updated a0 a1 a2 a3 a4 a5 a6 a7 a8 a9 a10 a11 a12 a13 a14 a15 a16 a17 a18 a19 a20 a21 a22 a23 a24 a25 a26 a27 x) :=
  hx.trans ⟨h⟩

/-- Every end of a run of a table command is framed by ps. -/
structure RanBut (ps : List Part) (s : State) (x : Ran) : Prop where
  ends_same : ∀ t r, x = .ends t r → SameBut ps s t

theorem RanBut.wait (ps : List Part) (s : State) : RanBut ps s .wait := ⟨fun _ _ h => nomatch h⟩

theorem RanBut.ends {ps : List Part} {s t : State} {r : Option TRsp} (h : SameBut ps s t) : RanBut ps s (.ends t r) :=
  ⟨fun u q e => by cases e; exact h⟩

theorem RanBut.step {ps qs : List Part} {s t : State} {x : Ran} (k : RanBut qs t x) (hq : qs ⊆ ps) (h : SameBut ps s t) :
    RanBut ps s x := ⟨fun u r e => (k.ends_same u r e).step hq h⟩

/-- Every next state of an outcome is framed by ps. -/
structure OutBut (ps : List Part) (s : State) (x : Host.Outcome State Fault Refusal) : Prop where
  next_same : ∀ t, x = .next t → SameBut ps s t

theorem OutBut.next {ps : List Part} {s t : State} (h : SameBut ps s t) : OutBut ps s (.next t) :=
  ⟨fun u e => by cases e; exact h⟩

/-- Every state that an option holds is framed by ps. -/
structure OptBut (ps : List Part) (s : State) (x : Option State) : Prop where
  some_same : ∀ t, x = .some t → SameBut ps s t

theorem OptBut.some {ps : List Part} {s t : State} (h : SameBut ps s t) : OptBut ps s (.some t) :=
  ⟨fun u e => by cases e; exact h⟩

theorem OptBut.none (ps : List Part) (s : State) : OptBut ps s .none := ⟨fun _ h => nomatch h⟩

end Sys2Proof.Machine
end

