-- ==== Sys2Proof/Laws/Cells.lean ====
section
/-! SUPPORT. Laws of the stored words and rows (Machine/Cells.lean): what a write leaves at a place and at every other place, and that every
one of the operations keeps the canonical form of the memories. -/

namespace Sys2Proof.Machine

open Sys2Proof

/-- A change that leaves the SRAM and the banks alone keeps the canonical form. -/
theorem MemoryCanonical.of_same {s t : State} (h : MemoryCanonical s) (hs : t.sram = s.sram) (ht : t.tcam = s.tcam) : MemoryCanonical t := by
  unfold MemoryCanonical
  rw [hs, ht]
  exact h

theorem SameBut.canonical {ps : List Part} {s t : State} (h : SameBut ps s t) (m : MemoryCanonical s) (hs : Part.sram ∉ ps := by decide)
    (ht : Part.tcam ∉ ps := by decide) : MemoryCanonical t := m.of_same (h.sram hs) (h.tcam ht)

/-- The page fill keeps the canonical form, and its page is valid after it. -/
theorem pageFill_canonical {s : State} (m : MemoryCanonical s) (key : Nat) : MemoryCanonical (pageFill s key) := by
  unfold pageFill
  split
  · exact m
  · exact ⟨swf_sdrop m.1 (fun k => decide (k / 512 = pageOf key)), swf_sput m.2.1 _ _ (fun _ hl => nomatch hl), m.2.2⟩

theorem putCw_canonical {s : State} (m : MemoryCanonical s) (key : Nat) (w : Cw) : MemoryCanonical (putCw s key w) :=
  ⟨swf_sput (pageFill_canonical m key).1 _ _ (fun _ hl => nomatch hl), (pageFill_canonical m key).2.1, (pageFill_canonical m key).2.2⟩

theorem putWord_canonical {s : State} (m : MemoryCanonical s) (key : Nat) (d : Word) : MemoryCanonical (putWord s key d) := putCw_canonical m key _

theorem poisonWord_canonical {s : State} (m : MemoryCanonical s) (key : Nat) : MemoryCanonical (poisonWord s key) := putCw_canonical m key _

theorem setRow_canonical {s : State} (m : MemoryCanonical s) (site r : Nat) (x : TRow) : MemoryCanonical (setRow s site r x) :=
  ⟨m.1, m.2.1, swf_sput m.2.2 _ _ (fun _ hl => nomatch hl)⟩

/-- A row written reads as written; every other row of every site as before. -/
theorem getRow_setRow {s : State} (m : MemoryCanonical s) {site r : Nat} (x : TRow) {site' r' : Nat} (hr : r < 4096) (hr' : r' < 4096) :
    getRow (setRow s site r x) site' r' = if site' = site ∧ r' = r then x else getRow s site' r' := by
  rw [getRow, setRow, sget_sput m.2.2, getRow]
  by_cases h : site' = site ∧ r' = r
  · simp [h.1, h.2]
  · rw [if_neg h, if_neg (by omega)]

@[simp] theorem pageValid_pageFill (s : State) (key : Nat) (m : MemoryCanonical s) : pageValid (pageFill s key) key = true := by
  unfold pageFill
  split
  · assumption
  · rename_i h
    unfold pageValid pageBit
    split
    · simp only [sget_sput m.2.1, if_true]
      rw [Bool.or_eq_true]
      exact Or.inl (by decide)
    · rfl

/-- A place written holds what was written: its page is filled first when it was invalid (R385, R392). -/
theorem cell_putCw_self {s : State} (m : MemoryCanonical s) (key : Nat) (w : Cw) : cell (putCw s key w) key = w := by
  have h := pageValid_pageFill s key m
  have e : pageValid (putCw s key w) key = pageValid (pageFill s key) key := rfl
  rw [cell, e, h, if_pos rfl, putCw, sget_sput (pageFill_canonical m key).1, if_pos rfl]

/-- Every other place of a valid page holds what it held. -/
theorem cell_putCw_of_ne {s : State} (m : MemoryCanonical s) {key k : Nat} (w : Cw) (hv : pageValid s key = true) (hk : k ≠ key) :
    cell (putCw s key w) k = cell s k := by
  have e : pageFill s key = s := by rw [pageFill, if_pos hv]
  have v : pageValid (putCw s key w) k = pageValid s k := by
    have : putCw s key w = { s with sram := { s.sram with words := sput ⟨0, 0⟩ s.sram.words key w } } := by rw [putCw, e]
    rw [this]
    rfl
  rw [cell, v, putCw, e, sget_sput m.1, if_neg hk]
  rfl

end Sys2Proof.Machine
end

