-- ==== Sys2Proof/Laws/Frames.lean ====
section
/-! SUPPORT. The frame of each shared operation (Timebase, Ops, Cells, Journal, PortOps, TableOps): the parts of the state that it may change.
A frame `f_same` says that f keeps every part it does not name; `f_same_of` says so of the state in f's pair. -/

namespace Sys2Proof.Machine

open Sys2Proof

theorem tick_same (s : State) : SameBut [.clock] s (tick s) := by
  dsimp only [tick]
  repeat' (first
    | with_reducible exact SameBut.refl _ _
    | (intro p hp; cases p <;> first | exact absurd (by decide) hp | rfl)
    | (rw [State.mk_eq_updated]; with_reducible refine SameBut.upd ?_ ?_)
    | split)

theorem setPort_same (s : State) (p : ℕ) (x : Port) : SameBut [.ports] s (setPort s p x) :=
  ⟨fun p hp => by cases p <;> first | rfl | exact absurd (by decide) hp⟩

theorem modPort_same (s : State) (p : ℕ) (f : Port → Port) : SameBut [.ports] s (modPort s p f) :=
  ⟨fun p hp => by cases p <;> first | rfl | exact absurd (by decide) hp⟩

theorem setQueue_same (s : State) (q : ℕ) (x : EvQueue) : SameBut [.events] s (setQueue s q x) :=
  ⟨fun p hp => by cases p <;> first | rfl | exact absurd (by decide) hp⟩

theorem setEng_same (s : State) (e : ℕ) (x : Engine) : SameBut [.update] s (setEng s e x) :=
  ⟨fun p hp => by cases p <;> first | rfl | exact absurd (by decide) hp⟩

theorem setTok_same (s : State) (t : ℕ) (x : Option Token) : SameBut [.search] s (setTok s t x) :=
  ⟨fun p hp => by cases p <;> first | rfl | exact absurd (by decide) hp⟩

theorem setOp_same (s : State) (h : ℕ) (x : Option Op) : SameBut [.waitos] s (setOp s h x) :=
  ⟨fun p hp => by cases p <;> first | rfl | exact absurd (by decide) hp⟩

theorem setArb_same (s : State) (a : ℕ) (x : Arb) : SameBut [.arbs] s (setArb s a x) :=
  ⟨fun p hp => by cases p <;> first | rfl | exact absurd (by decide) hp⟩

theorem setGate_same (s : State) (g : ℕ) (x : Gate) : SameBut [.marker] s (setGate s g x) :=
  ⟨fun p hp => by cases p <;> first | rfl | exact absurd (by decide) hp⟩

theorem count_same (s : State) (off : ℕ) (n : ℕ) : SameBut [.mgmt] s (count s off n) :=
  ⟨fun p hp => by cases p <;> first | rfl | exact absurd (by decide) hp⟩

theorem countPort_same (s : State) (p : ℕ) (i : ℕ) (n : ℕ) : SameBut [.mgmt] s (countPort s p i n) :=
  ⟨fun p hp => by cases p <;> first | rfl | exact absurd (by decide) hp⟩

theorem fresh_same (s : State) : SameBut [.free] s (fresh s).2 :=
  ⟨fun p hp => by cases p <;> first | rfl | exact absurd (by decide) hp⟩

theorem fresh_same_of {s : State} {q0 : Word} {u : State} (h : fresh s = (q0, u)) : SameBut [.free] s u := by
  have k := fresh_same s
  rw [h] at k
  exact k

theorem traceWrite_same (s : State) (x : Trace) : SameBut [.events] s (traceWrite s x) := by
  dsimp only [traceWrite]
  repeat' (first
    | with_reducible exact SameBut.refl _ _
    | (intro p hp; cases p <;> first | exact absurd (by decide) hp | rfl)
    | (rw [State.mk_eq_updated]; with_reducible refine SameBut.upd ?_ ?_)
    | split)

theorem trace_same (s : State) (src : ℕ) : SameBut [.events, .free] s (trace s src) := by
  dsimp only [trace]
  repeat' (first
    | with_reducible exact SameBut.refl _ _
    | with_reducible refine SameBut.step (fresh_same ..) (by decide) ?_
    | with_reducible refine SameBut.step (traceWrite_same ..) (by decide) ?_
    | (intro p hp; cases p <;> first | exact absurd (by decide) hp | rfl)
    | (rw [State.mk_eq_updated]; with_reducible refine SameBut.upd ?_ ?_)
    | split)

theorem event_same (s : State) (qs : List ℕ) (code : ℕ) (obj : ℕ) (detail : ℕ) : SameBut [.events, .free] s (event s qs code obj detail) := by
  dsimp only [event]
  repeat' (first
    | with_reducible exact SameBut.refl _ _
    | with_reducible refine SameBut.step (trace_same ..) (by decide) ?_
    | with_reducible refine SameBut.step (setQueue_same ..) (by decide) ?_
    | with_reducible refine SameBut.step (SameBut.foldl ?_ _ _) (List.Subset.refl _) ?_
    | (intro p hp; cases p <;> first | exact absurd (by decide) hp | rfl)
    | (rw [State.mk_eq_updated]; with_reducible refine SameBut.upd ?_ ?_)
    | intro _ _
    | split)

theorem newNonce_same (s : State) : SameBut [.dbg, .free] s (newNonce s) :=
  ⟨fun p hp => by cases p <;> first | rfl | exact absurd (by decide) hp⟩

theorem resetDebug_same (s : State) : SameBut [.dbg, .free] s (resetDebug s) :=
  ⟨fun p hp => by cases p <;> first | rfl | exact absurd (by decide) hp⟩

theorem consumeInj_same (s : State) (key : ℕ) : SameBut [.sram] s (consumeInj s key) := by
  dsimp only [consumeInj]
  repeat' (first
    | with_reducible exact SameBut.refl _ _
    | (intro p hp; cases p <;> first | exact absurd (by decide) hp | rfl)
    | (rw [State.mk_eq_updated]; with_reducible refine SameBut.upd ?_ ?_)
    | split)

theorem countI_same (s : State) (i : ℕ) : SameBut [.mgmt] s (countI s i) :=
  ⟨fun p hp => by cases p <;> first | rfl | exact absurd (by decide) hp⟩

theorem report_same (s : State) (key : ℕ) (syn : Byte) : SameBut [.integ, .mgmt] s (report s key syn) := by
  dsimp only [report]
  repeat' (first
    | with_reducible exact SameBut.refl _ _
    | with_reducible refine SameBut.step (countI_same ..) (by decide) ?_
    | (intro p hp; cases p <;> first | exact absurd (by decide) hp | rfl)
    | (rw [State.mk_eq_updated]; with_reducible refine SameBut.upd ?_ ?_)
    | split)

theorem queueBad_same (s : State) (b : Bad) : SameBut [.integ, .mgmt] s (queueBad s b) := by
  dsimp only [queueBad]
  repeat' (first
    | with_reducible exact SameBut.refl _ _
    | with_reducible refine SameBut.step (countI_same ..) (by decide) ?_
    | (intro p hp; cases p <;> first | exact absurd (by decide) hp | rfl)
    | (rw [State.mk_eq_updated]; with_reducible refine SameBut.upd ?_ ?_)
    | split)

theorem fixPage_same (s : State) (key : ℕ) : SameBut [.sram, .mgmt] s (fixPage s key) := by
  dsimp only [fixPage]
  repeat' (first
    | with_reducible exact SameBut.refl _ _
    | with_reducible refine SameBut.step (countI_same ..) (by decide) ?_
    | (intro p hp; cases p <;> first | exact absurd (by decide) hp | rfl)
    | (rw [State.mk_eq_updated]; with_reducible refine SameBut.upd ?_ ?_)
    | split)

theorem touch_same (s : State) (key : ℕ) : SameBut [.sram, .integ, .events, .mgmt, .free] s (touch s key) := by
  dsimp only [touch]
  repeat' (first
    | with_reducible exact SameBut.refl _ _
    | with_reducible refine SameBut.step (fixPage_same ..) (by decide) ?_
    | with_reducible refine SameBut.step (consumeInj_same ..) (by decide) ?_
    | with_reducible refine SameBut.step (countI_same ..) (by decide) ?_
    | with_reducible refine SameBut.step (event_same ..) (by decide) ?_
    | with_reducible refine SameBut.step (report_same ..) (by decide) ?_
    | split)

theorem touchAll_same (s : State) (keys : List ℕ) : SameBut [.sram, .integ, .events, .mgmt, .free] s (touchAll s keys) := by
  dsimp only [touchAll]
  repeat' (first
    | with_reducible exact SameBut.refl _ _
    | with_reducible refine SameBut.step (touch_same ..) (by decide) ?_
    | with_reducible refine SameBut.step (SameBut.foldl ?_ _ _) (List.Subset.refl _) ?_
    | intro _ _)

theorem touchQ_same (s : State) (key : ℕ) : SameBut [.sram, .integ, .events, .mgmt, .free] s (touchQ s key) := by
  dsimp only [touchQ]
  repeat' (first
    | with_reducible exact SameBut.refl _ _
    | with_reducible refine SameBut.step (touch_same ..) (by decide) ?_
    | with_reducible refine SameBut.step (queueBad_same ..) (by decide) ?_
    | split)

theorem pageFill_same (s : State) (key : ℕ) : SameBut [.sram] s (pageFill s key) := by
  dsimp only [pageFill]
  repeat' (first
    | with_reducible exact SameBut.refl _ _
    | (intro p hp; cases p <;> first | exact absurd (by decide) hp | rfl)
    | (rw [State.mk_eq_updated]; with_reducible refine SameBut.upd ?_ ?_)
    | split)

theorem putCw_same (s : State) (key : ℕ) (w : Cw) : SameBut [.sram] s (putCw s key w) := by
  dsimp only [putCw]
  repeat' (first
    | with_reducible exact SameBut.refl _ _
    | with_reducible refine SameBut.step (pageFill_same ..) (by decide) ?_
    | (intro p hp; cases p <;> first | exact absurd (by decide) hp | rfl)
    | (rw [State.mk_eq_updated]; with_reducible refine SameBut.upd ?_ ?_))

theorem putWord_same (s : State) (key : ℕ) (d : Word) : SameBut [.sram] s (putWord s key d) := by
  dsimp only [putWord]
  repeat' (first
    | with_reducible exact SameBut.refl _ _
    | with_reducible refine SameBut.step (putCw_same ..) (by decide) ?_)

theorem rmw_same (s : State) (key : ℕ) (mask : Word) (val : Word) : SameBut [.sram, .integ, .events, .mgmt, .free] s (rmw s key mask val) := by
  dsimp only [rmw]
  repeat' (first
    | with_reducible exact SameBut.refl _ _
    | with_reducible refine SameBut.step (countI_same ..) (by decide) ?_
    | with_reducible refine SameBut.step (putWord_same ..) (by decide) ?_
    | with_reducible refine SameBut.step (consumeInj_same ..) (by decide) ?_
    | with_reducible refine SameBut.step (touchQ_same ..) (by decide) ?_
    | with_reducible refine SameBut.step (touch_same ..) (by decide) ?_
    | split)

theorem poisonWord_same (s : State) (key : ℕ) : SameBut [.sram] s (poisonWord s key) := by
  dsimp only [poisonWord]
  repeat' (first
    | with_reducible exact SameBut.refl _ _
    | with_reducible refine SameBut.step (putCw_same ..) (by decide) ?_)

theorem setBankState_same (s : State) (b : ℕ) (st : BitVec 4) : SameBut [.tcam] s (setBankState s b st) :=
  ⟨fun p hp => by cases p <;> first | rfl | exact absurd (by decide) hp⟩

theorem swapSites_same (s : State) (a : ℕ) (b : ℕ) : SameBut [.tcam] s (swapSites s a b) :=
  ⟨fun p hp => by cases p <;> first | rfl | exact absurd (by decide) hp⟩

theorem setRow_same (s : State) (site : ℕ) (r : ℕ) (x : TRow) : SameBut [.tcam] s (setRow s site r x) :=
  ⟨fun p hp => by cases p <;> first | rfl | exact absurd (by decide) hp⟩

theorem setEntryAt_same (s : State) (w : ℕ) (site : ℕ) (site2 : ℕ) (r : ℕ) (h : ℕ) (e : Entry) : SameBut [.tcam] s (setEntryAt s w site site2 r h e) := by
  dsimp only [setEntryAt]
  repeat' (first
    | with_reducible exact SameBut.refl _ _
    | with_reducible refine SameBut.step (setRow_same ..) (by decide) ?_
    | split)

theorem setEntry_same (s : State) (w : ℕ) (b : ℕ) (r : ℕ) (h : ℕ) (e : Entry) : SameBut [.tcam] s (setEntry s w b r h e) := by
  dsimp only [setEntry]
  repeat' (first
    | with_reducible exact SameBut.refl _ _
    | with_reducible refine SameBut.step (setEntryAt_same ..) (by decide) ?_
    | with_reducible refine SameBut.step (SameBut.foldl ?_ _ _) (List.Subset.refl _) ?_
    | intro _ _)

theorem setDir_same (s : State) (d : ℕ) (x : BitVec 80) : SameBut [.marker] s (setDir s d x) :=
  ⟨fun p hp => by cases p <;> first | rfl | exact absurd (by decide) hp⟩

theorem freeFrames_same (s : State) : SameBut [.journal] s (freeFrames s) :=
  ⟨fun p hp => by cases p <;> first | rfl | exact absurd (by decide) hp⟩

theorem countStore_same (s : State) (i : ℕ) (n : ℕ) : SameBut [.mgmt] s (countStore s i n) :=
  ⟨fun p hp => by cases p <;> first | rfl | exact absurd (by decide) hp⟩

theorem jAdmit_same (s : State) (groups : List (List JRec)) : SameBut [.mgmt] s (jAdmit s groups).2 := by
  dsimp only [jAdmit]
  repeat' (first
    | with_reducible exact SameBut.refl _ _
    | with_reducible refine SameBut.step (countStore_same ..) (by decide) ?_
    | split)

theorem jAdmit_same_of {s : State} {groups : List (List JRec)} {q0 : Bool} {u : State} (h : jAdmit s groups = (q0, u)) : SameBut [.mgmt] s u := by
  have k := jAdmit_same s groups
  rw [h] at k
  exact k

theorem jCommit_same (s : State) (rs : List JRec) (applied : Bool) : SameBut [.journal, .mgmt] s (jCommit s rs applied).2 :=
  ⟨fun p hp => by cases p <;> first | rfl | exact absurd (by decide) hp⟩

theorem jCommit_same_of {s : State} {rs : List JRec} {applied : Bool} {q0 : Word} {u : State} (h : jCommit s rs applied = (q0, u)) : SameBut [.journal, .mgmt] s u := by
  have k := jCommit_same s rs applied
  rw [h] at k
  exact k

theorem jPut_same (s : State) (r : JRec) : SameBut [.journal] s (jPut s r) :=
  ⟨fun p hp => by cases p <;> first | rfl | exact absurd (by decide) hp⟩

theorem jNote_same (s : State) (r : JRec) : SameBut [.journal] s (jNote s r) := by
  unfold jNote
  split
  · exact jPut_same s r
  · exact SameBut.refl _ _

theorem jApplied_same (s : State) (j : Word) : SameBut [.journal] s (jApplied s j) :=
  ⟨fun p hp => by cases p <;> first | rfl | exact absurd (by decide) hp⟩

theorem send_same (s : State) (p : ℕ) (ms : List Slot) : SameBut [.ports] s (send s p ms) := by
  dsimp only [send]
  repeat' (first
    | with_reducible exact SameBut.refl _ _
    | with_reducible refine SameBut.step (modPort_same ..) (by decide) ?_
    | split)

theorem violation_same (s : State) (id : ℕ) (c : Counts) : SameBut [.tally, .events, .free] s (violation s id c) := by
  dsimp only [violation]
  repeat' (first
    | with_reducible exact SameBut.refl _ _
    | with_reducible refine SameBut.step (event_same ..) (by decide) ?_
    | with_reducible refine SameBut.step (trace_same ..) (by decide) ?_
    | (intro p hp; cases p <;> first | exact absurd (by decide) hp | rfl)
    | (rw [State.mk_eq_updated]; with_reducible refine SameBut.upd ?_ ?_)
    | split)

theorem refuseMove_same (s : State) (id : ℕ) (c : Counts) : SameBut [.tally, .events, .free] s (refuseMove s id c) := violation_same s id c

theorem tagHeld_same (s : State) (p : ℕ) (inc : BitVec 16) (f : Port → List ℕ) (pool cap t : ℕ) : SameBut [.tally, .events, .free] s (tagHeld s p inc f pool cap t) := by
  dsimp only [tagHeld]
  split
  · exact SameBut.refl _ _
  · exact refuseMove_same ..

theorem freeCredit_same (s : State) (p : ℕ) (c : ℕ) (n : ℕ) : SameBut [.ports, .tally, .events, .free] s (freeCredit s p c n) := by
  dsimp only [freeCredit]
  split
  · exact (refuseMove_same ..).mono (by decide)
  · exact (modPort_same ..).mono (by decide)

theorem takeHead_same (s : State) (p : ℕ) (c : ℕ) : SameBut [.ports, .tally, .events, .free] s (takeHead s p c) := by
  dsimp only [takeHead]
  split
  · exact ((modPort_same ..).mono (by decide)).trans (freeCredit_same ..)
  · exact (modPort_same ..).mono (by decide)

theorem badSlot_same (s : State) (p : ℕ) : SameBut [.events, .mgmt, .free] s (badSlot s p) := by
  dsimp only [badSlot]
  repeat' (first
    | with_reducible exact SameBut.refl _ _
    | with_reducible refine SameBut.step (event_same ..) (by decide) ?_
    | with_reducible refine SameBut.step (countPort_same ..) (by decide) ?_)

theorem setStream_same (s : State) (p : ℕ) (k : ℕ) (x : Stream) : SameBut [.update] s (setStream s p k x) :=
  ⟨fun p hp => by cases p <;> first | rfl | exact absurd (by decide) hp⟩

theorem sendAs_same (s : State) (p : ℕ) (incarn : BitVec 16) (ms : List Slot) : SameBut [.ports, .mgmt] s (sendAs s p incarn ms) := by
  dsimp only [sendAs]
  repeat' (first
    | with_reducible exact SameBut.refl _ _
    | with_reducible refine SameBut.step (send_same ..) (by decide) ?_
    | with_reducible refine SameBut.step (countPort_same ..) (by decide) ?_
    | split)

theorem bulkAnswer_same (s : State) (p : ℕ) (k : ℕ) (seq : ℕ) (r : TRsp) : SameBut [.update, .ports] s (bulkAnswer s p k seq r) := by
  dsimp only [bulkAnswer]
  repeat' (first
    | with_reducible exact SameBut.refl _ _
    | with_reducible refine SameBut.step (setStream_same ..) (by decide) ?_
    | with_reducible refine SameBut.step (send_same ..) (by decide) ?_
    | split)

theorem accepted_same (s : State) (p : ℕ) (j : Word) : SameBut [.ports] s (accepted s p j) := modPort_same ..

theorem answer_same (s : State) (v : Via) (r : TRsp) : SameBut [.update, .ports, .tally, .events, .mgmt, .free] s (answer s v r) := by
  dsimp only [answer]
  repeat' (first
    | with_reducible exact SameBut.refl _ _
    | with_reducible refine SameBut.step (sendAs_same ..) (by decide) ?_
    | with_reducible refine SameBut.step (accepted_same ..) (by decide) ?_
    | with_reducible refine SameBut.step (tagHeld_same ..) (by decide) ?_
    | with_reducible refine SameBut.step (bulkAnswer_same ..) (by decide) ?_
    | (intro p hp; cases p <;> first | exact absurd (by decide) hp | rfl)
    | (rw [State.mk_eq_updated]; with_reducible refine SameBut.upd ?_ ?_)
    | split)

theorem tcamReject_same (s : State) (t : ℕ) (b : ℕ) (r : ℕ) (h : ℕ) (st : Status) (cause : ℕ) : SameBut [.events, .free] s (tcamReject s t b r h st cause) := by
  dsimp only [tcamReject]
  repeat' (first
    | with_reducible exact SameBut.refl _ _
    | with_reducible refine SameBut.step (event_same ..) (by decide) ?_)

theorem countT_same (s : State) (t : ℕ) (i : ℕ) (n : ℕ) : SameBut [.mgmt] s (countT s t i n) :=
  ⟨fun p hp => by cases p <;> first | rfl | exact absurd (by decide) hp⟩

theorem putSlotCw_same (s : State) (b : ℕ) (r : ℕ) (h : ℕ) (j : ℕ) (c : Cw) : SameBut [.sram] s (putSlotCw s b r h j c) := by
  dsimp only [putSlotCw]
  repeat' (first
    | with_reducible exact SameBut.refl _ _
    | with_reducible refine SameBut.step (putCw_same ..) (by decide) ?_
    | with_reducible refine SameBut.step (SameBut.foldl ?_ _ _) (List.Subset.refl _) ?_
    | intro _ _
    | split)

theorem putSlot_same (s : State) (b : ℕ) (r : ℕ) (h : ℕ) (res : Word) (chk : Word) : SameBut [.sram] s (putSlot s b r h res chk) := by
  dsimp only [putSlot]
  repeat' (first
    | with_reducible exact SameBut.refl _ _
    | with_reducible refine SameBut.step (putSlotCw_same ..) (by decide) ?_)

theorem clearLive_same (s : State) (b : ℕ) (r : ℕ) (h : ℕ) : SameBut [.sram, .integ, .events, .mgmt, .free] s (clearLive s b r h) := by
  dsimp only [clearLive]
  repeat' (first
    | with_reducible exact SameBut.refl _ _
    | with_reducible refine SameBut.step (rmw_same ..) (by decide) ?_
    | with_reducible refine SameBut.step (SameBut.foldl ?_ _ _) (List.Subset.refl _) ?_
    | intro _ _
    | split)

theorem carried_same (s : State) (k : ℕ) : SameBut [.sram, .integ, .events, .mgmt, .free] s (carried s k).2 := (touchQ_same s k).mono (by decide)

theorem carrySlot_same (s : State) (b r h b2 r2 h2 : ℕ) : SameBut [.sram, .integ, .events, .mgmt, .free] s (carrySlot s b r h b2 r2 h2) :=
  SameBut.foldl (fun u j => (carried_same u (kSlot b r h j)).trans ((putSlotCw_same ..).mono (by decide))) _ _

theorem copyEntry_same (s : State) (t : ℕ) (src : ℕ) (dst : ℕ) (r : ℕ) (h : ℕ) : SameBut [.tcam, .sram, .integ, .events, .mgmt, .free] s (copyEntry s t src dst r h) := by
  dsimp only [copyEntry]
  repeat' (first
    | with_reducible exact SameBut.refl _ _
    | with_reducible refine SameBut.step (carrySlot_same ..) (by decide) ?_
    | with_reducible refine SameBut.step (setEntry_same ..) (by decide) ?_
    | split)

theorem rejectSecond_same (s : State) (t : ℕ) (b : ℕ) (second : List (ℕ × ℕ)) : SameBut [.integ, .events, .mgmt, .free] s (rejectSecond s t b second) := by
  dsimp only [rejectSecond]
  repeat' (first
    | with_reducible exact SameBut.refl _ _
    | with_reducible refine SameBut.step (queueBad_same ..) (by decide) ?_
    | with_reducible refine SameBut.step (tcamReject_same ..) (by decide) ?_
    | with_reducible refine SameBut.step (SameBut.foldl ?_ _ _) (List.Subset.refl _) ?_
    | intro _ _)

theorem findInBank_same (s : State) (t : ℕ) (d : ℕ) (j : ℕ) (care : BitVec 192) (val : BitVec 192) (tag : ℕ) : SameBut [.tcam, .sram, .integ, .events, .mgmt, .free] s (findInBank s t d j care val tag).2 := by
  dsimp only [findInBank]
  repeat' (first
    | with_reducible exact SameBut.refl _ _
    | with_reducible refine SameBut.step (rejectSecond_same ..) (by decide) ?_
    | with_reducible refine SameBut.step (copyEntry_same ..) (by decide) ?_
    | split)

theorem findInBank_same_of {s : State} {t : ℕ} {d : ℕ} {j : ℕ} {care : BitVec 192} {val : BitVec 192} {tag : ℕ} {q0 : Option Loc} {u : State} (h : findInBank s t d j care val tag = (q0, u)) : SameBut [.tcam, .sram, .integ, .events, .mgmt, .free] s u := by
  have k := findInBank_same s t d j care val tag
  rw [h] at k
  exact k

theorem findInDir_same (s : State) (t : ℕ) (d : ℕ) (care : BitVec 192) (val : BitVec 192) (tag : ℕ) (y6 : List ℕ) : SameBut [.tcam, .sram, .integ, .events, .mgmt, .free] s (findInDir s t d care val tag y6).2 := by
  fun_induction findInDir s t d care val tag y6 <;>
  (try dsimp only) <;>
  repeat' (first
    | with_reducible exact SameBut.refl _ _
    | (refine SameBut.step (by assumption) (List.Subset.refl _) ?_)
    | with_reducible refine SameBut.step (findInBank_same_of (by assumption)) (by decide) ?_)

theorem findInDir_same_of {s : State} {t : ℕ} {d : ℕ} {care : BitVec 192} {val : BitVec 192} {tag : ℕ} {y6 : List ℕ} {q0 : Option Loc} {u : State} (h : findInDir s t d care val tag y6 = (q0, u)) : SameBut [.tcam, .sram, .integ, .events, .mgmt, .free] s u := by
  have k := findInDir_same s t d care val tag y6
  rw [h] at k
  exact k

theorem findEntry_same (s : State) (t : ℕ) (care : BitVec 192) (val : BitVec 192) (tag : ℕ) (y5 : List ℕ) : SameBut [.tcam, .sram, .integ, .events, .mgmt, .free] s (findEntry s t care val tag y5).2 := by
  fun_induction findEntry s t care val tag y5 <;>
  (try dsimp only) <;>
  repeat' (first
    | with_reducible exact SameBut.refl _ _
    | (refine SameBut.step (SameBut.of_snd (by assumption) (by assumption)) (List.Subset.refl _) ?_)
    | with_reducible refine SameBut.step (findInDir_same_of (by assumption)) (by decide) ?_)

theorem findEntry_same_of {s : State} {t : ℕ} {care : BitVec 192} {val : BitVec 192} {tag : ℕ} {y5 : List ℕ} {q0 : List Loc} {u : State} (h : findEntry s t care val tag y5 = (q0, u)) : SameBut [.tcam, .sram, .integ, .events, .mgmt, .free] s u := by
  have k := findEntry_same s t care val tag y5
  rw [h] at k
  exact k

theorem clearEntry_same (s : State) (w : ℕ) (b : ℕ) (r : ℕ) (h : ℕ) : SameBut [.tcam, .sram, .integ, .events, .mgmt, .free] s (clearEntry s w b r h) := by
  dsimp only [clearEntry]
  repeat' (first
    | with_reducible exact SameBut.refl _ _
    | with_reducible refine SameBut.step (clearLive_same ..) (by decide) ?_
    | with_reducible refine SameBut.step (setEntry_same ..) (by decide) ?_)

theorem setG_same (s : State) (w : ℕ) (b : ℕ) (r : ℕ) (h : ℕ) (g : BitVec 2) : SameBut [.tcam] s (setG s w b r h g) := by
  dsimp only [setG]
  repeat' (first
    | with_reducible exact SameBut.refl _ _
    | with_reducible refine SameBut.step (setEntry_same ..) (by decide) ?_)

theorem writeH_same (s : State) (w : ℕ) (b : ℕ) (r : ℕ) (h : ℕ) (v : Bool) : SameBut [.tcam] s (writeH s w b r h v) := by
  dsimp only [writeH]
  repeat' (first
    | with_reducible exact SameBut.refl _ _
    | with_reducible refine SameBut.step (setEntry_same ..) (by decide) ?_)

theorem setSel_same (s : State) (k : ℕ) (v : Option (ℕ × Bool)) : SameBut [.tcam] s (setSel s k v) :=
  ⟨fun p hp => by cases p <;> first | rfl | exact absurd (by decide) hp⟩

theorem armCopies_same (s : State) (g : ℕ) (ins : Bool) (y3 : List (ℕ × ℕ × ℕ)) : SameBut [.tcam] s (armCopies s g ins y3).1 := by
  fun_induction armCopies s g ins y3 <;>
  (try dsimp only) <;>
  repeat' (first
    | with_reducible exact SameBut.refl _ _
    | (refine SameBut.step (SameBut.of_fst (by assumption) (by assumption)) (List.Subset.refl _) ?_)
    | with_reducible refine SameBut.step (setSel_same ..) (by decide) ?_)

theorem armCopies_same_of {s : State} {g : ℕ} {ins : Bool} {y3 : List (ℕ × ℕ × ℕ)} {u : State} {q1 : List GCopy} (h : armCopies s g ins y3 = (u, q1)) : SameBut [.tcam] s u := by
  have k := armCopies_same s g ins y3
  rw [h] at k
  exact k

theorem writeCopies_same (s : State) (t : ℕ) (care : BitVec 192) (val : BitVec 192) (tag : ℕ) (res : Word) (g : GCopy → BitVec 2) (cs : List GCopy) : SameBut [.tcam, .sram] s (writeCopies s t care val tag res g cs) := by
  dsimp only [writeCopies]
  repeat' (first
    | with_reducible exact SameBut.refl _ _
    | with_reducible refine SameBut.step (setEntry_same ..) (by decide) ?_
    | with_reducible refine SameBut.step (putSlot_same ..) (by decide) ?_
    | with_reducible refine SameBut.step (SameBut.foldl ?_ _ _) (List.Subset.refl _) ?_
    | intro _ _)

theorem mirrorTake_same (s : State) (cs : List GCopy) : SameBut [.marker] s (mirrorTake s cs) :=
  ⟨fun p hp => by cases p <;> first | rfl | exact absurd (by decide) hp⟩

theorem openGate_same (s : State) (g : ℕ) (x : Gate) : SameBut [.marker] s (openGate s g x) := by
  dsimp only [openGate]
  repeat' (first
    | with_reducible exact SameBut.refl _ _
    | with_reducible refine SameBut.step (mirrorTake_same ..) (by decide) ?_
    | with_reducible refine SameBut.step (setGate_same ..) (by decide) ?_
    | (intro p hp; cases p <;> first | exact absurd (by decide) hp | rfl)
    | (rw [State.mk_eq_updated]; with_reducible refine SameBut.upd ?_ ?_)
    | split)

theorem issueCoal_same (s : State) (key : ℕ) : SameBut [.sram, .update, .ports, .tally, .journal, .integ, .events, .mgmt, .free] s (issueCoal s key) := by
  dsimp only [issueCoal]
  repeat' (first
    | with_reducible exact SameBut.refl _ _
    | with_reducible refine SameBut.step (answer_same ..) (by decide) ?_
    | with_reducible refine SameBut.step (touchQ_same ..) (by decide) ?_
    | with_reducible refine SameBut.step (jAdmit_same ..) (by decide) ?_
    | with_reducible refine SameBut.step (putWord_same ..) (by decide) ?_
    | with_reducible refine SameBut.step (touch_same ..) (by decide) ?_
    | with_reducible refine SameBut.step (jCommit_same ..) (by decide) ?_
    | with_reducible refine SameBut.step (countT_same ..) (by decide) ?_
    | with_reducible refine SameBut.step (SameBut.foldl ?_ _ _) (List.Subset.refl _) ?_
    | (intro p hp; cases p <;> first | exact absurd (by decide) hp | rfl)
    | (rw [State.mk_eq_updated]; with_reducible refine SameBut.upd ?_ ?_)
    | intro _ _
    | split)

theorem issueRow_same (s : State) (t : ℕ) (row : ℕ) : SameBut [.sram, .update, .ports, .tally, .journal, .integ, .events, .mgmt, .free] s (issueRow s t row) := by
  dsimp only [issueRow]
  repeat' (first
    | with_reducible exact SameBut.refl _ _
    | with_reducible refine SameBut.step (issueCoal_same ..) (by decide) ?_
    | with_reducible refine SameBut.step (SameBut.foldl ?_ _ _) (List.Subset.refl _) ?_
    | intro _ _)

theorem putField_same (s : State) (t : ℕ) (row : ℕ) (lsb : ℕ) (w : ℕ) (v : ℕ) : SameBut [.sram, .integ, .events, .mgmt, .free] s (putField s t row lsb w v) := by
  dsimp only [putField]
  repeat' (first
    | with_reducible exact SameBut.refl _ _
    | with_reducible refine SameBut.step (rmw_same ..) (by decide) ?_)

theorem linkPut_same (s : State) (t : ℕ) (row : ℕ) (v : ℕ) : SameBut [.sram, .integ, .events, .mgmt, .free] s (linkPut s t row v) := by
  dsimp only [linkPut]
  repeat' (first
    | with_reducible exact SameBut.refl _ _
    | with_reducible refine SameBut.step (putField_same ..) (by decide) ?_)

theorem linkDec_same (s : State) (t : ℕ) (row : ℕ) : SameBut [.sram, .update, .ports, .tally, .journal, .integ, .events, .mgmt, .free] s (linkDec s t row) := by
  dsimp only [linkDec]
  repeat' (first
    | with_reducible exact SameBut.refl _ _
    | with_reducible refine SameBut.step (issueRow_same ..) (by decide) ?_
    | with_reducible refine SameBut.step (touchQ_same ..) (by decide) ?_
    | with_reducible refine SameBut.step (event_same ..) (by decide) ?_
    | with_reducible refine SameBut.step (linkPut_same ..) (by decide) ?_
    | split)

theorem finalCopy_same (s : State) (w : ℕ) (c : GCopy) : SameBut [.tcam, .sram, .integ, .events, .mgmt, .free] s (finalCopy s w c) := by
  dsimp only [finalCopy]
  repeat' (first
    | with_reducible exact SameBut.refl _ _
    | with_reducible refine SameBut.step (setG_same ..) (by decide) ?_
    | with_reducible refine SameBut.step (clearEntry_same ..) (by decide) ?_
    | split)

theorem releaseSels_same (s : State) (g : ℕ) : SameBut [.tcam] s (releaseSels s g) :=
  ⟨fun p hp => by cases p <;> first | rfl | exact absurd (by decide) hp⟩

theorem carryH_same (s : State) (w : ℕ) (m : ℕ × ℕ) : SameBut [.tcam] s (carryH s w m) := by
  dsimp only [carryH]
  repeat' (first
    | with_reducible exact SameBut.refl _ _
    | with_reducible refine SameBut.step (writeH_same ..) (by decide) ?_
    | split)

theorem basteDec_same (s : State) (l : ℕ) : SameBut [.sram, .update, .ports, .tally, .journal, .integ, .events, .mgmt, .free] s (basteDec s l) := by
  have a := issueRow_same s tBMAP l
  dsimp only [basteDec]
  generalize issueRow s tBMAP l = u at a ⊢
  split
  · exact (a.mono (by decide)).trans ((touchQ_same ..).mono (by decide))
  · split
    · exact a.mono (by decide)
    · exact (a.mono (by decide)).trans ((putField_same ..).mono (by decide))

theorem drainAnswer_same (s : State) (x : Gate) (late : Bool) : SameBut [.update, .ports, .tally, .events, .mgmt, .free] s (drainAnswer s x late) := by
  dsimp only [drainAnswer]
  repeat' (first
    | with_reducible exact SameBut.refl _ _
    | with_reducible refine SameBut.step (answer_same ..) (by decide) ?_
    | with_reducible refine SameBut.step (countT_same ..) (by decide) ?_
    | with_reducible refine SameBut.step (SameBut.foldl ?_ _ _) (List.Subset.refl _) ?_
    | intro _ _
    | split)

theorem moveCopy_same (s : State) (w : ℕ) (b : ℕ) (src : ℕ) (dst : ℕ) (g : BitVec 2) : SameBut [.tcam, .sram, .integ, .events, .mgmt, .free] s (moveCopy s w b src dst g) := by
  dsimp only [moveCopy]
  repeat' (first
    | with_reducible exact SameBut.refl _ _
    | with_reducible refine SameBut.step (carrySlot_same ..) (by decide) ?_
    | with_reducible refine SameBut.step (setEntry_same ..) (by decide) ?_)

theorem openMoveTo_same (s : State) (t : ℕ) (l : Loc) (m : ℕ × ℕ) (g1 : ℕ) : SameBut [.tcam, .marker, .sram, .integ, .events, .mgmt, .free] s (openMoveTo s t l m g1) := by
  dsimp only [openMoveTo]
  repeat' (first
    | with_reducible exact SameBut.refl _ _
    | with_reducible refine SameBut.step (armCopies_same ..) (by decide) ?_
    | with_reducible refine SameBut.step (moveCopy_same ..) (by decide) ?_
    | with_reducible refine SameBut.step (openGate_same ..) (by decide) ?_
    | with_reducible refine SameBut.step (SameBut.foldl ?_ _ _) (List.Subset.refl _) ?_
    | intro _ _)

theorem openMoveFrom_same (s : State) (t : ℕ) (l : Loc) (m : ℕ × ℕ) (g2 : ℕ) (j : Word) : SameBut [.tcam, .marker] s (openMoveFrom s t l m g2 j) := by
  dsimp only [openMoveFrom]
  repeat' (first
    | with_reducible exact SameBut.refl _ _
    | with_reducible refine SameBut.step (armCopies_same ..) (by decide) ?_
    | with_reducible refine SameBut.step (setG_same ..) (by decide) ?_
    | with_reducible refine SameBut.step (openGate_same ..) (by decide) ?_
    | with_reducible refine SameBut.step (SameBut.foldl ?_ _ _) (List.Subset.refl _) ?_
    | intro _ _)

theorem finishGate_same (s : State) (g : Nat) : SameBut [.tcam, .marker, .sram, .update, .ports, .tally, .journal, .integ, .events, .mgmt, .free] s (finishGate s g) := by
  unfold finishGate
  exact SameBut.step (drainAnswer_same ..) (by decide) (SameBut.step (jApplied_same ..) (by decide) (SameBut.step (setGate_same ..) (by decide)
    (SameBut.step (releaseSels_same ..) (by decide) (SameBut.step (SameBut.foldl (fun u b => basteDec_same u b) _ _) (by decide)
      (SameBut.step (SameBut.foldl (fun u r => linkDec_same u (getGate s g).table r) _ _) (by decide)
        (SameBut.step (SameBut.foldl (fun u c => finalCopy_same u (tWidth s (getGate s g).table) c) _ _) (by decide)
          ((SameBut.foldl (fun u m => carryH_same u (tWidth s (getGate s g).table) m) _ _).mono (by decide))))))))

theorem settleGate_same (s : State) (g : Nat) : SameBut [.tcam, .marker, .sram, .update, .ports, .tally, .journal, .integ, .events, .mgmt, .free] s (settleGate s g) := by
  unfold settleGate
  split
  · exact finishGate_same s g
  · exact SameBut.refl _ _

theorem settleGates_same (s : State) : SameBut [.tcam, .marker, .sram, .update, .ports, .tally, .journal, .integ, .events, .mgmt, .free] s (settleGates s) :=
  SameBut.foldl (fun u g => settleGate_same u g) _ _

theorem relocate_some {s : State} {e t : Nat} {l : Loc} {m : Nat × Nat} {u : State} {b : Bool} (h : relocate s e t l m = some (u, b)) :
    SameBut [.tcam, .marker, .sram, .update, .ports, .tally, .journal, .integ, .events, .mgmt, .free] s u := by
  unfold relocate at h
  split at h
  · cases h
  · split at h
    · cases h
    · rename_i g1 _
      dsimp only at h
      split at h
      · cases h
      · rename_i g2 _
        cases h
        exact (((((jCommit_same ..).mono (by decide)).trans ((openMoveTo_same ..).mono (by decide))).trans
          ((openMoveFrom_same ..).mono (by decide))).trans ((countT_same ..).mono (by decide))).trans
          ((settleGate_same _ g2).trans (settleGate_same _ g1))

theorem relocateAll_same (e t : Nat) (ms : List (Loc × Nat × Nat)) (n : Nat) (s : State) :
    SameBut [.tcam, .marker, .sram, .update, .ports, .tally, .journal, .integ, .events, .mgmt, .free] s (relocateAll e t ms n s).1 := by
  fun_induction relocateAll e t ms n s with
  | case1 => exact SameBut.refl _ _
  | case2 => exact SameBut.refl _ _
  | case3 => exact (relocate_some (by assumption)).trans (by assumption)
  | case4 => exact relocate_some (by assumption)

/-- A change of Waitos's own changes what its update changes, the journal and the store's counters; a refused one changes nothing. -/
theorem jChange_same {ps : List Part} {s : State} {rs : List JRec} {f : State → State} (hp : [.journal, .mgmt] ⊆ ps)
    (hf : ∀ t, SameBut ps t (f t)) : SameBut ps s (jChange s rs f) := by
  unfold jChange
  split
  · exact ((jCommit_same ..).mono hp).trans (hf _)
  · exact SameBut.refl _ _

end Sys2Proof.Machine
end

