-- ==== Sys2Proof/Laws/Journal.lean ====
section
/-! SUPPORT. Laws of the journal buffer (Machine/Journal.lean): a record that enters stands behind all others, and none is lost. -/

namespace Sys2Proof.Machine

open Sys2Proof

theorem framePush_recs (t : Nat) (e : JEntry) (fs : List Frame) :
    (framePush t e fs).flatMap (·.recs) = fs.flatMap (·.recs) ++ [e] := by
  fun_induction framePush t e fs with
  | case1 => simp [Frame.push, Frame.fresh]
  | case2 => simp [Frame.push]
  | case3 => simp [Frame.push, Frame.fresh]
  | case4 f g fs ih => simp_all

/-- The records of the frames after a group has entered: those before it, then the group. -/
theorem framesWith_recs (t : Nat) (es : List JEntry) (fs : List Frame) :
    (framesWith t es fs).flatMap (·.recs) = fs.flatMap (·.recs) ++ es := by
  unfold framesWith
  induction es generalizing fs with
  | nil => simp
  | cons e es ih => simp [ih, framePush_recs]

/-- Marking MORE keeps the records in their order. -/
theorem markMore_bodies (j : Word) (rs : List JRec) : (markMore j rs).map (·.body) = rs := by
  fun_induction markMore j rs <;> simp_all

/-- Every record so marked carries the JSN. -/
theorem markMore_jsn (j : Word) (rs : List JRec) : ∀ e ∈ markMore j rs, e.jsn = j := by
  fun_induction markMore j rs <;> simp_all

/-- A group holds its records in their order, each followed by its extension records. -/
theorem groupOf_bodies (j : Word) (rs : List JRec) : (groupOf j rs).map (·.body) = rs.flatMap expandRec := markMore_bodies j _

/-- Every record of a group carries its JSN. -/
theorem groupOf_jsn (j : Word) (rs : List JRec) : ∀ e ∈ groupOf j rs, e.jsn = j := markMore_jsn j _

end Sys2Proof.Machine
end

