-- ==== Sys2Proof/WellFormed.lean ====
section
/-! DEFINITION. Which operands name a thing that the TZ8 has: the ranges of R4 to R7, R22, R318, R336, R369, R523. -/

namespace Sys2Proof

/-- An arbiter number (R298): 2,112 bank, 5,120 macro, 11 port egress and 8 store channel arbiters. -/
def arbOk (a : Nat) : Bool := decide (a < 7251)

/-- A logical bank number (R5, R22). -/
def bankOk (b : Nat) : Bool := decide (b < 2112)

/-- A bank group of the drain-freeze bits (R312): 66 groups of 32 sites. -/
def groupOk (g : Nat) : Bool := decide (g < 66)

/-- A marker directory index (R68). -/
def dirOk (d : Nat) : Bool := decide (d < 16384)

/-- An operation handle (R523). -/
def handleOk (h : Nat) : Bool := decide (1 ≤ h ∧ h ≤ 4095)

/-- A store band (R418). -/
def storeBandOk (b : Nat) : Bool := decide (b < 32768)

/-- A repaired-lane list names each lane once. -/
def lanesDistinct (l : List (Fin 64)) : Bool := decide l.Nodup

/-- Whether the operands of a command name things that the TZ8 has. Register values, message contents and pin times
are the world's own and always well formed. -/
def Instr.wellFormed : Instr → Bool
  | .arbiterDecision a _ => arbOk a
  | .stallCutoff a => arbOk a
  | .freezeTimeout g => groupOk g
  | .replicaRelease d => dirOk d
  | .refreshGroup b => bankOk b
  | .bankSelfTest b r => bankOk b && decide (r.toNat ≤ 8)
  | .selfTestDone b => bankOk b
  | .bandCondition b => storeBandOk b
  | .opDone h _ _ => h == 0 || handleOk h
  | .handleFree h => handleOk h
  | .romTrap _ _ w _ => decide (w < 524288)
  | .romScrub (.rom _ w) => decide (w < 524288)
  | .linkTrained _ r t x => decide (r.toNat < 3) && lanesDistinct t && lanesDistinct x
  | .bandWrite _ b => decide (b.toNat ≤ 7)
  | _ => true

end Sys2Proof
end

