-- ==== Sys2Proof/Tests/Slice0.lean ====
section
/-! SUPPORT. Tests of the model's own: ill-formed operands are refused by their check, values worked out in the spec come out, and each
statement of Certificates/Slice0/Obligations.lean has states and operands that meet the hypotheses of each of its clauses. -/

namespace Sys2Proof.Tests

set_option Elab.async false

open Sys2Proof Sys2Proof.Machine

/-! ## Well-formed operands: each check refuses an ill-formed term, and takes the last one in its range -/

theorem test_wellFormed_arb : Instr.wellFormed (.arbiterDecision 7251 ⟨0, [], [], false⟩) = false ∧ Instr.wellFormed (.arbiterDecision 7250 ⟨0, [], [], true⟩) = true ∧
    Instr.wellFormed (.stallCutoff 7251) = false := by decide +kernel

theorem test_wellFormed_group : Instr.wellFormed (.freezeTimeout 66) = false ∧ Instr.wellFormed (.freezeTimeout 65) = true := by decide

theorem test_wellFormed_dir : Instr.wellFormed (.replicaRelease 16384) = false ∧ Instr.wellFormed (.replicaRelease 16383) = true := by decide

theorem test_wellFormed_bank : Instr.wellFormed (.refreshGroup 2112) = false ∧ Instr.wellFormed (.refreshGroup 2111) = true ∧
    Instr.wellFormed (.bankSelfTest 0 9) = false ∧ Instr.wellFormed (.bankSelfTest 0 8) = true ∧ Instr.wellFormed (.selfTestDone 2112) = false := by decide

theorem test_wellFormed_storeBand : Instr.wellFormed (.bandCondition 32768) = false ∧ Instr.wellFormed (.bandCondition 32767) = true := by decide

theorem test_wellFormed_handle : Instr.wellFormed (.handleFree 0) = false ∧ Instr.wellFormed (.handleFree 4096) = false ∧
    Instr.wellFormed (.opDone 4096 0 0) = false ∧ Instr.wellFormed (.opDone 0 0 0) = true ∧ Instr.wellFormed (.opDone 4095 0 0) = true := by decide

theorem test_wellFormed_romWord : Instr.wellFormed (.romTrap 0 0 524288 false) = false ∧ Instr.wellFormed (.romScrub (.rom 0 524288)) = false ∧
    Instr.wellFormed (.romScrub (.rom 0 524287)) = true := by decide

theorem test_wellFormed_lanes : Instr.wellFormed (.linkTrained 0 3 [] []) = false ∧ Instr.wellFormed (.linkTrained 0 2 [5, 5] []) = false ∧
    Instr.wellFormed (.linkTrained 0 2 [5, 6] []) = true := by decide

/-! ## Values that the spec works out -/

/-- The all-zero word has check bits 0x00, and a flipped data bit 5 gives syndrome 0x15 (10_stored_data_integrity, R367). -/
theorem test_secded_examples : secChk 0 = 0 ∧ secSyn ⟨1 <<< 5, secChk 0⟩ = 0x15 := by decide +kernel

/-- Offsets and reset values of 08_register_interface: DIE_ID's block and VIDSTAT (R513, R624). -/
theorem test_reset_registers : (regRead State.reset (.core 0) 0).1 = 0x10738BCB ∧ (regRead State.reset (.core 0) 0x0C0104).1 = 0x0A28 := by
  decide +kernel

/-! ## A small state -/

/-- A table descriptor (R484) from its kind, width code or zero, paired, composer, capacity and row width. -/
def tDesc (kind w : Nat) (paired composer : Bool) (cap rowW : Nat) : TableDesc :=
  mkSlot [(5, kind), (8, w), (10, if paired then 1 else 0), (11, if composer then 1 else 0), (16, 95), (24, 96), (48, 80), (56, 15), (64, cap), (96, rowW)]

/-- A valid directory entry of table t with one bank and one replica, the bank at place i of the list. -/
def tDir (t i : Nat) : BitVec 80 := dMake (BitVec.ofNat 80 (t + 32 + i * 2 ^ 45))

/-- A partner port in service with credits both ways. -/
def tPort : Port :=
  { Port.reset with st := pACTIVE, rate := 2, trying := 2, ready := true, hello := true,
                    grants := [(1, ⟨8, 1, 2, 5⟩), (3, ⟨8, 0, 0, 0⟩), (7, ⟨8, 0, 0, 0⟩), (8, ⟨4, 1, 0, 0⟩)],
                    helds := [(5, ⟨16, 16, 16, 16⟩), (7, ⟨16, 16, 16, 16⟩), (8, ⟨4, 4, 4, 4⟩)] }

/-- A die in service: tables 0 (TCAM), 1 (OVL), 3 (TCAM, paired), 5 (index, 128 bits a row), 8 to 12 (BMAP, BINF, CTX, MIG, SHT, the
last a composer's), owned by FW; ports 0 and 8 active. -/
def base : State :=
  { State.reset with
    pins := { Pins.reset with pwrgd := true }
    clock := { Clock.reset with running := true, time := 5000000000, elapsed := 5000000000 }
    power := { Power.reset with dom := 0xFFFFFF, pstate := 1 }
    boot := { Boot.reset with phase := .ready, step := 9 }
    prot := { Prot.reset with ownmap := 0x88888888888888888888888888888888 }
    str := { Struct.reset with tables := [(0, tDesc 1 1 false false 0 0), (1, tDesc 1 1 false false 0 0), (3, tDesc 1 1 true false 0 0), (5, tDesc 2 0 false false 64 128),
      (8, tDesc 2 0 false false 64 64), (9, tDesc 2 0 false false 64 64), (10, tDesc 2 0 false false 64 256), (11, tDesc 2 0 false false 64 128), (12, tDesc 2 0 false true 64 64)] }
    tcam := { Tcam.reset with state := [(0, 1), (1, 1), (2, 1), (1026, 1)], table := [(0, 1), (1, 2), (2, 4), (1026, 4)] }
    marker := { Marker.reset with dirA := [(0, tDir 0 0), (1, tDir 1 1), (2, tDir 3 2)], dirB := [(0, tDir 0 0), (1, tDir 1 1), (2, tDir 3 2)], list := [(1, 1), (2, 2)] }
    ports := [(0, tPort), (8, { tPort with grants := [], helds := [] })]
    therm := { Therm.reset with band := 1, decided := 1 }
    holdup := { HoldUp.reset with tableMark := true } }

/-- The journal is sealed: it takes nothing more. -/
def sSeal (s : State) : State := { s with journal := { s.journal with sealed := true } }

/-- A command at the head of engine e's queue, from register set 0. -/
def withCmd (e : Nat) (c : TCmd) (s : State) : State := setEng s e { getEng s e with queue := [c] }

/-- The conditions of AtHead, one after the other. -/
abbrev AtHeadC (s : State) (e opc : Nat) (need : State → TCmd → List Nat) (c : TCmd) : Prop :=
  headCmd s e opc = some c ∧ (c.issuer < 8 → sget [] s.tcam.repairs e = []) ∧ (getEng s e).moves = 0 ∧
    (s.update.eng.all (fun x => x.2.held.isEmpty) = true ∨
      ((getEng s e).restarts + (if mustRestart (getEng s e) (need s c) then 1 else 0) < 4 ∧ (need s c).any (resTaken s e) = false)) ∧
    (getEng s e).record = none ∧ waitsFrozen s c = false

theorem atHead_of {s : State} {e opc : Nat} {need : State → TCmd → List Nat} {c : TCmd} (h : AtHeadC s e opc need c) : AtHead s e opc need c :=
  ⟨h.1, h.2.1, h.2.2.1, h.2.2.2.1, h.2.2.2.2.1, h.2.2.2.2.2⟩

/-- An entry command of FW: opcode, table, key, care mask, TAG and result word. -/
def tEntry (o t : Nat) (key care : BitVec 96) (tag : Nat) (res : Word) : TCmd :=
  { issuer := 8, via := .regset 0,
    s0 := mkSlot [(0, 3), (4, 1), (8, o), (32, t), (40, 0xFFFFFF)] ||| ((key.setWidth 256) <<< 64) ||| ((care.setWidth 256) <<< 160),
    s1 := mkSlot [(0, 3), (8, tag), (64, res.toNat)], s2 := 0 }

/-- The state that a command leaves. -/
def ran (c : Instr) (s : State) : State := match exec c s with | .next t => t | _ => s

def cIns : TCmd := tEntry 1 0 0xABC (BitVec.allOnes 96) 96 0x1234

/-! ## Searches -/

/-- The entry of key 0xABC stands in table 0, bank 0, slot 0, with result word 0x1234. -/
def installed : State := ran (.insert 0) (withCmd 0 cIns base)

/-- A token with one step in a phase on banks. -/
def tTok (k : TokKind) (ph : StepPh) (banks : List ProbeBank) : Token :=
  { Token.blank with kind := k, key := 0xABC, lk0 := 0xABC, steps := [{ StepRun.blank with ph := ph, banks := banks }, .blank, .blank, .blank] }

/-- Bank b at its own site, not searched yet. -/
def pb (b : Nat) : ProbeBank := { bank := b, site := b, odd := b + 1, twin := none, a := none, b := none, resolve := false, out := none }

/-- A state with token tk under number 7. -/
def withTok (tk : Token) (s : State) : State := setTok s 7 (some tk)

/-- Profile slot 0, buffer 0: header, one step descriptor. -/
def withProf (h d : BitVec 128) (s : State) : State :=
  putWord (putWord (putWord (putWord s (kProf 0 0 0) (bf 0 64 h)) (kProf 0 0 1) (bf 64 64 h)) (kProf 0 0 10) (bf 0 64 d)) (kProf 0 0 11) (bf 64 64 d)

/-- A header in service for every port with n steps; a step descriptor of a kind on table t whose row is the constant r. -/
def tHdr (n : Nat) : BitVec 128 := bput 128 6 1 ||| bput 128 8 n ||| bput 128 16 5 ||| bput 128 32 255
def tIdx (t r : Nat) : BitVec 128 := bput 128 0 1 ||| bput 128 5 t ||| bput 128 12 (27 + 32 * r) ||| bput 128 29 31

/-- The search of profile 0, buffer 0, whose one step is MATCH on table 0, on the given banks. -/
def sMatchOf (ph : StepPh) (banks : List ProbeBank) (s : State) : State := withTok (tTok (.probed 8 0 1 0) ph banks) s

/-- A bank and its twin, which stands at bank 1 and its sites. -/
def pbTwin : ProbeBank := { pb 0 with twin := some (4, 4, 5) }

/-- The installed entry stands in bank 4 too, with result word r and its check word. -/
def withTwin (r : Word) (s : State) : State :=
  putWord (putWord (setEntry s 1 4 0 0 (getEntry installed 1 0 0 0)) (kSlot 4 0 0 0) r) (kSlot 4 0 0 1) (mkCheck s 0 (BitVec.allOnes 96 |>.setWidth 192) 0xABC 96)

/-- Bank 0 stands in a frozen group. -/
def frozen0 (s : State) : State := { s with arbs := { s.arbs with dfrz := 1 } }
def sMatch : State := sMatchOf .issued [pb 0] installed
/-- The same, with the check word of the winner spoilt. -/
def sSpoilt : State := putWord sMatch (kSlot 0 0 0 1) 0

theorem test_probe_lowest : (probe installed 1 0 0 1 0 0xABC none = some ⟨0, 0, 96⟩) ∧
    probe installed 1 0 0 1 0 0xABD none = none ∧ swf TRow.blank none installed.tcam.rows = true := by decide +kernel

theorem test_EntryMatchesKey : (entryMatches installed 0 0 0xABC (entryAt installed 1 0 1 0 0) = true) ∧
    entryMatches installed 0 0 0xABD (entryAt installed 1 0 1 0 0) = false ∧
    entryMatches installed 0 0 0xABC { entryAt installed 1 0 1 0 0 with side := Side.zero } = false := by decide +kernel

/-- MATCH_STEP: frozen; no match, a winner that validates, one whose result slot is uncorrectable, and one that does not validate; a twin
pair that has none, differs, and agrees. -/
theorem test_BanksAnswerTheirLowestMatch :
    (sKind (tokDesc sMatch (tTok (.probed 8 0 1 0) .issued [pb 0]) 0) = 2 ∧ isBroadcast sMatch 0 = false ∧
      frozenProbe sMatch 1 [pb 0] = false ∧ frozenProbe (frozen0 sMatch) 1 [pb 0] = true) ∧
    (probe sMatch (tWidth sMatch 0) 0 0 1 0 0xABC none).isSome = true ∧
    ((look sMatch 0 1 0xABC 0 0 1 ⟨0, 0, 96⟩).ok = true ∧ (look sMatch 0 1 0xABC 0 0 1 ⟨0, 0, 96⟩).res = 0x1234) ∧
    (probe base 1 0 0 1 0 0xABC none = none) ∧
    ((look sSpoilt 0 1 0xABC 0 0 1 ⟨0, 0, 96⟩).ok = false ∧ (look sSpoilt 0 1 0xABC 0 0 1 ⟨0, 0, 96⟩).bad = false) ∧
    ((look (putCw sMatch (kSlot 0 0 0 1) ⟨3, 0⟩) 0 1 0xABC 0 0 1 ⟨0, 0, 96⟩).bad = true) ∧
    ((getTok (ran (.matchStep 7 0) sMatch) 7).map (fun t => (stepAt t 0).o0) = some 0x1234) ∧
    (getTok (ran (.matchStep 7 0) sSpoilt) 7).map (fun t => (stepAt t 0).ph) = some .disagree := by decide +kernel

theorem test_TwinsAnswerAlike :
    (probe base 1 0 0 1 0 0xABC none = none ∧ probe base 1 4 4 5 0 0xABC none = none) ∧
    ((probe installed 1 0 0 1 0 0xABC none).map (fun a => (a.slot, a.half)) = some (0, 0) ∧ probe installed 1 4 4 5 0 0xABC none = none) ∧
    ((probe (withTwin 0x1234 installed) 1 4 4 5 0 0xABC none).map (fun a => (a.slot, a.half)) = some (0, 0)) ∧
    ((getTok (ran (.matchStep 7 0) (sMatchOf .issued [pbTwin] installed)) 7).map (fun t => (stepAt t 0).ph) = some .disagree) ∧
    ((getTok (ran (.matchStep 7 0) (sMatchOf .issued [pbTwin] (withTwin 0x1234 installed))) 7).map (fun t => ((stepAt t 0).ph, (stepAt t 0).o0)) = some (.ended, 0x1234)) := by
  decide +kernel

/-- The step of bank 0, alone or with its twin, is to be resolved; a and b are what the two banks gave. -/
def pbDis (twin : Bool) (a b : Bool) : ProbeBank :=
  { pb 0 with twin := if twin then some (4, 4, 5) else none, a := if a then some ⟨0, 0, 96⟩ else none, b := if b then some ⟨0, 0, 96⟩ else none, resolve := true }
/-- A second entry of the same key at slot 1 of bank 0. -/
def twoWin : State :=
  let s := setEntry installed 1 0 1 0 (mkEntry (BitVec.allOnes 96 |>.setWidth 192) 0xABC 96 true 0)
  putWord (putWord (putWord s (kSlot 0 1 0 0) 0x5678) (kSlot 0 1 0 1) (mkCheck s 0 (BitVec.allOnes 96 |>.setWidth 192) 0xABC 96)) (kSlot 0 0 0 1) 0

/-- DISAGREEMENT_RESOLUTION on one bank: a reprobe without a winner, and with one that validates. -/
theorem test_DisagreementResolves :
    (probe sSpoilt 1 0 0 1 0 0xABC (some (0, 0)) = none) ∧
    (probe twoWin 1 0 0 1 0 0xABC (some (0, 0)) = some ⟨1, 0, 96⟩ ∧ (look twoWin 0 1 0xABC 0 0 1 ⟨1, 0, 96⟩).ok = true ∧ twoWin.integ.rederive.length < 254) ∧
    ((getTok (ran (.disagreementResolution 7 0) (sMatchOf .disagree [pbDis false true false] sSpoilt)) 7).map (fun t => ((stepAt t 0).fail, t.rsv)) = some (some .poison, true)) ∧
    ((getTok (ran (.disagreementResolution 7 0) (sMatchOf .disagree [pbDis false true false] twoWin)) 7).map (fun t => (stepAt t 0).o0) = some 0x5678) ∧
    (ran (.disagreementResolution 7 0) (sMatchOf .disagree [pbDis false true false] sSpoilt)).integ.rederive = [.entry 0 0 0] := by decide +kernel

/-- DISAGREEMENT_RESOLUTION of a twin pair: one that answered alone; an uncorrectable slot; equal result slots; different ones; an
unsound winner beside a sound one; none sound, with and without another match. -/
theorem test_TwinsResolve :
    ((look installed 0 1 0xABC 0 0 1 ⟨0, 0, 96⟩).good = true ∧ (look (withTwin 0x1234 installed) 0 1 0xABC 4 4 5 ⟨0, 0, 96⟩).good = true ∧
      (look (withTwin 0x9 installed) 0 1 0xABC 4 4 5 ⟨0, 0, 96⟩).res = 9 ∧ (look sSpoilt 0 1 0xABC 0 0 1 ⟨0, 0, 96⟩).good = false) ∧
    ((sget [] (ran (.disagreementResolution 7 0) (sMatchOf .disagree [pbDis true true false] installed)).tcam.repairs 0).map (fun r => (r.src, r.dst)) = [(0, 4)] ∧
      sget 0 (ran (.disagreementResolution 7 0) (sMatchOf .disagree [pbDis true true false] installed)).tcam.disag 4 = 1) ∧
    ((getTok (ran (.disagreementResolution 7 0) (sMatchOf .disagree [pbDis true true true] (putCw installed (kSlot 0 0 0 1) ⟨3, 0⟩))) 7).map (fun t => (stepAt t 0).fail) = some (some .poison)) ∧
    ((getTok (ran (.disagreementResolution 7 0) (sMatchOf .disagree [pbDis true true true] (withTwin 0x1234 installed))) 7).map (fun t => (stepAt t 0).hit) = some true) ∧
    (seenBefore 1 (look installed 0 1 0xABC 0 0 1 ⟨0, 0, 96⟩) (look (withTwin 0x9 installed) 0 1 0xABC 4 4 5 ⟨0, 0, 96⟩) = true ∧
      (getTok (ran (.disagreementResolution 7 0) (sMatchOf .disagree [pbDis true true true] (withTwin 0x9 installed))) 7).map (fun t => (stepAt t 0).o0) = some 0x1234) ∧
    (reprobe sSpoilt 1 0 0xABC (look sSpoilt 0 1 0xABC 0 0 1 ⟨0, 0, 96⟩) = none ∧ (getTok (ran (.disagreementResolution 7 0) (sMatchOf .disagree [pbDis true true false] sSpoilt)) 7).map (fun t => ((stepAt t 0).hit, (stepAt t 0).fail)) = some (false, none)) ∧
    ((getTok (ran (.disagreementResolution 7 0) (sMatchOf .disagree [pbDis true true true] (withTwin 0x1234 sSpoilt))) 7).map (fun t => (stepAt t 0).hit) = some true) ∧
    ((reprobe (putWord twoWin (kSlot 0 1 0 1) 0) 1 0 0xABC (look twoWin 0 1 0xABC 0 0 1 ⟨0, 0, 96⟩)).isSome = true ∧
      (getTok (ran (.disagreementResolution 7 0) (sMatchOf .disagree [pbDis true true false] (putWord twoWin (kSlot 0 1 0 1) 0))) 7).map (fun t => (stepAt t 0).fail) = some (some .poison)) := by
  decide +kernel

def tRep (res : Word) : Repair :=
  let e := getEntry installed 1 0 0 0
  { src := 0, dst := 1024, slot := 0, half := 0, care := e.care, val := e.val, side := e.side, rword := res, chk := (peek installed (kSlot 0 0 0 1)).data, scrub := false }
def withRep (r : Repair) : State := { installed with tcam := { installed.tcam with repairs := [(4, [r])] } }

/-- REPAIR_WRITE: a copy that holds what was read, and one that does not. -/
theorem test_RepairWriteMakesOrDrops :
    (bankTable (withRep (tRep 0x1234)) 0 = some 0 ∧ repairHolds (withRep (tRep 0x1234)) 0 (tRep 0x1234) = true ∧
      (getEntry (withRep (tRep 0x1234)) 1 0 0 0).side.g = 0 ∧ (getEntry (withRep (tRep 0x1234)) 1 1024 0 0).side.g = 0) ∧
    repairHolds (withRep (tRep 1)) 0 (tRep 1) = false ∧
    (getEntry (ran (.repairWrite 4) (withRep (tRep 0x1234))) 1 1024 0 0).val = 0xABC ∧
    (getEntry (ran (.repairWrite 4) (withRep (tRep 1))) 1 1024 0 0).side.v = false := by decide +kernel

/-- DISAGREEMENT_RESOLUTION waits for a frozen bank; REPAIR_WRITE for a frozen bank of the repair at its head. -/
theorem test_FrozenBanksWait :
    (frozenProbe sSpoilt 1 (([pbDis false true false]).filter (·.resolve)) = false ∧ frozenProbe (frozen0 sSpoilt) 1 (([pbDis false true false]).filter (·.resolve)) = true) ∧
    ((getTok (ran (.disagreementResolution 7 0) (sMatchOf .disagree [pbDis false true false] (frozen0 twoWin))) 7).map (fun t => (stepAt t 0).ph) = some .disagree) ∧
    (repairFrozen (withRep (tRep 1)) (tRep 1) = false ∧ (sget [] (frozen0 (withRep (tRep 1))).tcam.repairs 4).all (repairFrozen (frozen0 (withRep (tRep 1)))) = true) := by
  decide +kernel

/-- A search of profile 0 with key 5 and request tag 9, at the head of port 0. -/
def tReq (op : Nat) : Slot := mkSlot [(0, 1), (4, op), (16, 9), (64, 5)]
def withIn (p c : Nat) (x : Slot) (s : State) : State := modPort s p (fun y => { y with ingress := [(c, [x])] })
def srchAt (op : Nat) : State := withIn 0 cSRCH (tReq op) (withProf (tHdr 0) 0 base)

/-- SRCH: outside ready, with a tag in use, with an operation that admission answers, and admitted. -/
theorem test_SearchAdmission :
    (ingressHead (srchAt 0) 0 cSRCH = some (tReq 0) ∧ admitting (srchAt 0) = true ∧ admitting { srchAt 0 with boot := .reset } = false) ∧
    ((getPort (modPort (srchAt 0) 0 (fun y => { y with tags := [9] })) 0).tags.contains (qTag (tReq 0)) = true) ∧
    (profBad (srchAt 1) 0 0 = false ∧ admissionStatus (srchAt 1) 0 (tReq 1) = some .malformed) ∧
    ((getPort (srchAt 0) 0).tags = [] ∧ tokensOf (srchAt 0) 0 (fun _ => true) = 0 ∧ admissionStatus (srchAt 0) 0 (tReq 0) = none ∧ crewSize (srchAt 0) = 1) ∧
    (getTok (ran (.srch 0) (srchAt 0)) 0).map (fun t => (t.tag, t.ver)) = some (9, 5) := by decide +kernel

def tAns (ph : TokPh) (incarn : BitVec 16) : State :=
  withTok { tTok .partner .idle [] with ph := ph, tag := 9, incarn := incarn } (modPort base 0 (fun y => { y with tags := [9] }))

/-- SRSP, LATE_WATCHDOG and TOKEN_RETIRE: each phase of a token, its own incarnation and another. -/
theorem test_SearchAnsweredOnce :
    ((getTok (tAns .resolved 0) 7).map (fun t => t.ph) = some .resolved ∧ (getPort (tAns .resolved 0) 0).incarn = 0) ∧
    ((getPort (tAns .resolved 1) 0).incarn ≠ 1 ∧ swf Port.reset none (tAns .resolved 1).ports = true ∧ swf 0 none (tAns .resolved 1).mgmt.counters = true) ∧
    (getPort (ran (.srsp 7) (tAns .resolved 0)) 0).tags = [] ∧
    (getTok (ran (.lateWatchdog 7) (tAns .running 0)) 7).map (fun t => (t.ph, t.st)) = some (.answered, .late) ∧
    (getTok (ran (.lateWatchdog 7) (tAns .away 0)) 7).map (fun t => t.st) = some .late ∧
    swf none none (tAns .answered 0).search.tokens = true ∧ getTok (ran (.tokenRetire 7) (tAns .answered 0)) 7 = none := by decide +kernel

/-- SRCH answered INTERNAL with a header that reads: its descriptor does not. SRSP with an empty egress, and in a retrain, where the
tag stays in flight. -/
def srchInt : State := putCw (withIn 0 cSRCH (tReq 0) (withProf (tHdr 1) (tIdx 5 1) base)) (kProf 0 0 10) ⟨3, 0⟩

def sRetrain : State := modPort (tAns .resolved 0) 0 (fun y => { y with st := pRETRAIN })

theorem test_SearchesAnswerInternal :
    (admissionStatus srchInt 0 (tReq 0) = some .internal ∧ headerRead srchInt 0 = true) ∧
    ((getPort (tAns .resolved 0) 0).egress = [] ∧ linkUp (getPort (tAns .resolved 0) 0) = true ∧ (getPort (tAns .resolved 0) 0).tags.contains 9 = true) ∧
    ((getPort (ran (.srsp 7) sRetrain) 0).tags = [9] ∧ (getPort (ran (.srsp 7) sRetrain) 0).egress.length = 1) := by decide +kernel

/-- Index table 5 of 64 rows; row 63 is the last, row 64 is beyond it. A table of lists for an allocation stands at number 6. -/
def idxAt (t r : Nat) (lists : Sparse (List Nat)) : State :=
  let s := { base with str := { base.str with tables := sput 0 base.str.tables 6 (tDesc 4 0 false false 18 0) }, life := { base.life with lists := lists } }
  withTok (tTok .partner .issued []) (withProf (tHdr 1) (tIdx t r) s)

theorem test_IndexStepReadsOrAllocates :
    (sKind (tokDesc (idxAt 5 63 []) (tTok .partner .issued []) 0) = 1 ∧ frReg (sCond (tokDesc (idxAt 5 63 []) (tTok .partner .issued []) 0)) = 31) ∧
    (frVal (stepReg (tTok .partner .issued [])) (sRow (tIdx 5 63)) = 63 ∧ tCap (idxAt 5 63 []) 5 = 64 ∧ tKind (idxAt 5 63 []) 5 = 2 ∧ rowBad (idxAt 5 63 []) 5 63 = false) ∧
    (frVal (stepReg (tTok .partner .issued [])) (sRow (tIdx 6 16)) = 16 ∧ tKind (idxAt 6 16 []) 6 = 4 ∧ sget [] (idxAt 6 16 [(16, [77])]).life.lists 16 = [77] ∧
      swf [] none (idxAt 6 16 [(16, [77])]).life.lists = true) ∧
    (getTok (ran (.indexStep 7 0) (idxAt 5 63 [])) 7).map (fun t => (stepAt t 0).hit) = some true ∧
    ((tCap (idxAt 6 18 []) 6 ≤ 18) ∧ frVal (stepReg (tTok .partner .issued [])) (sRow (tIdx 6 18)) = 18) ∧
    (getTok (ran (.indexStep 7 0) (idxAt 6 18 [])) 7).map (fun t => (stepAt t 0).fail) = some (some .malformed) ∧
    (getTok (ran (.indexStep 7 0) (idxAt 6 16 [(16, [77])])) 7).map (fun t => t.resv) = some [⟨16, 77⟩] ∧
    (getTok (ran (.indexStep 7 0) (idxAt 6 16 [])) 7).map (fun t => (stepAt t 0).ph) = some .ended := by decide +kernel

/-- An INDEX step whose condition is a constant that is not zero: its alternate row 17 of table 6. One whose row is the 7 low bits
of the step's first outcome register. -/
def tAlt : BitVec 128 := bput 128 0 1 ||| bput 128 5 6 ||| bput 128 12 (27 + 32 * 16) ||| bput 128 29 (27 + 32) ||| bput 128 46 6 ||| bput 128 51 (27 + 32 * 17)

def tFrom : BitVec 128 := bput 128 0 1 ||| bput 128 5 5 ||| bput 128 12 (6 * 2048) ||| bput 128 29 31

def stepWith (d : BitVec 128) (x : StepRun) (s : State) : State :=
  withTok { tTok .partner .issued [] with steps := [{ x with ph := .issued }, .blank, .blank, .blank] } (putWord (putWord s (kProf 0 0 10) (bf 0 64 d)) (kProf 0 0 11) (bf 64 64 d))

/-- INDEX_STEP at a word that cannot be read, at a row that an outcome register names beyond the table, at alternate row 17, and
with a full in-hand set. -/
theorem test_IndexStepFails :
    (rowBad (putCw (idxAt 5 63 []) (rowKey base 5 63 0) ⟨3, 0⟩) 5 63 = true ∧
      (getTok (ran (.indexStep 7 0) (putCw (idxAt 5 63 []) (rowKey base 5 63 0) ⟨3, 0⟩)) 7).map (fun t => (stepAt t 0).fail) = some (some .poison)) ∧
    (fromOutcome (sRow tFrom) = true ∧ (getTok (stepWith tFrom { StepRun.blank with o0 := 64 } (idxAt 5 63 [])) 7).map (fun t => frVal (stepReg t) (sRow tFrom)) = some 64 ∧
      (getTok (ran (.indexStep 7 0) (stepWith tFrom { StepRun.blank with o0 := 64 } (idxAt 5 63 []))) 7).map (fun t => (stepAt t 0).fail) = some (some .internal)) ∧
    (frReg (sCond tAlt) ≠ 31 ∧ (getTok (stepWith tAlt .blank (idxAt 6 16 [(17, [77])])) 7).map (fun t => (condHolds t tAlt, frVal (stepReg t) (sArow tAlt))) = some (true, 17) ∧
      (getTok (ran (.indexStep 7 0) (stepWith tAlt .blank (idxAt 6 16 [(17, [77])]))) 7).map (fun t => ((stepAt t 0).ph, t.resv)) = some (.ended, [])) ∧
    ((getTok (ran (.indexStep 7 0) { idxAt 6 16 [(16, [77])] with life := { (idxAt 6 16 [(16, [77])]).life with inhand := [(0, (List.range 1024).map (fun i => (i, 0)))] } }) 7).map (fun t => (stepAt t 0).fail) = some (some .malformed)) := by
  decide +kernel

/-- Level 0 of a search with the step of level 0 in a phase, a failure of it, and a second step of level n. -/
def lvlTok (ph : StepPh) (f : Option Status) : Token :=
  { tTok .partner ph [] with steps := [{ StepRun.blank with ph := ph, fail := f }, .blank, .blank, .blank] }
def lvlAt (n : Nat) (tk : Token) : State :=
  withTok tk (putWord (withProf (tHdr 2) (tIdx 5 1) base) (kProf 0 0 12) (bf 0 64 (tIdx 5 2 ||| bput 128 3 n)))
def lvlSteps (n : Nat) (tk : Token) : List Nat :=
  (List.range tk.steps.length).filter (fun i => decide (sKind (tokDesc (lvlAt n tk) tk i) ≠ 0) && decide (sLevel (tokDesc (lvlAt n tk) tk i) = tk.level))
def lvlMore (n : Nat) (tk : Token) : Bool :=
  (List.range tk.steps.length).any (fun i => decide (sKind (tokDesc (lvlAt n tk) tk i) ≠ 0) && decide (sLevel (tokDesc (lvlAt n tk) tk i) = tk.level + 1))

theorem test_LevelEndGoesOn :
    (((lvlSteps 1 (lvlTok .issued none)).map (stepAt (lvlTok .issued none))).any (fun x => x.ph ≠ .ended) = true) ∧
    ((lvlSteps 1 (lvlTok .ended (some .poison))) = [0] ∧ levelFail ((lvlSteps 1 (lvlTok .ended (some .poison))).map (stepAt (lvlTok .ended (some .poison)))) = some .poison) ∧
    (levelFail ((lvlSteps 1 (lvlTok .ended none)).map (stepAt (lvlTok .ended none))) = none ∧ lvlMore 1 (lvlTok .ended none) = true) ∧
    (lvlMore 2 (lvlTok .ended none) = false ∧ (compose (lvlAt 2 (lvlTok .ended none)) (lvlTok .ended none)).1.bad = false ∧
      (compose (lvlAt 2 (lvlTok .ended none)) (lvlTok .ended none)).1.st ≠ .exhausted) ∧
    (getTok (ran (.levelEnd 7) (lvlAt 1 (lvlTok .ended (some .poison)))) 7).map (fun t => (t.ph, t.st)) = some (.resolved, .poison) ∧
    (getTok (ran (.levelEnd 7) (lvlAt 1 (lvlTok .ended none))) 7).map (fun t => t.level) = some 1 ∧
    (getTok (ran (.levelEnd 7) (lvlAt 2 (lvlTok .ended none))) 7).map (fun t => (t.ph, t.st)) = some (.resolved, .ok) := by decide +kernel

/-- LEVEL_END of a probed token, and of a search whose allocations the journal does not take. -/
theorem test_LevelEndAnswersShares :
    (isProbed { lvlTok .ended none with kind := .probed 8 0 1 0 } = true ∧
      (getTok (ran (.levelEnd 7) (lvlAt 2 { lvlTok .ended none with kind := .probed 8 0 1 0 })) 7).map (fun t => (t.ph, t.st)) = some (.resolved, .miss)) ∧
    ((jAdmit (sSeal (lvlAt 2 (lvlTok .ended none))) [[JRec.alloc 16 77 0]]).1 = false ∧
      (getTok (ran (.levelEnd 7) (sSeal (lvlAt 2 { lvlTok .ended none with resv := [⟨16, 77⟩] }))) 7).map (fun t => (t.ph, t.st, t.resv)) = some (.resolved, .busyRetry, [])) := by
  decide +kernel

/-! ## Table commands -/

/-- The directory entries of a command's key; what the exact probe finds; the command's record group of an insert. -/
abbrev tDirs (s : State) (c : TCmd) : List Nat := dirsFor s (cTable c) (cMask s c) (cKey s c)
abbrev tFind (s : State) (c : TCmd) : List Loc × State := findEntry s (cTable c) (cMask s c) (cKey s c) (cPlen c) (tDirs s c)

/-- An index or lifecycle command of FW by its fields. -/
def tCmd (fields : List (Nat × Nat)) : TCmd := { issuer := 8, via := .regset 0, s0 := mkSlot ((0, 3) :: fields), s1 := 0, s2 := 0 }

/-- Entry, index and lifecycle commands that rule 1 of R148 refuses: an undefined table, a row beyond the last, a block beyond the last. -/
theorem test_RefusedCommands :
    (∀ o ∈ [1, 2, 3, 4], AtHeadC (withCmd 0 (tEntry o 2 0xABC 0 0 0) base) 0 o entryNeed (tEntry o 2 0xABC 0 0 0) ∧
      entryRefusal base (tEntry o 2 0xABC 0 0 0) false [] true = some .malformed) ∧
    (entryRefusal base (tEntry 1 0 0xABC 0 0x7F 0) (formBad base (tEntry 1 0 0xABC 0 0x7F 0)) [] true = some .malformed) ∧
    (entryRefusal base (tEntry 5 2 0 0 0 0) false [qFW, qSB] false = some .malformed ∧ entryRefusal base (tEntry 7 2 0 0 0 0) false [qFW] false = some .malformed) ∧
    (∀ o ∈ [0x11, 0x12, 0x13], indexRefusal base (tCmd [(8, o), (32, 5), (40, 64)]) false [] true = some .malformed) ∧
    (indexRefusal base (tCmd [(8, 0x10), (32, 5), (40, 64)]) false [qFW, qSB] false = some .malformed) ∧
    (AtHeadC (withCmd 7 (tCmd [(8, 0x11), (32, 5), (40, 64)]) base) 7 0x11 rowNeed (tCmd [(8, 0x11), (32, 5), (40, 64)]) ∧
      AtHeadC (withCmd 0 (tCmd [(8, 0x40), (40, 64)]) base) 0 0x40 (lifeNeed (fun _ c => [(tBMAP, cLblk c), (tBINF, cPA c)])) (tCmd [(8, 0x40), (40, 64)])) ∧
    (∀ o ∈ [0x40, 0x41, 0x42, 0x43, 0x45, 0x47], lifeRefusal base (tCmd [(8, o), (40, 64)]) [(tBMAP, 64)] true = some .malformed) ∧
    (lifeRefusal base (tCmd [(8, 0x4E), (64, 64)]) [(tBINF, 64)] true = some .malformed ∧ lifeRefusal base (tCmd [(8, 0x51), (64, 64)]) [(tSHT, 64)] true = some .malformed) ∧
    (lifeRefusal base (tCmd [(8, 0x4D), (64, 64)]) (condRows base (tCmd [(8, 0x4D), (64, 64)])) true = some .malformed ∧
      lifeRefusal base { tCmd [(8, 0x50)] with issuer := 1 } [(tSHT, 0)] (permPA base { tCmd [(8, 0x50)] with issuer := 1 }) = some .notOwner) ∧
    (getEng (ran (.insert 0) (withCmd 0 (tEntry 1 2 0xABC 0 0 0) base)) 0).queue = [] := by decide +kernel

/-- A write and a read by an address whose bank is none of the table's, and a sweep of no TCAM table. -/
theorem test_RefusedAddresses :
    (noBank base (tCmd [(8, 4), (40, 4 * 4096)]) = true ∧ cByKey (tCmd [(8, 4), (40, 4 * 4096)]) = false ∧
      AtHeadC (withCmd 0 (tCmd [(8, 4), (40, 4 * 4096)]) base) 0 4 entryNeed (tCmd [(8, 4), (40, 4 * 4096)]) ∧
      entryRefusal base (tCmd [(8, 4), (40, 4 * 4096)]) true [] true = some .malformed) ∧
    (noBank base (tCmd [(8, 5), (40, 4 * 4096)]) = true ∧ entryRefusal base (tCmd [(8, 5), (40, 4 * 4096)]) true [qFW, qSB] false = some .malformed ∧
      AtHeadC (withCmd 0 (tCmd [(8, 5), (40, 4 * 4096)]) base) 0 5 noNeed (tCmd [(8, 5), (40, 4 * 4096)])) ∧
    (AtHeadC (withCmd 0 (tEntry 7 2 0 0 0 0) base) 0 7 sweepNeed (tEntry 7 2 0 0 0 0)) := by decide +kernel

def sIns : State := withCmd 0 cIns base
/-- INSERT into the paired table 3, which is gated. -/
def cIns3 : TCmd := tEntry 1 3 0xABC (BitVec.allOnes 96) 96 0x1234

/-- The plain form of INSERT: nothing found, no link, no gate, no copy; a form that is refused. -/
theorem test_InsertInstallsOrFinds :
    (AtHeadC sIns 0 1 entryNeed cIns ∧ formBad sIns cIns = false ∧ entryRefusal sIns cIns false [] true = none) ∧
    (tDirs sIns cIns = [0] ∧ (tFind sIns cIns).1 = [] ∧ linkRow sIns 0 0x1234 = none) ∧
    (wordRefusal sIns 0 none none 0x1234 = none ∧ rowsHeld sIns [] [] = false) ∧
    ((planAll sIns 0 96 false [0]).map (fun ps => ps.map (fun p => (p.loc, p.moves.length))) = some [(⟨0, 0, 0, 0⟩, 0)]) ∧
    (isGated sIns 0 [0] = false ∧ (jAdmit sIns [[entryRec sIns 0 ⟨0, 0, 0, 0⟩ (cMask sIns cIns) 0xABC 96 0x1234]]).1 = true) ∧
    (tLink sIns 0 = 0 ∧ rpBlocks sIns 0 0x1234 = false ∧ mirrorsOf sIns 0 = [] ∧ copyBanks sIns 0 0 0 = [0]) ∧
    ((getEntry installed 1 0 0 0).val = 0xABC ∧ (cell installed (kSlot 0 0 0 0)) = secEnc 0x1234 ∧ installed.journal.last = 1) := by decide +kernel

/-- INSERT on a gated table, and one of an entry that is there. -/
theorem test_InsertGatesOrFinds :
    (tDirs base cIns3 = [2] ∧ isGated base 3 [2] = true ∧ (tFind base cIns3).1 = [] ∧
      ((planAll base 3 96 false [2]).map (fun ps => canGate base 0 1 ((copiesOf base 3 (ps.map (·.loc))).map (·.1))) = some true) ∧ (freeGate base 0).isSome = true) ∧
    ((getEntry (ran (.insert 0) (withCmd 0 cIns3 base)) 1 1026 0 0).val = 0xABC) ∧
    ((tFind installed cIns).1.length = 1 ∧ cReplace cIns = false) ∧
    (ran (.insert 0) (withCmd 0 cIns installed)).update.set0.rflags = 1 := by decide +kernel

/-- Table 0 counts its entries in table 5: kind bits 15:12 of value 1, row in bits 5:0, count in the row's low 16 bits. -/
def linked (s : State) : State :=
  { s with str := { s.str with tables := sput 0 s.str.tables 0 (tDesc 1 1 false false 0 0 |||
      mkSlot [(136, 5), (144, 12), (152, 3), (160, 2), (184, 5), (200, 15)]) } }

def linkedIns : State := ran (.insert 0) (withCmd 0 cIns (linked base))

/-- The count word of row 52 cannot be read. -/
def linkLost : State := putCw linkedIns (linkKey linkedIns 0 52) ⟨3, 0⟩

theorem test_LinksCount :
    (linkRow (linked base) 0 0x1234 = some 52 ∧ wordRefusal (linked base) 0 none (some 52) 0x1234 = none ∧ rowsHeld (linked base) [52] [] = false ∧ linkCount linkedIns 0 52 = 1) ∧
    (linkBad linkedIns 0 52 = false ∧ linkBad linkLost 0 52 = true ∧ (resAt linkLost ⟨0, 0, 0, 0⟩).bad = false) ∧
    (((copiesOf linkedIns 0 [⟨0, 0, 0, 0⟩]).all (fun k => (getEntry linkedIns 1 k.1 k.2.1 k.2.2).side.g == 0)) = true) ∧
    (moveBad installed 0 (⟨0, 0, 0, 0⟩, 0, 1) = none) := by decide +kernel

def cDel : TCmd := tEntry 2 0 0xABC (BitVec.allOnes 96) 96 0
def cDii : TCmd := tEntry 3 0 0xABC (BitVec.allOnes 96) 96 0
def sDel : State := withCmd 0 cDel installed
/-- The installed entry with its H bit set. -/
def hitEntry : State := let e := getEntry installed 1 0 0 0; setEntry installed 1 0 0 0 { e with side := { e.side with h := true } }

/-- DELETE of an entry that is there and of one that is not, DELETE_IF_IDLE of an idle one and of one that was hit. -/
theorem test_DeletesRemoveEntries :
    (AtHeadC sDel 0 2 entryNeed cDel ∧ entryRefusal sDel cDel false [] true = none ∧ (tFind sDel cDel).1 = [⟨0, 0, 0, 0⟩]) ∧
    ((resAt sDel ⟨0, 0, 0, 0⟩).bad = false ∧ (linkRow sDel 0 0x1234) = none ∧ isGated sDel 0 [0] = false) ∧
    ((jAdmit sDel [[JRec.del 0 0 0]]).1 = true) ∧
    ((tFind base cDel).1 = []) ∧
    (anyH installed 1 (copiesOf installed 0 [⟨0, 0, 0, 0⟩]) = false ∧ anyH hitEntry 1 (copiesOf hitEntry 0 [⟨0, 0, 0, 0⟩]) = true ∧ canGate installed 0 1 [0] = true) ∧
    ((getEntry (ran (.delete 0) sDel) 1 0 0 0).side.v = false ∧ (ran (.delete 0) sDel).journal.last = 2) ∧
    ((ran (.delete 0) (withCmd 0 cDel base)).update.set0.st = 1) ∧
    ((ran (.deleteIfIdle 0) (withCmd 0 cDii hitEntry)).update.set0.st = 5) ∧
    ((getGate (ran (.deleteIfIdle 0) (withCmd 0 cDii installed)) 0).st = .draining) := by decide +kernel

/-- DELETE, DELETE_IF_IDLE and WRITE of an entry whose link row reads, and cannot be read. -/
theorem test_DeletesFollowLinks :
    ((ran (.delete 0) (withCmd 0 (tEntry 2 0 0xABC (BitVec.allOnes 96) 96 0) linkedIns)).update.set0.st = 0) ∧
    ((ran (.delete 0) (withCmd 0 (tEntry 2 0 0xABC (BitVec.allOnes 96) 96 0) linkLost)).update.set0.st = 3) ∧
    ((getGate (ran (.deleteIfIdle 0) (withCmd 0 (tEntry 3 0 0xABC (BitVec.allOnes 96) 96 0) linkedIns)) 0).st = .draining) ∧
    (linkFall (some 52) (linkRow (linked base) 0 0x1237) = [52] ∧ (linkFall (some 52) (some 55)).any (linkBad linkedIns 0) = false ∧ wordRefusal linkedIns 0 (some 52) (some 55) 0x1237 = none) := by
  decide +kernel

def cWr : TCmd := tEntry 4 0 0xABC (BitVec.allOnes 96) 96 0x77
/-- READ by address of bank 0, slot r. -/
def cRdAt (r : Nat) : TCmd := tCmd [(8, 5), (40, r)]

/-- The installed entry with a don't-care trit's value raised: its parity is bad. -/
def badEntry : State := let e := getEntry installed 1 0 0 0; setEntry installed 1 0 0 0 { e with val := e.val ^^^ 1 }

/-- WRITE by key; READ by key and by address: of an entry, a free slot, an entry of bad parity, an uncorrectable word, and beyond the table. -/
theorem test_WriteAndRead :
    (AtHeadC (withCmd 0 cWr installed) 0 4 entryNeed cWr ∧ entryRefusal installed cWr false [] true = none ∧ cByKey cWr = true ∧ (tFind installed cWr).1 = [⟨0, 0, 0, 0⟩]) ∧
    (wordRefusal installed 0 none none 0x77 = none ∧ isGated installed 0 [0] = false ∧
      (jAdmit installed [[entryRec installed 0 ⟨0, 0, 0, 0⟩ (cMask installed cWr) 0xABC 96 0x77]]).1 = true) ∧
    ((peek (ran (.write 0) (withCmd 0 cWr installed)) (kSlot 0 0 0 0)).data = 0x77) ∧
    (entryRefusal installed (cRdAt 0) false [qFW, qSB] false = none ∧ cByKey (cRdAt 0) = false ∧ locateBank installed 0 0 = some (0, 0) ∧ locateBank installed 0 4 = none) ∧
    ((getEntry installed 1 0 0 0).side.v = true ∧ parityOk (getEntry installed 1 0 0 0) = true ∧ (getEntry installed 1 0 4095 0).side.v = false ∧ parityOk (getEntry badEntry 1 0 0 0) = false) ∧
    (entryRefusal installed (tEntry 5 0 0xABC (BitVec.allOnes 96) 96 0) false [qFW, qSB] false = none ∧ (tFind installed (tEntry 5 0 0xABC (BitVec.allOnes 96) 96 0)).1.length = 1) := by decide +kernel

theorem test_ReadsAnswer :
    ((ran (.read 0) (withCmd 0 (cRdAt 0) installed)).update.set0.result = 0x1234 ∧ (ran (.read 0) (withCmd 0 (cRdAt 4095) installed)).update.set0.st = 1) ∧
    ((ran (.read 0) (withCmd 0 (cRdAt 0) badEntry)).update.set0.st = 3 ∧ (ran (.read 0) (withCmd 0 (cRdAt 0) (putCw installed (kSlot 0 0 0 0) ⟨3, 0⟩))).update.set0.st = 3) ∧
    ((ran (.read 0) (withCmd 0 (cRdAt (4 * 4096)) installed)).update.set0.st = 13 ∧ (tFind base (tEntry 5 0 0xABC (BitVec.allOnes 96) 96 0)).1 = []) ∧
    (entryRefusal hitEntry (tCmd [(8, 7)]) false [qFW] false = none ∧ (tableEntries hitEntry 0).length = 1 ∧
      (getEntry (ran (.hsweep 0) (withCmd 0 (tCmd [(8, 7)]) hitEntry)) 1 0 0 0).side.h = false) := by decide +kernel

/-- A sweep of the installed table at the head of its engine; a read of an address beyond the table. -/
theorem test_SweepAtHead :
    (AtHeadC (withCmd 0 (tCmd [(8, 7)]) hitEntry) 0 7 sweepNeed (tCmd [(8, 7)])) ∧
    (AtHeadC (withCmd 0 (cRdAt 0) installed) 0 5 noNeed (cRdAt 0) ∧ noBank installed (cRdAt 0) = false) := by decide +kernel

/-- Index commands on row 63 of table 5, of 128 bits a row; on row 1 of table 12, a composer's. -/
def cIwr (t r : Nat) : TCmd := tCmd [(8, 0x11), (32, t), (40, r), (64, 0x55)]
def cIcas (old : Nat) : TCmd := tCmd [(8, 0x13), (32, 5), (40, 63), (64, 64), (72, 7), (128, old), (192, 9)]

/-- A HEAT table of one row with counters 0xFFFF, 1, 0, 8. -/
def sHeat : State :=
  let s := { base with str := { base.str with tables := base.str.tables ++ [(16, tDesc 3 0 false false 64 64)] } }
  putWord s (kIndex tHEAT 3) 0x000800000001FFFF

/-- IREAD of an index row, good and uncorrectable, of a table of counters, and of an allocator. -/
theorem test_IndexRowsRead :
    (AtHeadC (withCmd 7 (tCmd [(8, 0x10), (32, 5), (40, 63)]) base) 7 0x10 noNeed (tCmd [(8, 0x10), (32, 5), (40, 63)]) ∧
      indexRefusal base (tCmd [(8, 0x10), (32, 5), (40, 63)]) false [qFW, qSB] false = none ∧ tKind base 5 = 2 ∧ rowBad base 5 63 = false ∧ tRowW base 5 = 128 ∧ tRowW base 8 = 64) ∧
    (rowBad (putCw base (rowKey base 5 63 1) ⟨3, 0⟩) 5 63 = true) ∧
    (indexRefusal (idxAt 6 0 []) (tCmd [(8, 0x10), (32, 6), (40, 17)]) false [qFW, qSB] false = none ∧ tKind (idxAt 6 0 []) 6 = 4 ∧
      indexRefusal (idxAt 6 0 []) (tCmd [(8, 0x11), (32, 6), (40, 17)]) false [] true = some .malformed) ∧
    (indexRefusal sHeat (tCmd [(8, 0x10), (32, 16), (40, 63)]) false [qFW, qSB] false = none ∧ tKind sHeat 16 = 3 ∧ (peek sHeat (kIndex 16 63)).bad = false) := by decide +kernel

/-- IWRITE and ICAS, also on a composer's table. -/
theorem test_IndexRowsWriteAndCompare :
    (AtHeadC (withCmd 7 (cIwr 5 63) base) 7 0x11 rowNeed (cIwr 5 63) ∧
      indexRefusal base (cIwr 5 63) false [] true = none ∧ tComposer base 5 = false ∧ tComposer base 12 = true ∧ indexRefusal base (cIwr 12 1) false [] true = none) ∧
    (((rowKeys base 5 63).all (fun k => sget none base.sram.coal k == none)) = true ∧ (rowKeys base 5 63).any (coalFull base) = false ∧ (jAdmit base [[.iword 5 0 63 0x55, .iword 5 1 63 0]]).1 = true) ∧
    (cell (ran (.iwrite 7) (withCmd 7 (cIwr 5 63) base)) (rowKey base 5 63 0) = secEnc 0x55) ∧
    ((ran (.iwrite 1) (withCmd 1 (cIwr 12 1) base)).search.waiting.length = 1) ∧
    (AtHeadC (withCmd 7 (cIcas 0) base) 7 0x13 rowNeed (cIcas 0) ∧ indexRefusal base (cIcas 0) (!fieldOk base (cIcas 0)) [] true = none ∧ fieldOk base (cIcas 0) = true ∧ (peek base (rowKey base 5 63 1)).bad = false) ∧
    (fieldOf base 5 63 64 8 = 0 ∧ (jAdmit base [[.iword 5 1 63 9]]).1 = true) ∧
    ((peek (ran (.icas 7) (withCmd 7 (cIcas 0) base)) (rowKey base 5 63 1)).data = 9 ∧ (ran (.icas 7) (withCmd 7 (cIcas 3) base)).update.set0.st = 10) := by
  decide +kernel

def cFld (t : Nat) : TCmd := tCmd [(8, 0x12), (32, t), (40, 63), (64, 60), (72, 3), (128, 0xA)]
/-- IFIELD on a row of the composer's table 12. -/
def cFldC (r : Nat) : TCmd := tCmd [(8, 0x12), (32, 12), (40, r), (64, 60), (72, 3), (128, 0xA)]
def sFld : State := ran (.ifield 7) (withCmd 7 (cFld 5) base)
def sComp : State := ran (.iwrite 1) (withCmd 1 (cIwr 12 1) base)
/-- LEARN_NOTE of a kind about line 5, and a table in which that line stands at count n. -/
def cLearn (kind : Nat) : TCmd := { tCmd [(8, 0x14), (64, kind), (128, 5)] with issuer := 0, via := .port 0 0 }
def sLearn (n : Nat) (c : TCmd) : State := withCmd 0 c { base with update := { base.update with learn := [(5, n)] } }

/-- IFIELD up to the top bit of a word, and the issue of its coalescer entry; composer writes with the previous generation free and
held; the notes of R184 with the count below its fourth, at it, and of the other kinds. -/
theorem test_FieldsGenerationsAndNotes :
    (AtHeadC (withCmd 7 (cFld 5) base) 7 0x12 rowNeed (cFld 5) ∧ indexRefusal base (cFld 5) (!fieldOk base (cFld 5)) [] true = none ∧ coalFull base (rowKey base 5 63 0) = false ∧
      fieldOk base (cFldC 1) = true ∧ indexRefusal base (cFldC 1) false [] true = none ∧ (ran (.ifield 1) (withCmd 1 (cFldC 1) base)).search.waiting.length = 1) ∧
    (sget none base.sram.coal (rowKey base 5 63 0) = none) ∧
    ((sget none sFld.sram.coal (rowKey base 5 63 0)).map (fun y => (y.mask, y.val, y.waits.length)) = some (0xF000000000000000, 0xA000000000000000, 1)) ∧
    ((peek sFld (rowKey base 5 63 0)).bad = false ∧ swf none none sFld.sram.coal = true ∧ tableOfPlace (rowKey base 5 63 0) = some 5) ∧
    ((jAdmit sFld [[.iword 5 0 63 0xA000000000000000]]).1 = true) ∧
    ((cell (ran (.coalescerIssue (rowKey base 5 63 0)) sFld) (rowKey base 5 63 0)).data = 0xA000000000000000) ∧
    (sComp.search.waiting ≠ [] ∧ prevHeld sComp = false ∧
      prevHeld (withTok { tTok .partner .issued [] with gen := 0 } { sComp with search := { sComp.search with gen := 1 } }) = true) ∧
    ((ran .composerGenerationCommit sComp).search.gen = 1 ∧ (ran .composerGenerationCommit sComp).search.cur ≠ []) ∧
    (headCmd (sLearn 2 (cLearn 1)) 0 0x14 = some (cLearn 1) ∧ cCont (cLearn 1) = 0 ∧ bn 64 8 (cLearn 1).s0 = 1 ∧ bn 64 8 (cLearn 2).s0 = 2 ∧ bn 64 8 (cLearn 3).s0 = 3) ∧
    ((ran (.learnNote 0) (sLearn 2 (cLearn 1))).update.learn = [(5, 3)] ∧ (ran (.learnNote 0) (sLearn 3 (cLearn 1))).update.learn = [(5, 0)] ∧
      (getQueue (ran (.learnNote 0) (sLearn 3 (cLearn 1))) 0).recs.map (fun r => (r.code, r.detail)) = [(0x2005, 4)]) := by decide +kernel

/-- LEARN_NOTE with every core lost learns nothing; one of FW is not its own. -/
theorem test_LearnNeedsCores :
    (coresServe base = true ∧ coresServe { base with waitos := { base.waitos with cores := 0 } } = false) ∧
    (AtHeadC (sLearn 2 (cLearn 1)) 0 0x14 noNeed (cLearn 1)) ∧
    ((ran (.learnNote 0) { sLearn 2 (cLearn 1) with waitos := { base.waitos with cores := 0 } }).update.learn = [(5, 2)]) ∧
    (AtHeadC (withCmd 0 (tCmd [(8, 0x14), (64, 1)]) base) 0 0x14 noNeed (tCmd [(8, 0x14), (64, 1)])) := by decide +kernel

/-- BANK_CLONE of bank 0 by FW, in mode MOVE to spare 2048 and in mode COPY to free bank 4; the clone that engine 0 then runs. -/
def cClone (m : Nat) : TCmd := tCmd [(8, 8), (64, 0), (80, if m = 1 then 4 else 2048), (96, m)]
def sClone (m : Nat) : State := ran (.bankClone 0) (withCmd 0 (cClone m) installed)
def cRet (m b : Nat) : TCmd := tCmd [(8, 9), (64, b), (96, m)]

/-- BANK_CLONE: MOVE and COPY; CLONE_COMPLETE of each; BANK_RETIRE; the banks of a removed replica. -/
theorem test_BanksCloneRetireAndReplicate :
    (AtHeadC (withCmd 0 (cClone 1) installed) 0 8 noNeed (cClone 1) ∧ cCont (cClone 1) = 0 ∧ cBank (cClone 1) < 2112 ∧ bankState installed 0 = 1 ∧
      (getEng installed 0).clone = none ∧ saving installed = false) ∧
    (cloneDestOk installed 0 4 true = true ∧ cloneDestOk installed 0 2048 false = true ∧ (jAdmit installed [[.bank 1 0 2048 0 3]]).1 = true) ∧
    (bankState (sClone 0) 2048 = 3 ∧ mirrorsOf (sClone 0) 0 = [(2048, false)] ∧ mirrorsOf (sClone 1) 0 = [(4, true)]) := by decide +kernel

theorem test_CloneCompletes :
    ((((getEng (sClone 0) 0).clone.map (fun x => (x.src, x.dst, x.copy, clonePairs (sClone 0) x))) = some (0, 2048, false, [(0, 2048)])) ∧
      ungoverned (sClone 0) 0 = true ∧ badFrom (sClone 0) 0 0 0 = none ∧ swf 0 none (sClone 0).tcam.site = true ∧ swf Engine.reset none (sClone 0).update.eng = true) ∧
    ((jAdmit (advanceClone (sClone 0) 0) [cloneRec (sClone 0) 0 0 2048 false]).1 = true ∧ (jAdmit (advanceClone (sClone 1) 0) [cloneRec (sClone 1) 0 0 4 true]).1 = true) ∧
    (siteOf (ran (.cloneComplete 0) (sClone 0)) 0 = 2048 ∧ bankState (ran (.cloneComplete 0) (sClone 0)) 2048 = 4) ∧
    (bankState (ran (.cloneComplete 0) (sClone 1)) 4 = 1 ∧ (getEntry (ran (.cloneComplete 0) (sClone 1)) 1 4 0 0).val = 0xABC) := by decide +kernel

theorem test_BanksRetire :
    (retireState base 2047 0 = some 5 ∧ (jAdmit base [[.bank 4 2047 0 0 0]]).1 = true ∧ AtHeadC (withCmd 7 (cRet 0 2047) base) 7 9 noNeed (cRet 0 2047)) ∧
    (bankState (ran (.bankRetire 7) (withCmd 7 (cRet 0 2047) base)) 2047 = 5) ∧
    (bankHeld sMatch 0 = true ∧ bankHeld base 0 = false ∧
      (ran (.replicaRelease 0) { base with marker := { base.marker with releases := [(0, 0, [0])] } }).marker.releases = []) ∧
    (refreshed base (logicalOf base 0) = true ∧ refreshed base (logicalOf base 5) = false ∧ refreshed base (logicalOf base 2048) = false) := by decide +kernel

/-- A refreshed bank whose arbiter is idle, and one that class 13 holds. -/
theorem test_RefreshAsks :
    ((getArb base 0).holder = none ∧ (∀ k < 16, (getClass (getArb base 0) k).waits = []) ∧ swf 0 none base.tcam.refGroup = true ∧ swf 0 none base.tcam.refDue = true) ∧
    (sget 0 (ran (.refreshGroup 0) base).tcam.refGroup 0 = 1 ∧ sget 0 (ran (.refreshGroup 0) (setArb base 0 { Arb.reset with holder := some 13 })).tcam.refDue 0 = 1) := by
  decide +kernel

/-- The old site of a moved bank: under a search that still probes it, and free of searches; a clone whose bank is frozen; a refresh
request that waits behind another. -/
def sProbing : State := sMatchOf .issued [pb 0] (sClone 0)

def movedOf (s : State) : State := ran (.cloneComplete 0) s

theorem test_ClonesLeaveTheirSites :
    (AtHeadC (withCmd 0 (cClone 1) installed) 0 8 cloneNeed (cClone 1) ∧ AtHeadC (withCmd 7 (cRet 0 2047) base) 7 9 (fun _ c => [resBank (cBank c)]) (cRet 0 2047)) ∧
    ((getEng (sClone 0) 0).clone.map (fun x => (x.moved, cloneFrozen (sClone 0) x, cloneFrozen (frozen0 (sClone 0)) x)) = some (false, false, true)) ∧
    (siteProbed sProbing false (siteOf sProbing 0) = true ∧ siteProbed (sClone 0) false 0 = false) ∧
    ((getEng (movedOf sProbing) 0).clone.map (fun x => (x.moved, x.copy, x.row, (clonePairs (movedOf sProbing) x).map (fun p => siteProbed (movedOf sProbing) false (siteOf (movedOf sProbing) p.2)))) = some (true, false, 4096, [true])) ∧
    ((getEng (movedOf (movedOf sProbing)) 0).clone.isSome = true) ∧
    ((getEng (movedOf (setTok (movedOf sProbing) 7 none)) 0).clone.isSome = false ∧ bankState (movedOf (setTok (movedOf sProbing) 7 none)) 2048 = 4) ∧
    ((getClass (getArb (ran (.refreshGroup 0) (setArb base 0 { Arb.reset with holder := some 13 })) 0) 12).waits ≠ []) := by decide +kernel

/-- BULK_OPEN for LOAD and BULK_CLOSE of stream 3 of port 0, which owns table 0; an open stream of a direction, with its table's
record at the head of the port. -/
def cOpen (o : Nat) : TCmd := { tCmd [(8, o), (64, 3), (66, 0)] with issuer := 0, via := .port 0 0 }
def port0Owns (s : State) : State := { s with prot := { s.prot with ownmap := 0x88888888888888888888888888888880 } }
def withStream (dir : Nat) (s : State) : State :=
  setStream s 0 3 { Stream.reset with isOpen := true, table := 0, dir := BitVec.ofNat 2 dir, eng := 0 }
def tRecord (t : Nat) : List Slot :=
  [mkSlot [(0, 7), (4, 1), (16, 3), (32, t), (40, 0xFFFFFF), (64, 0xABC)] ||| (BitVec.allOnes 96).setWidth 256 <<< 160,
   mkSlot [(0, 7), (16, 3), (8, 96), (64, 0x1234)]]
def withRecord (x : List Slot) (s : State) : State := modPort s 0 (fun y => { y with ingress := [(cBULK, x)] })

/-- The command of a record of table t on stream 3 of port 0. -/
def cRec (dir t : Nat) : TCmd := recordCmd 0 (getStream (withStream dir base) 0 3) ((tRecord t).headD 0) ((tRecord t).getD 1 0) 0

def sBulk (dir : Nat) : State := withRecord (tRecord 0) (withStream dir (port0Owns base))

theorem test_StreamsOpenAndClose :
    (AtHeadC (withCmd 0 (cOpen 0x0A) (port0Owns base)) 0 0x0A noNeed (cOpen 0x0A) ∧ entryRefusal (port0Owns base) (cOpen 0x0A) (cDir (cOpen 0x0A) = 3) [] true = none ∧
      cDir (cOpen 0x0A) = 0 ∧ (getStream base 0 3).isOpen = false) ∧
    ((getStream (ran (.bulkOpen 0) (withCmd 0 (cOpen 0x0A) (port0Owns base))) 0 3).isOpen = true) ∧
    (headCmd (withCmd 0 (cOpen 0x0B) (withStream 0 base)) 0 0x0B = some (cOpen 0x0B) ∧ cCont (cOpen 0x0B) = 0 ∧ tKind base 0 = 1 ∧
      bulkWaits (withStream 0 base) 0 = false ∧ swf Stream.reset none (withStream 0 base).update.streams = true) ∧
    ((getStream (ran (.bulkClose 0) (withCmd 0 (cOpen 0x0B) (withStream 0 base))) 0 3).isOpen = false) := by decide +kernel

/-- BULK_RECORD: of a closed stream, of another table, a LOAD record that installs and one of an installed entry, a DELETE record that misses. -/
theorem test_BulkRecordApplies :
    ((bulkRecords (withRecord (tRecord 0) base) 0).length = 1 ∧ bStream ((tRecord 0).headD 0) = 3 ∧ (getStream base 0 3).isOpen = false) ∧
    ((nextRecord (sBulk 0) 0 3).map (fun x => (x.1, x.2.length)) = some (0, 2) ∧ (getEng (sBulk 0) 0).held = [] ∧ (entryNeed (sBulk 0) (cRec 0 0)).any (resTaken (sBulk 0) 0) = false) ∧
    (cTable (cRec 0 1) = 1 ∧ cTable (cRec 0 0) = 0 ∧ ((tRecord 0).drop 1).all (fun x => bn 16 16 x == bn 16 16 ((tRecord 0).headD 0)) = true) ∧
    (entryRefusal (sBulk 0) (cRec 0 0) (formBad (sBulk 0) (cRec 0 0)) [] true = none ∧ entryRefusal (sBulk 1) (cRec 1 0) false [] true = none ∧ cReplace (cRec 0 0) = false) ∧
    ((tFind (sBulk 0) (cRec 0 0)).1 = [] ∧ ((tFind (withRecord (tRecord 0) (withStream 0 (port0Owns installed))) (cRec 0 0)).1 = [⟨0, 0, 0, 0⟩])) := by decide +kernel

theorem test_BulkRecordLoads :
    ((getEntry (ran (.bulkRecord 0) (sBulk 0)) 1 0 0 0).val = 0xABC ∧ (getStream (ran (.bulkRecord 0) (sBulk 0)) 0 3).committed = 1) ∧
    ((getStream (ran (.bulkRecord 0) (withRecord (tRecord 0) (withStream 0 (port0Owns installed)))) 0 3).committed = 0) ∧
    ((getStream (ran (.bulkRecord 0) (sBulk 1)) 0 3).rejected = 1) := by decide +kernel

/-- The turn of a record at its engine; records that name a kind or continuation of another sequence number. -/
theorem test_RecordsTakeTurns :
    (recordTurn (getEng (sBulk 0) 0) 3 = true ∧ (getEng (sBulk 0) 0).restarts = 0 ∧ waitsFrozen (sBulk 0) (cRec 0 0) = false ∧ sget [] (sBulk 0).tcam.repairs 0 = []) ∧
    (recordWhole (tRecord 0) = true ∧ recordWhole [mkSlot [(0, 0x47), (16, 3)]] = false ∧ recordWhole [mkSlot [(0, 7), (16, 3)], mkSlot [(0, 7), (16, 4)]] = false) ∧
    (waitsFrozen (frozen0 base) cIns = true) := by decide +kernel

/-- A gate of number 63 that drains, and a step that still probes under an older snapshot. -/
def sGate : State := setGate base 63 { Gate.reset with st := .draining, opened := true, seq := 5, copies := [⟨0, 0, 0, false, false⟩] }
def sHeldGate : State := withTok { tTok (.probed 8 0 1 0) .issued [pb 0] with steps := [{ StepRun.blank with ph := .issued, banks := [pb 0], seq := 4 }] } sGate

/-- DUMP_ENTRY with an entry left and without; GATE_DRAINED before and after its steps. -/
theorem test_DumpAndGate :
    ((getStream (withStream 2 installed) 0 3).dir = 2 ∧ ((nextEntry (withStream 2 installed) 0 0).map (fun x => x.1)) = some ⟨0, 0, 0, 0⟩) ∧
    (nextEntry (withStream 2 base) 0 0 = none ∧ (dumpSet base 8).busy = false ∧ (dumpSet base 9).busy = false) ∧
    (parityOk (getEntry installed 1 0 0 0) = true ∧ (peek installed (kSlot 0 0 0 0)).bad = false) ∧
    ((getStream (ran (.dumpEntry 0 3) (withStream 2 installed)) 0 3).sent = 1 ∧ (getStream (ran (.dumpEntry 0 3) (withStream 2 base)) 0 3).isOpen = false) ∧
    (drained sHeldGate (getGate sHeldGate 63).seq = false ∧ drained sGate (getGate sGate 63).seq = true ∧ (getGate sGate 63).st = .draining ∧
      swf Gate.reset none sGate.marker.gates = true) ∧
    (getGate (ran (.gateDrained 63) sGate) 63 = Gate.reset) := by decide +kernel

/-- A dump and a gate whose bank is frozen. -/
theorem test_FrozenDumpAndGate :
    (frozenAt (withStream 2 installed) 0 0 = false ∧ frozenAt (frozen0 (withStream 2 installed)) 0 0 = true) ∧
    ((getGate sGate 63).copies.any (fun c => frozenAt sGate 0 c.bank) = false ∧ (getGate (frozen0 sGate) 63).copies.any (fun c => frozenAt (frozen0 sGate) 0 c.bank) = true) ∧
    ((getGate (ran (.gateDrained 63) (frozen0 sGate)) 63).st = .draining) := by decide +kernel

/-! ## Lifecycle commands -/

/-- The conditions of LifeReady, one after the other. -/
abbrev LifeReadyC (s : State) (e opc : Nat) (c : TCmd) (rs : List (Nat × Nat)) (ok : Bool) : Prop :=
  AtHeadC s e opc (lifeNeed (fun _ _ => rs)) c ∧ lifeRefusal s c rs ok = none ∧ (∀ x ∈ rs, ∀ k ∈ rowKeys s x.1 x.2, sget none s.sram.coal k = none) ∧
  rowsHeld s (rs.filterMap (fun x => if x.1 = tBINF then some x.2 else none)) (rs.filterMap (fun x => if x.1 = tBMAP then some x.2 else none)) = false ∧
  rs.any (fun x => rowBad s x.1 x.2) = false ∧ ∀ x ∈ rs, ∀ k ∈ rowKeys s x.1 x.2, (secDec (cell s k)).data = (peek s k).data

theorem lifeReady_of {s : State} {e opc : Nat} {c : TCmd} {rs : List (Nat × Nat)} {ok : Bool} (h : LifeReadyC s e opc c rs ok) : LifeReady s e opc c rs ok :=
  ⟨atHead_of h.1, h.2.1, h.2.2.1, h.2.2.2.1, h.2.2.2.2.1, h.2.2.2.2.2⟩

/-- LifeReadyC for the command c at the head of engine 0. -/
abbrev LifeAt (s : State) (c : TCmd) (rs : List (Nat × Nat)) (ok : Bool) : Prop := LifeReadyC (withCmd 0 c s) 0 (cOpc c) c rs ok

/-- Word v in row r of table t. -/
def withRow (t r : Nat) (v : Word) (s : State) : State := putWord s (rowKey s t r 0) v
/-- A BMAP word: block, state, basting count, ROT; a BINF word: wear, state, references. -/
def wBm (psb st baste rot : Nat) : Word := bput 64 0 psb ||| bput 64 24 st ||| bput 64 28 baste ||| bput 64 36 rot
def wBi (wear st ref : Nat) : Word := bput 64 0 wear ||| bput 64 40 st ||| bput 64 48 ref
/-- A lifecycle command of FW with opcode o on logical block 63, block pa, and further fields. -/
def cLife (o pa : Nat) (l : List (Nat × Nat)) : TCmd := tCmd ((8, o) :: (40, 63) :: (64, pa) :: l)

/-- Block 62 bound to logical block 63, with b bastings. -/
def sBound (b : Nat) : State := withRow tBINF 62 (wBi 9 3 0) (withRow tBMAP 63 (wBm 62 1 b 5) base)

/-- MAP_BIND of an UNWRITTEN block, MAP_RELEASE with and without bastings, MAP_POISON, HEAT_SET: the last row of each table. -/
theorem test_BindingCommands :
    (cOpc (cLife 0x40 62 []) = 0x40 ∧ (jAdmit base [lifeRec base (cLife 0x40 62 []) 0 :: List.replicate 5 (JRec.iword 0 0 0 0)]).1 = true ∧ LifeAt base (cLife 0x40 62 []) [(tBMAP, 63), (tBINF, 62)] true) ∧
    (bmState (bmap base 63) = 0 ∧ mayBind base 8 62 = true ∧ biState (binf base 62) = 0 ∧ cHeat (cLife 0x40 62 [(153, 3)]) = 3) ∧
    (LifeAt (sBound 0) (cLife 0x41 0 []) [(tBMAP, 63), (tBINF, 62)] true ∧ bmState (bmap (sBound 0) 63) = 1 ∧ bmBaste (bmap (sBound 0) 63) = 0 ∧ bmBaste (bmap (sBound 255) 63) = 255) ∧
    (permPsb (sBound 0) (cLife 0x42 0 []) = true ∧ LifeAt (sBound 0) (cLife 0x43 0 []) [(tBMAP, 63)] true) := by
  decide +kernel

theorem test_BindingsWrite :
    ((ran (.mapBind 0) (withCmd 0 (cLife 0x40 62 [(153, 3)]) base)).journal.last = 1 ∧ bmPsb (bmap (ran (.mapBind 0) (withCmd 0 (cLife 0x40 62 []) base)) 63) = 62) ∧
    (biState (binf (ran (.mapRelease 0) (withCmd 0 (cLife 0x41 0 []) (sBound 0))) 62) = 1 ∧ (ran (.mapRelease 0) (withCmd 0 (cLife 0x41 0 []) (sBound 255))).update.set0.st = 9) ∧
    (bmState (bmap (ran (.mapPoison 0) (withCmd 0 (cLife 0x42 0 []) (sBound 0))) 63) = 3 ∧ bn 48 2 (bmap (ran (.heatSet 0) (withCmd 0 (cLife 0x43 0 [(153, 3)]) (sBound 0))) 63) = 3) := by
  decide +kernel

def sBegun : State := ran (.migBegin 0) (withCmd 0 (cLife 0x44 61 []) (sBound 0))
def sCursor (v : Nat) : State := ran (.migCursor 0) (withCmd 0 (cLife 0x45 0 [(112, v)]) sBegun)
def sCopied : State := ran (.migCopied 0) (withCmd 0 (cLife 0x46 0 []) (sCursor 4096))

/-- The migration of block 62 to block 61, from its beginning to its switch, with a cursor behind and at its end, and its abort. -/
theorem test_MigrationCommands :
    (LifeAt (sBound 0) (cLife 0x44 61 []) (migRows (sBound 0) (cLife 0x44 61 []) ++ [(tBINF, 61), (tBINF, 62)]) (permPsb (sBound 0) (cLife 0x44 61 [])) ∧
      rowOfRebal (sBound 0) 63 = false ∧ miStep (mig0 (sBound 0) 5) = 0 ∧ mayBind (sBound 0) 8 61 = true ∧ biState (binf (sBound 0) 61) = 0) ∧
    (bmState (bmap sBegun 63) = 8 ∧ miStep (mig0 sBegun 5) = 1 ∧ miCursor (mig1 sBegun 5) = 0 ∧ miTgt (mig1 sBegun 5) = 61) ∧
    (LifeAt sBegun (cLife 0x45 0 [(112, 4096)]) (migRows sBegun (cLife 0x45 0 [])) (permHolder sBegun (cLife 0x45 0 [])) ∧ cV (cLife 0x45 0 [(112, 4096)]) = 4096) ∧
    (miCursor (mig1 (sCursor 4096) 5) = 4096 ∧ miStep (mig0 (sCursor 4096) 5) = 1 ∧ cV (cLife 0x45 0 [(112, 4095)]) < 4096) ∧
    ((ran (.migCursor 0) (withCmd 0 (cLife 0x45 0 [(112, 4095)]) (sCursor 4096))).update.set0.st = 10) := by
  decide +kernel

theorem test_MigrationEnds :
    ((ran (.migCursor 0) (withCmd 0 (cLife 0x45 0 [(112, 4096)]) (sCursor 4096))).update.set0.st = 0) ∧
    (miStep (mig0 sCopied 5) = 2 ∧ LifeAt sCopied (cLife 0x47 0 []) (migRowsAll sCopied (cLife 0x47 0 [])) (permHolder sCopied (cLife 0x47 0 []))) ∧
    (bmPsb (bmap (ran (.mapSwitch 0) (withCmd 0 (cLife 0x47 0 []) sCopied)) 63) = 61 ∧ biState (binf (ran (.mapSwitch 0) (withCmd 0 (cLife 0x47 0 []) sCopied)) 62) = 1) ∧
    (LifeAt sBegun (cLife 0x48 0 []) (migRowsAll sBegun (cLife 0x48 0 [])) true ∧ biState (binf (ran (.migAbort 0) (withCmd 0 (cLife 0x48 0 []) sBegun)) 61) = 1) := by
  decide +kernel

/-- Block 63 in a state, with wear w and r references. -/
def sBlk (w st r : Nat) : State := withRow tBINF 63 (wBi w st r) base

theorem test_BlockCommands :
    (∀ o ∈ [0x49, 0x4A, 0x4B, 0x4D, 0x4E, 0x4F], LifeAt (sBlk 9 5 0) (cLife o 63 []) [(tBINF, 63)] (permPA (sBlk 9 5 0) (cLife o 63 []))) ∧
    (biState (binf (ran (.logOpen 0) (withCmd 0 (cLife 0x49 63 []) (sBlk 9 0 0))) 63) = 4) ∧
    (biState (binf (ran (.logClose 0) (withCmd 0 (cLife 0x4A 63 []) (sBlk 9 4 2))) 63) = 5) ∧
    (biState (binf (ran (.logFree 0) (withCmd 0 (cLife 0x4B 63 []) (sBlk 9 5 0))) 63) = 1) ∧
    ((ran (.logFree 0) (withCmd 0 (cLife 0x4B 63 []) (sBlk 9 5 1))).update.set0.st = 9) ∧
    (biState (binf (ran (.conditionBegin 0) (withCmd 0 (cLife 0x4D 63 []) (sBlk 9 1 0))) 63) = 2) ∧
    (biWear (binf (sBlk (2 ^ 24 - 8) 2 0) 63) + cE (cLife 0x4E 63 [(128, 7)]) < 2 ^ 24 ∧
      biWear (binf (ran (.conditionDone 0) (withCmd 0 (cLife 0x4E 63 [(128, 7)]) (sBlk (2 ^ 24 - 8) 2 0))) 63) = 2 ^ 24 - 1) ∧
    ((base.clock.epoch - BitVec.ofNat 16 0xFFFF).toNat ≤ (base.clock.epoch - biEpoch (binf (withRow tBINF 63 (wBi 9 3 0 ||| bput 64 24 0xFFF0) base) 63)).toNat ∧
      biEpoch (binf (ran (.refreshDone 0) (withCmd 0 (cLife 0x4F 63 [(128, 0xFFFF)]) (withRow tBINF 63 (wBi 9 3 0 ||| bput 64 24 0xFFF0) base))) 63) = 0xFFFF) := by decide +kernel

/-- Group 1 with no failed member, with member 16 failed, and every other group of its partner with spare 1 taken. The command's block
lies in group 1. -/
def withSht (v : Nat) (s : State) : State := withRow tSHT 1 (BitVec.ofNat 64 v) s
def cShtOf (o : Nat) (l : List (Nat × Nat)) : TCmd := tCmd ((8, o) :: (64, 32768) :: l)

theorem test_RebuildCommands :
    (cGroup (cShtOf 0x50 [(144, 16)]) = 1 ∧ LifeAt (withSht 31 base) (cShtOf 0x50 [(144, 16)]) [(tSHT, 1)] (permPA base (cShtOf 0x50 []))) ∧
    (shFmem (sht (withSht 31 base) 1) = 31 ∧ cMember (cShtOf 0x50 [(144, 16)]) = 16) ∧
    ([0, 1].find? (fun d => !spareTaken (withSht 31 base) 1 d) = some 1 ∧ [0, 1].find? (fun d => !spareTaken (withRow tSHT 0 (bput 64 5 1) (withSht 31 base)) 1 d) = none) ∧
    ((ran (.memberFail 0) (withCmd 0 (cShtOf 0x50 [(144, 16)]) (withSht 31 base))).search.waiting.map (fun x => (shFmem x.val, shSpare x.val, shNosp x.val)) = [(16, 1, false)]) ∧
    ((ran (.memberFail 0) (withCmd 0 (cShtOf 0x50 [(144, 16)]) (withSht 3 base))).update.set0.st = 4) ∧
    (shRblk (sht (withSht 3 base) 1) = 0 ∧ shNosp (sht (withSht 3 base) 1) = false ∧ cV (cShtOf 0x51 [(112, 0x7FFF)]) = 0x7FFF) ∧
    ((ran (.rebuildAdvance 0) (withCmd 0 (cShtOf 0x51 [(112, 0x7FFF)]) (withSht 3 base))).search.waiting.map (fun x => shRblk x.val) = [0x7FFF]) ∧
    ((ran (.rebuildAdvance 0) (withCmd 0 (cShtOf 0x51 [(112, 0)]) (withSht 3 base))).update.set0.st = 10) := by decide +kernel

/-- OVL_PUT and OVL_DROP of an overlay of kind 3 over logical block 3. -/
def cOvl (o : Nat) (res : Word) : TCmd := tEntry o 1 (BitVec.ofNat 96 (3 * 2 ^ 51)) (BitVec.ofNat 96 ((2 ^ 48 - 1) * 2 ^ 48)) 48 res
def sOvl : State := ran (.ovlPut 0) (withCmd 0 (cOvl 0x58 0x3000000000000000) base)
/-- OVL_DROP that compares with a result word (CMPW). -/
def cDropW (res : Word) : TCmd := { cOvl 0x59 res with s0 := (cOvl 0x59 res).s0 ||| bput 256 29 1 }

theorem test_OverlayPut :
    (AtHeadC (withCmd 0 (cOvl 0x58 0x3000000000000000) base) 0 0x58 ovlNeed (cOvl 0x58 0x3000000000000000) ∧ ovlRefusal base (cOvl 0x58 0x3000000000000000) true = none) ∧
    (coveredBlocks (cMask base (cOvl 0x58 0)) (cKey base (cOvl 0x58 0)) 48 = [3] ∧ (rowKeys base tBMAP 3).all (fun k => sget none base.sram.coal k == none) = true ∧ rowBad base tBMAP 3 = false ∧
      bmBaste (bmap base 3) = 0) ∧
    ((tFind base (cOvl 0x58 0)).1 = [] ∧ tDirs base (cOvl 0x58 0) = [1] ∧ linkRow base 1 0x3000000000000000 = none) ∧
    (wordRefusal base 1 none none 0x3000000000000000 = none ∧ rowsHeld base [] [3] = false ∧ (planAll base 1 48 false [1]).isSome = true ∧ isGated base 1 [1] = false) ∧
    (bmBaste (bmap sOvl 3) = 1 ∧ sOvl.journal.last = 1 ∧ (liveEntries sOvl 1 1).length = 1) := by decide +kernel

theorem test_OverlayDrop :
    (AtHeadC (withCmd 0 (cOvl 0x59 0) sOvl) 0 0x59 ovlNeed (cOvl 0x59 0) ∧ ovlRefusal sOvl (cOvl 0x59 0) false = none ∧ (tFind sOvl (cOvl 0x59 0)).1.length = 1 ∧ cCmpw (cOvl 0x59 0) = false ∧ canGate sOvl 0 1 [1] = true) ∧
    ((getGate (ran (.ovlDrop 0) (withCmd 0 (cOvl 0x59 0) sOvl)) 0).basteDec = [3]) ∧
    (cCmpw (cDropW 7) = true ∧ (ran (.ovlDrop 0) (withCmd 0 (cDropW 7) sOvl)).update.set0.st = 10 ∧
      (getGate (ran (.ovlDrop 0) (withCmd 0 (cDropW 0x3000000000000000) sOvl)) 0).basteDec = [3]) := by decide +kernel

/-- What OVL_PUT and OVL_DROP ask beside: the target's row of a LOG overlay reads, no gate governs the overlay, its blocks' rows read. -/
theorem test_OverlaysRead :
    (ovlTarget (cOvl 0x58 0x3000000000000000) = [] ∧ ovlTarget (cOvl 0x58 0x100000000000003E) = [62] ∧ rowBad base tBINF 62 = false) ∧
    ((coveredBlocks (cMask sOvl (cOvl 0x59 0)) (cKey sOvl (cOvl 0x59 0)) 48).any (rowBad sOvl tBMAP) = false ∧ linkRow sOvl 1 0x3000000000000000 = none) ∧
    ((copiesOf sOvl 1 (tFind sOvl (cOvl 0x59 0)).1).all (fun k => (getEntry sOvl 1 k.1 k.2.1 k.2.2).side.g == 0) = true) ∧
    ((resAt sOvl ((tFind sOvl (cOvl 0x59 0)).1.headD ⟨0, 0, 0, 0⟩)).data = 0x3000000000000000) := by decide +kernel

/-- REPOINT over table 0 that rewrites no entry (its value matches none), and LOG_REPOINT from block 62 to block 61. -/
def cRp : TCmd := { tCmd [(8, 6), (4, 2)] with s2 := mkSlot [(64, 0xFFFF)] }
def cLrp : TCmd := cLife 0x4C 62 [(88, 61)]
def sLrp : State := withRow tBINF 61 (wBi 0 4 0) (withRow tBINF 62 (wBi 0 5 0) base)
/-- The REPOINT of engine 0 has started, or has been resumed after a reset. -/
def withRp (c : TCmd) (resumed : Bool) (s : State) : State := setRepoint (withCmd 0 c s) 0 (some ⟨c, 0, 0, 0, 1, resumed⟩)

theorem test_RepointRuns :
    (headCmd (withCmd 0 cRp installed) 0 6 = some cRp ∧ (getEng installed 0).repoint = none ∧ (rpCheck installed cRp).1 = none) ∧
    ((getEng (ran (.repoint 0 0) (withCmd 0 cRp installed)) 0).repoint = some ⟨cRp, 0, 0, 0, 0, false⟩) ∧
    (headCmd (withCmd 0 cLrp sLrp) 0 0x4C = some cLrp ∧ (logRepointCheck sLrp cLrp).1 = none ∧ (logRepointCheck sLrp cLrp).2 = sLrp ∧ (jAdmit sLrp [[lifeRec sLrp cLrp 0]]).1 = true) ∧
    (((getEng (ran (.logRepoint 0 0) (withCmd 0 cLrp sLrp)) 0).repoint.map (fun x => x.jsn)) = some 1) ∧
    ((nextEntry installed 0 0).isSome = true ∧ (resAt installed ⟨0, 0, 0, 0⟩).bad = false ∧ rpHits (rpSpec cRp) 0x1234 = false ∧
      ((nextEntry installed 0 0).bind (fun x => (rpVisit (withRp cRp false installed) 0 ⟨cRp, 0, 0, 0, 1, false⟩ x.1 x.2).2.2.1)) = none) := by decide +kernel

theorem test_RepointEnds :
    ((nextEntry sOvl 1 0).isSome = true ∧ ((nextEntry sOvl 1 0).bind (fun x => (rpVisit (withRp cLrp false sOvl) 0 ⟨cLrp, 0, 0, 0, 1, false⟩ x.1 x.2).2.2.1)) = none) ∧
    (nextEntry base 0 0 = none ∧ nextEntry sLrp 1 0 = none ∧ cOpc cLrp = 0x4C) ∧
    ((getEng (ran (.repoint 0 1) (withRp cRp false base)) 0).queue = [] ∧ (getEng (ran (.logRepoint 0 1) (withRp cLrp true sLrp)) 0).queue = [] ∧
      (getQueue (ran (.logRepoint 0 1) (withRp cLrp true sLrp)) 8).recs.map (fun r => r.code) = [0x2008]) := by decide +kernel

/-- LOG_REPOINT takes the rows of its two blocks, or waits while another engine holds one; after its checks it holds them. -/
theorem test_LogRepointHolds :
    ((getEng (withCmd 0 cLrp sLrp) 0).record = none ∧ (rpTake (withCmd 0 cLrp sLrp) 0 cLrp).isSome = true) ∧
    ((rpTake (setEng (withCmd 0 cLrp sLrp) 1 { getEng sLrp 1 with held := [resRow tBINF 61] }) 0 cLrp) = none) ∧
    (((rpTake (withCmd 0 cLrp sLrp) 0 cLrp).map (fun s0 => ((logRepointCheck s0 cLrp).1, (jAdmit (logRepointCheck s0 cLrp).2 [[lifeRec s0 cLrp 0]]).1))) = some (none, true)) ∧
    ((rpRows cLrp).all (getEng (ran (.logRepoint 0 0) (withCmd 0 cLrp sLrp)) 0).held.contains = true ∧ rpRows cLrp = [resRow tBINF 61, resRow tBINF 62] ∧ rpRows cRp = []) := by
  decide +kernel

/-- A state with ages due and critical, and block 62 of age a. -/
def sAge (a : Nat) : State :=
  let s := withRow tBINF 62 (wBi 0 3 0) base
  { s with clock := { s.clock with epoch := BitVec.ofNat 16 a }, str := { s.str with dueAge := 10, critAge := 20 } }
theorem test_ListsAndHeat :
    (binfRows (sAge 10) = [(62, wBi 0 3 0)] ∧ biState (wBi 0 3 0) = 3) ∧
    ((∀ x ∈ binfRows (sAge 9), ((sAge 9).clock.epoch - biEpoch x.2).toNat < (sAge 9).str.dueAge.toNat)) ∧
    ((getQueue (ran .refreshScan (sAge 10)) 0).recs.map (fun r => (r.code, r.obj, r.detail)) = [(0x3001, 62, 10)] ∧ (getQueue (ran .refreshScan (sAge 19)) 0).recs.length = 1) ∧
    (condq (ran .conditionQueueScan (sBlk 0 1 0)) 0 = [63] ∧ (ran .wearBinUpdate (sBlk 5 1 0)).life.bins.length = 15) ∧
    ((freeList (ran .spareReserveRefill { base with life := { base.life with lists := [(0, [5, 6]), (16, [])] }, str := { base.str with reserve := 1 } }) 16) = [5]) ∧
    (sHeat.sram.inj = none ∧ isHeat sHeat (kIndex tHEAT 3) = true ∧ (peek sHeat (kIndex tHEAT 3)).bad = false ∧
      (peek (ran .heatHalving sHeat) (kIndex tHEAT 3)).data = 0x0004000000007FFF) := by decide +kernel

/-- Waitos's lists rest while no core is in service. -/
theorem test_ListsNeedCores :
    (coresServe { sAge 10 with waitos := { base.waitos with cores := 0 } } = false ∧ coresServe (sAge 10) = true) ∧
    ((getQueue (ran .refreshScan { sAge 10 with waitos := { base.waitos with cores := 0 } }) 0).recs = []) := by decide +kernel

/-! ## Stored data -/

/-- Test operations: a core writes them, a partner does not; word address 0 of the last macro, and an entry of bank 2111. -/
def sEt (arm : Bool) (a : BitVec 28) : State :=
  { base with integ := { base.integ with arm := arm, etaddr := a, etdata := 5, etchk := 6, etside := 0x2001, etkey := 7, etmask := 0xF } }

theorem test_StoredWords :
    (swf (⟨0, 0⟩ : Cw) none base.sram.words = true ∧ (secDec ⟨1 <<< 63, 0⟩).data = 0 ∧ (secDec ⟨3, 0⟩).bad = true) ∧
    (etWriter (sEt true 0) (.port 0) = false ∧ etWriter (sEt false 0) (.core 3) = true ∧ (sEt false 0).integ.etbusy = false) ∧
    (addrOk (BitVec.ofNat 28 (5388 * 8192 - 1)) = true ∧ addrOk (BitVec.ofNat 28 (5388 * 8192)) = false) ∧
    (etEntry (sEt true (BitVec.ofNat 28 (2111 * 4096 + 4095))) = some (2111, 4095, 0, 1) ∧ bit 13 (sEt true 0).integ.etside = true) ∧
    ((getRow (ran (.twr (.core 0)) (sEt true (BitVec.ofNat 28 (2111 * 4096 + 4095)))) 2111 4095).val = 7) ∧
    ((ran (.inject (.core 0)) (sEt true 3)).sram.inj = some (3, 0, 0) ∧ (ran (.inject (.core 0)) (sEt false 3)).integ.etrej = true) := by decide +kernel

/-- One report waits about address a, and tracker entry 1023 is x. -/
def sTrk (x : Track) : State :=
  { base with integ := { base.integ with queue := [⟨40, 0x15, 9, 100⟩], track := if x = Track.reset then [] else [(1023, x)] } }
def tTrk (n : Nat) (rw hard : Bool) : Track := { Track.reset with valid := true, addr := 40, count := BitVec.ofNat 3 n, rewritten := rw, hard := hard, syn := 0x15, rewroteAt := 50 }

theorem test_TrackerFollowsCorrections :
    (trackOf (sTrk .reset) 40 = none ∧ (List.range 1024).find? (fun i => !(getTrack (sTrk .reset) i).valid) = some 0) ∧
    (trackOf (sTrk (tTrk 2 false false)) 40 = some (1023, tTrk 2 false false) ∧ (getTrack (ran .trackerReport (sTrk (tTrk 2 false false))) 1023).count = 3) ∧
    ((tTrk 3 false false).count = 3 ∧ (getTrack (ran .trackerReport (sTrk (tTrk 3 false false))) 1023).count = 4 ∧
      (getQueue (ran .trackerReport (sTrk (tTrk 3 false false))) 8).recs.map (fun r => r.code) = [0x4001]) ∧
    (trackOf (sTrk (tTrk 0 true false)) 40 = some (1023, tTrk 0 true false) ∧ (tTrk 0 true false).rewroteAt < 100) ∧
    (maintains (sTrk (tTrk 4 false false)) = true ∧ 4 ≤ (tTrk 4 false false).count.toNat) ∧
    (swf Track.reset none (sTrk (tTrk 0 true false)).integ.track = true ∧ (getTrack (ran (.trackerAgeOut 1023) (sTrk (tTrk 0 true false))) 1023).valid = false) := by
  decide +kernel

/-- A HARD word in macro 0, row 5; three rows of macro 0 that name bit 5 HARD; every spare of macro 0 in use. -/
def sHard (n : Nat) : State :=
  { base with integ := { base.integ with track := (List.range n).map (fun i => (i, { tTrk 0 true true with addr := BitVec.ofNat 28 (40 + 8 * i) })) } }
def noSpares (s : State) : State :=
  { s with sram := { s.sram with rowMap := (List.range 8).map (fun i => (500 + i, i + 1)), colMap := [(70, 1), (71, 2)] } }

theorem test_SparingMapsAndRecords :
    (holderOf (sHard 1) (2, macroOfAddr 40) = none ∧ trackOf (sHard 1) 40 = some (0, { tTrk 0 true true with addr := 40 }) ∧ synBit 0x15 = some 5 ∧ columnDue (sHard 1) (macroOfAddr 40) 5 = false ∧ maintains (sHard 1) = true) ∧
    (spareFor (sHard 1) 0 false = some 0 ∧ spareFor (noSpares (sHard 1)) 0 false = none) ∧
    (columnDue (sHard 3) (macroOfAddr 40) 5 = true ∧ spareFor (sHard 3) 0 true = some 0 ∧ spareFor (noSpares (sHard 3)) 0 true = none) ∧
    ((getQueue (ran (.columnSparing 40 5) (noSpares (sHard 3))) 8).recs.map (fun r => (r.code, r.detail)) = [(0xE008, 1)]) ∧
    ((ran (.fieldRepairProgram true false) { base with integ := { base.integ with repairs := [9] } }).fuses.field = [⟨9, 0⟩]) ∧
    ((ran (.fieldRepairProgram true true) { base with integ := { base.integ with repairs := [9] }, fuses := { base.fuses with field := List.replicate 256 ⟨1, 1⟩ } }).integ.otpFull = true) := by
  decide +kernel

/-- Sequencer 0 past its last bank, and past its last SRAM word; sequencer 5, which has no bank in use. -/
def sScrub (b w : Nat) : State := setEng base 0 { getEng base 0 with scrubBank := b, scrubWord := w }

theorem test_ScrubReadsBack :
    (maintains base = true ∧ base.integ.bankScrub = true ∧ base.integ.selfTest = []) ∧
    ((scrubBanks (sScrub 3 0) 0).find? (fun b => decide ((getEng (sScrub 3 0) 0).scrubBank ≤ b)) = none ∧ (ran (.bankScrub 0) (sScrub 3 0)).integ.bankPass = 1) ∧
    ((scrubBanks (sScrub 2 0) 0).find? (fun b => decide ((getEng (sScrub 2 0) 0).scrubBank ≤ b)) = some 2 ∧
      scanTable { sScrub 2 0 with tcam := { base.tcam with table := [] } } 2 = none) ∧
    ((getEng (ran (.bankScrub 0) { sScrub 2 0 with tcam := { base.tcam with table := [] } }) 0).scrubRow = 1) ∧
    ((getEng (sScrub 0 (640 * 8192)) 0).scrubWord = 640 * 8192 ∧ (ran (.sramScrub 0) (sScrub 0 (640 * 8192))).integ.sramPass = 1) ∧
    ((getEng (sScrub 0 (640 * 8192 - 1)) 0).scrubWord < 640 * 8192) ∧
    (pageValid base (kSlot 0 0 0 0) = false ∧ pageValid installed (kSlot 0 0 0 0) = true ∧ pageValid base (kIndex 5 0) = true) ∧
    (let s := putCw base (kProf 0 0 0) ⟨32, 0⟩; s.sram.inj = none ∧ (peek s (kProf 0 0 0)).bad = false ∧ (peek s (kProf 0 0 0)).syn = 0x15) := by decide +kernel

/-- A row of the unpaired table 0 holds an entry that passes, or fails, its check. -/
theorem test_ScrubChecksEntries :
    (scanTable installed 0 = some 0 ∧ tKind installed 0 = 1 ∧ tWidth installed 0 = 1 ∧ tPaired installed 0 = false ∧ (getRow installed 0 0).s0.g = 0 ∧ (getRow installed 0 0).s1.g = 0 ∧
      unreserved installed 0 = true ∧ scrubOk installed 0 0 0 0 (getEntry installed 1 0 0 0) = true) ∧
    (scrubOk badEntry 0 0 0 0 (getEntry badEntry 1 0 0 0) = false ∧ (ran (.bankScrub 0) badEntry).integ.rederive = [.entry 0 0 0]) ∧
    ((getEng (ran (.bankScrub 0) installed) 0).scrubRow = 1) := by decide +kernel

theorem test_ScrubWaitsFrozen :
    (bankFrozen installed (siteOf installed 0) = false ∧ bankFrozen (frozen0 installed) (siteOf installed 0) = true) ∧
    ((getEng (ran (.bankScrub 0) (frozen0 installed)) 0).scrubRow = 0) := by decide +kernel

/-- An index word of table 5 is queued for re-derivation: it reads well, or badly, with the store readable or not. -/
def sRed (bad failed : Bool) : State :=
  let s := { base with integ := { base.integ with rederive := [.word (kIndex 5 1)] }, store := { base.store with ckpt := some { Ckpt.fresh 1 1 0 with words := [(kIndex 5 1, secEnc 9)] }, failed := if failed then 1 else 0, pages := [⟨0, 9, 0, [⟨1, false, .time 0⟩]⟩] } }
  if bad then putCw s (kIndex 5 1) ⟨3, 0⟩ else s

theorem test_RederiveRestoresWord :
    ((sRed true false).integ.rederive = [.word (kIndex 5 1)] ∧ tableOfPlace (kIndex 5 1) = some 5 ∧ tKind base 5 = 2 ∧ maintains (sRed true false) = true) ∧
    ((peek (sRed false false) (kIndex 5 1)).bad = false ∧ (rederive (sRed false false) false).integ.rederive = [] ∧ tSHT ≠ 5) ∧
    ((peek (sRed true true) (kIndex 5 1)).bad = true ∧ storeUnread (sRed true true) (kIndex 5 1) false = true ∧ storeUnread (sRed true false) (kIndex 5 1) true = true ∧ storeUnread (sRed true false) (kIndex 5 1) false = false) ∧
    ((secDec (cell (rederive (sRed true true) false) (kIndex 5 1))).bad = true ∧ (secDec (cell (rederive (sRed true false) true) (kIndex 5 1))).bad = true ∧
      cell (rederive (sRed true false) false) (kIndex 5 1) = storedWord (sRed true false) 5 0 1) := by decide +kernel

/-- An event record that waits with QSEQ 0 in port 2's queue; a frame with one record. -/
def sRec : State := event base [2] 0x1003 2 0
def sFrame (ph : BitVec 3) : State := let s := (jCommit base [.iword 5 0 1 9] true).2; { s with holdup := { s.holdup with ph := ph } }

theorem test_TrapsAndHalts :
    (bit 3 base.waitos.cores = true ∧ bn 3 1 base.integ.romPri = 0 ∧ bn 3 1 (ran (.romTrap 3 0 9 false) base).integ.romPri = 1 ∧
      bit 3 (ran (.romTrap 3 0 9 true) base).waitos.cores = false) ∧
    (bn 3 1 base.integ.romPri ≠ 1 ∧ (ran (.romScrub (.rom 0 9)) base).integ.romPri = 15) ∧
    ((getQueue sRec 2).recs.map (fun r => r.qseq) = [0] ∧ swf EvQueue.reset none sRec.events.queues = true ∧ (getQueue (ran (.dataSramTrap (.eventRecord 2 0 false)) sRec) 2).recs = [] ∧ base.waitos.cores ≠ 0 ∧
      ((getQueue sRec 2).recs.map (fun r => decide (r.sev.toNat < 2))) = [true] ∧ (getQueue (event base [2] 0xF006 2 0) 2).recs.map (fun r => decide (2 ≤ r.sev.toNat)) = [true] ∧
      (getQueue (ran (.dataSramTrap (.eventRecord 2 0 false)) (event base [2] 0xF006 2 0)) 2).recs.length = 1 ∧ (getQueue (ran (.dataSramTrap (.eventRecord 2 0 true)) (event base [2] 0xF006 2 0)) 2).recs = []) ∧
    (saving (sFrame 0) = false ∧ saving (sFrame 2) = true ∧ (sFrame 2).journal.frames.map (fun f => (f.drained, f.recs.length)) = [(false, 1)]) ∧
    ((ran (.channelHalt (.save 0 0 false 5 1)) (sFrame 2)).journal.frames.map (fun f => f.recs.map (fun r => r.body)) = [[JRec.hole none]]) ∧
    ((ran (.channelHalt (.drain 0 0 true 5 1)) (sFrame 0)).store.run.isSome = true) ∧
    ((getStream base 7 3).isOpen = false) := by decide +kernel

/-- The core that serves the trap is there, or none is; a hole of a record whose first words read counts once. -/
theorem test_HolesCount :
    (waitosRuns sRec = true ∧ waitosRuns { sRec with waitos := { base.waitos with cores := 0 } } = false ∧ swf 0 none (sFrame 2).mgmt.counters = true) ∧
    (((sFrame 2).journal.frames[0]?.map (fun x => (x.drained, x.recs[0]?.isSome))) = some (false, true)) ∧
    (counter (ran (.channelHalt (.save 0 0 true 5 1)) (sFrame 2)) (0x0B0100 + 8 * 6) = 1) := by decide +kernel

/-- Bank 2111 is under test, with a result. -/
def sTest (r : Nat) : State :=
  let s := setBankState base 2111 4
  { s with tcam := { s.tcam with test := if r = 0 then [] else [(2111, BitVec.ofNat 4 r)] } }

theorem test_SelfTests :
    (maintains base = true ∧ maintains { base with boot := Boot.reset } = false ∧
      ((List.range 2112).map (fun i => (base.integ.rotation + i) % 2112)).find? (fun b => bankState base b == 1) = some 0) ∧
    ((ran .selfTestRotation base).integ.rotation = 1) ∧
    (bankState (sTest 0) 2111 = 4 ∧ sget 0 (ran (.bankSelfTest 2111 7) (sTest 0)).tcam.test 2111 = 7) ∧
    (sget 0 (sTest 1).tcam.test (siteOf (sTest 1) 2111) = 1 ∧ retireState (sTest 1) 2111 1 = some 2 ∧ (jAdmit (sTest 1) [[.bank 4 2111 0 0 0]]).1 = true ∧
      swf 0 none (sTest 1).tcam.state = true) ∧
    (bankState (ran (.selfTestDone 2111) (sTest 1)) 2111 = 2 ∧ bankState (ran (.selfTestDone 2111) (sTest 3)) 2111 = 5) := by decide +kernel

/-- A save and a frozen bank hold the tests up; the retention test has begun, and is over after two intervals. -/
def sRetain (d : Nat) : State :=
  let s := sTest 0
  { s with tcam := { s.tcam with retain := [(siteOf s 2111, now s - d)] } }

theorem test_SelfTestsWait :
    (saving (sFrame 2) = true ∧ saving (sTest 0) = false ∧ bankFrozen (sTest 0) (siteOf (sTest 0) 2111) = false ∧
      bankFrozen { sTest 0 with arbs := { base.arbs with dfrz := BitVec.ofNat 66 (2 ^ 65) } } (siteOf (sTest 0) 2111) = true) ∧
    (retentionOver (sTest 0) 2111 = true ∧ retentionOver (sRetain 0) 2111 = false ∧ retentionOver (sRetain 4000000000) 2111 = true) ∧
    ((ran (.bankSelfTest 2111 1) (sRetain 0)).tcam.test = [] ∧ sget 0 (ran (.bankSelfTest 2111 1) (sRetain 4000000000)).tcam.test 2111 = 1) ∧
    ((ran (.bankSelfTest 2111 8) (sTest 0)).tcam.retain.map (·.1) = [2111]) ∧
    ((sTest 0).therm.deferred = none ∧ (sTest 1).integ.selfTest = [] ∧ sget 0 (sTest 3).tcam.test (siteOf (sTest 3) 2111) = 3) := by decide +kernel

/-! ## Time and power -/

/-- Device time has reached epoch 64; the epoch still stands at 63. -/
def sEpoch : State := { base with clock := { base.clock with time := BitVec.ofNat 64 (64 * 64 * 10 ^ 9), epoch := 63 }, tcam := { base.tcam with disag := [(0, 3)] } }
def withPower (vid : Nat) (tr : Option VTrans) (ph : BitVec 3) : State :=
  { base with power := { base.power with vid := BitVec.ofNat 6 vid, trans := tr }, holdup := { base.holdup with ph := ph } }

theorem test_TimebaseAndVoltage :
    (sEpoch.clock.running = true ∧ epochOf sEpoch.clock.time ≠ sEpoch.clock.epoch ∧ (ran .epoch sEpoch).clock.epoch = 64 ∧ (ran .epoch sEpoch).tcam.disag = []) ∧
    (base.clock.ring = false ∧ (ran .refclkFault base).clock.ring = true ∧ (ran .refclkRestore (ran .refclkFault base)).clock.ring = false) ∧
    (bit 3 base.waitos.cores = true ∧ (ran (.coreLost 3) base).waitos.cores = 7) ∧
    (base.therm.guard = false ∧ bandInForce (ran .refreshGuard base) = 4) ∧
    (mayTrigger base .sb false = false ∧ mayTrigger base (.core 3) false = true) ∧
    ((withPower 40 none 1).holdup.ph ≠ 0 ∧ (withPower 40 (some ⟨true, 45, 0, 0⟩) 0).power.trans.isSome = true) ∧
    ((withPower 40 none 0).power.vid < clampCode base 63 ∧ clampCode base 63 = 50 ∧ (ran (.vreq (.core 0) 63) (withPower 40 none 0)).power.vid = 50) ∧
    (clampCode base 0 < (withPower 9 none 0).power.vid ∧ clampCode base 0 = 8 ∧ ((ran (.vreq (.core 0) 0) (withPower 9 none 0)).power.trans.map (fun x => x.up)) = some false) ∧
    (waitosRuns base = true ∧ base.power.vmin ≤ base.power.vmax) := by decide +kernel

/-- A note of an opcode at the head of port p. -/
def withNote (p op : Nat) (s : State) : State := withIn p cNOTE (note op []) s
def atPhase (ph : Phase) (s : State) : State := { s with boot := { s.boot with phase := ph } }

theorem test_PowerFailureStartsTheSave :
    (base.boot.phase = .ready ∧ base.holdup.ph = 0 ∧ swf Port.reset none base.ports = true) ∧
    ((ran (.pfail 200) base).holdup.ph = 1 ∧ (ran (.pfail 199) base).holdup.ph = 0 ∧ (ran (.pwrgdDrop 200) base).holdup.byPwrgd = true) ∧
    (ingressHead (withNote 10 0x11 base) 10 cNOTE = some (note 0x11 []) ∧ bn 8 8 (note 0x11 []) = 0x11 ∧ (ran (.saveBegun 2) (withNote 10 0x11 base)).holdup.ph = 1) ∧
    ((ran (.pfail 200) (atPhase .booting base)).boot.stop = 5 ∧ (ran (.pwrgdDrop 200) (atPhase .holdRst base)).boot.stop = 5) := by decide +kernel

/-- The save runs: port 0 fenced, and the other ports as f says. -/
def sSave (ph : BitVec 3) (flushed8 : Bool) : State :=
  { base with holdup := { base.holdup with ph := ph }, ports := [(0, { tPort with fenced := true }), (1, { tPort with fenced := true, flushed := flushed8 })] }
/-- A save with one record to drain and a conditioned superblock ring; the same with the record and the seal drained. -/
def sDrain : State :=
  let s := sFrame 2
  { s with pins := { s.pins with rstN := true }, journal := { s.journal with sealed := true }, store := { s.store with ringCond := [(8, true), (9, true)] } }
def sDrained : State := let s := drainAll sDrain; drainAll (jPut s (.seal s.clock.time))

theorem test_SaveRuns :
    ((sSave 1 true).holdup.ph = 1 ∧ (ran .fenceClose (sSave 1 true)).journal.sealed = true) ∧
    ((getPort (withNote 0 3 (sSave 1 true)) 0).fenced = true ∧ bn 8 8 (note 3 []) = 3 ∧ (List.range 8).all (fun q => q == 0 || !(getPort (withNote 0 3 (sSave 1 true)) q).fenced || (getPort (withNote 0 3 (sSave 1 true)) q).flushed) = true) ∧
    ((ran (.flushed 0) (withNote 0 3 (sSave 1 true))).holdup.early = true ∧ (ran (.flushed 0) (withNote 0 3 (sSave 1 false))).holdup.ph = 1) ∧
    ((getPort (withNote 0 3 (sSave 1 false)) 1).fenced = true ∧ (getPort (withNote 0 3 (sSave 1 false)) 1).flushed = false) ∧
    (sDrain.journal.sealed = true ∧ sDrain.pins.rstN = true ∧ storeIdle (drainAll sDrain) = true ∧ storeDown sDrain = false ∧ undrained (drainAll sDrain) = false ∧ undrained sDrained = false ∧ (writeSuper sDrained (some sDrained.holdup.sealJsn)).isSome = true) ∧
    ((ran .saveComplete sDrain).holdup.ph = 4 ∧ (ran .saveComplete { sDrain with holdup := { sDrain.holdup with ph := 5, incomplete := true } }).power.pstate = 4 ∧ (ran .holdEnd (sSave 4 true)).holdup.ph = 5 ∧ (ran .vholdFloor (sSave 1 true)).pins.vhok = false) := by decide +kernel

/-- With a pair FAILED, what waits for the save goes on; the hold ends with the store sound. -/
def pairDown (s : State) : State := { s with store := { s.store with failed := 1 } }

theorem test_SaveWithoutStore :
    (storeDown (pairDown sDrain) = true ∧ saveRuns (pairDown sDrain) = true ∧ (pairDown sDrain).journal.sealed = true ∧ (pairDown sDrain).holdup.ph = 2) ∧
    ((ran .saveComplete { pairDown sDrain with holdup := { (pairDown sDrain).holdup with recover := true } }).boot.phase ≠ .off) ∧
    ((ran .holdEnd (pairDown sDrain)).holdup.incomplete = false ∧ (ran .holdEnd sDrain).holdup.incomplete = true) ∧
    (base.pins.vhok = true ∧ (sDrain.holdup.reboot = false ∧ sDrain.holdup.recover = false)) := by decide +kernel

/-- Pins before power, by CREW_SZ, CREW_RK, RST_N and PFAIL_N. -/
def sPins (sz rk : Nat) (rst pf : Bool) : State :=
  { State.reset with pins := { Pins.reset with crewSz := BitVec.ofNat 2 sz, crewRk := BitVec.ofNat 2 rk, rstN := rst, pfailN := pf } }

theorem test_PowerPins :
    ((ran (.powerUp .reset) (sPins 2 0 true true)).boot.stop = 4 ∧ (ran (.powerUp .reset) (sPins 0 1 true true)).boot.stop = 4) ∧
    ((ran (.powerUp .reset) (sPins 3 3 true false)).boot.stop = 5 ∧ (ran (.powerUp .reset) (sPins 3 3 false true)).boot.phase = .holdRst) ∧
    (candidates (sPins 3 3 true true) = [] ∧ (ran (.powerUp .reset) (sPins 3 3 true true)).boot.rejB = 1) ∧
    ((ran (.powerUp .reset) { sSave 1 true with pins := { Pins.reset with pwrgd := false } }).holdup.reboot = true) ∧
    ((ran (.pfailRise true) (sSave 2 true)).holdup.recover = true ∧ (ran (.pfailRise true) (sSave 5 true)).boot.phase = .ready ∧ (sSave 5 true).therm.tripped = false) ∧
    ((ran (.rstN false 1000) base).boot.phase = .resetHeld ∧ (ran (.rstN true 0) (atPhase .resetHeld base)).boot.phase = .ready) ∧
    (candidates { base with boot := { base.boot with phase := .stopped, stop := 2 } } = [] ∧ mayTrigger base (.core 0) true = true) ∧
    ((ran (.setlock (.core 0)) (atPhase .booting base)).prot.locked = true ∧
      (ran .debugExpiry { base with dbg := { base.dbg with granted := true, exp := base.clock.time } }).dbg.granted = false) := by decide +kernel

/-- A save that goes on, and one that cannot complete, when power returns; RST_N in each phase. -/
def saveDown (ph : BitVec 3) : State := pairDown (sSave ph true)

/-- A die of rank 1 in a crew of four, its three cascade ports active, ready for the others. -/
def crew : State :=
  { base with power := { base.power with crewSz := 3, crewRk := 1 }, crew := { base.crew with readyFrom := 15 },
              ports := [(0, tPort), (8, tPort), (9, tPort), (10, tPort)] }

theorem test_PowerReturns :
    (((sPins 3 3 true true).pins.pwrgd = false) ∧ (saveRuns (sPins 3 3 true true) && !storeDown (sPins 3 3 true true)) = false ∧
      saveRuns (sSave 1 true) = true ∧ storeDown (sSave 1 true) = false ∧ (saveRuns (saveDown 2) && !storeDown (saveDown 2)) = false) ∧
    ((sSave 5 true).holdup.incomplete = false ∧ (ran (.pfailRise true) (sSave 4 true)).boot.phase = .ready ∧ (ran (.pfailRise true) (saveDown 2)).boot.phase = .ready ∧ base.pins.pwrgd = true) ∧
    ((ran (.pfailRise true) { sSave 4 true with pins := { base.pins with rstN := false } }).boot.phase = .resetHeld) ∧
    ((ran (.rstN false 999) base).boot.phase = .ready ∧ (ran (.rstN false 1000) (atPhase .booting base)).boot.phase = .holdRst) ∧
    ((ran (.rstN false 1000) { base with boot := { base.boot with phase := .stopped, stop := 3 } }).boot.phase = .stopped) ∧
    ((ran (.retry (.core 0) .reset) { base with boot := { base.boot with phase := .stopped, stop := 2 } }).boot.stop = 1) := by decide +kernel

/-! ## The crew -/

/-- A FWD of profile 0 with version v from rank 0, tag 1535, key 5; its CX. -/
def tFwd (v : Nat) : List Slot := [mkSlot [(0, cFWD), (16, 1535), (32, v), (48, 0), (64, 5)], mkSlot [(0, cFWD), (64, 7)]]
def sFwd (v : Nat) (s : State) : State := modPort (withProf (tHdr 0) 0 s) 8 (fun y => { y with ingress := [(cFWD, tFwd v)] })
def tProbe : Slot := mkSlot [(0, cPROBE), (8, 1), (16, 511), (32, 0), (64, 5)]
/-- The token that waits for an answer, held by tag 4 of port 8. -/
def sAway (ph : TokPh) (x : Slot) (c : Nat) : State :=
  withTok { tTok .partner .remote [] with ph := ph, away := some (4, 8), steps := [{ StepRun.blank with ph := .remote, await := [0] }, .blank, .blank, .blank] }
    (modPort crew 8 (fun y => { y with ingress := [(c, [x])], fwdTags := [(4, 7)], probeTags := [(4, 7, 0)] }))

theorem test_CrewSearchesAct :
    (sget [] (getPort (sFwd 5 crew) 8).ingress cFWD = tFwd 5 ∧ admitting (sFwd 5 crew) = true ∧ admitting (atPhase .booting crew) = false) ∧
    (crewTagBusy (withTok (tTok (.fwdd 8 1535 0 true) .issued [] |> fun t => { t with eng := 8 }) (sFwd 5 crew)) 8 false 1535 0 = true ∧ crewTagBusy (sFwd 5 crew) 8 false 1535 0 = false) ∧
    (tokensOf (sFwd 5 crew) 8 (fun tk => !isProbed tk) = 0 ∧ bufferOf (sFwd 5 crew) 0 6 = none ∧ bufferOf (sFwd 5 crew) 0 5 = some 0 ∧ profBad (sFwd 5 crew) 0 0 = false) ∧
    ((getTok (ran (.fwd 0) (sFwd 5 crew)) 0).map (fun t => (t.kind, t.cx)) = some (.fwdd 8 1535 0 false, 7)) ∧
    (ingressHead (withIn 8 cPROBE tProbe crew) 8 cPROBE = some tProbe ∧ crewTagBusy crew 8 true 511 0 = false ∧
      (getTok (ran (.probe 0) (withIn 8 cPROBE tProbe crew)) 0).map (fun t => t.kind) = some (.probed 8 511 0 1)) ∧
    ((getPort (withIn 8 cFANS (mkSlot [(0, cFANS), (16, 9)]) crew) 8).fwdTags.find? (fun e => e.1 = 9) = none ∧ swf Port.reset none crew.ports = true) ∧
    ((getTok (ran (.fans 0) (sAway .away (mkSlot [(0, cFANS), (16, 4), (64, 8)]) cFANS)) 7).map (fun t => (t.ph, t.w0)) = some (.resolved, 8)) ∧
    ((stepAt (((getTok (sAway .running (mkSlot [(0, cPANS), (16, 4)]) cPANS) 7)).getD Token.blank) 0).await.contains 0 = true ∧
      (sAway .running (mkSlot [(0, cPANS), (16, 4)]) cPANS).search.tokens.map (fun e => (e.1, (e.2.map (fun t => t.steps.all (fun y => y.unsent.isEmpty))))) = [(7, some true)] ∧
      (getTok (ran (.pans 0) (sAway .running (mkSlot [(0, cPANS), (16, 4), (64, 8)]) cPANS)) 7).map (fun t => (stepAt t 0).await) = some []) := by decide +kernel

/-- A FWD whose version no buffer holds is answered; the answer of a search that a peer ran, and of one that none ran. -/
theorem test_ForwardedAnswers :
    (fansSlot .staleVersion 0 1535 0 0 0 0 ∈ (getPort (ran (.fwd 0) (sFwd 6 crew)) 8).tx.flatten) ∧
    ((getTok (ran (.fans 0) (sAway .away (mkSlot [(0, cFANS), (16, 4), (64, 8)]) cFANS)) 7).map (fun t => t.fwdFlag) = some true) ∧
    ((getTok (ran (.fans 0) (sAway .away (mkSlot [(0, cFANS), (8, 10), (16, 4)]) cFANS)) 7).map (fun t => (t.st, t.fwdFlag)) = some (.staleVersion, false)) := by decide +kernel

/-- The crew's notes: CREW_READY from rank 0, an hour ahead; LINKS; CREW_RESET. -/
def sNote (op : Nat) (l : List (Nat × Nat)) (s : State) : State := withIn 8 cNOTE (note op l) s

theorem test_CrewNotesAct :
    (((crewNote (sNote 0x10 [(64, 3600 * 10 ^ 9), (128, 0)] crew) 0 0x10).map (fun x => bn 128 2 x.1)) = some 0 ∧ rank crew = 1) ∧
    ((ran (.crewReady 0) (sNote 0x10 [(64, 3600 * 10 ^ 9), (128, 0)] crew)).clock.time = BitVec.ofNat 64 (3600 * 10 ^ 9 + 1000)) ∧
    ((ran .crewReadyTimeout crew).crew.timedOut = true) ∧
    ((crewNote (sNote 0x14 [(64, 7)] crew) 0 0x14).isSome = true ∧ rankAt crew 8 = 0 ∧ sget 0 (ran (.links 0) (sNote 0x14 [(64, 7)] crew)).crew.links 0 = 7) ∧
    (crew.crew.phase ≠ 3 ∧ portActive crew 10 = true) ∧
    ((crewNote (sNote 0x15 [] crew) 0 0x15).isSome = true ∧ (ran (.crewReset 0) (sNote 0x15 [] crew)).holdup.warm = true) ∧
    (mayTrigger crew .sb false = false ∧ (ran (.crewrst (.core 0)) crew).holdup.warm = true) := by decide +kernel

def rebNote : List (Nat × Nat) := [(64, 1), (72, 0), (80, 1), (96, 5), (128, 5), (160, 0)]
/-- The coordinator (rank 1) in phase 1, waiting for rank 0; in phase 4 with the other ranks' acknowledgements in. -/
def coord (ph await : Nat) : State := { crew with crew := { crew.crew with phase := BitVec.ofNat 3 ph, src := 1, dst := 0, await := BitVec.ofNat 4 await } }

/-- RTE is table 2, in bank 3: granule 0 belongs to rank 1, granule 2^17 to rank 0. -/
def sRte : State :=
  let s := { crew with
    str := { crew.str with tables := sput 0 crew.str.tables 2 (tDesc 1 1 false false 0 0) }
    tcam := { crew.tcam with state := sput 0 crew.tcam.state 3 1, table := sput 0 crew.tcam.table 3 3 }
    marker := { crew.marker with dirA := crew.marker.dirA ++ [(3, tDir 2 3)], dirB := crew.marker.dirB ++ [(3, tDir 2 3)], list := crew.marker.list ++ [(3, 3)] } }
  let put := fun (s : State) (g r slot : Nat) => putWord (setEntry s 1 3 slot 0 (mkEntry rteCare (rteKey g) 26 true 0)) (kSlot 3 slot 0 0) (BitVec.ofNat 64 r)
  put (put s 0 1 0) (2 ^ 17) 0 1

theorem test_RebalanceStepsAct :
    (rebalJoinOk { sRte with power := { sRte.power with crewRk := 0 } } 0 (2 ^ 17) = true) ∧
    (((crewNote (sNote 0x12 rebNote crew) 0 0x12).map (fun x => (bn 72 8 x.1, bn 80 8 x.1, bn 64 8 x.1, bn 160 8 x.1))) = some (0, 1, 1, 0) ∧ crew.crew.phase = 0) ∧
    (rebalJoinOk (coord 1 1) 5 5 = false) ∧
    ((jAdmit crew [[rebalRec [1, 0, 1, 0, 5, 5, crew.clock.time.toNat]]]).1 = true) ∧
    (((crewNote (sNote 0x13 [(64, 1)] (coord 1 1)) 0 0x13).map (fun x => (bn 64 8 x.1, bit (ackRank x.2 (coord 1 1).crew.await 8) (coord 1 1).crew.await))) = some (1, true) ∧ (coord 1 1).crew.ask = none) ∧
    (((crewNote (sNote 0x12 [(64, 0), (72, 0), (80, 1), (96, 5), (128, 5)] crew) 0 0x12).map (fun x => (bn 64 8 x.1, bn 72 8 x.1, rebalVerdict x.2 1 5 5))) = some (0, 0, 6)) ∧
    ((ran (.rebalAck 0) (sNote 0x13 [(64, 1)] (coord 1 1))).crew.await = 0) ∧
    (rank (coord 4 0) = 1 ∧ maintains (coord 4 0) = true ∧ (jAdmit (coord 4 0) [[rebalRec (numSet (rebalNums (coord 4 0)) 0 5)]]).1 = true) ∧
    ((ran .rebalRetire (coord 4 0)).crew.phase = 5 ∧ (ran .rebalRetire (coord 3 0)).crew.phase = 3) := by decide +kernel

/-- A note that may make a step waits while the journal takes no record; LINKS go to every active neighbour. -/
theorem test_RebalWaits :
    (rebalTakes (sNote 0x12 rebNote crew) (note 0x12 rebNote) = true ∧ rebalTakes (sSeal (sNote 0x12 rebNote crew)) (note 0x12 rebNote) = false) ∧
    (crew.crew.phase ≠ 2 ∧ crew.crew.phase ≠ 5 ∧ note 0x14 [(64, linksMask crew)] ∈ (getPort (ran .linksPeriod crew) 10).tx.flatten) := by decide +kernel

/-! ## Arbitration and tally -/

/-- Every class weighs 3 and REF 4, but class 0, which weighs 0, in every share table; arbiter 0. -/
def sArb : State := { base with str := { base.str with wact := (List.range 128).map (fun i => (i, if i % 16 = 12 then 4 else 3)), wpend := (List.range 128).map (fun i => (i, if i % 16 = 12 then 4 else 3)) } }
def tPresent (s : State) (cls : BitVec 16) : Arb := present (now s) (.of cls) (asking s 0 cls) (getArb s 0)
abbrev tWinner (s : State) (cls : BitVec 16) : Option (Nat × Bool) :=
  decideWinner (creditNow s 0 (tPresent s cls)) (tPresent s cls) (now s) (mayGrant s 0 (tPresent s cls) (asking s 0 cls))
def sFrozen : State := { sArb with arbs := { sArb.arbs with dfrz := 1 } }
/-- Class 11 holds arbiter 7250; a search class holds arbiter 7242. -/
def sHeld : State := setArb (setArb sArb 7250 { Arb.reset with holder := some 11 }) 7242 { Arb.reset with holder := some 10 }

/-- The refresh control waits at bank 0. -/
def sDue (s : State) : State := { s with tcam := { s.tcam with refDue := [(0, 1)] } }

/-- ARBITER_DECISION: a winner, no winner; on a frozen bank; the refresh control's own request; a grant that came to nothing. -/
theorem test_ArbiterGrants :
    ((tWinner sArb 0x0001).isSome = true ∧ bit 0 (0x0001 : BitVec 16) = true ∧ isMember 0 0 = true ∧ tWinner sArb 0 = none) ∧
    (bankFrozen sFrozen 0 = true ∧ tWinner sFrozen 0x0001 = none ∧ ((tWinner (sDue sFrozen) 0x0001).map (·.1)) = some 12) ∧
    (swf 0 none sArb.tcam.refGroup = true ∧ ((tWinner (sDue sArb) 0).map (·.1)) = some 12 ∧
      sget 0 (ran (.arbiterDecision 0 ⟨0, [], [], false⟩) (sDue sArb)).tcam.refGroup 0 = 1) ∧
    (isMember 7250 12 = false ∧ isMember 7250 11 = true ∧ isMember 2112 12 = true) ∧
    (swf Arb.reset none sHeld.arbs.live = true ∧ (getArb sHeld 7242).holder = some 10 ∧ swf ArbClass.reset none (getArb sHeld 7242).classes = true ∧
      (getClass (getArb (ran (.arbiterDecision 7242 ⟨0, [], [], true⟩) sHeld) 7242) 10).dead = 1) ∧
    (swf Arb.reset none sArb.arbs.live = true ∧ (getArb (ran (.arbiterDecision 0 ⟨0x0001, [], [], false⟩) sArb) 0).holder = some 0) := by decide +kernel

theorem test_CutOffsAndFreezeBits :
    ((getArb sHeld 7250).holder = some 11 ∧ swf ArbClass.reset none (getArb sHeld 7250).classes = true ∧ (getArb (ran (.stallCutoff 7250) sHeld) 7250).cut = true) ∧
    ((getArb sArb 7250).holder = none) ∧
    (mayTrigger sArb .sb true = true ∧ mayTrigger sArb (.port 0) true = false ∧ (ran (.dfrz .sb 2 0xFFFFFFFF) sArb).arbs.dfrz = 3 <<< 64) ∧
    (bit 65 { sArb.arbs with dfrz := 3 <<< 64 }.dfrz = true ∧ bit 65 (ran (.freezeTimeout 65) { sArb with arbs := { sArb.arbs with dfrz := 3 <<< 64 } }).arbs.frzto = true) := by decide +kernel

theorem test_SnapshotsAndShareTables :
    ((selsOf sHeld (.core 0)).csel.toNat < 7251 ∧ swf Arb.reset none sHeld.arbs.live = true) ∧
    ((ran (.snap (.core 0)) { sHeld with mgmt := { sHeld.mgmt with core := { Sels.reset with csel := 7250 } } }).arbs.shadow.map (·.1) = [7250]) ∧
    (bit 7 { sArb.str with spend := 128 }.spend = true ∧ (ran (.commit (.core 0) 7) { sArb with str := { sArb.str with spend := 128 } }).str.srej = 128) ∧
    (shareOk sArb.str.stmap (pendingIn sArb 7) (roleNow sArb) 7 = true ∧ shareOk base.str.stmap (pendingIn base 0) (roleNow base) 0 = false) ∧
    ((jAdmit sArb [[.live 5 112 sArb.boot.strver ((List.range 16).map (fun c => sget 0 sArb.str.wpend (112 + c)))]]).1 = true ∧
      (jAdmit (sSeal sArb) [[.live 5 112 sArb.boot.strver ((List.range 16).map (fun c => sget 0 sArb.str.wpend (112 + c)))]]).1 = false) ∧
    ((ran (.commit (.core 0) 7) sArb).str.spend = 128 ∧ sget 0 (ran (.commit (.core 0) 0) base).str.cstat 0 = 13) := by decide +kernel

/-- Port 0 has lost a credit of its grant: pool 3 breaks. -/
def sBroken : State := modPort { State.reset with boot := { Boot.reset with phase := .ready }, ports := [(0, { Port.reset with st := pACTIVE })] } 0 (fun y => { y with grants := [(1, ⟨9000, 0, 0, 0⟩)] })
def sWarm : State := { base with tally := { base.tally with viol := true, admstop := true } }

theorem test_TallyAudits :
    (brokenPool State.reset = none ∧ (brokenPool sBroken).isSome = true ∧ sBroken.tally.viol = false) ∧
    ((ran (.audit (.core 0)) sBroken).tally.admstop = true ∧ (ran (.audit (.core 0)) State.reset).tally.audits = 1) ∧
    ((poolCounts base (selsOf base (.core 0)).tsel.toNat).isSome = true ∧ mayTrigger base (.core 0) true = true) ∧
    (poolCounts base 0xFFFF = none ∧ (ran (.tsnap (.core 0)) { base with mgmt := { base.mgmt with core := { Sels.reset with tsel := 0xFFFF } } }).tally.tvalC = [0, 0, 0, 0]) ∧
    (sWarm.tally.autowarm = true ∧ maintains sWarm = true ∧ (ran .autowarm sWarm).tally.viol = false) := by decide +kernel

/-! ## Thermal -/

def withTherm (f : Therm → Therm) : State := { base with therm := f base.therm }
/-- A conversion runs. -/
def sConv : State := withTherm (fun t => { t with conv := true })
/-- Band T4 was entered long ago and the last reading was low. -/
def sLow (pair : Bool) : State := withTherm (fun t => { t with conv := true, band := 4, decided := 4, goods := [(0, 816)], pair := pair, entered := 0 })

theorem test_DemandsStart :
    (mayTrigger base (.core 0) false = true ∧ base.clock.running = true ∧ base.therm.conv = false ∧ base.therm.held = false ∧ base.therm.startedSet = false) ∧
    ((ran (.demand (.core 0)) base).therm.conv = true ∧ (ran (.demand (.core 0)) sConv).therm.waiting = true ∧ mayTrigger base (.port 0) false = false) ∧
    (waitosRuns base = true ∧ (ran .readingDemand base).therm.conv = true) ∧
    ((ran .guardReading (withTherm (fun t => { t with guard := true }))).therm.conv = true ∧ base.therm.guard = false) ∧
    ((ran .diodeRetry (withTherm (fun t => { t with fault := true }))).therm.conv = true) := by decide +kernel

theorem test_ReadingsSetTheBand :
    (sConv.therm.waiting = false ∧ sConv.therm.readers = [] ∧ sConv.therm.confirming = false ∧ waitosRuns sConv = true) ∧
    (outOfRange (BitVec.ofInt 12 895).toInt = false ∧ jumps sConv.therm (now sConv) 895 = false ∧ (1 : Nat) < bandOf 895 ∧ (ran (.conversionDone 895) sConv).therm.band = 4) ∧
    (bandOf 440 = 1 ∧ bandOf 439 = 0 ∧ (ran (.conversionDone 440) { sConv with therm := { sConv.therm with goods := [(4999000000, 440)] } }).therm.band = 1) ∧
    ((816 : Int) ≤ lowBound 4 ∧ jumps (sLow true).therm (now (sLow true)) 816 = false ∧ (ran (.conversionDone 816) (sLow true)).therm.band = 3 ∧ (ran (.conversionDone 816) (sLow false)).therm.band = 4) ∧
    (outOfRange 1201 = true ∧ outOfRange 1200 = false ∧ (ran (.conversionDone 1201) sConv).therm.fault = true ∧ (ran .conversionTimeout sConv).therm.fault = true) ∧
    (jumps sConv.therm (now sConv) 896 = false ∧ sConv.boot.phase = .ready ∧ sConv.holdup.ph = 0 ∧ (ran (.conversionDone 896) sConv).therm.tripped = true) := by decide +kernel

/-- The fifth good reading in the fault state; a jump, and one to a trip that the next reading confirms. -/
def sFault (run : Nat) : State := withTherm (fun t => { t with conv := true, fault := true, run := run, band := 3, decided := 3 })

def sJump : State := withTherm (fun t => { t with conv := true, goods := [(4999000000, 440)] })

theorem test_ReadingsJump :
    ((ran (.conversionDone 440) (sFault 4)).therm.fault = false ∧ (ran (.conversionDone 440) (sFault 3)).therm.fault = true) ∧
    (jumps sJump.therm (now sJump) 896 = true ∧ (ran (.conversionDone 896) sJump).therm.tripped = false ∧ (ran (.conversionDone 896) sJump).therm.confirming = true ∧
      (ran (.conversionDone 601) sJump).therm.fault = true) ∧
    ((withTherm (fun t => { t with conv := true, confirming := true })).therm.confirming = true ∧
      (ran (.conversionDone 896) (withTherm (fun t => { t with conv := true, confirming := true }))).therm.tripped = true) ∧
    (waitosRuns { base with waitos := { base.waitos with cores := 0 } } = false) := by decide +kernel

theorem test_BandsAndCalibration :
    (bandInForce base < 4 ∧ refreshed base 0 = true ∧ sget 0 (ran (.bandWrite (.core 0) 4) base).tcam.refBand (siteOf base 0) = 4) ∧
    ((ran (.bandWrite (.core 0) 4) base).therm.band = 4 ∧ (ran (.bandWrite (.core 0) 5) base).therm.band = 1) ∧
    ((ran .bandConfirm (withTherm (fun t => { t with held := true }))).therm.confirmed = 5000000000 ∧ (withTherm (fun t => { t with fault := true })).therm.fault = true) ∧
    (calDefer base = 0 ∧ calDefer (withTherm (fun t => { t with band := 3 })) = 1 ∧ (ran .calibration base).therm.held = true) ∧
    ((ran .calibration (withTherm (fun t => { t with band := 3 }))).therm.deferred.isSome = true ∧ (ran (.calnow (.core 0)) base).therm.held = true) ∧
    ((ran .calibrationDone (withTherm (fun t => { t with held := true }))).therm.calTime = base.clock.time) ∧
    ((getQueue (ran .calDeferred (withTherm (fun t => { t with band := 3, deferred := some 0 }))) 8).recs.map (fun r => (r.code, r.detail)) = [(0x4008, 1)]) := by decide +kernel

/-- A retention test begins again where the band rises; CALNOW gives up a conversion and takes a handle, or none where none is free. -/
theorem test_BandsRestartRetention :
    ((ran (.bandWrite (.core 0) 4) (sRetain 9)).tcam.retain.map (·.2) = [now base] ∧ (sRetain 9).tcam.retain.map (·.2) = [now base - 9]) ∧
    (base.therm.deferred = none ∧ (ran (.calnow (.core 0)) sConv).therm.conv = false ∧ (startOp base 0x0302 qFW true (5, 0)).isSome = true ∧
      (ran (.calnow (.core 0)) base).waitos.ops ≠ []) := by decide +kernel

/-- A TEMP report with RSEQ n of one entry: group 29, value v. -/
def tTemp (n v : Nat) : Slot := mkSlot [(0, 6), (8, 1), (16, n), (64, 29), (72, v)]
def sTemp (seen : Bool) (n v : Nat) : State := modPort (withIn 0 cTEMP (tTemp n v) base) 0 (fun y => { y with rseq := 5, rseqSet := seen })

theorem test_MediaReports :
    (ingressHead (sTemp true 5 0) 0 cTEMP = some (tTemp 5 0) ∧ bf 16 16 (tTemp 5 0) - (5 : BitVec 16) = 0 ∧ 32768 ≤ (bf 16 16 (tTemp 32773 0) - (5 : BitVec 16)).toNat) ∧
    (bn 8 4 (tTemp 6 1200) = 1 ∧ bn 64 8 (tTemp 6 1200) = 29 ∧ portOfGroup 29 = 0 ∧ (bf 72 12 (tTemp 6 1200)).toInt = 1200 ∧ (getPort (sTemp false 6 1200) 0).rseqSet = false) ∧
    ((getGroup base 29).band < mediaBand base 1200 ∧ (getGroup (ran (.temp 0) (sTemp false 6 1200)) 29).value = 1200) ∧
    (min 240 (tCap base tSHT) = 64 ∧ isStale base 63 = true) := by decide +kernel

/-- A report that is newer is applied, also where the band's rise waits for a core. -/
theorem test_MediaNewer :
    (bf 16 16 (tTemp 6 1200) - (5 : BitVec 16) = 1 ∧ (getPort (sTemp true 6 1200) 0).rseqSet = true ∧ swf Port.reset none (sTemp true 6 1200).ports = true) ∧
    ((getGroup (ran (.temp 0) (sTemp true 6 1200)) 29).value = 1200 ∧ coresServe (sTemp true 6 1200) = true) := by decide +kernel

/-! ## Waitos -/

/-- A request of a command with parameters, and the state in which it stands at the head of w's queue. -/
def tAsk (cmd : Nat) (ps : List Byte) : Req := ⟨1, 0, bytesOfNat 2 cmd ++ [7, 0] ++ bytesOfNat 2 ps.length ++ [0, 0] ++ ps⟩
def asks (w : Client) (cmd : Nat) (ps : List Byte) (s : State) : State := setReqs s w [tAsk cmd ps]

/-- The conditions of Asked, one after the other. -/
abbrev AskedC (s : State) (w : Client) (n : Nat) (r : Req) (ps : List Byte) : Prop :=
  (reqsOf s w).head? = some r ∧ rCmd r = n ∧ waitosRuns s = true ∧ reqFormed r = true ∧ rParams r = ps ∧ permitted w n = true ∧ stateBusy s n (imgTarget s r) = none

theorem asked_of {s : State} {w : Client} {n : Nat} {r : Req} {ps : List Byte} (h : AskedC s w n r ps) : Asked s w n r ps :=
  ⟨h.1, h.2.1, h.2.2.1, h.2.2.2.1, h.2.2.2.2.1, h.2.2.2.2.2.1, h.2.2.2.2.2.2⟩

/-- The status codes that the sideband is answered (16 more with a handle), and the last answer's result. -/
def sbSt (c : Instr) (s : State) : List Nat := (ran c s).waitos.sbTx.map (fun x => ((x.2.flatMap SbPacket.data).getD 8 0).toNat)
def sbRes (c : Instr) (s : State) : List Byte := ((ran c s).waitos.sbTx.getLast?.map (fun x => (x.2.flatMap SbPacket.data).drop 13)).getD []

/-- Every request that the statements name is one that Waitos executes. -/
theorem test_Asked :
    (∀ x ∈ ([(0x0001, 0), (0x0002, 2), (0x0003, 1), (0x0004, 2), (0x0005, 2), (0x0101, 4), (0x0102, 12), (0x0201, 3), (0x0301, 0), (0x0302, 0), (0x0303, 3), (0x0401, 6),
        (0x0402, 3), (0x0501, 2), (0x0502, 2), (0x0503, 6), (0x0601, 4), (0x0602, 3), (0x0603, 1), (0x0701, 5), (0x0801, 1), (0x0802, 0), (0x0803, 0), (0x0804, 8),
        (0x0901, 8), (0x0902, 9), (0x0903, 0), (0x0904, 0), (0x0A01, 0), (0x0A02, 256)] : List (Nat × Nat)),
      AskedC (asks .sb x.1 (List.replicate x.2 1) base) .sb x.1 (tAsk x.1 (List.replicate x.2 1)) (List.replicate x.2 1)) ∧
    (∀ x ∈ ([(0x0001, 0), (0x0003, 0), (0x0202, 40), (0x0203, 24), (0x0702, 2)] : List (Nat × Nat)),
      AskedC (asks (.port 7) x.1 (List.replicate x.2 1) base) (.port 7) x.1 (tAsk x.1 (List.replicate x.2 1)) (List.replicate x.2 1)) ∧
    (let s := asks .sb 0x0A03 [0, 0, 0, 0] { base with boot := { base.boot with phase := .stopped, stop := 2 } }
     AskedC s .sb 0x0A03 (tAsk 0x0A03 [0, 0, 0, 0]) [0, 0, 0, 0] ∧ sbSt (.storeInit .sb) s = [16]) := by decide +kernel

theorem test_WaitosRefuses :
    (waitosCommand (.getInfo .sb) = some (.sb, 1) ∧ reqsOf base .sb = [] ∧ rCmd (tAsk 2 []) ≠ 1) ∧
    (reqFormed ⟨1, 0, [1, 0, 7, 1, 0, 0, 0, 0]⟩ = false ∧ sbSt (.getInfo .sb) (setReqs base .sb [⟨1, 0, [1, 0, 7, 1, 0, 0, 0, 0]⟩]) = [13]) ∧
    ((stateBusy (sSave 1 true) 0x0804 0).isSome = true ∧ sbSt (.timeAdvance .sb) (asks .sb 0x0804 [1, 0, 0, 0, 0, 0, 0, 0] (sSave 1 true)) = [12]) := by decide +kernel

/-- The last segment of a request of the largest first segment, on port 7. -/
def tSeg : Slot := mkSlot [(0, 10), (9, 1), (16, 3), (32, 24), (64, 0x0001), (96, 16)]
def tOp : Op := { cmd := 0x0402, state := 0, st := 0xF, progress := 0, start := 0, end_ := 0, endAt := 0, owner := 9, auto := false, obj := (1, 0), data := [] }
def withOp (x : Op) : State := setOp base 4095 (some x)

/-- GET_INFO in packets of the sideband. -/
def tInfo : List SbPacket := sbPackets (sbHead ++ [1, 0, 0, 0, 0, 0, 0, 0])

theorem test_RequestsAndHandles :
    (ingressHead (withIn 7 10 tSeg base) 7 cMGMT = some tSeg ∧ bit 8 tSeg = false ∧ bit 9 tSeg = true ∧ bn 24 4 tSeg = 0 ∧ bn 32 5 tSeg = 24 ∧ listed (natAt ((toBytes 24 (bf 64 192 tSeg)).take 24) 0 2) = true) ∧
    ((getPort (withIn 7 10 tSeg base) 7).exch = [] ∧ reqsOf base (.port 7) = [] ∧ ((reqsOf (ran (.mgmt (.port 7)) (withIn 7 10 tSeg base)) (.port 7)).map rCmd) = [1]) ∧
    ((reqsOf (ran (.mgmt (.sideband 9 3 tInfo)) base) .sb).length = 1 ∧ ran (.mgmt (.sideband 9 3 tInfo)) State.reset = State.reset) ∧
    (getOp (withOp tOp) 4095 = some tOp ∧ opRuns tOp = true ∧ tOp.st = 0xF ∧ (getOp (ran (.opDone 4095 2 9) (withOp tOp)) 4095).map (fun y => (y.st, y.progress)) = some (2, 9)) ∧
    (opRuns { tOp with state := 1 } = false ∧ swf none none (withOp tOp).waitos.ops = true ∧ getOp (ran (.handleFree 4095) (withOp { tOp with state := 1 })) 4095 = none ∧
      getOp (ran (.handleFree 4095) (withOp tOp)) 4095 = some tOp) := by decide +kernel

/-- An operation whose status is known, and lane calibrations with and without a lane to run; replicas that resume under handle 0. -/
def resume (s : State) : State := { s with waitos := { s.waitos with resumed := [{ tOp with cmd := 0x0601, obj := (3, 0), data := [2047] }] } }

/-- A LANE_CAL of port 8 has lanes i and 3 still to run. -/
def sLanes (i : Nat) : State := withOp { tOp with cmd := 0x0303, obj := (4, 8), data := [i, 3] }

theorem test_OperationsEnd :
    ((getOp (ran (.opDone 4095 2 9) (withOp { tOp with st := 3, progress := 4 })) 4095).map (fun y => (opRuns y, y.st, y.progress)) = some (false, 3, 4)) ∧
    ((getOp (ran (.opDone 4095 0xF 9) (withOp tOp)) 4095).map (fun y => y.st) = some 14 ∧ base.waitos.session = none) ∧
    ((getOp (ran (.opDone 4095 0xF 9) (withOp { tOp with cmd := 0x0303, obj := (4, 8) })) 4095).map (fun y => (opRuns y, y.st)) = some (false, 0) ∧ (getPort base 8).cal = none) ∧
    ((getOp (ran (.opDone 4095 0xF 9) (sLanes 63)) 4095).map opRuns = some true ∧ (getPort (sLanes 63) 8).calen = true) ∧
    (base.waitos.resumed = [] ∧ bankState base 2047 = 0 ∧ (ran (.opDone 0 0 0) (resume base)).waitos.resumed.length = 1 ∧
      (ran (.opDone 0 0 0) (resume (setBankState base 2047 1))).waitos.resumed = []) ∧
    (sbMessage tInfo = some [1, 0, 0, 0, 0, 0, 0, 0] ∧ sbMessage (sbPackets [0x7E, 1]) = none) := by decide +kernel

theorem test_WaitosInforms :
    ((sbRes (.getInfo .sb) (asks .sb 1 [] base)).length = (infoBytes base).length ∧ sbSt (.opStatus .sb) (asks .sb 2 [255, 15] base) = [1] ∧ sbSt (.opStatus .sb) (asks .sb 2 [255, 15] (withOp tOp)) = [0]) ∧
    (sbSt (.getKeyslots .sb) (asks .sb 3 [7] base) = [0] ∧ sbSt (.dirRead .sb) (asks .sb 4 [255, 63] base) = [0]) ∧
    (natAt [63, 0] 0 2 < 4096 ∧ rowBad base tMIG 63 = false ∧ (sbRes (.migInfo .sb) (asks .sb 5 [63, 0] base)).length = 32) ∧
    (sbRes (.dbgNonce .sb) (asks .sb 0x0A01 [] base) = List.replicate 16 0) := by decide +kernel

/-- The coordinator's question is out to the ranks m with worst answer v; RST_N and the links stand. -/
def sAsk (m : BitVec 4) (v : Nat) : State := { sRte with crew := { sRte.crew with ask := some ⟨0, 0, m, v⟩ } }

theorem test_WaitosRebalances :
    (rteOwner sRte 0 = some (rank sRte) ∧ holderOf sRte (6, 0) = none ∧ partnerGran sRte 0 0 = some (2 ^ 17) ∧ (otherRanks sRte).all (reaches sRte) = true ∧ winCovers sRte (2 ^ 17) = false) ∧
    (granMigrating sRte 0 = false ∧ rteRoom sRte 0 (2 ^ 17) = true ∧ (startOp sRte 0x0701 9 false (6, 0)).isSome = true ∧ sRte.crew.ask = none ∧ sRte.crew.phase = 0) ∧
    ((ran (.rebalBegin .sb) (asks .sb 0x0701 [0, 0, 0, 0, 0] sRte)).crew.ask = some ⟨0, 0, rankSet (otherRanks sRte), 0⟩ ∧
      sbSt (.rebalBegin .sb) (asks .sb 0x0701 [0, 0, 0, 0, 0] (sAsk 0 6)) = [4] ∧ sbSt (.rebalBegin .sb) (asks .sb 0x0701 [0, 0, 0, 0, 0] (sAsk 0 7)) = [12] ∧
      (ran (.rebalBegin .sb) (asks .sb 0x0701 [0, 0, 0, 0, 0] (sAsk 0 0))).crew.phase = 1 ∧ sbSt (.rebalBegin .sb) (asks .sb 0x0701 [1, 0, 0, 0, 0] sRte) = [13]) ∧
    ((coord 3 0).crew.await = 0 ∧ (ran (.rebalReport (.port 0)) (asks (.port 0) 0x0702 [0, 62] { coord 2 0 with crew := { (coord 2 0).crew with cursor := 63 } })).crew.cursor = 63) ∧
    (retireAll { coord 5 0 with prot := { base.prot with prole := [(1, 1)] } } = false) ∧
    (maintains base = true ∧ dValid (dirEntry base 0) = true) := by decide +kernel

/-- The ICAS of CTX_CAS on word 3 of row 63, from a value to 8. -/
def cCas (old : Nat) : TCmd := ctxCmd base 0x13 63 (mkSlot [(64, 192), (72, 63), (128, old), (192, 8)]) 0

theorem test_WaitosReaches :
    ((regRead base .sb 0).2.1 = .ok ∧ sbRes (.mread .sb) (asks .sb 0x0101 [0, 0, 0, 1] base) = toBytes 4 (0x10738BCB : BitVec 32)) ∧
    ((regRead base .sb 0x7FFFFC).2.1 = .malformed ∧ sbSt (.mread .sb) (asks .sb 0x0101 [0xFC, 0xFF, 0x7F, 1] base) = [13]) ∧
    ((regWrite base .sb 0x010030 3).1 = .locked ∧ sbSt (.mwrite .sb) (asks .sb 0x0102 [0x30, 0, 1, 1, 0, 0, 0, 0, 3, 0, 0, 0] base) = [7]) ∧
    ((regWrite base .sb 0x0A1008 1).1 = .ok) ∧
    (tCap base tCTX = 64 ∧ tKind base tCTX = 2 ∧ sbSt (.ctxRead .sb) (asks .sb 0x0201 [64, 0, 0] base) = [13] ∧ (sbRes (.ctxRead .sb) (asks .sb 0x0201 [63, 0, 0] base)).length = 32) ∧
    (indexRefusal base (ctxCmd base 0x11 63 (bput 256 64 5) 0) false [] true = none ∧ cTable (ctxCmd base 0x11 63 (bput 256 64 5) 0) = tCTX ∧ cRow (ctxCmd base 0x11 63 (bput 256 64 5) 0) = 63 ∧
      (rowKeys base tCTX 63).any (coalFull base) = false ∧ (jAdmit base [[.iword tCTX 0 63 5, .iword tCTX 1 63 0, .iword tCTX 2 63 0, .iword tCTX 3 63 0]]).1 = true) ∧
    (indexRefusal base (cCas 0) (!fieldOk base (cCas 0)) [] true = none ∧ fieldOf base tCTX 63 192 64 = 0 ∧ (cVal (cCas 1)).toNat % 2 ^ 64 = 1) ∧
    (permitted (.port 0) 0x0202 = true ∧ (peek (ran (.ctxWrite (.port 0)) (asks (.port 0) 0x0202 ([63, 0, 0, 0, 0, 0, 0, 0, 5] ++ List.replicate 31 0) base)) (rowKey base tCTX 63 0)).data = 5) ∧
    (permitted (.port 0) 0x0203 = true ∧ (peek (ran (.ctxCas (.port 0)) (asks (.port 0) 0x0203 ([63, 0, 0, 3, 0, 0, 0, 0] ++ List.replicate 8 0 ++ 8 :: List.replicate 7 0) base)) (rowKey base tCTX 63 3)).data = 8 ∧
      (peek (ran (.ctxCas (.port 0)) (asks (.port 0) 0x0203 ([63, 0, 0, 3, 0, 0, 0, 0] ++ 1 :: List.replicate 7 0 ++ 8 :: List.replicate 7 0) base)) (rowKey base tCTX 63 3)).data = 0) := by decide +kernel

/-- MREAD and MWRITE of two words, of which the second stops; the DETAIL of a word that stops in a boot that has stopped. -/
theorem test_WordsStop :
    ((readWords .sb 2 8 0 base).2.1 = none ∧ (readWords .sb 2 8 0 base).1.length = 8) ∧
    ((readWords .sb 2 0x7FFFFC 0 base).2.1 = some (.malformed, 0)) ∧
    ((writeWords .sb [1, 1] 0x0A1008 0 base).1 ≠ none ∧ (writeWords .sb [1] 0x0A1008 0 base).1 = none) ∧
    (wordDetail base .locked 3 = 3 ∧ wordDetail { base with boot := { base.boot with phase := .stopped, stop := 2 } } .busyRetry 3 = 0x2002) := by decide +kernel

theorem test_WaitosCalibrates :
    ((ran (.tempRead .sb) (asks .sb 0x0301 [] base)).therm.readers.map (·.1) = [9] ∧ (ran (.tempRead .sb) (asks .sb 0x0301 [] sConv)).therm.readers.map (·.1) = [265]) ∧
    (calDefer base = 0 ∧ sbSt (.diodeCal .sb) (asks .sb 0x0302 [] base) = [16] ∧ sbSt (.diodeCal .sb) (asks .sb 0x0302 [] (withTherm (fun t => { t with band := 3 }))) = [12]) ∧
    (holderOf base (4, 8) = none ∧ (getPort base 8).st = pACTIVE ∧ (getPort base 8).calen = true ∧ sbSt (.laneCal .sb) (asks .sb 0x0303 [8, 63, 0] base) = [16] ∧ sbSt (.laneCal .sb) (asks .sb 0x0303 [10, 255, 2] base) = [12]) ∧
    ((ran (.scrubSet .sb) (asks .sb 0x0401 [2, 0, 88, 2, 16, 14] base)).integ.bankPer = 600 ∧ (ran (.scrubSet .sb) (asks .sb 0x0401 [2, 0, 88, 2, 16, 14] base)).integ.sramPer = 3600) ∧
    (scrubBad base 0 2111 = true ∧ scrubBad base 0 2 = false ∧ bankBusy base 2 = none ∧ sbSt (.scrubNow .sb) (asks .sb 0x0402 [0, 63, 8] base) = [13]) ∧
    ((ran (.autoSet .sb) (asks .sb 0x0603 [2] base)).waitos.autoRep = false) := by decide +kernel

/-- LANE_CAL of lane 63 in both directions, and what its handle holds; DIODE_CAL gives up a conversion. -/
theorem test_LaneCalNames :
    (laneList 63 2 = [63, 127] ∧ laneList 63 0 = [63] ∧ laneList 255 1 = (List.range 64).map (64 + ·)) ∧
    ((ran (.laneCal .sb) (asks .sb 0x0303 [8, 63, 2] base)).waitos.ops.map (fun x => x.2.map (fun y => (y.obj, y.data, y.st))) = [some ((4, 8), [63, 127], 0xF)]) ∧
    (holderOf sConv (5, 0) = none ∧ (ran (.diodeCal .sb) (asks .sb 0x0302 [] sConv)).therm.conv = false) := by decide +kernel

/-- Every bank of octant 0 is RETIRED. -/
def fullList (s : State) : State := { s with tcam := { s.tcam with state := (List.range 264).map (fun i => if i < 256 then (i, 5) else (i + 1792, 7)) } }
/-- Directory 1 of table 1, with r replicas more. -/
def sDirs (repl span : Nat) : State :=
  { base with str := { base.str with tables := sput 0 base.str.tables 1 (tDesc 1 1 false false 16384 0) }, marker := { base.marker with dirA := [(1, dMake (tDir 1 1 ||| bput 80 40 repl ||| bput 80 38 span))], dirB := [(1, dMake (tDir 1 1 ||| bput 80 40 repl ||| bput 80 38 span))] } }

theorem test_WaitosMaintainsBanks :
    (bankBusy base 2111 = none ∧ octantBusy base 2111 = none ∧ bankState base 2111 = 2 ∧ (jAdmit base [[.bank 4 2111 0 0 4]]).1 = true ∧ bankState (ran (.bankTest .sb) (asks .sb 0x0501 [63, 8] base)) 2111 = 4) ∧
    (replacement base 0 = some 2048 ∧ sbSt (.bankTest .sb) (asks .sb 0x0501 [0, 0] base) = [16]) ∧
    (replacement (setBankState (fullList base) 0 1) 0 = none ∧ bankState (setBankState (fullList base) 0 1) 0 = 1) ∧
    (bankState base 2047 = 0 ∧ bankState (ran (.waitosBankRetire .sb) (asks .sb 0x0502 [255, 7] base)) 2047 = 5) ∧
    (holderOf base (2, 0) = none ∧ addrOk 40 = true ∧ spareFor (noSpares base) 0 false = none ∧ sbSt (.cellSpare .sb) (asks .sb 0x0503 [40, 0, 0, 0, 0, 0] (noSpares base)) = [4]) ∧
    (spareFor base 0 false = some 0 ∧ spareFor base 0 true = some 0 ∧ (startOp base 0x0503 9 false (2, 0)).isSome = true) := by decide +kernel

/-- BANK_TEST of bank 0: its lead, the number of its old site. -/
theorem test_BankTestNames :
    (cloneLead base 0 = 0 ∧ replacement base (cloneLead base 0) = some 2048 ∧ oldSiteNo base 0 2048 = 2048 ∧ isPair base 0 = false) ∧
    ((ran (.bankTest .sb) (asks .sb 0x0501 [0, 0] base)).waitos.ops.map (fun x => x.2.map (fun y => (y.obj, y.data))) = [some ((1, 2048), [2048, 0])]) := by decide +kernel

theorem test_WaitosReplicas :
    (dirOf (sDirs 0 0) 1 1 = true ∧ holderOf (sDirs 0 0) (3, 1) = none ∧ (replicaRoom (sDirs 0 0) 1).isSome = true ∧ replicaRoom (sDirs 31 0) 1 = none) ∧
    (sbSt (.replicate .sb) (asks .sb 0x0601 [1, 1, 0, 0] (sDirs 0 0)) = [16] ∧ sbSt (.replicate .sb) (asks .sb 0x0601 [1, 1, 0, 0] (sDirs 31 0)) = [4]) ∧
    (dRepl (dirEntry (sDirs 0 0) 1) = 1 ∧ sbSt (.replicate .sb) (asks .sb 0x0601 [1, 1, 0, 1] (sDirs 0 0)) = [13]) ∧
    ((jAdmit (sDirs 0 0) [[dirRec 1 (bset 60 1 (dirEntry (sDirs 0 0) 1) 1)]]).1 = true ∧ dSel (dirEntry (ran (.replicate .sb) (asks .sb 0x0601 [1, 1, 0, 6] (sDirs 0 0))) 1) = true) ∧
    (growRoom (sDirs 0 3) 1 = none ∧ (growRoom (sDirs 0 2) 1).isSome = true ∧ sbSt (.grow .sb) (asks .sb 0x0602 [1, 1, 0] (sDirs 0 2)) = [16]) := by decide +kernel

/-- REPLICATE that removes the last replica, and GROW with and without room in the journal. -/
theorem test_WaitosRemovesAndGrows :
    (dRepl (dirEntry (sDirs 1 0) 1) = 2 ∧ (jAdmit (sDirs 1 0) [lessRecs (sDirs 1 0) 1 1]).1 = true ∧
      dRepl (dirEntry (ran (.replicate .sb) (asks .sb 0x0601 [1, 1, 0, 1] (sDirs 1 0))) 1) = 1) ∧
    ((growRoom (sDirs 0 2) 1).map (fun x => ((jAdmit (sDirs 0 2) [growRecs (sDirs 0 2) 1 x.1 x.2]).1, (jAdmit (sSeal (sDirs 0 2)) [growRecs (sDirs 0 2) 1 x.1 x.2]).1)) = some (true, false)) := by
  decide +kernel

/-- A grant whose policy is off, and one that names another die. -/
def sPol (p : BitVec 2) : State := { base with prot := { base.prot with dbgpol := p } }

theorem test_WaitosResets :
    (sbSt (.portResetCommand .sb) (asks .sb 0x0801 [10] base) = [0]) ∧
    ((ran (.warmResetCommand .sb) (asks .sb 0x0802 [] base)).holdup.warm = true ∧ (ran (.crewResetCommand .sb) (asks .sb 0x0803 [] base)).holdup.warm = true) ∧
    ((ran (.timeAdvance .sb) (asks .sb 0x0804 (bytesOfNat 8 days30) base)).clock.advanced = days30 ∧
      sbSt (.timeAdvance .sb) (asks .sb 0x0804 [1, 0, 0, 0, 0, 0, 0, 0] { base with clock := { base.clock with advanced := days30 } }) = [13]) ∧
    ((sPol 0).prot.dbgpol = 0 ∧ (sPol 3).prot.dbgpol ≠ 0 ∧ grantFault (sPol 3) (List.replicate 256 1) = 1) ∧
    (sbSt (.dbgGrant .sb) (asks .sb 0x0A02 (List.replicate 256 1) (sPol 0)) = [7] ∧ sbSt (.dbgGrant .sb) (asks .sb 0x0A02 (List.replicate 256 1) (sPol 3)) = [13]) ∧
    (sbSt (.storeInit .sb) (asks .sb 0x0A03 [0, 0, 0, 0] base) = [7]) := by decide +kernel

/-- An open session of a length with what has come, for live staging or for a boot slot. -/
def sImg (live : Bool) (len next : Nat) : State :=
  { base with waitos := { base.waitos with session := some ⟨live, len, next, true, [], List.replicate next 0, 0, 0, false⟩ } }

theorem test_ImageSessions :
    (sbSt (.imgBegin .sb) (asks .sb 0x0901 [1, 0, 0, 0, 0, 0, 16, 0] base) = [0] ∧ sbSt (.imgBegin .sb) (asks .sb 0x0901 [0, 0, 0, 0, 0, 0, 128, 0] base) = [16] ∧
      sbSt (.imgBegin .sb) (asks .sb 0x0901 [1, 0, 0, 0, 0, 2, 0, 0] (sImg true 512 0)) = [12]) ∧
    (sbSt (.imgData .sb) (asks .sb 0x0902 [4, 0, 0, 0, 0, 0, 0, 0, 9] (sImg true 512 0)) = [10] ∧ sbSt (.imgData .sb) (asks .sb 0x0902 [2, 0, 0, 0, 0, 0, 0, 0, 9] (sImg true 3 2)) = [0]) ∧
    (sbSt (.imgCommit .sb) (asks .sb 0x0903 [] base) = [13] ∧ sbSt (.imgCommit .sb) (asks .sb 0x0903 [] (sImg true 512 0)) = [13]) ∧
    (packageOk (sImg true 2 2) ⟨true, 2, 2, true, [], [0, 0], 0, 0, false⟩ = false ∧ sbSt (.imgCommit .sb) (asks .sb 0x0903 [] (sImg true 2 2)) = [13]) ∧
    (handleRoom (sImg false 2 2) false = true ∧ (match verifySlot (sImg false 2 2) ⟨false, 2, 2, true, [], [], 0, 0, false⟩ with | .inl c => c | .inr _ => 0) = 1 ∧ sbSt (.imgCommit .sb) (asks .sb 0x0903 [] (sImg false 2 2)) = [16]) ∧
    (sbSt (.imgAbort .sb) (asks .sb 0x0904 [] base) = [0] ∧ (ran (.imgAbort .sb) (asks .sb 0x0904 [] (sImg true 3 2))).waitos.session = none ∧
      (ran .imgSessionTimeout (sImg true 3 2)).waitos.session = none) := by decide +kernel

/-! ## Management space -/

def sLock (l : Bool) : State := { base with prot := { base.prot with locked := l } }
def sBusy : State := { base with update := { base.update with set0 := { base.update.set0 with busy := true } } }
def schedGood : BitVec 24 := 0x0A0A0A

theorem test_RegistersReadAndWrite :
    (mayRead base .jtag = false ∧ mayRead State.reset (.core 0) = false ∧ regAt base false (selsOf base (.core 0)) 0x7FFFFC = none) ∧
    (mayRead base (.core 0) = true ∧ (regAt base false (selsOf base (.core 0)) 0x000008).map (fun e => (e.1, e.2.length)) = some (8, 2) ∧ readLocked base (.core 0) 8 = false ∧
      regRead { base with mgmt := { base.mgmt with latch := [(0, 9, [5, 6])] } } (.core 0) 12 = (6, .ok, { base with mgmt := { base.mgmt with latch := [(0, 9, [5, 6])] } })) ∧
    (mayWrite base (.port 0) = false ∧ mayWrite base (.core 3) = true ∧ (sLock false).prot.locked = false ∧ (ran (.registerWrite (.core 3) 0x010030 7) (sLock false)).prot.dbgpol = 3) ∧
    (schedOk schedGood = true ∧ schedOk 0 = false ∧ (ran (.registerWrite (.core 3) 0x080014 0x0A0A0A) base).str.thermal.tsched = schedGood) ∧
    (base.update.set0.busy = false ∧ sBusy.update.set0.busy = true ∧ (ran (.registerWrite (.core 3) 0x04000C 7) sBusy).update.set0.rejected = true) ∧
    (isSide .sb = true ∧ (ran (.registerWrite .sb 0x0407FC 7) base).update.set0 = base.update.set0) ∧
    (etWriter base .sb = false ∧ (regAt base true (selsOf base .sb) 0x0948F8).isSome = true ∧ (regWrite base .sb 0x0948F8 7).1 = .locked ∧ (regWrite base .sb 0x090000 1).1 = .locked) := by decide +kernel

theorem test_LockedFieldsStay :
    (sLock true).prot.locked = true ∧ (getPort (sLock true) 8).st ≠ pOFF ∧
    ([0x010010, 0x010024, 0x010030, 0x010100, 0x0101FC, 0x028010].map (fun off => (regWrite (sLock true) (.core 0) off 1).1)) = List.replicate 6 .locked := by decide +kernel

theorem test_UnoccupiedOffsetsReadZero :
    (0x7FFFFC < 0x800000 ∧ regAt base (isSide .sb) (selsOf base .sb) 0x7FFFFC = none) ∧ regAt State.reset (isSide (.core 0)) (selsOf State.reset (.core 0)) 0x7FFFFC = none := by decide +kernel

/-- Events wait in the queues of FW and of port 0. -/
def sEvt : State := event base [0, 8, 9] 0x1003 2 0

theorem test_EventQueuesAct :
    (swf EvQueue.reset none sEvt.events.queues = true ∧ powered sEvt = true ∧ headReader sEvt .sb = true ∧ (getQueue sEvt 9).recs.length = 1) ∧
    (mayPop sEvt .sb 9 = true ∧ mayPop sEvt .sb 8 = false ∧ (getQueue sEvt 9).recs.map (fun r => r.qseq) = [0] ∧ (getQueue (ran (.eqpop .sb 9 0) sEvt) 9).recs = []) ∧
    (mayTrigger sEvt .sb true = true ∧ (getQueue sEvt 0).recs.map (fun r => decide (r.seenAt + 10000000 ≤ now sEvt)) = [false]) ∧
    (((getQueue sEvt 0).recs.find? (fun r => !r.sent)).isSome = true ∧ (getPort sEvt 0).st = pACTIVE ∧ (getPort sEvt 0).ready = true ∧
      (getHeld (getPort (modPort sEvt 0 (fun x => setHeld x cEVT ⟨8, 8, 8, 8⟩)) 0) cEVT).avail = 8) ∧
    ((getQueue (ran (.evt ⟨0, true⟩) (modPort sEvt 0 (fun x => setHeld x cEVT ⟨8, 8, 8, 8⟩))) 0).lost = 1 ∧ (getPort (ran (.evt ⟨0, false⟩) (modPort sEvt 0 (fun x => setHeld x cEVT ⟨8, 8, 8, 8⟩))) 0).evtSent = 1 ∧ (getPort sEvt 7).ready = false) := by decide +kernel

/-- A frozen trace ring; a snapshot asked for; a debug grant of scope m. -/
def sEv (frozen gpend : Bool) : State := { base with events := { base.events with frozen := frozen, gpend := gpend } }
def sGrant (m : BitVec 4) : State := { base with dbg := { base.dbg with granted := true, scope := m } }

theorem test_TicksTraceAndSideband :
    (base.clock.running = true ∧ State.reset.clock.running = false ∧ (ran .stroke (sEv false true)).events.gtime = base.clock.time ∧ (ran .stroke (sEv false true)).events.gpend = false) ∧
    (mayTrigger base .sb true = true ∧ mayTrigger base .jtag true = false ∧ (sEv true false).events.frozen = true ∧ (sEv false false).events.frozen = false) ∧
    (powered base = true ∧ (ran (.mctpControl (.setEid 254)) base).waitos.eid = 254 ∧ (ran (.dynamicAddress true 127) base).waitos.dynAddr = 127) ∧
    (grantBit (sGrant 1) 0 = true ∧ grantBit (sGrant 1) 1 = false ∧ grantBit (sGrant 2) 1 = true ∧ grantBit base 0 = false ∧
      (ran (.tapInstruction (.internalRead 0)) (sGrant 1)).waitos.tapDr = 0x10738BCB) := by decide +kernel

/-! ## The store -/

def withStore (f : Store → Store) : State := { base with store := f base.store }

/-- The ring of pair 3 holds a superblock in its block 0. -/
def withRing : State :=
  withStore (fun t => { t with ringPos := [(3, 1)], rings := [(3, [⟨3, 0, 1, 0, 0, 0, false, 4, base.str.dpc.toNat, 0, 0, 0, 0, [], 0⟩])] })

/-- Page 0 of the journal lies in block 9 of pair 3. -/
def withPage : State := withStore (fun t => { t with nextPage := 1, pages := [⟨0, 9, 3, []⟩] })

theorem test_StoreAndCheckpoints :
    (nPairs base = 4 ∧ bit 7 base.store.die = true ∧ bit (7 ^^^ 1) base.store.die = true ∧ bit 3 (ran (.storeDieFail 7) base).store.degraded = true) ∧
    (bit (7 ^^^ 1) (withStore (fun t => { t with die := 0xFFBF })).store.die = false ∧ bit 3 (ran (.storeDieFail 7) (withStore (fun t => { t with die := 0xFFBF }))).store.failed = true) ∧
    (32255 ≠ base.store.band ∧ base.store.conditioned.contains 32255 = false ∧ bandLive base 32255 = false ∧ storeDown base = false ∧
      bandLive (withStore (fun t => { t with pages := [⟨0, 9, 0, []⟩] })) 9 = true) ∧
    (base.store.remap.any (fun r => decide (r.1 = 7 ∧ r.2.1 = 32767)) = false ∧ freeSpare base 7 = some 32256) ∧
    (blockPages base 7 9 = [] ∧ blockPages withPage 7 9 = [0] ∧ (advance withPage 1).isSome = true ∧ ((ran (.storeBlockRetire 7 9) withPage).store.pages.map (fun p => p.num)) = [1]) ∧
    (let s := withRing; swf [] none s.store.rings = true ∧ bit 3 s.store.failed = false ∧ sget 0 s.store.ringPos 3 % 256 = 1 ∧ sget false s.store.ringCond (3 * 8 + 1) = false ∧
      ringFree s 3 1 true = true ∧ ringFree base 3 1 true = false ∧ sget false (ran (.superblockRingCondition ⟨3, true⟩) s).store.ringCond 25 = true ∧
      sget false (ran (.superblockRingCondition ⟨3, false⟩) s).store.ringCond 25 = false) := by decide +kernel

/-- A die whose 512 spares are in use has none left. -/
theorem test_NoSpareBlock : freeSpare (withStore (fun t => { t with remap := (List.range 512).map (fun i => (7, i, i + 32256)) })) 7 = none := by
  simp only [freeSpare, withStore, List.find?_eq_none, List.mem_map, List.mem_range, Bool.not_eq_true', Bool.not_eq_false, List.any_eq_true, decide_eq_true_eq]
  rintro x ⟨i, hi, rfl⟩
  exact ⟨(7, i, i + 32256), ⟨i, hi, rfl⟩, rfl, rfl⟩

theorem test_CheckpointRuns :
    (base.boot.phase = .ready ∧ base.holdup.ph = 0 ∧ base.store.run = none ∧ mayTrigger base (.core 3) false = true ∧ (ran .checkpointBegin base).store.run.isSome = true ∧ base.waitos.cores ≠ 0 ∧
      ({ base with waitos := { base.waitos with cores := 0 } }).waitos.cores = 0) ∧
    (let s := { ran .checkpointBegin base with store := { (ran .checkpointBegin base).store with seg := segStruct } }
     segAfter s segStruct = some segStruct ∧ segAfter base 0 = some 0 ∧ (segWords s segStruct).find? (fun e => unstorable s e.1) = none ∧ (placePages s (segSpans s segStruct)).isSome = true ∧
     ((ran .checkpointSegment s).store.run.map (fun d => (d.hasStruct, d.list))) = some (true, base.marker.list)) ∧
    (let s := { ran .checkpointBegin base with store := { (ran .checkpointBegin base).store with seg := segStruct + 1, ringCond := [(8, true)] } }
     segAfter s s.store.seg = none ∧ (placePages s (List.replicate 0 [])).isSome = true ∧ (ran .checkpointComplete s).store.run = none ∧ (ran .checkpointComplete s).fuses.initDone = true ∧ ((ran .checkpointComplete s).store.ckpt.map (fun c => c.segs.map (fun x => x.kind))) = some [3]) ∧
    ((writeSuper (withStore (fun t => { t with ringCond := [(8, true)] })) none).isSome = true ∧ (writeSuper (withStore (fun t => { t with failed := 0xFF })) none).isSome = false) := by decide +kernel

theorem test_JournalKeepsCommitOrder :
    ({ Frame.fresh 0 with used := 254 }.takes ⟨1, false, .entry 0 0 0 0 0 0 false false 0⟩ = true ∧ { Frame.fresh 0 with used := 255 }.takes ⟨1, false, .entry 0 0 0 0 0 0 false false 0⟩ = false) ∧
    ((jCommit base [] true).1 = 1 ∧ ((jCommit base [] true).2.journal.frames.flatMap (fun f => f.recs)).length = (groupOf 1 []).length) ∧
    (base.boot.phase = .ready ∧ jRoom base (.time base.clock.time) = true ∧ jRoom (sSeal base) (.time 0) = false ∧ (ran .timeRecord base).journal.last = 0) ∧
    (let s := ran .pageFrameClose (sFrame 0)
     (s.journal.frames.find? (fun f => f.closed && !f.drained)).isSome = true ∧ storeDown s = false ∧ bit 11 s.power.dom = true ∧ (advance s 1).isSome = true ∧
     (ran .journalDrain s).store.pages.map (fun x => x.recs.length) = [1]) ∧
    (storeDown (withStore (fun t => { t with failed := 8 })) = true) := by decide +kernel

/-! ## Ports -/

/-- A flit of format 1 without credits whose second slot is a search; a CRED message that grants four credits of a class. -/
def tFlit : BitVec 2048 := ((mkSlot [(0, 1), (8, 2)]).setWidth 2048) ||| (((tReq 2).setWidth 2048) <<< 256)
def tCred (c : Nat) (a : Nat) : Slot := mkSlot [(0, 11), (8, 1), (16, c), (24, a)]

theorem test_FlitsAndCredits :
    (linkUp (getPort base 0) = true ∧ linkUp (getPort base 10) = false ∧ bn 0 4 (0 : BitVec 2048) ≠ 1) ∧
    ((getPort base 0).ready = true ∧ base.tally.admstop = false ∧ bn 0 4 tFlit = 1 ∧ (entriesAt (bf 0 256 tFlit) 32 6).all (fun e => e.1 == 0) = true ∧ bf 8 8 tFlit = 2 ∧
      bit 17 tFlit = false ∧ slotClass (bf 256 256 tFlit) = cSRCH ∧ 0 < (getGrant (getPort base 0) cSRCH).avail ∧ sget [] (getPort (ran (.flit 0 ⟨tFlit, 0⟩) base) 0).ingress cSRCH = [tReq 2]) ∧
    (bit 1 (2 : BitVec 8) = true ∧ (getGrant (getPort (ran (.flit 0 ⟨tFlit, 2⟩) base) 0) cSRCH).freed = (getGrant (getPort base 0) cSRCH).freed + 1) ∧
    (swf Port.reset none (withIn 0 cCRED (tCred 7 20) base).ports = true ∧ ingressHead (withIn 0 cCRED (tCred 7 20) base) 0 cCRED = some (tCred 7 20) ∧ bn 8 4 (tCred 7 20) = 1 ∧
      bn 16 4 (tCred 7 20) = 7 ∧ cEVT ≠ 7 ∧ (bf 24 16 (tCred 7 20) - (getHeld (getPort base 0) 7).a).toNat = 4 ∧
      (getHeld (getPort (ran (.cred 0) (withIn 0 cCRED (tCred 7 20) base)) 0) 7).total = 20) ∧
    (swf Grant.reset none (getPort base 0).grants = true ∧ admitting base = true ∧ mayReturn base 0 1 { getPort base 0 with credlim := 9 } = 2 ∧
      (getGrant (getPort (ran (.creditReturn 0) (modPort base 0 (fun x => { x with credlim := 9 }))) 0) 1).avail = 10) := by decide +kernel

def withSt (p : Nat) (st : BitVec 3) (trying : Nat) (hello : Bool) : State :=
  modPort base p (fun x => { x with st := st, trying := BitVec.ofNat 2 trying, hello := hello })
def tHello (p : Nat) (ver : Nat) : Slot := note 6 [(64, ver), (80, if p < 8 then 1 else 2), (88, p)]

theorem test_BringUpAndResets :
    ((getPort (ran (.linkTrained 0 2 [] []) { withSt 0 pTRAINING 2 false with pins := { base.pins with phyref := false } }) 0).st = pTRAINING ∧ base.pins.phyref = true) ∧
    ((getPort (withSt 10 pTRAINING 2 false) 10).st = pTRAINING ∧ lanesOk [31, 63] = true ∧ lanesOk [] = true ∧ (getPort (ran (.linkTrained 10 2 [31, 63] []) (withSt 10 pTRAINING 2 false)) 10).st = pHELLO) ∧
    ((getPort (withSt 0 pTRAINING 1 false) 0).trying ≠ 0 ∧ (getPort (withSt 0 pTRAINING 0 false) 0).trying = 0 ∧ (getPort (ran (.trainingFailure 0) (withSt 0 pTRAINING 0 false)) 0).st = pDOWN) ∧
    ((getPort (withSt 7 pDOWN 0 false) 7).st = pDOWN ∧ base.holdup.ph ≠ 5) ∧
    (ingressHead (withIn 0 cHELLO (tHello 0 0x0100) (withSt 0 pHELLO 2 false)) 0 cHELLO = some (tHello 0 0x0100) ∧ helloOk base 0 (tHello 0 0x0100) = true ∧ helloOk base 0 (tHello 0 0x0101) = false ∧
      (getPort (ran (.hello 0) (withIn 0 cHELLO (tHello 0 0x0100) (withSt 0 pHELLO 2 false))) 0).st = pACTIVE) ∧
    (linkUp (getPort (withSt 0 pHELLO 0 true) 0) = true ∧ (getPort (withSt 0 pRETRAIN 0 true) 0).st = pRETRAIN ∧ (getPort (ran (.linkTrained 0 2 [] []) (withSt 0 pRETRAIN 0 true)) 0).st = pACTIVE) ∧
    ((getPort State.reset 0).st = pOFF ∧ (getPort base 8).st ≠ pOFF ∧ mayTrigger base .sb true = true ∧ mayTrigger base (.port 0) true = false) ∧
    (ingressHead (withNote 0 5 base) 0 cNOTE = some (note 5 []) ∧ bn 8 8 (note 5 []) = 5 ∧ (getPort base 0).st ≠ pOFF) := by decide +kernel

/-- Port 8 of a crew retrains, and port 9 tells its neighbour. -/
theorem test_RetrainTells :
    (linkUp (getPort crew 8) = true ∧ (getPort crew 8).st = pACTIVE ∧ portActive crew 9 = true) ∧
    (note 0x14 [(64, linksMask (ran (.retrain 8) crew))] ∈ (getPort (ran (.retrain 8) crew) 9).tx.flatten ++ (getPort (ran (.retrain 8) crew) 9).egress) := by decide +kernel

/-- Port 8 calibrates lane 63 in a phase; the port's policy asks for a margin of m. -/
def sCal (ph m : Nat) : State :=
  let s := modPort base 8 (fun x => { x with cal := some ⟨63, true, 1, BitVec.ofNat 2 ph, 0⟩ })
  { s with str := { s.str with portPol := [(8, bput 32 8 m)] } }

/-- Both redundant lanes of port 8's upper group are taken in the receive direction. -/
def sFull (skipped : BitVec 4) : State := modPort base 8 (fun x => { x with rxRed := 12, skipped := skipped })

theorem test_LanesCalibrateInTurn :
    (swf Port.reset none base.ports = true ∧ (getPort base 8).st = pACTIVE ∧ (getPort base 8).calen = true ∧ base.ports.any (fun e => e.2.cal.isSome) = false ∧ freeRed (getPort base 8) true 1 = some 0 ∧
      ((getPort (ran (.laneShift 8 63 true) base) 8).cal.map (fun c => (c.lane, c.red))) = some (63, 0)) ∧
    (laneTurn base 8 127 = true ∧ laneOp base = none ∧ laneTurn (sLanes 126) 8 127 = false ∧ ((laneOp (sLanes 127)).map (fun x => (x.1, x.2.obj, x.2.data))) = some (4095, (4, 8), [127, 3]) ∧
      ((getOp (ran (.laneShift 8 63 true) (sLanes 127)) 4095).map (fun x => x.data)) = some [3]) ∧
    (freeRed (getPort (sFull 0) 8) true 1 = none ∧ bit (groupBit true 1) (passTo (getPort (sFull 0) 8) 127).skipped = false ∧ bit (groupBit true 1) (passTo (getPort (sFull 8) 8) 127).skipped = true) ∧
    (counter (ran (.laneShift 8 63 true) (sFull 0)) (0x020100 + 0x1000 * 8 + 8 * 13) = 1 ∧ counter (ran (.laneShift 8 63 true) (sFull 8)) (0x020100 + 0x1000 * 8 + 8 * 13) = 0) ∧
    ((sCal 0 9).ports.any (fun e => e.2.cal.isSome) = true ∧ (getPort (sCal 0 9) 8).cal = some ⟨63, true, 1, 0, 0⟩ ∧ ((getPort (ran (.laneShiftAck 8) (sCal 0 9)) 8).cal.map (·.ph)) = some 1) ∧
    ((getPort (ran (.laneCalTimeout 8) (sCal 0 9)) 8).rxRed = 0 ∧ (getPort (ran (.laneCalTimeout 8) (sCal 2 9)) 8).rxRed = 8 ∧ (getPort (ran (.laneShiftAck 8) (sCal 2 9)) 8).rxRed = 0) ∧
    ((bf 8 8 (sget 0 (sCal 1 9).str.portPol 8)).toNat = 9 ∧ ((getPort (ran (.laneCalibrated 8 9) (sCal 1 9)) 8).cal.map (·.ph)) = some 2 ∧
      (getPort (ran (.laneCalibrated 8 8) (sCal 1 9)) 8).rxRed = 8) := by decide +kernel

/-- What is written in bytes: the two packets of 70 bytes; a record's units and JSN; a location in the last unit of a band. -/
theorem test_WordsReadBack :
    (sbAssemble (sbPackets (List.replicate 70 7)) = some (List.replicate 70 7) ∧ (sbPackets (List.replicate 70 7)).length = 2) ∧
    ((recBytes ⟨0x12345, false, .time 5⟩).length = 16 * recUnits (.time 5) ∧ ofBytes 16 (slice (recBytes ⟨0x12345, false, .time 5⟩) 2 2) = 0x2345) ∧
    (jsnFull 0x1FFF0 (bf 0 16 (0x20003 : Word)) = 0x20003) ∧
    (slocPlace 4 (slocOf 32767 127 15) = (3, 32767, 31 * 65536 + 15 * 4096)) := by decide +kernel

/-! ## The whole machine -/

theorem test_WholeMachine :
    ((match step { base with pending := [.stroke, .epoch] } with | .next t => t.pending | _ => []) = [.epoch]) ∧
    (base.pending = [] ∧ base.clock.running = true ∧ State.reset.clock.running = false) ∧
    (swf (⟨0, 0⟩ : Cw) none base.sram.words = true ∧ swf 0 none base.sram.pages = true ∧ swf TRow.blank none base.tcam.rows = true) ∧
    ((sLock true).prot.locked = true ∧ { sLock true with dbg := { base.dbg with debugged := true } }.dbg.debugged = true) ∧
    (octantOf 2047 = 7 ∧ octantOf 2111 = 7 ∧ octantOf 255 = 0 ∧ octantOf 256 = 1) := by decide +kernel

theorem test_MemoryCanonical : MemoryCanonical base := ⟨by decide +kernel, by decide +kernel, by decide +kernel⟩

end Sys2Proof.Tests
end

section
open Sys2Proof Sys2Proof.Machine
namespace Sys2Proof.Machine

/-! ## Octants -/

theorem octantOf_inUse {n : Nat} (h : n < 2048) : octantOf n = n / 256 := if_pos h

theorem octantOf_spare (m : Nat) : octantOf (2048 + m) = m / 8 := by
  rw [octantOf, if_neg (by omega), Nat.add_sub_cancel_left]

/-- Cut into k runs of c, the first c * k numbers hold c of the quotient o by c when run o is among them, and else none. -/
theorem length_filter_div_eq {c : Nat} (hc : 0 < c) (o k : Nat) :
    ((List.range (c * k)).filter (fun n => n / c = o)).length = if o < k then c else 0 := by
  induction k with
  | zero => simp
  | succ k ih =>
    have run : ((List.range c).map (c * k + ·)).filter (fun n => n / c = o) = if o = k then (List.range c).map (c * k + ·) else [] := by
      have quot : ∀ n ∈ (List.range c).map (c * k + ·), n / c = k := by
        intro n hn
        obtain ⟨j, hj, rfl⟩ := List.mem_map.1 hn
        rw [Nat.mul_add_div hc, Nat.div_eq_of_lt (List.mem_range.1 hj), Nat.add_zero]
      split
      · next h => exact List.filter_eq_self.2 fun n hn => by simp [quot n hn, h]
      · next h => exact List.filter_eq_nil_iff.2 fun n hn => by simp [quot n hn, Ne.symm h]
    rw [Nat.mul_succ, List.range_add, List.filter_append, List.length_append, ih, run]
    rcases Nat.lt_trichotomy o k with h | rfl | h
    · simp [h, Nat.lt_succ_of_lt h, Nat.ne_of_lt h]
    · simp
    · simp [Nat.lt_asymm h, Nat.ne_of_gt h, Nat.not_lt.2 (Nat.succ_le_of_lt h)]

end Sys2Proof.Machine

/-- Settles O10: an octant's banks are one run of the in-use numbers and one of the spare numbers. -/
theorem octantsHoldTheirBanks : Obligations.OctantsHoldTheirBanks := by
  unfold Obligations.OctantsHoldTheirBanks
  refine ⟨fun n => octantOf_inUse, fun m _ => octantOf_spare m, fun o ho => ⟨?_, ?_⟩⟩
  · rw [List.filter_congr (q := fun n => n / 256 = o) fun n hn => by rw [octantOf_inUse (List.mem_range.1 hn)]]
    exact (length_filter_div_eq (by omega) o 8).trans (if_pos ho)
  · simp only [octantOf_spare]
    exact (length_filter_div_eq (by omega) o 8).trans (if_pos ho)

end

section
open Sys2Proof Sys2Proof.Machine
namespace Sys2Proof.Machine

/-! ## Words and their bytes -/

theorem natOfBytes_lt (bs : List Byte) : natOfBytes bs < 2 ^ (8 * bs.length) := by
  induction bs with
  | nil => simp [natOfBytes]
  | cons b bs ih =>
    have hb : b.toNat < 256 := b.isLt
    rw [natOfBytes, List.length_cons, Nat.mul_succ, Nat.pow_add]
    omega

/-- A number's first byte is its remainder, and its other bytes are those of its quotient. -/
theorem bytesOfNat_succ (k v : Nat) : bytesOfNat (k + 1) v = BitVec.ofNat 8 v :: bytesOfNat k (v / 256) := by
  simp only [bytesOfNat, List.range_succ_eq_map, List.map_cons, List.map_map, Nat.mul_zero, Nat.pow_zero, Nat.div_one]
  congr 1
  refine List.map_congr_left fun i _ => ?_
  rw [Function.comp_apply, Nat.div_div_eq_div_mul, show (256 : Nat) = 2 ^ 8 from rfl, ← Nat.pow_add, Nat.succ_eq_add_one, Nat.mul_add, Nat.add_comm]

theorem natOfBytes_bytesOfNat {k v : Nat} (h : v < 2 ^ (8 * k)) : natOfBytes (bytesOfNat k v) = v := by
  induction k generalizing v with
  | zero => simp_all [bytesOfNat, natOfBytes]
  | succ k ih =>
    have hq : v / 256 < 2 ^ (8 * k) := by
      rw [Nat.mul_succ, Nat.pow_add] at h
      omega
    rw [bytesOfNat_succ, natOfBytes, ih hq, BitVec.toNat_ofNat]
    omega

theorem toBytes_eq_bytesOfNat {n : Nat} (k : Nat) (x : BitVec n) : toBytes k x = bytesOfNat k x.toNat := by
  refine List.map_congr_left fun i _ => BitVec.eq_of_toNat_eq ?_
  simp [byteAt, Nat.shiftRight_eq_div_pow]

/-- Bytes read into a word of the same size or more read as the number that they are. -/
theorem ofBytes_toNat {n : Nat} (bs : List Byte) (h : 8 * bs.length ≤ n) : (ofBytes n bs).toNat = natOfBytes bs := by
  induction bs with
  | nil => simp [ofBytes, natOfBytes]
  | cons b bs ih =>
    rw [List.length_cons, Nat.mul_succ] at h
    have hlt : 256 * natOfBytes bs < 2 ^ n :=
      calc 256 * natOfBytes bs < 2 ^ 8 * 2 ^ (8 * bs.length) := by have := natOfBytes_lt bs; omega
        _ ≤ 2 ^ n := by rw [← Nat.pow_add]; exact Nat.pow_le_pow_right (by omega) (by omega)
    have hb : b.toNat < 2 ^ 8 := b.isLt
    have hbn : b.toNat < 2 ^ n := Nat.lt_of_lt_of_le hb (Nat.pow_le_pow_right (by omega) (by omega))
    rw [ofBytes, natOfBytes, BitVec.toNat_or, BitVec.toNat_shiftLeft, BitVec.toNat_setWidth, ih (by omega), Nat.mod_eq_of_lt hbn,
      Nat.shiftLeft_eq, Nat.mul_comm (natOfBytes bs), Nat.mod_eq_of_lt hlt, ← Nat.two_pow_add_eq_or_of_lt hb, Nat.add_comm]

theorem natOfBytes_toBytes (k : Nat) (x : BitVec (8 * k)) : natOfBytes (toBytes k x) = x.toNat := by
  rw [toBytes_eq_bytesOfNat, natOfBytes_bytesOfNat x.isLt]

@[simp] theorem length_toBytes {n : Nat} (k : Nat) (x : BitVec n) : (toBytes k x).length = k := by simp [toBytes]

theorem bit_byteAt {n : Nat} (i : Nat) (x : BitVec n) {j : Nat} (h : j < 8) : bit j (byteAt i x) = bit (8 * i + j) x := by
  simp [bit, byteAt, h]

end Sys2Proof.Machine

/-- Settles O9, by induction on the number of bytes. -/
theorem bytesAreLittleEndian : Obligations.BytesAreLittleEndian := by
  unfold Obligations.BytesAreLittleEndian
  refine ⟨fun k x => BitVec.eq_of_toNat_eq ?_, natOfBytes_toBytes, fun k v => natOfBytes_bytesOfNat, fun n k i x j hi hj => ?_⟩
  · rw [ofBytes_toNat _ (by simp), natOfBytes_toBytes]
  · simp [toBytes, hi, bit_byteAt i x hj]

end

section
open Sys2Proof Sys2Proof.Machine
namespace Sys2Proof.Machine

/-! ## Register accesses at an offset without a block -/

theorem regRead_of_regAt_none {s : State} {who : Requester} {off : Nat} (hw : off < 0x800000) (h : regAt s (isSide who) (selsOf s who) off = none) :
    regRead s who off = (0, .malformed, s) := by
  simp [regRead, h, Nat.not_le.2 hw]

theorem regWrite_of_regAt_none {s : State} {who : Requester} {off : Nat} (v : Reg) (hw : off < 0x800000)
    (h : regAt s (isSide who) (selsOf s who) off = none) : regWrite s who off v = (.malformed, s) := by
  simp [regWrite, h, Nat.not_le.2 hw]

end Sys2Proof.Machine

/-- Settles O52: a read and a write look the block up first, and answer MALFORMED where there is none. -/
theorem unoccupiedOffsetsReadZero : Obligations.UnoccupiedOffsetsReadZero := by
  unfold Obligations.UnoccupiedOffsetsReadZero
  exact fun _ _ v _ hw h => ⟨regRead_of_regAt_none hw h, regWrite_of_regAt_none v hw h⟩

end

section
open Sys2Proof Sys2Proof.Machine
namespace Sys2Proof.Machine

/-! ## Register writes after the lock -/

theorem dropLatch_same (s : State) (who : Requester) (base : Nat) : SameBut [.mgmt] s (dropLatch s who base) := by
  unfold dropLatch
  split
  · exact ⟨fun p hp => by cases p <;> simp_all [Part.same]⟩
  · exact SameBut.refl _ s

/-- A write of a word of some register gives what its block gives, and afterwards the state drops only a held read (R12). -/
theorem regWrite_of_regAt {s : State} {who : Requester} {off : Nat} {e : RegAt} (v : Reg) (h4 : off % 4 = 0) (hw : off < 0x800000)
    (h : regAt s (isSide who) (selsOf s who) off = some e) :
    regWrite s who off v = ((writeBlock s who off v).1, dropLatch (writeBlock s who off v).2 who e.1) := by
  simp [regWrite, h4, Nat.not_le.2 hw, h]

/-- What is refused by its block is LOCKED, and changes nothing but a held read. -/
theorem regWrite_locked {s : State} {who : Requester} {off : Nat} {v : Reg} (h4 : off % 4 = 0) (hw : off < 0x800000)
    (h : (regAt s (isSide who) (selsOf s who) off).isSome = true) (hb : writeBlock s who off v = (.locked, s)) :
    (regWrite s who off v).1 = .locked ∧ (regWrite s who off v).2.prot = s.prot ∧ SameBut [.mgmt] s (regWrite s who off v).2 := by
  obtain ⟨e, he⟩ := Option.isSome_iff_exists.1 h
  have same := dropLatch_same s who e.1
  rw [regWrite_of_regAt v h4 hw he, hb]
  exact ⟨rfl, same.prot (by decide), same⟩

theorem rwl_locked {s : State} (who : Requester) (t : State) (h : s.prot.locked = true) : rwl who s t = (.locked, s) := by
  simp [rwl, h]

/-- The protection block's RWL fields after the lock: the ownership map and PLOCK, DBGPOL, KSMAP (R15, R514). -/
theorem writeProtection_locked {s : State} (who : Requester) {r : Nat} (v : Reg) (h : s.prot.locked = true)
    (hr : (0x010 ≤ r ∧ r < 0x028) ∨ r = 0x030 ∨ (0x100 ≤ r ∧ r < 0x200)) : writeProtection s who r v = (.locked, s) := by
  have hlock : r ≠ 0x004 := by omega
  unfold writeProtection
  simp only [hlock, if_false, rwl_locked who _ h]
  grind

theorem writePort_prole_locked {s : State} (who : Requester) {p : Nat} (v : Reg) (h : s.prot.locked = true) (hp : (getPort s p).st ≠ pOFF) :
    writePort s who p 0x010 v = (.locked, s) := by
  simp only [writePort, if_neg hp, rwl_locked who _ h, if_true]
  rfl

/-- A word of a register of the block is found. -/
theorem findReg_isSome {r : Nat} {l : List RegAt} {e : RegAt} (he : e ∈ l) (hr : e.1 ≤ r ∧ r < e.1 + 4 * e.2.length) : (findReg r l).isSome = true :=
  List.find?_isSome.2 ⟨e, he, by simpa using hr⟩

theorem lockRegs_isSome (s : State) {r : Nat} (h4 : r % 4 = 0) (hr : (0x010 ≤ r ∧ r < 0x028) ∨ r = 0x030 ∨ (0x100 ≤ r ∧ r < 0x200)) :
    (lockRegs s r).isSome = true := by
  rcases hr with hr | rfl | hr
  · rcases Nat.lt_or_ge r 0x020 with h | h
    · exact findReg_isSome (e := regN 0x010 4 s.prot.ownmap) (by simp) (by simp [regN]; omega)
    · exact findReg_isSome (e := reg2 0x020 s.prot.plock) (by simp) (by simp [reg2, regN]; omega)
  · exact findReg_isSome (e := regF 0x030 [(0, s.prot.dbgpol.toNat)]) (by simp) (by simp [regF])
  · exact findReg_isSome (e := regN 0x100 64 s.prot.ksmap) (by simp) (by simp [regN]; omega)

theorem portRegs_prole_isSome (s : State) (p : Nat) : (portRegs s p 0x010).isSome = true := by
  have none : counters s 0x010 0x100 16 (0x020100 + 0x1000 * p) = none := rfl
  simp only [portRegs, none]
  exact findReg_isSome (e := reg1 0x010 (if (getPort s p).st = pOFF then 0 else prole s p)) (by simp) (by simp [reg1])

theorem regAt_isSome {s : State} {side : Bool} {z : Sels} {off base : Nat} {f : Nat → Option RegAt} (h : blockAt s side z off = (base, f)) :
    (regAt s side z off).isSome = (f (off - base)).isSome := by
  simp [regAt, h]

theorem blockAt_protection (s : State) (side : Bool) (z : Sels) {off : Nat} (h0 : 0x010000 ≤ off) (h1 : off < 0x020000) :
    blockAt s side z off = (0x010000, lockRegs s) := by
  simp [blockAt, h1, Nat.not_lt.2 h0]

theorem blockAt_port (s : State) (side : Bool) (z : Sels) {p : Nat} (hp : p < 11) {r : Nat} (hr : r < 0x1000) :
    blockAt s side z (0x020000 + 0x1000 * p + r) = (0x020000 + 0x1000 * p, portRegs s p) := by
  have hq : (0x020000 + 0x1000 * p + r - 0x020000) / 0x1000 = p := by omega
  simp only [blockAt, hq]
  rw [if_neg (by omega), if_neg (by omega), if_pos (by omega)]

theorem writeBlock_protection (s : State) (who : Requester) {off : Nat} (v : Reg) (h0 : 0x010000 ≤ off) (h1 : off < 0x020000) :
    writeBlock s who off v = writeProtection s who (off - 0x010000) v := by
  simp [writeBlock, h1, Nat.not_lt.2 h0]

theorem writeBlock_port (s : State) (who : Requester) (v : Reg) {p : Nat} (hp : p < 11) {r : Nat} (hr : r < 0x1000) :
    writeBlock s who (0x020000 + 0x1000 * p + r) v = writePort s who p r v := by
  have hq : (0x020000 + 0x1000 * p + r - 0x020000) / 0x1000 = p := by omega
  have hm : (0x020000 + 0x1000 * p + r - 0x020000) % 0x1000 = r := by omega
  simp only [writeBlock, hq, hm]
  rw [if_neg (by omega), if_neg (by omega), if_pos (by omega)]

end Sys2Proof.Machine

/-- Settles O51: the protection block and a port's PROLE each lie in a block that has them, and refuse the write. -/
theorem lockedFieldsStay : Obligations.LockedFieldsStay := by
  unfold Obligations.LockedFieldsStay
  intro who off v s hl h4 h
  have protection (hr : (0x010 ≤ off - 0x010000 ∧ off - 0x010000 < 0x028) ∨ off - 0x010000 = 0x030 ∨ (0x100 ≤ off - 0x010000 ∧ off - 0x010000 < 0x200)) :
      (regWrite s who off v).1 = .locked ∧ (regWrite s who off v).2.prot = s.prot ∧ SameBut [.mgmt] s (regWrite s who off v).2 := by
    refine regWrite_locked h4 (by omega) ?_ ?_
    · rw [regAt_isSome (blockAt_protection s _ _ (by omega) (by omega))]
      exact lockRegs_isSome s (by omega) hr
    · rw [writeBlock_protection s who v (by omega) (by omega), writeProtection_locked who v hl hr]
  rcases h with h | h | h | ⟨p, hp, rfl, hon⟩
  · exact protection (.inl (by omega))
  · exact protection (.inr (.inl (by omega)))
  · exact protection (.inr (.inr (by omega)))
  · have prole : 0x020010 + 0x1000 * p = 0x020000 + 0x1000 * p + 0x010 := by omega
    refine regWrite_locked h4 (by omega) ?_ ?_ <;> rw [prole]
    · rw [regAt_isSome (blockAt_port s _ _ hp (by omega)), Nat.add_sub_cancel_left]
      exact portRegs_prole_isSome s p
    · rw [writeBlock_port s who v hp (by omega), writePort_prole_locked who v hl hon]

end

section
open Sys2Proof Sys2Proof.Machine
namespace Sys2Proof.Machine

/-! ## Device time -/

/-- A new epoch is taken, and with every 64th the counts of disagreements are cleared (R13, R87). -/
theorem newEpoch_of_ne {s : State} (h : s.clock.running = true) (he : epochOf s.clock.time ≠ s.clock.epoch) :
    (newEpoch s).clock = { s.clock with epoch := epochOf s.clock.time } ∧
    (newEpoch s).tcam.disag = (if (epochOf s.clock.time).toNat % 64 = 0 then [] else s.tcam.disag) ∧ SameBut [.clock, .tcam] s (newEpoch s) := by
  unfold newEpoch
  simp only [h, he, Bool.true_eq_false, or_self, if_false]
  split
  · exact ⟨rfl, rfl, ⟨fun p hp => by cases p <;> simp_all [Part.same]⟩⟩
  · exact ⟨rfl, rfl, ⟨fun p hp => by cases p <;> simp_all [Part.same]⟩⟩

theorem bit_bset {n : Nat} (i j : Nat) (x : BitVec n) : bit j (bset i 1 x 0) = (bit j x && decide (j ≠ i)) := by
  rcases Nat.lt_or_ge j n with h | h
  · have apart : (decide (j < i) || !decide (j - i = 0)) = !decide (j = i) := by grind
    simp [bit, bset, h, apart]
  · simp [bit, bset, Nat.not_lt.2 h, BitVec.getLsbD_of_ge x j h]

/-! ## The band in force -/

/-- What the refresh of other banks leaves alone: the band in force, the place of every bank, and the bands that they refresh by. -/
structure SameBands (s t : State) : Prop where
  therm : t.therm = s.therm
  site : t.tcam.site = s.tcam.site
  refBand : t.tcam.refBand = s.tcam.refBand

theorem SameBands.of_same {ps : List Part} {s t : State} (h : SameBut ps s t) (h1 : Part.therm ∉ ps := by decide) (h2 : Part.tcam ∉ ps := by decide) :
    SameBands s t := ⟨h.therm h1, by rw [h.tcam h2], by rw [h.tcam h2]⟩

theorem SameBands.trans {s t u : State} (h : SameBands s t) (k : SameBands t u) : SameBands s u :=
  ⟨k.therm.trans h.therm, k.site.trans h.site, k.refBand.trans h.refBand⟩

theorem decideArb_bands (s : State) (a : Nat) (q : ArbAsk) : SameBands s (decideArb s a q) := by
  unfold decideArb
  split
  · exact ⟨rfl, rfl, rfl⟩
  · dsimp only
    split
    · exact .of_same (setArb_same ..)
    · refine SameBands.trans ?_ (.of_same (trace_same ..))
      split
      · exact ⟨rfl, rfl, rfl⟩
      · exact .of_same (setArb_same ..)

/-- A value other than the default is read back where it was put, whatever else the map lists. -/
theorem sget_sput_self {α : Type} [DecidableEq α] {d v : α} (hv : v ≠ d) (m : Sparse α) (i : Nat) : sget d (sput d m i v) i = v := by
  induction m with
  | nil => simp [sput, hv, sget_cons]
  | cons e m ih =>
    rw [sput]
    split
    · simp [sget_cons]
    · split
      · simp [sget_cons]
      · next h => simp [sget_cons, h, ih]

theorem sget_sput_other {α : Type} [DecidableEq α] {d v : α} (hv : v ≠ d) (m : Sparse α) {i j : Nat} (h : j ≠ i) :
    sget d (sput d m i v) j = sget d m j := by
  induction m with
  | nil => simp [sput, hv, sget_cons, h]
  | cons e m ih =>
    rw [sput]
    split
    · simp [sget_cons, h]
    · split
      · next hi => simp [sget_cons, ← hi, h]
      · simp [sget_cons, ih]

/-- A group period of the bank's site begins at the band in force (R94); the bands of other sites stay. -/
theorem issueRefresh_bands (s : State) (a : Nat) :
    (issueRefresh s a).therm = s.therm ∧ (issueRefresh s a).tcam.site = s.tcam.site ∧
    (issueRefresh s a).tcam.refBand = sput 0 s.tcam.refBand a (bandInForce s) := by
  unfold issueRefresh
  dsimp only
  split
  · obtain ⟨h1, h2, h3⟩ := decideArb_bands { s with tcam := { s.tcam with refDue := sput 0 s.tcam.refDue a (sget 0 s.tcam.refDue a + 1), refBand := sput 0 s.tcam.refBand a (bandInForce s) } } a _
    exact ⟨h1, h2, h3⟩
  · split <;> exact ⟨rfl, rfl, rfl⟩

theorem bandInForce_congr {s t : State} (h : t.therm = s.therm) : bandInForce t = bandInForce s := by rw [bandInForce, bandInForce, h]

theorem siteOf_congr {s t : State} (h : t.tcam.site = s.tcam.site) (b : Nat) : siteOf t b = siteOf s b := by rw [siteOf, siteOf, h]

/-- A sweep of refreshes puts every bank that it comes to at the band in force, and leaves the band and the places of banks. -/
theorem issueRefresh_sweep {k : Nat} (hk : k ≠ 0) (l : List Nat) (s : State) (hs : bandInForce s = k) (b : Nat) :
    (b ∈ l ∨ sget 0 s.tcam.refBand (siteOf s b) = k) →
    sget 0 (l.foldl (fun s b => issueRefresh s (siteOf s b)) s).tcam.refBand (siteOf s b) = k := by
  induction l generalizing s with
  | nil => simp
  | cons c l ih =>
    intro h
    obtain ⟨htherm, hsite, hband⟩ := issueRefresh_bands s (siteOf s c)
    rw [List.foldl_cons, ← siteOf_congr hsite b]
    refine ih _ ((bandInForce_congr htherm).trans hs) ?_
    rw [siteOf_congr hsite b, hband, hs]
    by_cases hc : siteOf s b = siteOf s c
    · exact .inr (by rw [hc, sget_sput_self hk])
    · rw [sget_sput_other hk _ hc]
      exact h.imp_left fun hb => (List.mem_cons.1 hb).resolve_left fun e => hc (e ▸ rfl)

theorem retestRetention_refBand (s : State) : (retestRetention s).tcam.refBand = s.tcam.refBand := rfl

/-- When the band in force has risen, every refreshed bank begins a group period of it (R94). -/
theorem bandChanged_refBand {s : State} {old b : Nat} (h : old < bandInForce s) (hb : b < 2112) (hr : refreshed s b = true) :
    sget 0 (bandChanged s old).tcam.refBand (siteOf s b) = bandInForce s := by
  rw [bandChanged, if_pos h, retestRetention_refBand]
  exact issueRefresh_sweep (by omega) _ s rfl b (.inl (List.mem_filter.2 ⟨List.mem_range.2 hb, hr⟩))

theorem refreshed_congr {s t : State} (h : t.tcam = s.tcam) (b : Nat) : refreshed t b = refreshed s b := by
  have state : bankState t b = bankState s b := by rw [bankState, bankState, h]
  have holds : siteHolds t (siteOf t b) = siteHolds s (siteOf s b) := by rw [siteHolds, siteHolds, siteOf, siteOf, h]
  rw [refreshed, refreshed, state, holds]

/-! ## The supply -/

/-- The code is held within VMIN to VMAX (R608). -/
theorem clampCode_bounds {s : State} (code : BitVec 6) (h : s.power.vmin ≤ s.power.vmax) :
    s.power.vmin ≤ clampCode s code ∧ clampCode s code ≤ s.power.vmax := by
  unfold clampCode
  split
  · exact ⟨BitVec.le_refl _, h⟩
  · split
    · exact ⟨h, BitVec.le_refl _⟩
    · exact ⟨BitVec.not_lt.1 ‹_›, BitVec.not_lt.1 ‹_›⟩

theorem startTrans_same (s : State) (code : BitVec 6) : SameBut [.power] s (startTrans s code) := by
  unfold startTrans
  dsimp only
  split
  · exact SameBut.refl _ s
  · split <;> exact ⟨fun p hp => by cases p <;> simp_all [Part.same]⟩

theorem startTrans_vreq (s : State) (code : BitVec 6) : (startTrans s code).power.vreq = s.power.vreq := by
  unfold startTrans
  dsimp only
  split
  · rfl
  · split <;> rfl

/-- Upward the code moves first (R609). -/
theorem startTrans_up {s : State} {code : BitVec 6} (h : s.power.vid < clampCode s code) :
    startTrans s code = { s with power := { s.power with vid := clampCode s code, trans := some ⟨true, clampCode s code, 0, now s⟩ } } := by
  have apart : clampCode s code ≠ s.power.vid := fun e => absurd h (e ▸ BitVec.lt_irrefl _)
  simp only [startTrans, if_neg apart, if_pos h]

/-- Downward the pacing moves first, and the code stands (R609). -/
theorem startTrans_down {s : State} {code : BitVec 6} (h : clampCode s code < s.power.vid) :
    startTrans s code = { s with power := { s.power with trans := some ⟨false, clampCode s code, 3, now s⟩ } } := by
  have apart : clampCode s code ≠ s.power.vid := fun e => absurd h (e ▸ BitVec.lt_irrefl _)
  simp only [startTrans, if_neg apart, if_neg (BitVec.not_lt.2 (BitVec.le_of_lt h))]

/-- The state in which a code has been asked for, and nothing has been begun. -/
def askedCode (s : State) (code : BitVec 6) : State := { s with power := { s.power with vreq := code } }

theorem askedCode_same (s : State) (code : BitVec 6) : SameBut [.power] s (askedCode s code) :=
  ⟨fun p hp => by cases p <;> simp_all [Part.same, askedCode]⟩

theorem requestCode_eq (s : State) (code : BitVec 6) :
    requestCode s code = (if s.holdup.ph ≠ 0 then askedCode s code
      else if s.power.trans.isSome then { askedCode s code with power := { s.power with vreq := code, held := some code } }
      else startTrans (askedCode s code) code) := rfl

theorem requestCode_same (s : State) (code : BitVec 6) : SameBut [.power] s (requestCode s code) := by
  rw [requestCode_eq]
  split
  · exact askedCode_same s code
  · split
    · exact ⟨fun p hp => by cases p <;> simp_all [Part.same, askedCode]⟩
    · exact (askedCode_same s code).trans (startTrans_same _ code)

theorem requestCode_vreq (s : State) (code : BitVec 6) : (requestCode s code).power.vreq = code := by
  rw [requestCode_eq]
  split
  · rfl
  · split
    · rfl
    · exact startTrans_vreq _ code

theorem requestCode_afterFailure {s : State} {code : BitVec 6} (h : s.holdup.ph ≠ 0) : requestCode s code = askedCode s code := by
  rw [requestCode_eq, if_pos h]

theorem requestCode_held {s : State} {code : BitVec 6} (h : s.holdup.ph = 0) (ht : s.power.trans.isSome = true) :
    (requestCode s code).power = { s.power with vreq := code, held := some code } := by
  rw [requestCode_eq, if_neg (not_not.2 h), if_pos ht]

theorem requestCode_starts {s : State} {code : BitVec 6} (h : s.holdup.ph = 0) (ht : s.power.trans = none) :
    requestCode s code = startTrans (askedCode s code) code := by
  rw [requestCode_eq, if_neg (not_not.2 h), if_neg (by simp [ht])]

theorem requestCode_up {s : State} {code : BitVec 6} (h : s.holdup.ph = 0) (ht : s.power.trans = none) (up : s.power.vid < clampCode s code) :
    (requestCode s code).power.vid = clampCode s code ∧ (requestCode s code).power.trans = some ⟨true, clampCode s code, 0, now s⟩ := by
  rw [requestCode_starts h ht, startTrans_up (s := askedCode s code) up]
  exact ⟨rfl, rfl⟩

theorem requestCode_down {s : State} {code : BitVec 6} (h : s.holdup.ph = 0) (ht : s.power.trans = none) (down : clampCode s code < s.power.vid) :
    (requestCode s code).power.vid = s.power.vid ∧ (requestCode s code).power.trans = some ⟨false, clampCode s code, 3, now s⟩ := by
  rw [requestCode_starts h ht, startTrans_down (s := askedCode s code) down]
  exact ⟨rfl, rfl⟩

/-- What Waitos leaves of the pacing peak when it has asked for a code (R610). -/
def restPeak (s : State) : State := { s with power := { s.power with peak := 0 } }

theorem restPeak_same (s : State) : SameBut [.power] s (restPeak s) := ⟨fun p hp => by cases p <;> simp_all [Part.same, restPeak]⟩

/-! ## The timebase's commands -/

theorem loseCore_eq {s : State} {c : Nat} (h : bit c s.waitos.cores = true) :
    loseCore s c = event { s with waitos := { s.waitos with cores := bset c 1 s.waitos.cores 0 } } [qFW, qSB] 0xE001 c 0 := if_pos h

/-- What the guard does before it takes the forced band up (R38): it is set and counted. -/
def guarded (s : State) : State := count { s with therm := { s.therm with guard := true } } (0x080100 + 8 * 5) 1

theorem guarded_same (s : State) : SameBut [.therm, .mgmt] s (guarded s) := ⟨fun p hp => by cases p <;> simp_all [Part.same, guarded, count]⟩

theorem exec_refreshGuard {s : State} (hrun : s.clock.running = true) (hg : s.therm.guard = false) :
    exec .refreshGuard s = .next (bandChanged (event (guarded s) [qFW, qSB] 0xE005 0xFF 1) (bandInForce s)) := by
  show execRefreshGuard s = _
  simp [execRefreshGuard, hrun, hg, guarded]

/-- The guard forces band 4 (R38), and every refreshed bank begins a group period of it (R94). -/
theorem refreshGuard_refBand {s : State} {b : Nat} (hband : bandInForce s < 4) (hb : b < 2112) (hr : refreshed s b = true) :
    sget 0 (bandChanged (event (guarded s) [qFW, qSB] 0xE005 0xFF 1) (bandInForce s)).tcam.refBand (siteOf s b) = 4 := by
  have ev := event_same (guarded s) [qFW, qSB] 0xE005 0xFF 1
  have htcam : (event (guarded s) [qFW, qSB] 0xE005 0xFF 1).tcam = s.tcam := ev.tcam.trans (guarded_same s).tcam
  have hforce : bandInForce (event (guarded s) [qFW, qSB] 0xE005 0xFF 1) = 4 := bandInForce_congr ev.therm
  rw [← siteOf_congr (congrArg Tcam.site htcam) b, bandChanged_refBand (hforce ▸ hband) hb ((refreshed_congr htcam b).trans hr), hforce]

end Sys2Proof.Machine

/-- Settles O34: device time, the cores, the band in force, and what a request for a code does to the supply. -/
theorem timebaseAndVoltage : Obligations.TimebaseAndVoltage := by
  unfold Obligations.TimebaseAndVoltage
  refine ⟨fun s => ⟨fun hrun hne => ⟨_, rfl, newEpoch_of_ne hrun hne⟩, fun hrun hring => ?_, ⟨_, rfl, rfl, rfl, ?_⟩, fun c hc => ?_, fun hrun hg => ?_⟩,
    fun s => ⟨fun who code hno => ?_, fun who code hmay => ?_, fun hw => ?_, fun code => clampCode_bounds code⟩⟩
  · show execRefclkFault s = _
    simp [execRefclkFault, refclkLost, hrun, hring]
  · exact ⟨fun p hp => by cases p <;> simp_all [Part.same]⟩
  · refine ⟨_, congrArg _ (loseCore_eq hc), ?_, fun d hd => ?_, ⟨fun p hp => by cases p <;> simp_all [Part.same]⟩⟩
    · simp [bit_bset]
    · simp [bit_bset, Fin.val_ne_of_ne hd]
  · exact ⟨guarded s, _, exec_refreshGuard hrun hg, rfl, rfl, guarded_same s, fun hband b hb hr => refreshGuard_refBand hband hb hr⟩
  · show execVreq who code s = _
    simp [execVreq, hno]
  · have run : exec (.vreq who code) s = .next (requestCode s code) := by
      show execVreq who code s = _
      simp [execVreq, hmay]
    refine ⟨_, run, requestCode_vreq s code, requestCode_same s code, fun hph => ?_, fun hph ht => ?_, requestCode_up, requestCode_down⟩
    · rw [requestCode_afterFailure hph]
      exact ⟨rfl, rfl⟩
    · rw [requestCode_held hph ht]
      exact ⟨rfl, rfl⟩
  · have run : exec .voltageRequest s = .next (restPeak (requestCode s (BitVec.ofNat 6 (wantedCode s)))) := by
      show execVoltageRequest s = _
      simp [execVoltageRequest, hw, restPeak]
    exact ⟨_, run, requestCode_vreq s _, rfl, (requestCode_same s _).trans (restPeak_same _)⟩

end

section
/-! ## Frames
What each operation of the model leaves unchanged. The frame of an operation, `f_frame`, says that a step of f makes no difference to
`SameBut ps z` when ps holds every part that f may change, so that `simp` reads a frame from the outside in: it takes the operations off
one by one, and a record update by `SameBut.mk_iff`. `RanKeeps` and `LifeKeeps` say the same of a run of a table or lifecycle command,
`OptBut` of what may give no state, and `OutBut` of a command. -/

namespace Sys2Proof.Machine

open Sys2Proof

section
variable {ps qs : List Part} {z s t : State}

theorem SameBut.symm (h : SameBut ps s t) : SameBut ps t s :=
  ⟨fun p hp => by have a := h.same p hp; cases p <;> exact a.symm⟩

/-- An operation framed by qs keeps every frame that holds qs. -/
theorem SameBut.frame (h : qs ⊆ ps) (k : SameBut qs s t) : SameBut ps z t ↔ SameBut ps z s :=
  ⟨fun a => a.trans (k.mono h).symm, fun a => a.trans (k.mono h)⟩

/-- `simp` reads a frame from the outside in: it does not look into the states that it relates. -/
@[congr] theorem SameBut.congr_self (ps : List Part) (s t : State) : SameBut ps s t ↔ SameBut ps s t := Iff.rfl

@[simp] theorem SameBut.refl_iff : SameBut ps s s ↔ True := iff_true_intro (SameBut.refl ps s)

@[simp] theorem SameBut.ite_iff {c : Prop} [Decidable c] :
    SameBut ps z (if c then s else t) ↔ if c then SameBut ps z s else SameBut ps z t := by
  split <;> rfl

@[simp] theorem SameBut.foldl_iff {α : Type} {g : State → α → State} {l : List α} (h : ∀ u a, SameBut ps u (g u a)) :
    SameBut ps z (l.foldl g s) ↔ SameBut ps z s := SameBut.frame (List.Subset.refl ps) (SameBut.foldl h l s)

@[simp] theorem SameBut.iter_iff {g : State → State} {k : Nat} (h : ∀ u, SameBut ps u (g u)) :
    SameBut ps z (Machine.iter k g s) ↔ SameBut ps z s := SameBut.frame (List.Subset.refl ps) (SameBut.iter h k s)

/-- A record update keeps a frame that holds each part it changes. -/
@[simp] theorem SameBut.mk_iff {a0 : Pins} {a1 : Clock} {a2 : Power} {a3 : Boot} {a4 : Fuses} {a5 : List Host.Cell} {a6 : Prot} {a7 : Debug} {a8 : Struct} {a9 : Tcam} {a10 : Marker} {a11 : Sram} {a12 : Search} {a13 : Update} {a14 : Life} {a15 : Sparse Port} {a16 : Arbiters} {a17 : Tally} {a18 : Journal} {a19 : Store} {a20 : HoldUp} {a21 : Therm} {a22 : Integ} {a23 : Waitos} {a24 : Crew} {a25 : Events} {a26 : Mgmt} {a27 : Nat}
    (h0 : if Part.pins ∈ ps then True else a0 = s.pins) (h1 : if Part.clock ∈ ps then True else a1 = s.clock) (h2 : if Part.power ∈ ps then True else a2 = s.power) (h3 : if Part.boot ∈ ps then True else a3 = s.boot) (h4 : if Part.fuses ∈ ps then True else a4 = s.fuses) (h5 : if Part.flash ∈ ps then True else a5 = s.flash) (h6 : if Part.prot ∈ ps then True else a6 = s.prot) (h7 : if Part.dbg ∈ ps then True else a7 = s.dbg) (h8 : if Part.str ∈ ps then True else a8 = s.str) (h9 : if Part.tcam ∈ ps then True else a9 = s.tcam) (h10 : if Part.marker ∈ ps then True else a10 = s.marker) (h11 : if Part.sram ∈ ps then True else a11 = s.sram) (h12 : if Part.search ∈ ps then True else a12 = s.search) (h13 : if Part.update ∈ ps then True else a13 = s.update) (h14 : if Part.life ∈ ps then True else a14 = s.life) (h15 : if Part.ports ∈ ps then True else a15 = s.ports) (h16 : if Part.arbs ∈ ps then True else a16 = s.arbs) (h17 : if Part.tally ∈ ps then True else a17 = s.tally) (h18 : if Part.journal ∈ ps then True else a18 = s.journal) (h19 : if Part.store ∈ ps then True else a19 = s.store) (h20 : if Part.holdup ∈ ps then True else a20 = s.holdup) (h21 : if Part.therm ∈ ps then True else a21 = s.therm) (h22 : if Part.integ ∈ ps then True else a22 = s.integ) (h23 : if Part.waitos ∈ ps then True else a23 = s.waitos) (h24 : if Part.crew ∈ ps then True else a24 = s.crew) (h25 : if Part.events ∈ ps then True else a25 = s.events) (h26 : if Part.mgmt ∈ ps then True else a26 = s.mgmt) (h27 : if Part.free ∈ ps then True else a27 = s.free) :
    SameBut ps z (State.mk a0 a1 a2 a3 a4 a5 a6 a7 a8 a9 a10 a11 a12 a13 a14 a15 a16 a17 a18 a19 a20 a21 a22 a23 a24 a25 a26 a27 s.pending) ↔ SameBut ps z s :=
  SameBut.frame (List.Subset.refl ps) ⟨fun p hp => by cases p <;> simp_all [Part.same]⟩
end

section
variable {ps qs : List Part} {z s t : State}

/-- A step that is framed may be left out of a frame's end. -/
theorem SameBut.into (k : SameBut ps s t) : SameBut ps z t ↔ SameBut ps z s := SameBut.frame (List.Subset.refl ps) k

theorem SameBut.foldl_by {α σ : Type} (π : σ → State) {g : σ → α → σ} (h : ∀ x a, SameBut ps (π x) (π (g x a))) (l : List α) (x : σ) :
    SameBut ps (π x) (π (l.foldl g x)) := by
  induction l generalizing x with
  | nil => exact SameBut.refl ps _
  | cons a l ih => exact (h x a).trans (ih (g x a))

@[simp] theorem SameBut.ite_snd_iff {α : Type} {c : Prop} [Decidable c] {x y : α × State} :
    SameBut ps z (if c then x else y).2 ↔ if c then SameBut ps z x.2 else SameBut ps z y.2 := by
  split <;> rfl

@[simp] theorem SameBut.ite_fst_iff {α : Type} {c : Prop} [Decidable c] {x y : State × α} :
    SameBut ps z (if c then x else y).1 ↔ if c then SameBut ps z x.1 else SameBut ps z y.1 := by
  split <;> rfl

@[simp] theorem SameBut.ite_snd_snd_iff {α β : Type} {c : Prop} [Decidable c] {x y : α × β × State} :
    SameBut ps z (if c then x else y).2.2 ↔ if c then SameBut ps z x.2.2 else SameBut ps z y.2.2 := by
  split <;> rfl

@[simp] theorem SameBut.foldl_snd_iff {α σ : Type} {g : σ × State → α → σ × State} {l : List α} {x : σ × State}
    (h : ∀ x a, SameBut ps x.2 (g x a).2) : SameBut ps z (l.foldl g x).2 ↔ SameBut ps z x.2 :=
  SameBut.frame (List.Subset.refl ps) (SameBut.foldl_by Prod.snd h l x)

@[simp] theorem SameBut.foldl_snd_snd_iff {α σ τ : Type} {g : σ × τ × State → α → σ × τ × State} {l : List α} {x : σ × τ × State}
    (h : ∀ x a, SameBut ps x.2.2 (g x a).2.2) : SameBut ps z (l.foldl g x).2.2 ↔ SameBut ps z x.2.2 :=
  SameBut.frame (List.Subset.refl ps) (SameBut.foldl_by (fun x => x.2.2) h l x)

@[simp] theorem SameBut.foldl_fst_iff {α σ : Type} {g : State × σ → α → State × σ} {l : List α} {x : State × σ}
    (h : ∀ x a, SameBut ps x.1 (g x a).1) : SameBut ps z (l.foldl g x).1 ↔ SameBut ps z x.1 :=
  SameBut.frame (List.Subset.refl ps) (SameBut.foldl_by Prod.fst h l x)

@[simp] theorem SameBut.elim_iff {α : Type} {f : α → State} {x : Option α} (h : ∀ a, SameBut ps s (f a)) :
    SameBut ps z (x.elim s f) ↔ SameBut ps z s := by
  cases x with
  | none => rfl
  | some a => exact SameBut.into (h a)

@[simp] theorem SameBut.foldr_iff {α : Type} {g : α → State → State} {l : List α} (h : ∀ u a, SameBut ps u (g a u)) :
    SameBut ps z (l.foldr g s) ↔ SameBut ps z s := by
  induction l with
  | nil => rfl
  | cons a l ih => exact (SameBut.frame (List.Subset.refl ps) (h _ a)).trans ih

@[simp] theorem OptBut.none_iff : OptBut ps z Option.none ↔ True := iff_true_intro (OptBut.none ps z)

@[simp] theorem OptBut.some_iff : OptBut ps z (Option.some s) ↔ SameBut ps z s := ⟨fun k => k.some_same s rfl, OptBut.some⟩

@[simp] theorem OptBut.ite_iff {c : Prop} [Decidable c] {x y : Option State} :
    OptBut ps z (if c then x else y) ↔ if c then OptBut ps z x else OptBut ps z y := by
  split <;> rfl

/-- An option framed by qs keeps every frame that holds qs, from wherever it begins. -/
theorem OptBut.frame {x : Option State} (h : qs ⊆ ps) (k : SameBut ps z s) (r : OptBut qs s x) : OptBut ps z x :=
  ⟨fun t e => k.trans ((r.some_same t e).mono h)⟩

/-- What an option holds, or the state that stands for none, keeps the frame. -/
@[simp] theorem SameBut.getD {x : Option State} (k : OptBut ps z x) (h : SameBut ps z s) : SameBut ps z (x.getD s) := by
  cases x with
  | none => exact h
  | some u => exact k.some_same u rfl

/-- Every state that a run of a table command leaves, at its end or to go on from, is framed by ps. -/
def RanKeeps (ps : List Part) (s : State) : Ran → Prop
  | .wait => True
  | .stays t _ => SameBut ps s t
  | .ends t _ => SameBut ps s t

@[simp] theorem RanKeeps.wait_iff : RanKeeps ps z .wait ↔ True := Iff.rfl

@[simp] theorem RanKeeps.stays_iff {n : Nat} : RanKeeps ps z (.stays s n) ↔ SameBut ps z s := Iff.rfl

@[simp] theorem RanKeeps.ends_iff {r : Option TRsp} : RanKeeps ps z (.ends s r) ↔ SameBut ps z s := Iff.rfl

@[simp] theorem RanKeeps.ite_iff {c : Prop} [Decidable c] {x y : Ran} :
    RanKeeps ps z (if c then x else y) ↔ if c then RanKeeps ps z x else RanKeeps ps z y := by
  split <;> rfl

theorem RanKeeps.of_ite {c : Prop} [Decidable c] {x y : Ran} (hx : RanKeeps ps z x) (hy : RanKeeps ps z y) :
    RanKeeps ps z (if c then x else y) := by
  split <;> assumption

/-- A run framed by qs keeps every frame that holds qs, from wherever it begins. -/
theorem RanKeeps.frame {x : Ran} (h : qs ⊆ ps) (k : SameBut ps z s) (r : RanKeeps qs s x) : RanKeeps ps z x := by
  cases x with
  | wait => trivial
  | stays t n => exact k.trans (SameBut.mono r h)
  | ends t o => exact k.trans (SameBut.mono r h)

/-- What a lifecycle command does after its writes is framed by ps, from every state. -/
def LifeKeeps (ps : List Part) : LifeOut → Prop
  | .refuse _ _ => True
  | .nothing _ => True
  | .writes _ post _ => ∀ u, SameBut ps u (post u)
  | .composer _ _ post _ => ∀ u, SameBut ps u (post u)

@[simp] theorem LifeKeeps.refuse_iff {st : Status} {res : Word} : LifeKeeps ps (.refuse st res) ↔ True := Iff.rfl

@[simp] theorem LifeKeeps.nothing_iff {r : TRsp} : LifeKeeps ps (.nothing r) ↔ True := Iff.rfl

@[simp] theorem LifeKeeps.writes_iff {ws : List RowWrite} {post : State → State} {r : TRsp} :
    LifeKeeps ps (.writes ws post r) ↔ ∀ u, SameBut ps u (post u) := Iff.rfl

@[simp] theorem LifeKeeps.composer_iff {row : Nat} {v : Word} {post : State → State} {r : TRsp} :
    LifeKeeps ps (.composer row v post r) ↔ ∀ u, SameBut ps u (post u) := Iff.rfl

theorem LifeKeeps.mono {x : LifeOut} (h : qs ⊆ ps) (k : LifeKeeps qs x) : LifeKeeps ps x := by
  cases x with
  | refuse st res => trivial
  | nothing r => trivial
  | writes ws post r => exact fun u => SameBut.mono (k u) h
  | composer row v post r => exact fun u => SameBut.mono (k u) h
end

end Sys2Proof.Machine
end

section
/-! ## Frames: Timebase
What the operations of the model's file Timebase leave unchanged. -/

namespace Sys2Proof.Machine

open Sys2Proof

variable {ps : List Part} {z : State}

@[simp] theorem tick_frame (s : State) (h : [.clock] ⊆ ps) :
    SameBut ps z (tick s) ↔ SameBut ps z s :=
  SameBut.frame h (tick_same ..)

end Sys2Proof.Machine
end

section
/-! ## Frames: Ops
What the operations of the model's file Ops leave unchanged. -/

namespace Sys2Proof.Machine

open Sys2Proof

variable {ps : List Part} {z : State}

@[simp] theorem setPort_frame (s : State) (p : Nat) (x : Port) (h : [.ports] ⊆ ps) :
    SameBut ps z (setPort s p x) ↔ SameBut ps z s :=
  SameBut.frame h (setPort_same ..)

@[simp] theorem modPort_frame (s : State) (p : Nat) (f : Port → Port) (h : [.ports] ⊆ ps) :
    SameBut ps z (modPort s p f) ↔ SameBut ps z s :=
  SameBut.frame h (modPort_same ..)

@[simp] theorem setQueue_frame (s : State) (q : Nat) (x : EvQueue) (h : [.events] ⊆ ps) :
    SameBut ps z (setQueue s q x) ↔ SameBut ps z s :=
  SameBut.frame h (setQueue_same ..)

@[simp] theorem setEng_frame (s : State) (e : Nat) (x : Engine) (h : [.update] ⊆ ps) :
    SameBut ps z (setEng s e x) ↔ SameBut ps z s :=
  SameBut.frame h (setEng_same ..)

@[simp] theorem setTok_frame (s : State) (t : Nat) (x : Option Token) (h : [.search] ⊆ ps) :
    SameBut ps z (setTok s t x) ↔ SameBut ps z s :=
  SameBut.frame h (setTok_same ..)

@[simp] theorem setOp_frame (s : State) (h_ : Nat) (x : Option Op) (h : [.waitos] ⊆ ps) :
    SameBut ps z (setOp s h_ x) ↔ SameBut ps z s :=
  SameBut.frame h (setOp_same ..)

@[simp] theorem setArb_frame (s : State) (a : Nat) (x : Arb) (h : [.arbs] ⊆ ps) :
    SameBut ps z (setArb s a x) ↔ SameBut ps z s :=
  SameBut.frame h (setArb_same ..)

@[simp] theorem setGate_frame (s : State) (g : Nat) (x : Gate) (h : [.marker] ⊆ ps) :
    SameBut ps z (setGate s g x) ↔ SameBut ps z s :=
  SameBut.frame h (setGate_same ..)

@[simp] theorem count_frame (s : State) (off n : Nat) (h : [.mgmt] ⊆ ps) :
    SameBut ps z (count s off n) ↔ SameBut ps z s :=
  SameBut.frame h (count_same ..)

@[simp] theorem countTh_frame (s : State) (i n : Nat) (h : [.mgmt] ⊆ ps) :
    SameBut ps z (countTh s i n) ↔ SameBut ps z s :=
  SameBut.frame h (by unfold countTh; simp)

@[simp] theorem countPort_frame (s : State) (p i n : Nat) (h : [.mgmt] ⊆ ps) :
    SameBut ps z (countPort s p i n) ↔ SameBut ps z s :=
  SameBut.frame h (countPort_same ..)

@[simp] theorem fresh_frame (s : State) (h : [.free] ⊆ ps) :
    SameBut ps z (fresh s).2 ↔ SameBut ps z s :=
  SameBut.frame h (fresh_same ..)

@[simp] theorem traceWrite_frame (s : State) (x : Trace) (h : [.events] ⊆ ps) :
    SameBut ps z (traceWrite s x) ↔ SameBut ps z s :=
  SameBut.frame h (traceWrite_same ..)

@[simp] theorem trace_frame (s : State) (src : Nat) (h : [.events, .free] ⊆ ps) :
    SameBut ps z (trace s src) ↔ SameBut ps z s :=
  SameBut.frame h (trace_same ..)

@[simp] theorem event_frame (s : State) (qs : List Nat) (code obj detail : Nat) (h : [.events, .free] ⊆ ps) :
    SameBut ps z (event s qs code obj detail) ↔ SameBut ps z s :=
  SameBut.frame h (event_same ..)

@[simp] theorem newEpoch_frame (s : State) (h : [.clock, .tcam] ⊆ ps) :
    SameBut ps z (newEpoch s) ↔ SameBut ps z s :=
  SameBut.frame h (by unfold newEpoch; simp)

end Sys2Proof.Machine
end

section
/-! ## Frames: Access
What the operations of the model's file Access leave unchanged. -/

namespace Sys2Proof.Machine

open Sys2Proof

variable {ps : List Part} {z : State}

@[simp] theorem newNonce_frame (s : State) (h : [.dbg, .free] ⊆ ps) :
    SameBut ps z (newNonce s) ↔ SameBut ps z s :=
  SameBut.frame h (newNonce_same ..)

@[simp] theorem resetDebug_frame (s : State) (h : [.dbg, .free] ⊆ ps) :
    SameBut ps z (resetDebug s) ↔ SameBut ps z s :=
  SameBut.frame h (resetDebug_same ..)

end Sys2Proof.Machine
end

section
/-! ## Frames: Cells
What the operations of the model's file Cells leave unchanged. -/

namespace Sys2Proof.Machine

open Sys2Proof

variable {ps : List Part} {z : State}

@[simp] theorem consumeInj_frame (s : State) (key : Nat) (h : [.sram] ⊆ ps) :
    SameBut ps z (consumeInj s key) ↔ SameBut ps z s :=
  SameBut.frame h (consumeInj_same ..)

@[simp] theorem countI_frame (s : State) (i : Nat) (h : [.mgmt] ⊆ ps) :
    SameBut ps z (countI s i) ↔ SameBut ps z s :=
  SameBut.frame h (countI_same ..)

@[simp] theorem report_frame (s : State) (key : Nat) (syn : Byte) (h : [.integ, .mgmt] ⊆ ps) :
    SameBut ps z (report s key syn) ↔ SameBut ps z s :=
  SameBut.frame h (report_same ..)

@[simp] theorem queueBad_frame (s : State) (b : Bad) (h : [.integ, .mgmt] ⊆ ps) :
    SameBut ps z (queueBad s b) ↔ SameBut ps z s :=
  SameBut.frame h (queueBad_same ..)

@[simp] theorem fixPage_frame (s : State) (key : Nat) (h : [.sram, .mgmt] ⊆ ps) :
    SameBut ps z (fixPage s key) ↔ SameBut ps z s :=
  SameBut.frame h (fixPage_same ..)

@[simp] theorem touch_frame (s : State) (key : Nat) (h : [.sram, .integ, .events, .mgmt, .free] ⊆ ps) : SameBut ps z (touch s key) ↔ SameBut ps z s :=
  SameBut.frame h (touch_same ..)

@[simp] theorem foldl_touch_frame (s : State) (keys : List Nat) (h : [.sram, .integ, .events, .mgmt, .free] ⊆ ps) : SameBut ps z (keys.foldl touch s) ↔ SameBut ps z s :=
  SameBut.frame h (SameBut.foldl (fun _ _ => touch_same ..) keys s)

@[simp] theorem touchAll_frame (s : State) (keys : List Nat) (h : [.sram, .integ, .events, .mgmt, .free] ⊆ ps) :
    SameBut ps z (touchAll s keys) ↔ SameBut ps z s :=
  SameBut.frame h (touchAll_same ..)

@[simp] theorem touchQ_frame (s : State) (key : Nat) (h : [.sram, .integ, .events, .mgmt, .free] ⊆ ps) : SameBut ps z (touchQ s key) ↔ SameBut ps z s :=
  SameBut.frame h (touchQ_same ..)

@[simp] theorem foldl_touchQ_frame (s : State) (keys : List Nat) (h : [.sram, .integ, .events, .mgmt, .free] ⊆ ps) : SameBut ps z (keys.foldl touchQ s) ↔ SameBut ps z s :=
  SameBut.frame h (SameBut.foldl (fun _ _ => touchQ_same ..) keys s)

@[simp] theorem pageFill_frame (s : State) (key : Nat) (h : [.sram] ⊆ ps) :
    SameBut ps z (pageFill s key) ↔ SameBut ps z s :=
  SameBut.frame h (pageFill_same ..)

@[simp] theorem putCw_frame (s : State) (key : Nat) (w : Cw) (h : [.sram] ⊆ ps) :
    SameBut ps z (putCw s key w) ↔ SameBut ps z s :=
  SameBut.frame h (putCw_same ..)

@[simp] theorem putWord_frame (s : State) (key : Nat) (d : Word) (h : [.sram] ⊆ ps) :
    SameBut ps z (putWord s key d) ↔ SameBut ps z s :=
  SameBut.frame h (putWord_same ..)

@[simp] theorem rmw_frame (s : State) (key : Nat) (mask val : Word) (h : [.sram, .integ, .events, .mgmt, .free] ⊆ ps) :
    SameBut ps z (rmw s key mask val) ↔ SameBut ps z s :=
  SameBut.frame h (rmw_same ..)

@[simp] theorem carried_frame (s : State) (key : Nat) (h : [.sram, .integ, .events, .mgmt, .free] ⊆ ps) :
    SameBut ps z (carried s key).2 ↔ SameBut ps z s :=
  SameBut.frame h (carried_same ..)

@[simp] theorem poisonWord_frame (s : State) (key : Nat) (h : [.sram] ⊆ ps) :
    SameBut ps z (poisonWord s key) ↔ SameBut ps z s :=
  SameBut.frame h (poisonWord_same ..)

@[simp] theorem setBankState_frame (s : State) (b : Nat) (st : BitVec 4) (h : [.tcam] ⊆ ps) :
    SameBut ps z (setBankState s b st) ↔ SameBut ps z s :=
  SameBut.frame h (setBankState_same ..)

@[simp] theorem swapSites_frame (s : State) (a b : Nat) (h : [.tcam] ⊆ ps) :
    SameBut ps z (swapSites s a b) ↔ SameBut ps z s :=
  SameBut.frame h (swapSites_same ..)

@[simp] theorem setRow_frame (s : State) (site r : Nat) (x : TRow) (h : [.tcam] ⊆ ps) :
    SameBut ps z (setRow s site r x) ↔ SameBut ps z s :=
  SameBut.frame h (setRow_same ..)

@[simp] theorem setEntryAt_frame (s : State) (w site site2 r h_ : Nat) (e : Entry) (h : [.tcam] ⊆ ps) :
    SameBut ps z (setEntryAt s w site site2 r h_ e) ↔ SameBut ps z s :=
  SameBut.frame h (setEntryAt_same ..)

@[simp] theorem setEntry_frame (s : State) (w b r h_ : Nat) (e : Entry) (h : [.tcam] ⊆ ps) :
    SameBut ps z (setEntry s w b r h_ e) ↔ SameBut ps z s :=
  SameBut.frame h (setEntry_same ..)

@[simp] theorem setDir_frame (s : State) (d : Nat) (x : BitVec 80) (h : [.marker] ⊆ ps) :
    SameBut ps z (setDir s d x) ↔ SameBut ps z s :=
  SameBut.frame h (setDir_same ..)

end Sys2Proof.Machine
end

section
/-! ## Frames: Journal
What the operations of the model's file Journal leave unchanged. -/

namespace Sys2Proof.Machine

open Sys2Proof

variable {ps : List Part} {z : State}

@[simp] theorem freeFrames_frame (s : State) (h : [.journal] ⊆ ps) :
    SameBut ps z (freeFrames s) ↔ SameBut ps z s :=
  SameBut.frame h (freeFrames_same ..)

@[simp] theorem countStore_frame (s : State) (i n : Nat) (h : [.mgmt] ⊆ ps) :
    SameBut ps z (countStore s i n) ↔ SameBut ps z s :=
  SameBut.frame h (countStore_same ..)

@[simp] theorem jAdmit_frame (s : State) (groups : List (List JRec)) (h : [.mgmt] ⊆ ps) :
    SameBut ps z (jAdmit s groups).2 ↔ SameBut ps z s :=
  SameBut.frame h (jAdmit_same ..)

@[simp] theorem jCommit_frame (s : State) (rs : List JRec) (applied : Bool) (h : [.journal, .mgmt] ⊆ ps) :
    SameBut ps z (jCommit s rs applied).2 ↔ SameBut ps z s :=
  SameBut.frame h (jCommit_same ..)

@[simp] theorem jPut_frame (s : State) (r : JRec) (h : [.journal] ⊆ ps) :
    SameBut ps z (jPut s r) ↔ SameBut ps z s :=
  SameBut.frame h (jPut_same ..)

@[simp] theorem jNote_frame (s : State) (r : JRec) (h : [.journal] ⊆ ps) :
    SameBut ps z (jNote s r) ↔ SameBut ps z s :=
  SameBut.frame h (jNote_same ..)

@[simp] theorem jApplied_frame (s : State) (j : Word) (h : [.journal] ⊆ ps) :
    SameBut ps z (jApplied s j) ↔ SameBut ps z s :=
  SameBut.frame h (jApplied_same ..)

@[simp] theorem jChange_frame {s : State} {rs : List JRec} {f : State → State} (h : [.journal, .mgmt] ⊆ ps) (hf : ∀ u, SameBut ps u (f u)) :
    SameBut ps z (jChange s rs f) ↔ SameBut ps z s :=
  SameBut.frame (List.Subset.refl ps) (jChange_same h hf)

end Sys2Proof.Machine
end

section
/-! ## Frames: PortOps
What the operations of the model's file PortOps leave unchanged. -/

namespace Sys2Proof.Machine

open Sys2Proof

variable {ps : List Part} {z : State}

@[simp] theorem send_frame (s : State) (p : Nat) (ms : List Slot) (h : [.ports] ⊆ ps) :
    SameBut ps z (send s p ms) ↔ SameBut ps z s :=
  SameBut.frame h (send_same ..)

@[simp] theorem violation_frame (s : State) (id : Nat) (c : Counts) (h : [.tally, .events, .free] ⊆ ps) :
    SameBut ps z (violation s id c) ↔ SameBut ps z s :=
  SameBut.frame h (violation_same ..)

@[simp] theorem refuseMove_frame (s : State) (id : Nat) (c : Counts) (h : [.tally, .events, .free] ⊆ ps) :
    SameBut ps z (refuseMove s id c) ↔ SameBut ps z s :=
  SameBut.frame h (refuseMove_same ..)

@[simp] theorem freeCredit_frame (s : State) (p c n : Nat) (h : [.ports, .tally, .events, .free] ⊆ ps) :
    SameBut ps z (freeCredit s p c n) ↔ SameBut ps z s :=
  SameBut.frame h (freeCredit_same ..)

@[simp] theorem takeHead_frame (s : State) (p c : Nat) (h : [.ports, .tally, .events, .free] ⊆ ps) :
    SameBut ps z (takeHead s p c) ↔ SameBut ps z s :=
  SameBut.frame h (takeHead_same ..)

@[simp] theorem badSlot_frame (s : State) (p : Nat) (h : [.events, .mgmt, .free] ⊆ ps) :
    SameBut ps z (badSlot s p) ↔ SameBut ps z s :=
  SameBut.frame h (badSlot_same ..)

@[simp] theorem setStream_frame (s : State) (p k : Nat) (x : Stream) (h : [.update] ⊆ ps) :
    SameBut ps z (setStream s p k x) ↔ SameBut ps z s :=
  SameBut.frame h (setStream_same ..)

@[simp] theorem sendAs_frame (s : State) (p : Nat) (incarn : BitVec 16) (ms : List Slot) (h : [.ports, .mgmt] ⊆ ps) :
    SameBut ps z (sendAs s p incarn ms) ↔ SameBut ps z s :=
  SameBut.frame h (sendAs_same ..)

@[simp] theorem tagHeld_frame (s : State) (p : Nat) (incarn : BitVec 16) (held : Port → List Nat) (pool cap t : Nat) (h : [.tally, .events, .free] ⊆ ps) :
    SameBut ps z (tagHeld s p incarn held pool cap t) ↔ SameBut ps z s :=
  SameBut.frame h (tagHeld_same ..)

@[simp] theorem bulkAnswer_frame (s : State) (p k seq : Nat) (r : TRsp) (h : [.update, .ports] ⊆ ps) :
    SameBut ps z (bulkAnswer s p k seq r) ↔ SameBut ps z s :=
  SameBut.frame h (bulkAnswer_same ..)

@[simp] theorem accepted_frame (s : State) (p : Nat) (j : Word) (h : [.ports] ⊆ ps) :
    SameBut ps z (accepted s p j) ↔ SameBut ps z s :=
  SameBut.frame h (accepted_same ..)

@[simp] theorem answer_frame (s : State) (v : Via) (r : TRsp) (h : [.update, .ports, .tally, .events, .mgmt, .free] ⊆ ps) :
    SameBut ps z (answer s v r) ↔ SameBut ps z s :=
  SameBut.frame h (answer_same ..)

end Sys2Proof.Machine
end

section
/-! ## Frames: TableOps
What the operations of the model's file TableOps leave unchanged. -/

namespace Sys2Proof.Machine

open Sys2Proof

variable {ps : List Part} {z : State}

@[simp] theorem tcamReject_frame (s : State) (t b r h_ : Nat) (st : Status) (cause : Nat) (h : [.events, .free] ⊆ ps) :
    SameBut ps z (tcamReject s t b r h_ st cause) ↔ SameBut ps z s :=
  SameBut.frame h (tcamReject_same ..)

@[simp] theorem countT_frame (s : State) (t i n : Nat) (h : [.mgmt] ⊆ ps) :
    SameBut ps z (countT s t i n) ↔ SameBut ps z s :=
  SameBut.frame h (countT_same ..)

@[simp] theorem putSlotCw_frame (s : State) (b r h_ j : Nat) (c : Cw) (h : [.sram] ⊆ ps) :
    SameBut ps z (putSlotCw s b r h_ j c) ↔ SameBut ps z s :=
  SameBut.frame h (putSlotCw_same ..)

@[simp] theorem putSlot_frame (s : State) (b r h_ : Nat) (res chk : Word) (h : [.sram] ⊆ ps) :
    SameBut ps z (putSlot s b r h_ res chk) ↔ SameBut ps z s :=
  SameBut.frame h (putSlot_same ..)

@[simp] theorem clearLive_frame (s : State) (b r h_ : Nat) (h : [.sram, .integ, .events, .mgmt, .free] ⊆ ps) :
    SameBut ps z (clearLive s b r h_) ↔ SameBut ps z s :=
  SameBut.frame h (clearLive_same ..)

@[simp] theorem carrySlot_frame (s : State) (b r h_ b2 r2 h2 : Nat) (h : [.sram, .integ, .events, .mgmt, .free] ⊆ ps) :
    SameBut ps z (carrySlot s b r h_ b2 r2 h2) ↔ SameBut ps z s :=
  SameBut.frame h (carrySlot_same ..)

@[simp] theorem copyEntry_frame (s : State) (t src dst r h_ : Nat) (h : [.tcam, .sram, .integ, .events, .mgmt, .free] ⊆ ps) :
    SameBut ps z (copyEntry s t src dst r h_) ↔ SameBut ps z s :=
  SameBut.frame h (copyEntry_same ..)

@[simp] theorem rejectSecond_frame (s : State) (t b : Nat) (second : List (Nat × Nat)) (h : [.integ, .events, .mgmt, .free] ⊆ ps) :
    SameBut ps z (rejectSecond s t b second) ↔ SameBut ps z s :=
  SameBut.frame h (rejectSecond_same ..)

@[simp] theorem findInBank_frame (s : State) (t d j : Nat) (care val : BitVec 192) (tag : Nat) (h : [.tcam, .sram, .integ, .events, .mgmt, .free] ⊆ ps) :
    SameBut ps z (findInBank s t d j care val tag).2 ↔ SameBut ps z s :=
  SameBut.frame h (findInBank_same ..)

@[simp] theorem findInDir_frame (s : State) (t d : Nat) (care val : BitVec 192) (tag : Nat) (y6 : List Nat) (h : [.tcam, .sram, .integ, .events, .mgmt, .free] ⊆ ps) :
    SameBut ps z (findInDir s t d care val tag y6).2 ↔ SameBut ps z s :=
  SameBut.frame h (findInDir_same ..)

@[simp] theorem findEntry_frame (s : State) (t : Nat) (care val : BitVec 192) (tag : Nat) (y5 : List Nat) (h : [.tcam, .sram, .integ, .events, .mgmt, .free] ⊆ ps) :
    SameBut ps z (findEntry s t care val tag y5).2 ↔ SameBut ps z s :=
  SameBut.frame h (findEntry_same ..)

@[simp] theorem clearEntry_frame (s : State) (w b r h_ : Nat) (h : [.tcam, .sram, .integ, .events, .mgmt, .free] ⊆ ps) :
    SameBut ps z (clearEntry s w b r h_) ↔ SameBut ps z s :=
  SameBut.frame h (clearEntry_same ..)

@[simp] theorem setG_frame (s : State) (w b r h_ : Nat) (g : BitVec 2) (h : [.tcam] ⊆ ps) :
    SameBut ps z (setG s w b r h_ g) ↔ SameBut ps z s :=
  SameBut.frame h (setG_same ..)

@[simp] theorem writeH_frame (s : State) (w b r h_ : Nat) (v : Bool) (h : [.tcam] ⊆ ps) :
    SameBut ps z (writeH s w b r h_ v) ↔ SameBut ps z s :=
  SameBut.frame h (writeH_same ..)

@[simp] theorem setSel_frame (s : State) (k : Nat) (v : Option (Nat × Bool)) (h : [.tcam] ⊆ ps) :
    SameBut ps z (setSel s k v) ↔ SameBut ps z s :=
  SameBut.frame h (setSel_same ..)

@[simp] theorem armCopies_frame (s : State) (g : Nat) (ins : Bool) (y3 : List (Nat × Nat × Nat)) (h : [.tcam] ⊆ ps) :
    SameBut ps z (armCopies s g ins y3).1 ↔ SameBut ps z s :=
  SameBut.frame h (armCopies_same ..)

@[simp] theorem writeCopies_frame (s : State) (t : Nat) (care val : BitVec 192) (tag : Nat) (res : Word) (g : GCopy → BitVec 2) (cs : List GCopy) (h : [.tcam, .sram] ⊆ ps) :
    SameBut ps z (writeCopies s t care val tag res g cs) ↔ SameBut ps z s :=
  SameBut.frame h (writeCopies_same ..)

@[simp] theorem mirrorTake_frame (s : State) (cs : List GCopy) (h : [.marker] ⊆ ps) :
    SameBut ps z (mirrorTake s cs) ↔ SameBut ps z s :=
  SameBut.frame h (mirrorTake_same ..)

@[simp] theorem openGate_frame (s : State) (g : Nat) (x : Gate) (h : [.marker] ⊆ ps) :
    SameBut ps z (openGate s g x) ↔ SameBut ps z s :=
  SameBut.frame h (openGate_same ..)

@[simp] theorem issueCoal_frame (s : State) (key : Nat) (h : [.sram, .update, .ports, .tally, .journal, .integ, .events, .mgmt, .free] ⊆ ps) :
    SameBut ps z (issueCoal s key) ↔ SameBut ps z s :=
  SameBut.frame h (issueCoal_same ..)

@[simp] theorem issueRow_frame (s : State) (t row : Nat) (h : [.sram, .update, .ports, .tally, .journal, .integ, .events, .mgmt, .free] ⊆ ps) :
    SameBut ps z (issueRow s t row) ↔ SameBut ps z s :=
  SameBut.frame h (issueRow_same ..)

@[simp] theorem putField_frame (s : State) (t row lsb w v : Nat) (h : [.sram, .integ, .events, .mgmt, .free] ⊆ ps) :
    SameBut ps z (putField s t row lsb w v) ↔ SameBut ps z s :=
  SameBut.frame h (putField_same ..)

@[simp] theorem linkPut_frame (s : State) (t row v : Nat) (h : [.sram, .integ, .events, .mgmt, .free] ⊆ ps) :
    SameBut ps z (linkPut s t row v) ↔ SameBut ps z s :=
  SameBut.frame h (linkPut_same ..)

@[simp] theorem linkDec_frame (s : State) (t row : Nat) (h : [.sram, .update, .ports, .tally, .journal, .integ, .events, .mgmt, .free] ⊆ ps) :
    SameBut ps z (linkDec s t row) ↔ SameBut ps z s :=
  SameBut.frame h (linkDec_same ..)

@[simp] theorem finalCopy_frame (s : State) (w : Nat) (c : GCopy) (h : [.tcam, .sram, .integ, .events, .mgmt, .free] ⊆ ps) :
    SameBut ps z (finalCopy s w c) ↔ SameBut ps z s :=
  SameBut.frame h (finalCopy_same ..)

@[simp] theorem releaseSels_frame (s : State) (g : Nat) (h : [.tcam] ⊆ ps) :
    SameBut ps z (releaseSels s g) ↔ SameBut ps z s :=
  SameBut.frame h (releaseSels_same ..)

@[simp] theorem carryH_frame (s : State) (w : Nat) (m : Nat × Nat) (h : [.tcam] ⊆ ps) :
    SameBut ps z (carryH s w m) ↔ SameBut ps z s :=
  SameBut.frame h (carryH_same ..)

@[simp] theorem basteDec_frame (s : State) (l : Nat) (h : [.sram, .update, .ports, .tally, .journal, .integ, .events, .mgmt, .free] ⊆ ps) :
    SameBut ps z (basteDec s l) ↔ SameBut ps z s :=
  SameBut.frame h (basteDec_same ..)

@[simp] theorem drainAnswer_frame (s : State) (x : Gate) (late : Bool) (h : [.update, .ports, .tally, .events, .mgmt, .free] ⊆ ps) :
    SameBut ps z (drainAnswer s x late) ↔ SameBut ps z s :=
  SameBut.frame h (drainAnswer_same ..)

@[simp] theorem finishGate_frame (s : State) (g : Nat) (h : [.tcam, .marker, .sram, .update, .ports, .tally, .journal, .integ, .events, .mgmt, .free] ⊆ ps) :
    SameBut ps z (finishGate s g) ↔ SameBut ps z s :=
  SameBut.frame h (finishGate_same ..)

@[simp] theorem moveCopy_frame (s : State) (w b src dst : Nat) (g : BitVec 2) (h : [.tcam, .sram, .integ, .events, .mgmt, .free] ⊆ ps) :
    SameBut ps z (moveCopy s w b src dst g) ↔ SameBut ps z s :=
  SameBut.frame h (moveCopy_same ..)

@[simp] theorem openMoveTo_frame (s : State) (t : Nat) (l : Loc) (m : Nat × Nat) (g1 : Nat) (h : [.tcam, .marker, .sram, .integ, .events, .mgmt, .free] ⊆ ps) :
    SameBut ps z (openMoveTo s t l m g1) ↔ SameBut ps z s :=
  SameBut.frame h (openMoveTo_same ..)

@[simp] theorem openMoveFrom_frame (s : State) (t : Nat) (l : Loc) (m : Nat × Nat) (g2 : Nat) (j : Word) (h : [.tcam, .marker] ⊆ ps) :
    SameBut ps z (openMoveFrom s t l m g2 j) ↔ SameBut ps z s :=
  SameBut.frame h (openMoveFrom_same ..)

@[simp] theorem settleGate_frame (s : State) (g : Nat) (h : [.tcam, .marker, .sram, .update, .ports, .tally, .journal, .integ, .events, .mgmt, .free] ⊆ ps) :
    SameBut ps z (settleGate s g) ↔ SameBut ps z s :=
  SameBut.frame h (settleGate_same ..)

@[simp] theorem settleGates_frame (s : State) (h : [.tcam, .marker, .sram, .update, .ports, .tally, .journal, .integ, .events, .mgmt, .free] ⊆ ps) :
    SameBut ps z (settleGates s) ↔ SameBut ps z s :=
  SameBut.frame h (settleGates_same ..)

@[simp] theorem relocateAll_frame (e t : Nat) (y2 : List (Loc × Nat × Nat)) (y3 : Nat) (y4 : State) (h : [.tcam, .marker, .sram, .update, .ports, .tally, .journal, .integ, .events, .mgmt, .free] ⊆ ps) :
    SameBut ps z (relocateAll e t y2 y3 y4).1 ↔ SameBut ps z y4 :=
  SameBut.frame h (relocateAll_same ..)

end Sys2Proof.Machine
end

section
/-! ## Frames: Operands
What the operations of the model's file Operands leave unchanged. -/

namespace Sys2Proof.Machine

open Sys2Proof

variable {ps : List Part} {z : State}

@[simp] theorem enqueue_frame (s : State) (c : TCmd) (h : [.update] ⊆ ps) :
    SameBut ps z (enqueue s c) ↔ SameBut ps z s :=
  SameBut.frame h (by unfold enqueue; simp)

end Sys2Proof.Machine
end

section
/-! ## Frames: Flags
What the operations of the model's file Flags leave unchanged. -/

namespace Sys2Proof.Machine

open Sys2Proof

variable {ps : List Part} {z : State}

@[simp] theorem ended_frame (s : State) (t : Nat) (st : Status) (h : [.mgmt] ⊆ ps) : RanKeeps ps z (ended s t st) ↔ SameBut ps z s :=
  SameBut.frame h (t := if st = .busyRetry then countT s t 8 1 else s) (by simp)

@[simp] theorem popQueue_frame (s : State) (e : Nat) (h : [.update] ⊆ ps) :
    SameBut ps z (popQueue s e) ↔ SameBut ps z s :=
  SameBut.frame h (by unfold popQueue; simp)

@[simp] theorem dropRecordOf_frame (s : State) (e : Nat) (h : [.update] ⊆ ps) :
    SameBut ps z (dropRecordOf s e) ↔ SameBut ps z s :=
  SameBut.frame h (by unfold dropRecordOf; simp)

@[simp] theorem repairWrite_frame (s : State) (e : Nat) (h : [.tcam, .sram, .integ, .events, .mgmt, .free] ⊆ ps) :
    SameBut ps z (repairWrite s e) ↔ SameBut ps z s :=
  SameBut.frame h (by dsimp only [repairWrite]; (repeat' split) <;> simp)

@[simp] theorem serveRepairs_frame (s : State) (e : Nat) (h : [.tcam, .sram, .integ, .events, .mgmt, .free] ⊆ ps) :
    SameBut ps z (serveRepairs s e) ↔ SameBut ps z s :=
  SameBut.frame h (by unfold serveRepairs; simp)

@[simp] theorem finishHead_frame (s : State) (e : Nat) (c : TCmd) (moved : Nat) (r : Option TRsp) (h : [.update, .ports, .tally, .events, .mgmt, .free] ⊆ ps) :
    SameBut ps z (finishHead s e c moved r) ↔ SameBut ps z s :=
  SameBut.frame h (by dsimp only [finishHead]; split <;> simp)

@[simp] theorem countBusy_frame (s : State) (c : TCmd) (h : [.mgmt] ⊆ ps) :
    SameBut ps z (countBusy s c) ↔ SameBut ps z s :=
  SameBut.frame h (by unfold countBusy; simp)

@[simp] theorem holdHead_frame (s : State) (e moved restarts : Nat) (need : List Nat) (h : [.update] ⊆ ps) :
    SameBut ps z (holdHead s e moved restarts need) ↔ SameBut ps z s :=
  SameBut.frame h (by unfold holdHead; simp)

/-- A run that leaves framed states is framed with what ends or holds its command. -/
theorem runHeld_frame {s : State} {e : Nat} {c : TCmd} {n : Nat} {need : State → TCmd → List Nat} {f : State → TCmd → Ran}
    (h : [.tcam, .marker, .sram, .update, .ports, .tally, .journal, .integ, .events, .mgmt, .free] ⊆ ps) (hf : ∀ u, RanKeeps ps u (f u c)) :
    SameBut ps z (runHeld s e c n need f) ↔ SameBut ps z s := by
  simp only [List.cons_subset] at h
  have a := hf s
  have b := hf (settleGates s)
  unfold runHeld
  cases x : f s c with
  | wait =>
    cases y : f (settleGates s) c with
    | wait => simp [h]
    | stays t m => rw [y] at b; simp [SameBut.into (RanKeeps.stays_iff.1 b), h]
    | ends t r => rw [y] at b; simp [SameBut.into (RanKeeps.ends_iff.1 b), h]
  | stays t m => rw [x] at a; simp [SameBut.into (RanKeeps.stays_iff.1 a), h]
  | ends t r => rw [x] at a; simp [SameBut.into (RanKeeps.ends_iff.1 a), h]

theorem runHead_frame {s : State} {e opc : Nat} {need : State → TCmd → List Nat} {f : State → TCmd → Ran}
    (h : [.tcam, .marker, .sram, .update, .ports, .tally, .journal, .integ, .events, .mgmt, .free] ⊆ ps) (hf : ∀ u c, RanKeeps ps u (f u c)) :
    SameBut ps z (runHead s e opc need f) ↔ SameBut ps z s := by
  have held : ∀ {u c n}, SameBut ps z (runHeld u e c n need f) ↔ SameBut ps z u := runHeld_frame h (fun u => hf u _)
  simp only [List.cons_subset] at h
  unfold runHead
  (repeat' split) <;> simp [h, held]

end Sys2Proof.Machine
end

section
/-! ## Frames: CrewOps
What the operations of the model's file CrewOps leave unchanged. -/

namespace Sys2Proof.Machine

open Sys2Proof

variable {ps : List Part} {z : State}

@[simp] theorem relayLeft_frame (s : State) (q : Nat) (m : Relay) (h : [.ports, .tally, .events, .mgmt, .free] ⊆ ps) :
    SameBut ps z (relayLeft s q m) ↔ SameBut ps z s :=
  SameBut.frame h (by dsimp only [relayLeft]; (repeat' split) <;> simp)

@[simp] theorem relaySlots_frame (q : Nat) (ms : List Relay) (s : State) (h : [.ports, .tally, .events, .mgmt, .free] ⊆ ps) :
    SameBut ps z (relaySlots q ms s) ↔ SameBut ps z s :=
  SameBut.frame h (by
    induction ms generalizing s with
    | nil => simp [relaySlots]
    | cons m ms ih => dsimp only [relaySlots]; split <;> simp [SameBut.into (ih _)])

@[simp] theorem relayOut_frame (s : State) (q : Nat) (h : [.ports, .tally, .events, .mgmt, .free] ⊆ ps) :
    SameBut ps z (relayOut s q) ↔ SameBut ps z s :=
  SameBut.frame h (by unfold relayOut; simp)

@[simp] theorem sendRank_frame (s : State) (r : Nat) (ms : List Slot) (h : [.ports, .tally, .events, .mgmt, .free] ⊆ ps) :
    SameBut ps z (sendRank s r ms) ↔ SameBut ps z s :=
  SameBut.frame h (by unfold sendRank; split <;> simp)

@[simp] theorem sendBy_frame (s : State) (q r : Nat) (ms : List Slot) (h : [.ports, .tally, .events, .mgmt, .free] ⊆ ps) :
    SameBut ps z (sendBy s q r ms) ↔ SameBut ps z s :=
  SameBut.frame h (by unfold sendBy; simp)

@[simp] theorem modTok_frame (s : State) (t : Nat) (f : Token → Token) (h : [.search] ⊆ ps) :
    SameBut ps z (modTok s t f) ↔ SameBut ps z s :=
  SameBut.frame h (by unfold modTok; split <;> simp)

@[simp] theorem shareAnswers_frame (s : State) (tok step r : Nat) (st : Status) (w : Option Share) (rsv : Bool) (h : [.search] ⊆ ps) :
    SameBut ps z (shareAnswers s tok step r st w rsv) ↔ SameBut ps z s :=
  SameBut.frame h (by unfold shareAnswers; simp)

@[simp] theorem awayFails_frame (s : State) (tok : Nat) (sent : Bool) (h : [.search] ⊆ ps) :
    SameBut ps z (awayFails s tok sent) ↔ SameBut ps z s :=
  SameBut.frame h (by unfold awayFails; simp)

@[simp] theorem cascadeDown_frame (s : State) (p : Nat) (h : [.search, .ports, .tally, .events, .free] ⊆ ps) :
    SameBut ps z (cascadeDown s p) ↔ SameBut ps z s :=
  SameBut.frame h (by
    dsimp only [cascadeDown]
    split
    · refine SameBut.trans ?_ (SameBut.foldl (fun u m => ?_) _ _)
      · simp
      · split <;> simp
    · simp)

@[simp] theorem dropUnreached_frame (s : State) (h : [.crew] ⊆ ps) :
    SameBut ps z (dropUnreached s) ↔ SameBut ps z s :=
  SameBut.frame h (by unfold dropUnreached; simp)

end Sys2Proof.Machine
end

section
/-! ## Frames: Profiles
What the operations of the model's file Profiles leave unchanged. -/

namespace Sys2Proof.Machine

open Sys2Proof

variable {ps : List Part} {z : State}

@[simp] theorem compTouch_frame (s : State) (c gen t row w : Nat) (h : [.sram, .integ, .events, .mgmt, .free] ⊆ ps) :
    SameBut ps z (compTouch s c gen t row w) ↔ SameBut ps z s :=
  SameBut.frame h (by unfold compTouch; simp)

@[simp] theorem entryTouch_frame (s : State) (eng gen t i : Nat) (h : [.sram, .integ, .events, .mgmt, .free] ⊆ ps) :
    SameBut ps z (entryTouch s eng gen t i) ↔ SameBut ps z s :=
  SameBut.frame h (by unfold entryTouch; simp)

@[simp] theorem lookOp_frame (s : State) (tk : Token) (c : Comp) (op : BitVec 128) (a b : Nat) (h : [.sram, .integ, .events, .mgmt, .free] ⊆ ps) :
    SameBut ps z (lookOp s tk c op a b).2 ↔ SameBut ps z s :=
  SameBut.frame h (by dsimp only [lookOp]; (repeat' split) <;> simp)

@[simp] theorem compStep_frame (tk : Token) (cs : Comp × State) (op : BitVec 128) (h : [.sram, .integ, .events, .mgmt, .free] ⊆ ps) :
    SameBut ps z (compStep tk cs op).2 ↔ SameBut ps z cs.2 :=
  SameBut.frame h (by dsimp only [compStep]; (repeat' split) <;> simp)

@[simp] theorem compose_frame (s : State) (tk : Token) (h : [.sram, .integ, .events, .mgmt, .free] ⊆ ps) :
    SameBut ps z (compose s tk).2 ↔ SameBut ps z s :=
  SameBut.frame h (by unfold compose; simp)

end Sys2Proof.Machine
end

section
/-! ## Frames: SearchOps
What the operations of the model's file SearchOps leave unchanged. -/

namespace Sys2Proof.Machine

open Sys2Proof

variable {ps : List Part} {z : State}

@[simp] theorem pickReplica_frame (s : State) (d : Nat) (h : [.marker] ⊆ ps) :
    SameBut ps z (pickReplica s d).2 ↔ SameBut ps z s :=
  SameBut.frame h (by dsimp only [pickReplica]; split <;> simp)

@[simp] theorem dirCheck_frame (s : State) (t d : Nat) (h : [.marker, .integ, .events, .mgmt, .free] ⊆ ps) :
    SameBut ps z (dirCheck s t d).2 ↔ SameBut ps z s :=
  SameBut.frame h (by dsimp only [dirCheck]; (repeat' split) <;> simp)

@[simp] theorem countMatch_frame (s : State) (d : Nat) (h : [.marker] ⊆ ps) :
    SameBut ps z (countMatch s d) ↔ SameBut ps z s :=
  SameBut.frame h (by unfold countMatch; simp)

@[simp] theorem markerLookup_frame (s : State) (t : Nat) (key : BitVec 192) (h : [.marker, .integ, .events, .mgmt, .free] ⊆ ps) :
    SameBut ps z (markerLookup s t key).2 ↔ SameBut ps z s :=
  SameBut.frame h (by dsimp only [markerLookup]; (repeat' split) <;> simp)

@[simp] theorem markerAll_frame (s : State) (tk : Token) (h : [.marker, .integ, .events, .mgmt, .free] ⊆ ps) :
    SameBut ps z (markerAll s tk).2 ↔ SameBut ps z s :=
  SameBut.frame h (by
    unfold markerAll
    exact SameBut.foldl_by Prod.snd (fun x i => by (repeat' split) <;> simp) _ (tk, s))

@[simp] theorem unreach_frame (s : State) (eng r : Nat) (h : [.events, .mgmt, .free] ⊆ ps) :
    SameBut ps z (unreach s eng r) ↔ SameBut ps z s :=
  SameBut.frame h (by unfold unreach; simp)

@[simp] theorem sendProbe_frame (s : State) (tok i t : Nat) (key : BitVec 192) (eng : Nat) (x : StepRun) (r : Nat) (h : [.ports, .tally, .events, .mgmt, .free] ⊆ ps) :
    SameBut ps z (sendProbe s tok i t key eng x r).2 ↔ SameBut ps z s :=
  SameBut.frame h (by dsimp only [sendProbe]; (repeat' split) <;> simp)

@[simp] theorem retryProbes_frame (s : State) (tok : Nat) (tk : Token) (i : Nat) (h : [.search, .ports, .tally, .events, .mgmt, .free] ⊆ ps) :
    SameBut ps z (retryProbes s tok tk i) ↔ SameBut ps z s :=
  SameBut.frame h (by dsimp only [retryProbes]; simp)

@[simp] theorem retryAll_frame (s : State) (h : [.search, .ports, .tally, .events, .mgmt, .free] ⊆ ps) : SameBut ps z (retryAll s) ↔ SameBut ps z s :=
  SameBut.frame h (by
    refine SameBut.foldl (fun u e => ?_) _ _
    split
    · exact SameBut.foldl (fun v i => by split <;> simp) _ _
    · simp)

@[simp] theorem issueStep_frame (s : State) (tok : Nat) (tk : Token) (i : Nat) (h : [.ports, .tally, .events, .mgmt, .free] ⊆ ps) :
    SameBut ps z (issueStep s tok tk i).2 ↔ SameBut ps z s :=
  SameBut.frame h (by dsimp only [issueStep]; (repeat' split) <;> simp)

@[simp] theorem issueLevel_frame (s : State) (tok n : Nat) (h : [.search, .ports, .tally, .events, .mgmt, .free] ⊆ ps) :
    SameBut ps z (issueLevel s tok n) ↔ SameBut ps z s :=
  SameBut.frame h (by unfold issueLevel; split <;> simp)

@[simp] theorem searchCycle_frame (s : State) (w b site site2 : Nat) (snap : BitVec 64) (key : BitVec 192) (mask : Option (Nat × Nat)) (h : [.tcam] ⊆ ps) :
    SameBut ps z (searchCycle s w b site site2 snap key mask).2 ↔ SameBut ps z s :=
  SameBut.frame h (by unfold searchCycle; split <;> simp)

@[simp] theorem lookTouch_frame (s : State) (x : Seen) (h : [.sram, .integ, .events, .mgmt, .free] ⊆ ps) :
    SameBut ps z (lookTouch s x) ↔ SameBut ps z s :=
  SameBut.frame h (by unfold lookTouch; simp)

@[simp] theorem countDisag_frame (s : State) (b : Nat) (h : [.clock, .tcam, .integ] ⊆ ps) :
    SameBut ps z (countDisag s b) ↔ SameBut ps z s :=
  SameBut.frame h (by unfold countDisag; simp)

@[simp] theorem issueRepair_frame (s : State) (x : Seen) (dst : Nat) (scrub : Bool) (h : [.tcam] ⊆ ps) :
    SameBut ps z (issueRepair s x dst scrub) ↔ SameBut ps z s :=
  SameBut.frame h (by unfold issueRepair; simp)

@[simp] theorem rejectSeen_frame (s : State) (t : Nat) (st : Status) (x : Seen) (h : [.events, .free] ⊆ ps) :
    SameBut ps z (rejectSeen s t st x) ↔ SameBut ps z s :=
  SameBut.frame h (by unfold rejectSeen; simp)

@[simp] theorem resolveOne_frame (s : State) (t w : Nat) (snap : BitVec 64) (key : BitVec 192) (x : Seen) (h : [.tcam, .sram, .integ, .events, .mgmt, .free] ⊆ ps) :
    SameBut ps z (resolveOne s t w snap key x).2 ↔ SameBut ps z s :=
  SameBut.frame h (by dsimp only [resolveOne]; split <;> simp)

theorem resolvePair_frame (s : State) (t w ba bb : Nat) (fa fb : Option Seen) (reprobe : State → Seen → Option Seen × State) (scrub : Bool)
    (h : [.clock, .tcam, .sram, .integ, .events, .mgmt, .free] ⊆ ps) (hr : ∀ u x, SameBut ps u (reprobe u x).2) :
    SameBut ps z (resolvePair s t w ba bb fa fb reprobe scrub).2 ↔ SameBut ps z s := by
  simp only [List.cons_subset] at h
  dsimp only [resolvePair]
  have first : SameBut ps s (if scrub = true then s else (fa.toList ++ fb.toList).foldl lookTouch s) := by
    split
    · exact SameBut.refl ps s
    · exact SameBut.foldl (fun u x => by simp [h]) _ s
  generalize (if scrub = true then s else (fa.toList ++ fb.toList).foldl lookTouch s) = u at first ⊢
  generalize hv : List.foldl _ (([] : List Seen), u) _ = v
  have again : SameBut ps u v.2 := by
    rw [← hv]
    exact SameBut.foldl_by Prod.snd (fun x a => by dsimp only; (repeat' split) <;> simp [h, hr]) _ ([], u)
  (repeat' split) <;> simp [h, SameBut.into first, SameBut.into again]

@[simp] theorem searchBank_frame (s : State) (t w : Nat) (snap : BitVec 64) (key : BitVec 192) (k : ProbeBank) (h : [.tcam, .sram, .integ, .events, .mgmt, .free] ⊆ ps) :
    SameBut ps z (searchBank s t w snap key k).2.2 ↔ SameBut ps z s :=
  SameBut.frame h (by dsimp only [searchBank]; (repeat' split) <;> simp)

@[simp] theorem searchStep_frame (s : State) (d : BitVec 128) (key : BitVec 192) (x : StepRun) (h : [.tcam, .sram, .integ, .events, .mgmt, .free] ⊆ ps) :
    SameBut ps z (searchStep s d key x).2 ↔ SameBut ps z s :=
  SameBut.frame h (by dsimp only [searchStep]; split <;> simp)

@[simp] theorem resolveBank_frame (s : State) (t w : Nat) (snap : BitVec 64) (key : BitVec 192) (k : ProbeBank) (h : [.clock, .tcam, .sram, .integ, .events, .mgmt, .free] ⊆ ps) :
    SameBut ps z (resolveBank s t w snap key k).2 ↔ SameBut ps z s :=
  SameBut.frame h (by
    dsimp only [resolveBank]
    split
    · split <;> simp
    · exact (resolvePair_frame _ _ _ _ _ _ _ _ _ (by decide) (fun u x => by simp)).2 (SameBut.refl _ _))

@[simp] theorem resolveStep_frame (s : State) (d : BitVec 128) (key : BitVec 192) (x : StepRun) (h : [.clock, .tcam, .sram, .integ, .events, .mgmt, .free] ⊆ ps) :
    SameBut ps z (resolveStep s d key x).2 ↔ SameBut ps z s :=
  SameBut.frame h (by dsimp only [resolveStep]; simp)

end Sys2Proof.Machine
end

section
/-! ## Frames: SearchCmds
What the operations of the model's file SearchCmds leave unchanged. -/

namespace Sys2Proof.Machine

open Sys2Proof

variable {ps : List Part} {z : State}

@[simp] theorem heatInc_frame (s : State) (i : Nat) (h : [.sram, .integ, .events, .mgmt, .free] ⊆ ps) :
    SameBut ps z (heatInc s i) ↔ SameBut ps z s :=
  SameBut.frame h (by unfold heatInc; simp)

@[simp] theorem heatSample_frame (s : State) (eng x : Nat) (h : [.sram, .integ, .events, .mgmt, .free] ⊆ ps) :
    SameBut ps z (heatSample s eng x) ↔ SameBut ps z s :=
  SameBut.frame h (by unfold heatSample; simp)

@[simp] theorem heatCount_frame (s : State) (tk : Token) (h : [.sram, .search, .integ, .events, .mgmt, .free] ⊆ ps) :
    SameBut ps z (heatCount s tk) ↔ SameBut ps z s :=
  SameBut.frame h (by unfold heatCount; simp)

@[simp] theorem addTok_frame (s : State) (tk : Token) (h : [.search] ⊆ ps) :
    SameBut ps z (addTok s tk).2 ↔ SameBut ps z s :=
  SameBut.frame h (by unfold addTok; simp)

@[simp] theorem startLevels_frame (s : State) (tok : Nat) (tk : Token) (first : Nat) (h : [.marker, .search, .ports, .tally, .integ, .events, .mgmt, .free] ⊆ ps) :
    SameBut ps z (startLevels s tok tk first) ↔ SameBut ps z s :=
  SameBut.frame h (by unfold startLevels; simp)

@[simp] theorem forward_frame (s : State) (tok : Nat) (tk : Token) (r : Nat) (l0 : Bool) (h : [.search, .ports, .tally, .events, .mgmt, .free] ⊆ ps) (k : SameBut ps z s) :
    OptBut ps z (forward s tok tk r l0) :=
  OptBut.frame h k (by dsimp only [forward]; (repeat' split) <;> simp)

@[simp] theorem answerAtAdmission_frame (s : State) (p : Nat) (x : Slot) (st : Status) (ver : BitVec 16) (h : [.ports] ⊆ ps) :
    SameBut ps z (answerAtAdmission s p x st ver) ↔ SameBut ps z s :=
  SameBut.frame h (by unfold answerAtAdmission; simp)

@[simp] theorem startSearch_frame (s : State) (p tok : Nat) (tk : Token) (h : [.marker, .sram, .search, .ports, .tally, .integ, .events, .mgmt, .free] ⊆ ps) (k : SameBut ps z s) :
    OptBut ps z (startSearch s p tok tk) :=
  OptBut.frame h k (by dsimp only [startSearch]; (repeat' split) <;> simp)

@[simp] theorem admitSearch_frame (s : State) (p : Nat) (h : [.marker, .sram, .search, .ports, .tally, .integ, .events, .mgmt, .free] ⊆ ps) : SameBut ps z (admitSearch s p) ↔ SameBut ps z s :=
  SameBut.frame h (by
    dsimp only [admitSearch]
    (repeat' split) <;> try simp
    exact SameBut.getD (startSearch_frame _ _ _ _ (by decide) (by simp)) (by simp))

@[simp] theorem routeOn_frame (s : State) (tok i : Nat) (h : [.search, .ports, .tally, .events, .mgmt, .free] ⊆ ps) (k : SameBut ps z s) : OptBut ps z (routeOn s tok i) :=
  OptBut.frame h k (by dsimp only [routeOn]; (repeat' split) <;> simp)

@[simp] theorem matchStep_frame (s : State) (tok i : Nat) (h : [.tcam, .sram, .search, .ports, .tally, .integ, .events, .mgmt, .free] ⊆ ps) : SameBut ps z (matchStep s tok i) ↔ SameBut ps z s :=
  SameBut.frame h (by
    dsimp only [matchStep]
    split
    · simp
    (repeat' split) <;> try simp
    exact SameBut.getD (by simp) (by simp))

@[simp] theorem disagreement_frame (s : State) (tok i : Nat) (h : [.clock, .tcam, .sram, .search, .ports, .tally, .integ, .events, .mgmt, .free] ⊆ ps) : SameBut ps z (disagreement s tok i) ↔ SameBut ps z s :=
  SameBut.frame h (by
    dsimp only [disagreement]
    split
    · simp
    (repeat' split) <;> try simp
    exact SameBut.getD (by simp) (by simp))

@[simp] theorem allocate_frame (s : State) (tk : Token) (d : BitVec 128) (list : Nat) (alt : Bool) (x : StepRun) (h : [.life, .events, .free] ⊆ ps) :
    SameBut ps z (allocate s tk d list alt x).2.2 ↔ SameBut ps z s :=
  SameBut.frame h (by dsimp only [allocate]; (repeat' split) <;> simp)

@[simp] theorem indexStep_frame (s : State) (tok i : Nat) (h : [.sram, .search, .life, .integ, .events, .mgmt, .free] ⊆ ps) : SameBut ps z (indexStep s tok i) ↔ SameBut ps z s :=
  SameBut.frame h (by dsimp only [indexStep]; (repeat' split) <;> simp)

@[simp] theorem returnResv_frame (s : State) (rs : List Resv) (h : [.life] ⊆ ps) : SameBut ps z (returnResv s rs) ↔ SameBut ps z s :=
  SameBut.frame h (by unfold returnResv; simp)

@[simp] theorem commitResv_frame (s : State) (eng : Nat) (rs : List Resv) (h : [.life, .journal, .mgmt] ⊆ ps) :
    SameBut ps z (commitResv s eng rs) ↔ SameBut ps z s :=
  SameBut.frame h (by unfold commitResv; simp)

@[simp] theorem exhausted_frame (s : State) (h : [.life, .events, .mgmt, .free] ⊆ ps) :
    SameBut ps z (exhausted s) ↔ SameBut ps z s :=
  SameBut.frame h (by unfold exhausted; simp)

@[simp] theorem composed_frame (s : State) (tok : Nat) (tk : Token) (h : [.sram, .search, .life, .journal, .integ, .events, .mgmt, .free] ⊆ ps) :
    SameBut ps z (composed s tok tk) ↔ SameBut ps z s :=
  SameBut.frame h (by dsimp only [composed]; (repeat' split) <;> simp)

@[simp] theorem probedDone_frame (s : State) (tok : Nat) (tk : Token) (h : [.search] ⊆ ps) :
    SameBut ps z (probedDone s tok tk) ↔ SameBut ps z s :=
  SameBut.frame h (by unfold probedDone; simp)

@[simp] theorem levelEnd_frame (s : State) (tok : Nat) (h : [.sram, .search, .life, .ports, .tally, .journal, .integ, .events, .mgmt, .free] ⊆ ps) :
    SameBut ps z (levelEnd s tok) ↔ SameBut ps z s :=
  SameBut.frame h (by dsimp only [levelEnd]; (repeat' split) <;> simp)

@[simp] theorem sendAnswer_frame (s : State) (tk : Token) (h : [.ports, .tally, .events, .mgmt, .free] ⊆ ps) :
    SameBut ps z (sendAnswer s tk) ↔ SameBut ps z s :=
  SameBut.frame h (by unfold sendAnswer; split <;> simp)

@[simp] theorem sendSrsp_frame (s : State) (tok : Nat) (h : [.search, .ports, .tally, .events, .mgmt, .free] ⊆ ps) :
    SameBut ps z (sendSrsp s tok) ↔ SameBut ps z s :=
  SameBut.frame h (by unfold sendSrsp; split <;> simp)

@[simp] theorem withdrawAll_frame (s : State) (tok : Nat) (h : [.ports] ⊆ ps) :
    SameBut ps z (withdrawAll s tok) ↔ SameBut ps z s :=
  SameBut.frame h (by unfold withdrawAll; simp)

@[simp] theorem lateWatchdog_frame (s : State) (tok : Nat) (h : [.search, .life, .ports, .tally, .events, .mgmt, .free] ⊆ ps) :
    SameBut ps z (lateWatchdog s tok) ↔ SameBut ps z s :=
  SameBut.frame h (by unfold lateWatchdog; split <;> simp)

@[simp] theorem tokenRetire_frame (s : State) (tok : Nat) (h : [.search] ⊆ ps) :
    SameBut ps z (tokenRetire s tok) ↔ SameBut ps z s :=
  SameBut.frame h (by unfold tokenRetire; split <;> simp)

@[simp] theorem freeBank_frame (s : State) (b : Nat) (h : [.tcam] ⊆ ps) :
    SameBut ps z (freeBank s b) ↔ SameBut ps z s :=
  SameBut.frame h (by unfold freeBank; simp)

@[simp] theorem replicaRelease_frame (s : State) (d : Nat) (h : [.tcam, .marker] ⊆ ps) :
    SameBut ps z (replicaRelease s d) ↔ SameBut ps z s :=
  SameBut.frame h (by unfold replicaRelease; split <;> simp)

end Sys2Proof.Machine
end

section
/-! ## Frames: Ports
What the operations of the model's file Ports leave unchanged. -/

namespace Sys2Proof.Machine

open Sys2Proof

variable {ps : List Part} {z : State}

@[simp] theorem creditReturn_frame (s : State) (p : Nat) (h : [.power, .ports] ⊆ ps) :
    SameBut ps z (creditReturn s p) ↔ SameBut ps z s :=
  SameBut.frame h (by unfold creditReturn; simp)

@[simp] theorem tryReady_frame (s : State) (p : Nat) (h : [.ports, .events, .free] ⊆ ps) :
    SameBut ps z (tryReady s p) ↔ SameBut ps z s :=
  SameBut.frame h (by unfold tryReady; simp)

@[simp] theorem tryReadyAll_frame (s : State) (h : [.ports, .events, .free] ⊆ ps) :
    SameBut ps z (tryReadyAll s) ↔ SameBut ps z s :=
  SameBut.frame h (by unfold tryReadyAll; simp)

@[simp] theorem freeEvents_frame (s : State) (p d : Nat) (h : [.ports, .events] ⊆ ps) :
    SameBut ps z (freeEvents s p d) ↔ SameBut ps z s :=
  SameBut.frame h (by unfold freeEvents; simp)

@[simp] theorem creditEntry_frame (s : State) (p c : Nat) (v : BitVec 16) (h : [.ports, .events, .mgmt] ⊆ ps) :
    SameBut ps z (creditEntry s p c v) ↔ SameBut ps z s :=
  SameBut.frame h (by unfold creditEntry; simp)

@[simp] theorem afterCredits_frame (s : State) (p : Nat) (h : [.ports, .tally, .events, .mgmt, .free] ⊆ ps) :
    SameBut ps z (afterCredits s p) ↔ SameBut ps z s :=
  SameBut.frame h (by unfold afterCredits; simp)

@[simp] theorem doCred_frame (s : State) (p : Nat) (h : [.ports, .tally, .events, .mgmt, .free] ⊆ ps) :
    SameBut ps z (doCred s p) ↔ SameBut ps z s :=
  SameBut.frame h (by unfold doCred; split <;> simp)

@[simp] theorem overrun_frame (s : State) (p : Nat) (h : [.ports, .events, .mgmt, .free] ⊆ ps) :
    SameBut ps z (overrun s p) ↔ SameBut ps z s :=
  SameBut.frame h (by unfold overrun; simp)

@[simp] theorem takeCredit_frame (s : State) (p c : Nat) (h : [.ports] ⊆ ps) (k : SameBut ps z s) : OptBut ps z (takeCredit s p c) :=
  OptBut.frame h k (by dsimp only [takeCredit]; split <;> simp)

theorem takeCredit_some {s u : State} {p c : Nat} (e : takeCredit s p c = some u) (h : [.ports] ⊆ ps) : SameBut ps s u :=
  (takeCredit_frame s p c h (SameBut.refl ps s)).some_same u e

@[simp] theorem pushIngress_frame (s : State) (p k : Nat) (xs : List Slot) (h : [.ports] ⊆ ps) :
    SameBut ps z (pushIngress s p k xs) ↔ SameBut ps z s :=
  SameBut.frame h (by unfold pushIngress; simp)

@[simp] theorem intake_frame (s : State) (p : Nat) (xs : List Slot) (h : [.update, .ports, .tally, .events, .mgmt, .free] ⊆ ps) :
    SameBut ps z (intake s p xs) ↔ SameBut ps z s :=
  SameBut.frame h (by unfold intake; simp)

@[simp] theorem refuseSrch_frame (s : State) (p : Nat) (x : Slot) (h : [.ports, .tally, .events, .mgmt, .free] ⊆ ps) :
    SameBut ps z (refuseSrch s p x) ↔ SameBut ps z s :=
  SameBut.frame h (by unfold refuseSrch; simp)

@[simp] theorem refuseFwd_frame (s : State) (p : Nat) (xs : List Slot) (h : [.ports, .tally, .events, .mgmt, .free] ⊆ ps) :
    SameBut ps z (refuseFwd s p xs) ↔ SameBut ps z s :=
  SameBut.frame h (by unfold refuseFwd; simp)

@[simp] theorem refuseProbe_frame (s : State) (p : Nat) (x : Slot) (h : [.ports, .tally, .events, .mgmt, .free] ⊆ ps) :
    SameBut ps z (refuseProbe s p x) ↔ SameBut ps z s :=
  SameBut.frame h (by unfold refuseProbe; simp)

@[simp] theorem dropRecordSlots_frame (s : State) (p c : Nat) (x : Slot) (part : List Slot) (set : List Slot → Port → Port) (h : [.ports, .tally, .events, .free] ⊆ ps) :
    SameBut ps z (dropRecordSlots s p c x part set) ↔ SameBut ps z s :=
  SameBut.frame h (by unfold dropRecordSlots; simp)

theorem recordSlot_frame {s : State} {p c : Nat} {x : Slot} {part : Port → List Slot} {set : List Slot → Port → Port}
    {whole : State → List Slot → State} (h : [.ports, .tally, .events, .mgmt, .free] ⊆ ps) (hw : ∀ u xs, SameBut ps u (whole u xs)) :
    SameBut ps z (recordSlot s p c x part set whole) ↔ SameBut ps z s := by
  simp only [List.cons_subset] at h
  dsimp only [recordSlot]
  split
  · simp [h]
  · rename_i u e
    rw [← SameBut.into (takeCredit_some e (by simp [h]))]
    (repeat' split) <;> simp [h, SameBut.into (hw _ _)]

@[simp] theorem psnSlot_frame (s : State) (p : Nat) (relayed : Bool) (x : Slot) (h : [.ports, .tally, .events, .mgmt, .free] ⊆ ps) :
    SameBut ps z (psnSlot s p relayed x) ↔ SameBut ps z s :=
  SameBut.frame h (by
    dsimp only [psnSlot]
    split
    · simp
    · rename_i e
      refine SameBut.trans ?_ (SameBut.trans (takeCredit_some e (by decide)) ?_)
      · simp
      · (repeat' split) <;> simp)

@[simp] theorem takeSlot_frame (s : State) (p : Nat) (x : Slot) (h : [.update, .ports, .tally, .events, .mgmt, .free] ⊆ ps) :
    SameBut ps z (takeSlot s p x) ↔ SameBut ps z s :=
  SameBut.frame h (by
    have record : ∀ {c part set whole}, (∀ u xs, SameBut [.update, .ports, .tally, .events, .mgmt, .free] u (whole u xs)) → SameBut [.update, .ports, .tally, .events, .mgmt, .free] s (recordSlot s p c x part set whole) :=
      fun hw => (recordSlot_frame (by decide) hw).2 (SameBut.refl _ s)
    dsimp only [takeSlot]
    split
    · exact record (fun u xs => by simp)
    split
    · exact record (fun u xs => by simp)
    split
    · exact record (fun u xs => by split <;> simp)
    split
    · simp
    split
    · simp
    split
    · split
      · simp
      · rename_i e
        refine SameBut.trans (takeCredit_some e (by decide)) ?_
        (repeat' split) <;> simp
    · simp)

@[simp] theorem relaySlot_frame (s : State) (p dest : Nat) (x : Slot) (h : [.ports, .tally, .events, .mgmt, .free] ⊆ ps) :
    SameBut ps z (relaySlot s p dest x) ↔ SameBut ps z s :=
  SameBut.frame h (by
    dsimp only [relaySlot]
    split
    · simp
    split
    · simp
    split
    · simp
    · rename_i e
      exact SameBut.trans (takeCredit_some e (by decide)) (by simp))

@[simp] theorem flit_frame (s : State) (p : Nat) (f : BitVec 2048) (ecc : BitVec 8) (h : [.update, .ports, .tally, .events, .mgmt, .free] ⊆ ps) :
    SameBut ps z (flit s p f ecc) ↔ SameBut ps z s :=
  SameBut.frame h (by unfold flit; simp)

@[simp] theorem returnInhand_frame (s : State) (p : Nat) (h : [.life] ⊆ ps) :
    SameBut ps z (returnInhand s p) ↔ SameBut ps z s :=
  SameBut.frame h (by unfold returnInhand; simp)

@[simp] theorem closeStreams_frame (s : State) (p : Nat) (h : [.update] ⊆ ps) : SameBut ps z (closeStreams s p) ↔ SameBut ps z s :=
  SameBut.frame h (SameBut.foldl (fun u k => by simp) _ s)

@[simp] theorem requeueSent_frame (s : State) (p : Nat) (h : [.events] ⊆ ps) :
    SameBut ps z (requeueSent s p) ↔ SameBut ps z s :=
  SameBut.frame h (by unfold requeueSent; simp)

@[simp] theorem renewPort_frame (s : State) (p : Nat) (h : [.search, .update, .life, .ports, .tally, .crew, .events, .mgmt, .free] ⊆ ps) :
    SameBut ps z (renewPort s p) ↔ SameBut ps z s :=
  SameBut.frame h (by unfold renewPort; simp)

@[simp] theorem sendLinks_frame (s : State) (h : [.ports] ⊆ ps) :
    SameBut ps z (sendLinks s) ↔ SameBut ps z s :=
  SameBut.frame h (by unfold sendLinks; simp)

@[simp] theorem portReset_frame (s : State) (p trig reason : Nat) (h : [.dbg, .search, .update, .life, .ports, .tally, .crew, .events, .mgmt, .free] ⊆ ps) :
    SameBut ps z (portReset s p trig reason) ↔ SameBut ps z s :=
  SameBut.frame h (by unfold portReset; simp)

@[simp] theorem resetReq_frame (s : State) (p : Nat) (h : [.dbg, .search, .update, .life, .ports, .tally, .crew, .events, .mgmt, .free] ⊆ ps) :
    SameBut ps z (resetReq s p) ↔ SameBut ps z s :=
  SameBut.frame h (by unfold resetReq; split <;> simp)

@[simp] theorem trainFail_frame (s : State) (p : Nat) (h : [.ports, .events, .free] ⊆ ps) :
    SameBut ps z (trainFail s p) ↔ SameBut ps z s :=
  SameBut.frame h (by unfold trainFail; simp)

@[simp] theorem repairLanes_frame (s : State) (p : Nat) (tx rx : List (Fin 64)) (h : [.ports, .mgmt] ⊆ ps) :
    SameBut ps z (repairLanes s p tx rx) ↔ SameBut ps z s :=
  SameBut.frame h (by unfold repairLanes; simp)

@[simp] theorem trained_frame (s : State) (p : Nat) (rate : BitVec 2) (h : [.ports] ⊆ ps) :
    SameBut ps z (trained s p rate) ↔ SameBut ps z s :=
  SameBut.frame h (by unfold trained; simp)

@[simp] theorem linksFrom_frame (was : Bool) (s : State) (p : Nat) (h : [.ports] ⊆ ps) :
    SameBut ps z (linksFrom was s p) ↔ SameBut ps z s :=
  SameBut.frame h (by unfold linksFrom; simp)

@[simp] theorem linkTrained_frame (s : State) (p : Nat) (rate : BitVec 2) (tx rx : List (Fin 64)) (h : [.ports, .tally, .events, .mgmt, .free] ⊆ ps) :
    SameBut ps z (linkTrained s p rate tx rx) ↔ SameBut ps z s :=
  SameBut.frame h (by unfold linkTrained; simp)

@[simp] theorem portUp_frame (s : State) (p : Nat) (h : [.ports, .events, .free] ⊆ ps) :
    SameBut ps z (portUp s p) ↔ SameBut ps z s :=
  SameBut.frame h (by unfold portUp; simp)

@[simp] theorem hello_frame (s : State) (p : Nat) (h : [.dbg, .search, .update, .life, .ports, .tally, .crew, .events, .mgmt, .free] ⊆ ps) :
    SameBut ps z (hello s p) ↔ SameBut ps z s :=
  SameBut.frame h (by unfold hello; split <;> simp)

@[simp] theorem sendEvt_frame (s : State) (p : Nat) (bad : Bool) (h : [.ports, .events] ⊆ ps) :
    SameBut ps z (sendEvt s p bad) ↔ SameBut ps z s :=
  SameBut.frame h (by dsimp only [sendEvt]; split <;> simp)

@[simp] theorem laneProgress_frame (s : State) (p i : Nat) (h : [.waitos] ⊆ ps) :
    SameBut ps z (laneProgress s p i) ↔ SameBut ps z s :=
  SameBut.frame h (by unfold laneProgress; split <;> simp)

@[simp] theorem laneTaken_frame (s : State) (h : [.waitos] ⊆ ps) :
    SameBut ps z (laneTaken s) ↔ SameBut ps z s :=
  SameBut.frame h (by unfold laneTaken; split <;> simp)

@[simp] theorem laneShift_frame (s : State) (p lane : Nat) (rx : Bool) (h : [.ports, .waitos, .mgmt] ⊆ ps) :
    SameBut ps z (laneShift s p lane rx) ↔ SameBut ps z s :=
  SameBut.frame h (by dsimp only [laneShift]; (repeat' split) <;> simp)

@[simp] theorem laneAck_frame (s : State) (p : Nat) (h : [.ports, .waitos, .mgmt] ⊆ ps) :
    SameBut ps z (laneAck s p) ↔ SameBut ps z s :=
  SameBut.frame h (by unfold laneAck; split <;> simp)

@[simp] theorem laneTimeout_frame (s : State) (p : Nat) (h : [.ports] ⊆ ps) :
    SameBut ps z (laneTimeout s p) ↔ SameBut ps z s :=
  SameBut.frame h (by unfold laneTimeout; split <;> simp)

@[simp] theorem laneCalibrated_frame (s : State) (p : Nat) (margin : BitVec 8) (h : [.ports, .waitos, .events, .mgmt, .free] ⊆ ps) :
    SameBut ps z (laneCalibrated s p margin) ↔ SameBut ps z s :=
  SameBut.frame h (by unfold laneCalibrated; split <;> simp)

end Sys2Proof.Machine
end

section
/-! ## Frames: EntryCmds
What the operations of the model's file EntryCmds leave unchanged. -/

namespace Sys2Proof.Machine

open Sys2Proof

variable {ps : List Part} {z : State}

@[simp] theorem raiseBaste_frame (s : State) (l : List (Nat × Nat)) (h : [.sram, .integ, .events, .mgmt, .free] ⊆ ps) :
    SameBut ps z (raiseBaste s l) ↔ SameBut ps z s :=
  SameBut.frame h (by unfold raiseBaste; simp)

@[simp] theorem foundAt_frame (s : State) (ls : List Loc) (tag : Nat) (x : Ran) (k : RanKeeps ps z x) : RanKeeps ps z (foundAt s ls tag x) := by
  dsimp only [foundAt]
  split
  · exact k
  · exact k

@[simp] theorem issueLinks_frame (s : State) (t : Nat) (rows : List Nat) (h : [.sram, .update, .ports, .tally, .journal, .integ, .events, .mgmt, .free] ⊆ ps) :
    SameBut ps z (issueLinks s t rows) ↔ SameBut ps z s :=
  SameBut.frame h (by unfold issueLinks; simp)

@[simp] theorem refuseWord_frame (s : State) (t : Nat) (new : Option Nat) (st : Status) (h : [.sram, .integ, .events, .mgmt, .free] ⊆ ps) :
    RanKeeps ps z (refuseWord s t new st) ↔ SameBut ps z s := by
  simp only [List.cons_subset] at h
  unfold refuseWord
  simp [h]

@[simp] theorem linkInc_frame (s : State) (t : Nat) (old new : Option Nat) (h : [.sram, .integ, .events, .mgmt, .free] ⊆ ps) :
    SameBut ps z (linkInc s t old new) ↔ SameBut ps z s :=
  SameBut.frame h (by unfold linkInc; split <;> simp)

theorem admitFor_frame {s : State} {e t : Nat} {groups : List (List JRec)} {f : State → Ran} (h : [.mgmt] ⊆ ps)
    (hf : ∀ u, RanKeeps ps u (f u)) : RanKeeps ps s (admitFor s e t groups f) := by
  dsimp only [admitFor]
  split
  · exact RanKeeps.frame (List.Subset.refl ps) ((jAdmit_same s groups).mono h) (hf _)
  · split
    · exact (ended_frame _ _ _ h).2 ((jAdmit_same s groups).mono h)
    · trivial

theorem afterMoves_frame {s : State} {e t : Nat} {l : List Plan} {f : State → Nat → Ran}
    (h : [.tcam, .marker, .sram, .update, .ports, .tally, .journal, .integ, .events, .mgmt, .free] ⊆ ps) (hf : ∀ u n, RanKeeps ps u (f u n)) : RanKeeps ps s (afterMoves s e t l f) := by
  have k := relocateAll_same e t (planMoves l) 0 s
  simp only [List.cons_subset] at h
  dsimp only [afterMoves]
  split
  · simp [h]
  · split <;> rename_i q <;> rw [q] at k
    · exact RanKeeps.frame (List.Subset.refl ps) (k.mono (by simp [h])) (hf _ _)
    · trivial
    · exact k.mono (by simp [h])

@[simp] theorem rewriteGated_frame (s : State) (e t : Nat) (care val : BitVec 192) (tag : Nat) (res : Word) (lm : List Loc) (l : List Plan)
    (old new : Option Nat) (recs : List JRec) (rsp : TRsp) (h : [.tcam, .marker, .sram, .journal, .integ, .events, .mgmt, .free] ⊆ ps) (k : SameBut ps z s) :
    RanKeeps ps z (rewriteGated s e t care val tag res lm l old new recs rsp) :=
  RanKeeps.frame h k (by dsimp only [rewriteGated]; (repeat' split) <;> simp)

@[simp] theorem rewritePlain_frame (s : State) (e t : Nat) (res : Word) (ls : List Loc) (l0 : Loc) (old new : Option Nat) (recs : List JRec)
    (rsp : TRsp) (h : [.sram, .update, .ports, .tally, .journal, .integ, .events, .mgmt, .free] ⊆ ps) (k : SameBut ps z s) : RanKeeps ps z (rewritePlain s e t res ls l0 old new recs rsp) :=
  RanKeeps.frame h k (admitFor_frame (by decide) (fun u => by simp))

theorem soundLinks_frame {s : State} {t : Nat} {rows : List Nat} {f : State → Ran} (h : [.sram, .integ, .events, .mgmt, .free] ⊆ ps)
    (hf : ∀ u, RanKeeps ps u (f u)) : RanKeeps ps s (soundLinks s t rows f) := by
  unfold soundLinks
  split
  · exact RanKeeps.frame h (SameBut.refl ps s) (by simp)
  · exact hf s

theorem rewriteWord_frame {s : State} {t : Nat} {res : Word} {l0 : Loc} {f : State → Word → Option Nat → Option Nat → Ran}
    (h : [.sram, .update, .ports, .tally, .journal, .integ, .events, .mgmt, .free] ⊆ ps) (hf : ∀ u w old new, RanKeeps ps u (f u w old new)) : RanKeeps ps s (rewriteWord s t res l0 f) := by
  have touched : SameBut ps s (touchQ s (resKey s l0)) := (touchQ_same ..).mono (List.Subset.trans (by decide) h)
  dsimp only [rewriteWord]
  split
  · exact (ended_frame _ _ _ (List.Subset.trans (by decide) h)).2 touched
  have issued : ∀ rows, SameBut ps s (issueLinks (touchQ s (resKey s l0)) t rows) := fun rows =>
    (issueLinks_frame _ _ _ (List.Subset.trans (by decide) h)).2 touched
  split
  · trivial
  split
  · exact (refuseWord_frame _ _ _ _ (List.Subset.trans (by decide) h)).2 (issued _)
  · exact RanKeeps.frame (List.Subset.refl ps) (issued _) (soundLinks_frame (List.Subset.trans (by decide) h) (fun u => hf u _ _ _))

@[simp] theorem rewrite_frame (s : State) (e t : Nat) (care val : BitVec 192) (tag : Nat) (res : Word) (ls : List Loc) (ex : Extra)
    (ins nochain : Bool) (h : [.tcam, .marker, .sram, .update, .ports, .tally, .journal, .integ, .events, .mgmt, .free] ⊆ ps) (k : SameBut ps z s) : RanKeeps ps z (rewrite s e t care val tag res ls ex ins nochain) :=
  RanKeeps.frame h k (by
    dsimp only [rewrite]
    split
    · simp
    · refine rewriteWord_frame (by decide) (fun u w old new => ?_)
      split
      · split
        · simp
        · exact admitFor_frame (by decide) (fun v => afterMoves_frame (by decide) (fun x n => by simp))
      · simp)

@[simp] theorem overwrite_frame (s : State) (e t : Nat) (care val : BitVec 192) (tag : Nat) (res : Word) (ls : List Loc) (l0 : Loc)
    (h : [.tcam, .marker, .sram, .update, .ports, .tally, .journal, .integ, .events, .mgmt, .free] ⊆ ps) (k : SameBut ps z s) : RanKeeps ps z (overwrite s e t care val tag res ls l0) :=
  RanKeeps.frame h k (by
    dsimp only [overwrite]
    refine rewriteWord_frame (by decide) (fun u w old new => ?_)
    split
    · split
      · simp
      · split
        · simp
        · exact admitFor_frame (by decide) (fun v => by simp)
    · exact admitFor_frame (by decide) (fun v => by simp))

@[simp] theorem noteRefused_frame (s : State) (t : Nat) (ds : List Nat) (h : [.marker, .mgmt] ⊆ ps) :
    SameBut ps z (noteRefused s t ds) ↔ SameBut ps z s :=
  SameBut.frame h (by unfold noteRefused; split <;> simp)

@[simp] theorem install_frame (s : State) (e t : Nat) (care val : BitVec 192) (tag : Nat) (res : Word) (ds : List Nat) (l : List Plan) (ex : Extra)
    (h : [.tcam, .marker, .sram, .update, .ports, .tally, .journal, .integ, .events, .mgmt, .free] ⊆ ps) (k : SameBut ps z s) : RanKeeps ps z (install s e t care val tag res ds l ex) :=
  RanKeeps.frame h k (by
    dsimp only [install]
    split
    · simp
    · refine admitFor_frame (by decide) (fun u => afterMoves_frame (by decide) (fun v n => ?_))
      split
      · split <;> simp
      · simp)

@[simp] theorem countOf_frame (t : Nat) (ds : List Nat) (st : Status) (s : State) (h : [.marker, .mgmt] ⊆ ps) :
    SameBut ps z (countOf t ds st s) ↔ SameBut ps z s :=
  SameBut.frame h (by unfold countOf; simp)

@[simp] theorem countInsert_frame (t : Nat) (ds : List Nat) (x : Ran) (h : [.marker, .mgmt] ⊆ ps) (k : RanKeeps ps z x) : RanKeeps ps z (countInsert t ds x) := by
  simp only [List.cons_subset] at h
  unfold countInsert
  split
  · rw [RanKeeps.ends_iff] at k ⊢
    simpa [h] using k
  · exact k

@[simp] theorem insertExisting_frame (s : State) (e t : Nat) (care val : BitVec 192) (tag : Nat) (res : Word) (replace nochain : Bool)
    (ds : List Nat) (ls : List Loc) (ex : Extra) (h : [.tcam, .marker, .sram, .update, .ports, .tally, .journal, .integ, .events, .mgmt, .free] ⊆ ps) (k : SameBut ps z s) :
    RanKeeps ps z (insertExisting s e t care val tag res replace nochain ds ls ex) :=
  RanKeeps.frame h k (by
    dsimp only [insertExisting]
    split
    · have r : RanKeeps [.tcam, .marker, .sram, .update, .ports, .tally, .journal, .integ, .events, .mgmt, .free] s (foundAt s ls tag (rewrite s e t care val tag res ls { ex with recs := ex.recs.take 1, pre := [] } true nochain)) :=
        foundAt_frame _ _ _ _ (by simp)
      split
      · rename_i q
        rw [q, RanKeeps.ends_iff] at r
        simp [SameBut.into r]
      · exact r
    · simp)

@[simp] theorem insertEntry_frame (s : State) (e t : Nat) (care val : BitVec 192) (tag : Nat) (res : Word) (replace nochain : Bool)
    (ex : Extra) (h : [.tcam, .marker, .sram, .update, .ports, .tally, .journal, .integ, .events, .mgmt, .free] ⊆ ps) (k : SameBut ps z s) : RanKeeps ps z (insertEntry s e t care val tag res replace nochain ex) :=
  RanKeeps.frame h k (by
    have found : ∀ u ds, SameBut [.tcam, .marker, .sram, .update, .ports, .tally, .journal, .integ, .events, .mgmt, .free] s (findEntry (issueLinks s t u) t care val tag ds).2 := fun u ds => by simp
    dsimp only [insertEntry]
    split <;> rename_i q
    · have f := found (linkRow s t res).toList (dirsFor s t care val)
      rw [q] at f
      exact insertExisting_frame _ _ _ _ _ _ _ _ _ _ _ _ (by decide) f
    · have f := found (linkRow s t res).toList (dirsFor s t care val)
      rw [q] at f
      split
      · simp
      · refine countInsert_frame _ _ _ (by decide) ?_
        split
        · exact (refuseWord_frame _ _ _ _ (by decide)).2 f
        · split
          · exact (ended_frame _ _ _ (by decide)).2 f
          · exact install_frame _ _ _ _ _ _ _ _ _ _ (by decide) f)

@[simp] theorem remove_frame (s : State) (e t : Nat) (ls : List Loc) (dii : Bool) (c : TCmd) (ex : Extra) (h : [.tcam, .marker, .sram, .update, .ports, .tally, .journal, .integ, .events, .mgmt, .free] ⊆ ps) (k : SameBut ps z s) :
    RanKeeps ps z (remove s e t ls dii c ex) :=
  RanKeeps.frame h k (by dsimp only [remove]; (repeat' split) <;> simp)

@[simp] theorem runInsert_frame (e : Nat) (s : State) (c : TCmd) (h : [.tcam, .marker, .sram, .update, .ports, .tally, .journal, .integ, .events, .mgmt, .free] ⊆ ps) (k : SameBut ps z s) : RanKeeps ps z (runInsert e s c) :=
  RanKeeps.frame h k (by unfold runInsert; split <;> simp)

@[simp] theorem runDelete_frame (dii : Bool) (e : Nat) (s : State) (c : TCmd) (h : [.tcam, .marker, .sram, .update, .ports, .tally, .journal, .integ, .events, .mgmt, .free] ⊆ ps) (k : SameBut ps z s) :
    RanKeeps ps z (runDelete dii e s c) :=
  RanKeeps.frame h k (by
    dsimp only [runDelete]
    split
    · simp
    · exact foundAt_frame _ _ _ _ (by simp))

@[simp] theorem writeByAddr_frame (s : State) (e : Nat) (c : TCmd) (h : [.tcam, .marker, .sram, .update, .ports, .tally, .journal, .integ, .events, .mgmt, .free] ⊆ ps) (k : SameBut ps z s) : RanKeeps ps z (writeByAddr s e c) :=
  RanKeeps.frame h k (by
    unfold writeByAddr
    extract_lets t w care val tag ds new u
    have issued : SameBut [.tcam, .marker, .sram, .update, .ports, .tally, .journal, .integ, .events, .mgmt, .free] s u := by simp [u]
    cases locateBank s t (cAddr c / 4096) with
    | none => simp
    | some x =>
      refine RanKeeps.of_ite (by simp) (RanKeeps.of_ite (foundAt_frame _ _ _ _ (by simp)) (RanKeeps.of_ite (by simp) (RanKeeps.of_ite trivial ?_)))
      (repeat' split) <;> simp [issued])

@[simp] theorem runWrite_frame (e : Nat) (s : State) (c : TCmd) (h : [.tcam, .marker, .sram, .update, .ports, .tally, .journal, .integ, .events, .mgmt, .free] ⊆ ps) (k : SameBut ps z s) : RanKeeps ps z (runWrite e s c) :=
  RanKeeps.frame h k (by
    dsimp only [runWrite]
    split
    · simp
    split
    · exact foundAt_frame _ _ _ _ (by simp)
    · simp)

@[simp] theorem readEntry_frame (s : State) (t b : Nat) (l : Loc) (h : [.sram, .integ, .events, .mgmt, .free] ⊆ ps) (k : SameBut ps z s) : RanKeeps ps z (readEntry s t b l) :=
  RanKeeps.frame h k (by dsimp only [readEntry]; (repeat' split) <;> simp)

@[simp] theorem runRead_frame (s : State) (c : TCmd) (h : [.tcam, .sram, .integ, .events, .mgmt, .free] ⊆ ps) (k : SameBut ps z s) : RanKeeps ps z (runRead s c) :=
  RanKeeps.frame h k (by
    have found := findEntry_same s (cTable c) (cMask s c) (cKey s c) (cPlen c) (dirsFor s (cTable c) (cMask s c) (cKey s c))
    dsimp only [runRead]
    split
    · simp
    split
    · split <;> rename_i q <;> rw [q] at found
      · exact (ended_frame _ _ _ (by decide)).2 (found.mono (by decide))
      · exact readEntry_frame _ _ _ _ (by decide) (found.mono (by decide))
    · split <;> simp)

@[simp] theorem runHsweep_frame (s : State) (c : TCmd) (h : [.tcam] ⊆ ps) (k : SameBut ps z s) : RanKeeps ps z (runHsweep s c) :=
  RanKeeps.frame h k (by
    dsimp only [runHsweep]
    split
    · simp
    · exact SameBut.foldl (fun u x => SameBut.foldl (fun v k => by simp) _ u) _ s)

end Sys2Proof.Machine
end

section
/-! ## Frames: IndexCmds
What the operations of the model's file IndexCmds leave unchanged. -/

namespace Sys2Proof.Machine

open Sys2Proof

variable {ps : List Part} {z : State}

@[simp] theorem composerWrite_frame (s : State) (pre : List JRec) (t row : Nat) (ws : List (Nat × Word)) (reply : Option (Via × TRsp)) (h : [.sram, .search, .journal, .mgmt] ⊆ ps) :
    SameBut ps z (composerWrite s pre t row ws reply).2 ↔ SameBut ps z s :=
  SameBut.frame h (by unfold composerWrite; simp)

@[simp] theorem readCounter_frame (s : State) (t r : Nat) (h : [.sram, .integ, .events, .mgmt, .free] ⊆ ps) (k : SameBut ps z s) : RanKeeps ps z (readCounter s t r) :=
  RanKeeps.frame h k (by dsimp only [readCounter]; split <;> simp)

@[simp] theorem runIread_frame (s : State) (c : TCmd) (h : [.sram, .integ, .events, .mgmt, .free] ⊆ ps) (k : SameBut ps z s) : RanKeeps ps z (runIread s c) :=
  RanKeeps.frame h k (by dsimp only [runIread]; (repeat' split) <;> simp)

@[simp] theorem mergeRow_frame (s : State) (t r : Nat) (ws : List (Nat × Word)) (h : [.sram, .update, .ports, .tally, .journal, .integ, .events, .mgmt, .free] ⊆ ps) : SameBut ps z (mergeRow s t r ws) ↔ SameBut ps z s :=
  SameBut.frame h (by
    dsimp only [mergeRow]
    refine (issueRow_frame _ _ _ (by decide)).2 (SameBut.foldl (fun u w => ?_) ws s)
    split <;> simp)

@[simp] theorem runIwrite_frame (s : State) (c : TCmd) (h : [.sram, .search, .update, .ports, .tally, .journal, .integ, .events, .mgmt, .free] ⊆ ps) (k : SameBut ps z s) : RanKeeps ps z (runIwrite s c) :=
  RanKeeps.frame h k (by dsimp only [runIwrite]; (repeat' split) <;> simp)

@[simp] theorem runIfield_frame (s : State) (c : TCmd) (h : [.sram, .search, .journal, .integ, .events, .mgmt, .free] ⊆ ps) (k : SameBut ps z s) : RanKeeps ps z (runIfield s c) :=
  RanKeeps.frame h k (by dsimp only [runIfield]; (repeat' split) <;> simp)

@[simp] theorem runIcas_frame (s : State) (c : TCmd) (h : [.sram, .search, .update, .ports, .tally, .journal, .integ, .events, .mgmt, .free] ⊆ ps) (k : SameBut ps z s) : RanKeeps ps z (runIcas s c) :=
  RanKeeps.frame h k (by dsimp only [runIcas]; (repeat' split) <;> simp)

@[simp] theorem learn_frame (s : State) (p line : Nat) (h : [.update, .events, .free] ⊆ ps) :
    SameBut ps z (learn s p line) ↔ SameBut ps z s :=
  SameBut.frame h (by unfold learn; simp)

@[simp] theorem runLearn_frame (s : State) (c : TCmd) (h : [.update, .events, .free] ⊆ ps) (k : SameBut ps z s) : RanKeeps ps z (runLearn s c) :=
  RanKeeps.frame h k (by dsimp only [runLearn]; (repeat' split) <;> simp)

@[simp] theorem rewriteCopy_frame (s : State) (key : Nat) (h : [.search] ⊆ ps) :
    SameBut ps z (rewriteCopy s key) ↔ SameBut ps z s :=
  SameBut.frame h (by unfold rewriteCopy; simp)

@[simp] theorem commitGeneration_frame (s : State) (h : [.sram, .search, .update, .ports, .tally, .events, .mgmt, .free] ⊆ ps) : SameBut ps z (commitGeneration s) ↔ SameBut ps z s :=
  SameBut.frame h (by
    dsimp only [commitGeneration]
    refine SameBut.trans ?_ (SameBut.foldl (fun u w => ?_) _ _)
    · simp
    · split <;> simp)

end Sys2Proof.Machine
end

section
/-! ## Frames: BankCmds
What the operations of the model's file BankCmds leave unchanged. -/

namespace Sys2Proof.Machine

open Sys2Proof

variable {ps : List Part} {z : State}

@[simp] theorem setRepoint_frame (s : State) (e : Nat) (x : Option Repoint) (h : [.update] ⊆ ps) :
    SameBut ps z (setRepoint s e x) ↔ SameBut ps z s :=
  SameBut.frame h (by unfold setRepoint; simp)

@[simp] theorem placeCursor_frame (s : State) (x : Repoint) (h : [.journal] ⊆ ps) :
    SameBut ps z (placeCursor s x).1 ↔ SameBut ps z s :=
  SameBut.frame h (by unfold placeCursor; split <;> simp)

@[simp] theorem rpEnd_frame (s : State) (e : Nat) (x : Repoint) (r : TRsp) (h : [.update, .ports, .tally, .events, .mgmt, .free] ⊆ ps) :
    SameBut ps z (rpEnd s e x r) ↔ SameBut ps z s :=
  SameBut.frame h (by unfold rpEnd; simp)

@[simp] theorem rpHold_frame (s : State) (e : Nat) (c : TCmd) (need : List Nat) (h : [.update] ⊆ ps) :
    SameBut ps z (rpHold s e c need) ↔ SameBut ps z s :=
  SameBut.frame h (by unfold rpHold; simp)

@[simp] theorem rpWrite_frame {s : State} {e : Nat} {x : Repoint} {en : Entry} {old : Word} {r : Ran} (q : rpWrite s e x en old = some r)
    (h : [.tcam, .marker, .sram, .update, .ports, .tally, .journal, .integ, .events, .mgmt, .free] ⊆ ps) (k : SameBut ps z s) : RanKeeps ps z r :=
  RanKeeps.frame h k (by
    have found := findEntry_same (setRepoint s e none) (rpSpec x.cmd).table en.care en.val en.side.tag.toNat
      (dirsFor s (rpSpec x.cmd).table en.care en.val)
    unfold rpWrite at q
    dsimp only at q
    split at q <;> rename_i p
    · cases q
    · cases q
      rw [p] at found
      exact rewrite_frame _ _ _ _ _ _ _ _ _ _ _ (by decide) (SameBut.trans (by simp) (found.mono (by decide))))

@[simp] theorem rpDone_frame (s1 : State) (e : Nat) (x : Repoint) (l : Loc) (here : Nat) (r : TRsp) (h : [.update, .journal, .mgmt] ⊆ ps) :
    SameBut ps z (rpDone s1 e x l here r).1 ↔ SameBut ps z s1 :=
  SameBut.frame h (by dsimp only [rpDone]; (repeat' split) <;> simp)

theorem rpAfter_frame {s : State} {e : Nat} {x : Repoint} {l : Loc} {en : Entry} {need : List Nat} {w : Option Ran}
    (h : [.update, .journal, .mgmt] ⊆ ps) (hw : ∀ r, w = some r → RanKeeps ps s r) : SameBut ps s (rpAfter s e x l en need w).1 := by
  simp only [List.cons_subset] at h
  dsimp only [rpAfter]
  split
  · simp [h]
  · simp [h]
  · simp [h, SameBut.into (RanKeeps.stays_iff.1 (hw _ rfl))]
  · simp [h, SameBut.into (RanKeeps.ends_iff.1 (hw _ rfl))]

@[simp] theorem rpVisit_frame (s : State) (e : Nat) (x : Repoint) (l : Loc) (en : Entry) (h : [.tcam, .marker, .sram, .update, .ports, .tally, .journal, .integ, .events, .mgmt, .free] ⊆ ps) :
    SameBut ps z (rpVisit s e x l en).1 ↔ SameBut ps z s :=
  SameBut.frame h (by
    have touched : SameBut [.tcam, .marker, .sram, .update, .ports, .tally, .journal, .integ, .events, .mgmt, .free] s (touch s (resKey s l)) := by simp
    dsimp only [rpVisit]
    split
    · simp
    split
    · simp
    split
    · simp
    split
    · exact SameBut.trans (by simp) (rpAfter_frame (by decide) (fun r q => rpWrite_frame q (by decide) (SameBut.refl _ _)))
    · exact touched.trans (rpAfter_frame (by decide) (fun r q => rpWrite_frame q (by decide) (SameBut.refl _ _))))

@[simp] theorem rpRun_frame (e n : Nat) (s : State) (x : Repoint) (h : [.tcam, .marker, .sram, .update, .ports, .tally, .journal, .integ, .events, .mgmt, .free] ⊆ ps) : SameBut ps z (rpRun e n s x) ↔ SameBut ps z s :=
  SameBut.frame h (by
    induction n generalizing s x with
    | zero => simp [rpRun]
    | succ n ih =>
      unfold rpRun
      split
      · simp
      · rename_i l en _
        have v : SameBut [.tcam, .marker, .sram, .update, .ports, .tally, .journal, .integ, .events, .mgmt, .free] s (rpVisit s e x l en).1 := by simp
        split <;> rename_i q <;> rw [q] at v
        · simpa using v
        · exact v.trans (ih _ _)
        · refine v.trans ?_
          simp)

@[simp] theorem rpTake_frame (s : State) (e : Nat) (c : TCmd) (h : [.update] ⊆ ps) (k : SameBut ps z s) : OptBut ps z (rpTake s e c) :=
  OptBut.frame h k (by unfold rpTake; (repeat' split) <;> simp)

theorem rpStep_frame {s : State} {e opc budget : Nat} {check : State → TCmd → Option Status × State} {first : State → TCmd → List JRec}
    (h : [.tcam, .marker, .sram, .update, .ports, .tally, .journal, .integ, .events, .mgmt, .free] ⊆ ps) (hc : ∀ u c, SameBut ps u (check u c).2) : SameBut ps z (rpStep s e opc budget check first) ↔ SameBut ps z s := by
  have taken : ∀ {u v c}, rpTake u e c = some v → SameBut ps u v := fun {u v c} q =>
    (rpTake_frame u e c (List.Subset.trans (by decide) h) (SameBut.refl ps u)).some_same v q
  simp only [List.cons_subset] at h
  dsimp only [rpStep]
  split
  · rfl
  · rename_i c _
    generalize hu : (if c.issuer < 8 then serveRepairs s e else s) = u
    have served : SameBut ps s u := by subst hu; simp [h]
    rw [← SameBut.into served]
    split
    · rfl
    split
    · simp [h]
    · rename_i q _
      rw [← SameBut.into (taken q)]
      simp [h]
    · rename_i v q _
      have checked := hc v c
      rw [← SameBut.into (taken q)]
      split <;> rename_i p <;> rw [p] at checked
      · (repeat' split) <;> simp [h, SameBut.into checked]
      · (repeat' split) <;> simp [h, SameBut.into checked]

@[simp] theorem rpCheck_frame (s : State) (c : TCmd) :
    SameBut ps z (rpCheck s c).2 ↔ SameBut ps z s :=
  SameBut.frame (List.nil_subset ps) (by unfold rpCheck; simp)

@[simp] theorem mirrorOn_frame (s : State) (c : Clone) (h : [.tcam] ⊆ ps) :
    SameBut ps z (mirrorOn s c) ↔ SameBut ps z s :=
  SameBut.frame h (by unfold mirrorOn; simp)

@[simp] theorem startClone_frame (s : State) (e : Nat) (c : Option TCmd) (src dst : Nat) (copy : Bool) (h : [.tcam, .update, .journal, .mgmt] ⊆ ps) :
    SameBut ps z (startClone s e c src dst copy) ↔ SameBut ps z s :=
  SameBut.frame h (by unfold startClone; simp)

@[simp] theorem copyRows_frame (s : State) (a b lo hi : Nat) (h : [.tcam] ⊆ ps) :
    SameBut ps z (copyRows s a b lo hi) ↔ SameBut ps z s :=
  SameBut.frame h (by unfold copyRows; simp)

@[simp] theorem copySlots_frame (s : State) (t a b lo hi : Nat) (h : [.sram, .integ, .events, .mgmt, .free] ⊆ ps) :
    SameBut ps z (copySlots s t a b lo hi) ↔ SameBut ps z s :=
  SameBut.frame h (by unfold copySlots; simp)

@[simp] theorem cloneCursors_frame (s : State) (c : Clone) (hi : Nat) (h : [.journal] ⊆ ps) :
    SameBut ps z (cloneCursors s c hi) ↔ SameBut ps z s :=
  SameBut.frame h (by unfold cloneCursors; simp)

@[simp] theorem advanceClone_frame (s : State) (e : Nat) (h : [.tcam, .sram, .update, .journal, .integ, .events, .mgmt, .free] ⊆ ps) :
    SameBut ps z (advanceClone s e) ↔ SameBut ps z s :=
  SameBut.frame h (by unfold advanceClone; split <;> simp)

@[simp] theorem runClone_frame (e : Nat) (s : State) (c : TCmd) (h : [.tcam, .sram, .update, .journal, .integ, .events, .mgmt, .free] ⊆ ps) (k : SameBut ps z s) : RanKeeps ps z (runClone e s c) :=
  RanKeeps.frame h k (by dsimp only [runClone]; (repeat' split) <;> simp)

@[simp] theorem dropMirror_frame (s : State) (dst : Nat) (h : [.tcam] ⊆ ps) :
    SameBut ps z (dropMirror s dst) ↔ SameBut ps z s :=
  SameBut.frame h (by unfold dropMirror; simp)

@[simp] theorem clearSite_frame (s : State) (site : Nat) (h : [.tcam] ⊆ ps) :
    SameBut ps z (clearSite s site) ↔ SameBut ps z s :=
  SameBut.frame h (by unfold clearSite; simp)

@[simp] theorem setBankTable_frame (s : State) (b : Nat) (t : Option Nat) (h : [.tcam] ⊆ ps) :
    SameBut ps z (setBankTable s b t) ↔ SameBut ps z s :=
  SameBut.frame h (by unfold setBankTable; simp)

@[simp] theorem carrySiteH_frame (s : State) (a b : Nat) (h : [.tcam] ⊆ ps) :
    SameBut ps z (carrySiteH s a b) ↔ SameBut ps z s :=
  SameBut.frame h (by unfold carrySiteH; simp)

@[simp] theorem endClone_frame (s : State) (t src dst : Nat) (copy : Bool) (h : [.tcam, .journal, .mgmt] ⊆ ps) :
    SameBut ps z (endClone s t src dst copy) ↔ SameBut ps z s :=
  SameBut.frame h (by unfold endClone; simp)

@[simp] theorem leaveSite_frame (s : State) (src dst : Nat) (h : [.tcam] ⊆ ps) :
    SameBut ps z (leaveSite s src dst) ↔ SameBut ps z s :=
  SameBut.frame h (by unfold leaveSite; simp)

@[simp] theorem cloneLeft_frame (s : State) (e : Nat) (c : Clone) (h : [.tcam, .update, .ports, .tally, .events, .mgmt, .free] ⊆ ps) :
    SameBut ps z (cloneLeft s e c) ↔ SameBut ps z s :=
  SameBut.frame h (by dsimp only [cloneLeft]; (repeat' split) <;> simp)

@[simp] theorem cloneComplete_frame (s : State) (e : Nat) (h : [.tcam, .sram, .update, .ports, .tally, .journal, .integ, .events, .mgmt, .free] ⊆ ps) :
    SameBut ps z (cloneComplete s e) ↔ SameBut ps z s :=
  SameBut.frame h (by dsimp only [cloneComplete]; (repeat' split) <;> simp)

@[simp] theorem retireBank_frame (s : State) (b mode : Nat) (st : BitVec 4) (h : [.tcam, .journal, .integ, .mgmt] ⊆ ps) :
    SameBut ps z (retireBank s b mode st) ↔ SameBut ps z s :=
  SameBut.frame h (by unfold retireBank; simp)

@[simp] theorem runRetire_frame (s : State) (c : TCmd) (h : [.tcam, .journal, .integ, .mgmt] ⊆ ps) (k : SameBut ps z s) : RanKeeps ps z (runRetire s c) :=
  RanKeeps.frame h k (by dsimp only [runRetire]; (repeat' split) <;> simp)

@[simp] theorem runBulkOpen_frame (e : Nat) (s : State) (c : TCmd) (h : [.update, .mgmt] ⊆ ps) (k : SameBut ps z s) : RanKeeps ps z (runBulkOpen e s c) :=
  RanKeeps.frame h k (by dsimp only [runBulkOpen]; (repeat' split) <;> simp)

@[simp] theorem runBulkClose_frame (s : State) (c : TCmd) (h : [.update] ⊆ ps) (k : SameBut ps z s) : RanKeeps ps z (runBulkClose s c) :=
  RanKeeps.frame h k (by dsimp only [runBulkClose]; (repeat' split) <;> simp)

@[simp] theorem takeBulk_frame (s : State) (p i : Nat) (h : [.ports, .tally, .events, .free] ⊆ ps) :
    SameBut ps z (takeBulk s p i) ↔ SameBut ps z s :=
  SameBut.frame h (by unfold takeBulk; simp)

@[simp] theorem holdRecord_frame (s : State) (e p k n restarts : Nat) (need : List Nat) (h : [.update] ⊆ ps) :
    SameBut ps z (holdRecord s e p k n restarts need) ↔ SameBut ps z s :=
  SameBut.frame h (by unfold holdRecord; simp)

@[simp] theorem tryRecord_frame (st : Stream) (c : TCmd) (whole : Bool) (s : State) (h : [.tcam, .marker, .sram, .update, .ports, .tally, .journal, .integ, .events, .mgmt, .free] ⊆ ps) (k : SameBut ps z s) :
    RanKeeps ps z (tryRecord st c whole s) :=
  RanKeeps.frame h k (by dsimp only [tryRecord]; (repeat' split) <;> simp)

@[simp] theorem endRecord_frame (s : State) (p i : Nat) (st : Stream) (a : Slot) (c : TCmd) (r : TRsp) (h : [.update, .ports, .tally, .events, .mgmt, .free] ⊆ ps) :
    SameBut ps z (endRecord s p i st a c r) ↔ SameBut ps z s :=
  SameBut.frame h (by unfold endRecord; simp)

@[simp] theorem heldRecord_frame (s : State) (p i restarts : Nat) (st : Stream) (a : Slot) (c : TCmd) (whole : Bool) (h : [.tcam, .marker, .sram, .update, .ports, .tally, .journal, .integ, .events, .mgmt, .free] ⊆ ps) :
    SameBut ps z (heldRecord s p i restarts st a c whole) ↔ SameBut ps z s :=
  SameBut.frame h (by
    have tried : ∀ u, RanKeeps [.tcam, .marker, .sram, .update, .ports, .tally, .journal, .integ, .events, .mgmt, .free] u (tryRecord st c whole u) := fun u => by simp
    have a1 := tried s
    have b1 := tried (settleGates s)
    dsimp only [heldRecord]
    cases x : tryRecord st c whole s with
    | wait =>
      cases y : tryRecord st c whole (settleGates s) with
      | wait => simp
      | stays t m => rw [y] at b1; simp [SameBut.into (RanKeeps.stays_iff.1 b1)]
      | ends t r => rw [y] at b1; simp [SameBut.into (RanKeeps.ends_iff.1 b1)]
    | stays t m => rw [x] at a1; simp [SameBut.into (RanKeeps.stays_iff.1 a1)]
    | ends t r => rw [x] at a1; simp [SameBut.into (RanKeeps.ends_iff.1 a1)])

@[simp] theorem runRecord_frame (s : State) (p i : Nat) (st : Stream) (r : List Slot) (h : [.tcam, .marker, .sram, .update, .ports, .tally, .journal, .integ, .events, .mgmt, .free] ⊆ ps) :
    SameBut ps z (runRecord s p i st r) ↔ SameBut ps z s :=
  SameBut.frame h (by unfold runRecord; simp)

@[simp] theorem bulkRecord_frame (s : State) (p : Nat) (h : [.tcam, .marker, .sram, .update, .ports, .tally, .journal, .integ, .events, .mgmt, .free] ⊆ ps) :
    SameBut ps z (bulkRecord s p) ↔ SameBut ps z s :=
  SameBut.frame h (by dsimp only [bulkRecord]; (repeat' split) <;> simp)

@[simp] theorem dumpOut_frame (s : State) (p k seq : Nat) (r : TRsp) (h : [.update, .ports, .tally, .events, .mgmt, .free] ⊆ ps) :
    SameBut ps z (dumpOut s p k seq r) ↔ SameBut ps z s :=
  SameBut.frame h (by unfold dumpOut; simp)

@[simp] theorem dumpEntry_frame (s : State) (p k : Nat) (h : [.sram, .update, .ports, .tally, .integ, .events, .mgmt, .free] ⊆ ps) : SameBut ps z (dumpEntry s p k) ↔ SameBut ps z s :=
  SameBut.frame h (by
    dsimp only [dumpEntry]
    split
    · simp
    split
    · split <;> simp
    · rename_i l en _
      split
      · simp
      · have r := readEntry_frame s (getStream s p k).table (primaryBank s l) l (ps := [.sram, .update, .ports, .tally, .integ, .events, .mgmt, .free]) (by decide) (SameBut.refl _ _)
        split
        · rename_i q
          rw [q, RanKeeps.ends_iff] at r
          simp [SameBut.into r]
        · simp)

end Sys2Proof.Machine
end

section
/-! ## Frames: Lifecycle
What the operations of the model's file Lifecycle leave unchanged. -/

namespace Sys2Proof.Machine

open Sys2Proof

variable {ps : List Part} {z : State}

@[simp] theorem setMigSide_frame (s : State) (r : Nat) (x : MigSide) (h : [.life] ⊆ ps) :
    SameBut ps z (setMigSide s r x) ↔ SameBut ps z s :=
  SameBut.frame h (by unfold setMigSide; simp)

@[simp] theorem setList_frame (s : State) (i : Nat) (l : List Nat) (h : [.life] ⊆ ps) :
    SameBut ps z (setList s i l) ↔ SameBut ps z s :=
  SameBut.frame h (by unfold setList; simp)

@[simp] theorem setInhand_frame (s : State) (p : Nat) (l : List (Nat × Nat)) (h : [.life] ⊆ ps) :
    SameBut ps z (setInhand s p l) ↔ SameBut ps z s :=
  SameBut.frame h (by unfold setInhand; simp)

@[simp] theorem setCondq_frame (s : State) (p : Nat) (l : List Nat) (h : [.life] ⊆ ps) :
    SameBut ps z (setCondq s p l) ↔ SameBut ps z s :=
  SameBut.frame h (by unfold setCondq; simp)

@[simp] theorem queueDirty_frame (s : State) (pa : Nat) (h : [.life] ⊆ ps) :
    SameBut ps z (queueDirty s pa) ↔ SameBut ps z s :=
  SameBut.frame h (by unfold queueDirty; simp)

@[simp] theorem unqueue_frame (s : State) (pa : Nat) (h : [.life] ⊆ ps) :
    SameBut ps z (unqueue s pa) ↔ SameBut ps z s :=
  SameBut.frame h (by unfold unqueue; simp)

@[simp] theorem dropFree_frame (s : State) (pa : Nat) (h : [.life] ⊆ ps) :
    SameBut ps z (dropFree s pa) ↔ SameBut ps z s :=
  SameBut.frame h (by unfold dropFree; simp)

@[simp] theorem bindBlock_frame (s : State) (who pa : Nat) (h : [.life] ⊆ ps) :
    SameBut ps z (bindBlock s who pa) ↔ SameBut ps z s :=
  SameBut.frame h (by unfold bindBlock; simp)

@[simp] theorem countL_frame (s : State) (i n : Nat) (h : [.mgmt] ⊆ ps) :
    SameBut ps z (countL s i n) ↔ SameBut ps z s :=
  SameBut.frame h (by unfold countL; simp)

/-- A lifecycle command is framed with what follows its writes. -/
theorem lifeRun_frame {rows : State → TCmd → List (Nat × Nat)} {perm : State → TCmd → Bool} {f : State → TCmd → LifeOut} {s : State} {c : TCmd}
    (h : [.sram, .search, .update, .ports, .tally, .journal, .integ, .events, .mgmt, .free] ⊆ ps) (hf : ∀ u, LifeKeeps ps (f u c)) : RanKeeps ps s (lifeRun rows perm f s c) := by
  simp only [List.cons_subset] at h
  dsimp only [lifeRun]
  split
  · simp
  split
  · trivial
  split
  · simp [h]
  split
  · simp [h]
  · simp [h]
  · rename_i q
    have k := (congrArg (LifeKeeps ps) q).mp (hf _)
    split
    · simp [h]
    · simp [h, SameBut.into (k _)]
  · rename_i q
    have k := (congrArg (LifeKeeps ps) q).mp (hf _)
    split
    · simp [h]
    · simp [h, SameBut.into (k _)]

theorem lifeHead_frame {s : State} {e opc : Nat} {rows : State → TCmd → List (Nat × Nat)} {perm : State → TCmd → Bool} {f : State → TCmd → LifeOut}
    (h : [.tcam, .marker, .sram, .search, .update, .ports, .tally, .journal, .integ, .events, .mgmt, .free] ⊆ ps) (hf : ∀ u c, LifeKeeps ps (f u c)) : SameBut ps z (lifeHead s e opc rows perm f) ↔ SameBut ps z s :=
  runHead_frame (List.Subset.trans (by decide) h) (fun _ c => lifeRun_frame (List.Subset.trans (by decide) h) (fun u => hf u c))

@[simp] theorem doMapBind_frame (s : State) (c : TCmd) (h : [.life, .mgmt] ⊆ ps) : LifeKeeps ps (doMapBind s c) :=
  LifeKeeps.mono h (by dsimp only [doMapBind]; (repeat' split) <;> simp)

@[simp] theorem doMapRelease_frame (s : State) (c : TCmd) (h : [.life, .mgmt] ⊆ ps) : LifeKeeps ps (doMapRelease s c) :=
  LifeKeeps.mono h (by dsimp only [doMapRelease]; (repeat' split) <;> simp)

@[simp] theorem doMapPoison_frame (s : State) (c : TCmd) (h : [.life, .mgmt] ⊆ ps) : LifeKeeps ps (doMapPoison s c) :=
  LifeKeeps.mono h (by dsimp only [doMapPoison]; (repeat' split) <;> simp)

@[simp] theorem doHeatSet_frame (s : State) (c : TCmd) : LifeKeeps ps (doHeatSet s c) := by
  dsimp only [doHeatSet]; (repeat' split) <;> simp

@[simp] theorem forgetPatches_frame (s : State) (l : Nat) (h : [.life] ⊆ ps) :
    SameBut ps z (forgetPatches s l) ↔ SameBut ps z s :=
  SameBut.frame h (by unfold forgetPatches; simp)

@[simp] theorem doMigBegin_frame (s : State) (c : TCmd) (h : [.life, .mgmt] ⊆ ps) : LifeKeeps ps (doMigBegin s c) :=
  LifeKeeps.mono h (by dsimp only [doMigBegin]; (repeat' split) <;> simp)

@[simp] theorem doMigCursor_frame (s : State) (c : TCmd) : LifeKeeps ps (doMigCursor s c) := by
  dsimp only [doMigCursor]; (repeat' split) <;> simp

@[simp] theorem doMigCopied_frame (s : State) (c : TCmd) : LifeKeeps ps (doMigCopied s c) := by
  dsimp only [doMigCopied]; (repeat' split) <;> simp

@[simp] theorem doMapSwitch_frame (s : State) (c : TCmd) (h : [.life, .mgmt] ⊆ ps) : LifeKeeps ps (doMapSwitch s c) :=
  LifeKeeps.mono h (by dsimp only [doMapSwitch]; (repeat' split) <;> simp)

@[simp] theorem doMigAbort_frame (s : State) (c : TCmd) (h : [.life, .mgmt] ⊆ ps) : LifeKeeps ps (doMigAbort s c) :=
  LifeKeeps.mono h (by dsimp only [doMigAbort]; (repeat' split) <;> simp)

@[simp] theorem doLogOpen_frame (s : State) (c : TCmd) (h : [.life] ⊆ ps) : LifeKeeps ps (doLogOpen s c) :=
  LifeKeeps.mono h (by dsimp only [doLogOpen]; (repeat' split) <;> simp)

@[simp] theorem doLogClose_frame (s : State) (c : TCmd) : LifeKeeps ps (doLogClose s c) := by
  dsimp only [doLogClose]; (repeat' split) <;> simp

@[simp] theorem doLogFree_frame (s : State) (c : TCmd) (h : [.life] ⊆ ps) : LifeKeeps ps (doLogFree s c) :=
  LifeKeeps.mono h (by dsimp only [doLogFree]; (repeat' split) <;> simp)

@[simp] theorem doConditionBegin_frame (s : State) (c : TCmd) (h : [.life] ⊆ ps) : LifeKeeps ps (doConditionBegin s c) :=
  LifeKeeps.mono h (by dsimp only [doConditionBegin]; (repeat' split) <;> simp)

@[simp] theorem doConditionDone_frame (s : State) (c : TCmd) (h : [.life, .mgmt] ⊆ ps) : LifeKeeps ps (doConditionDone s c) :=
  LifeKeeps.mono h (by dsimp only [doConditionDone]; (repeat' split) <;> simp)

@[simp] theorem doRefreshDone_frame (s : State) (c : TCmd) (h : [.mgmt] ⊆ ps) : LifeKeeps ps (doRefreshDone s c) :=
  LifeKeeps.mono h (by dsimp only [doRefreshDone]; (repeat' split) <;> simp)

@[simp] theorem doMemberFail_frame (s : State) (c : TCmd) (h : [.events, .free] ⊆ ps) : LifeKeeps ps (doMemberFail s c) :=
  LifeKeeps.mono h (by dsimp only [doMemberFail]; (repeat' split) <;> simp)

@[simp] theorem doRebuildAdvance_frame (s : State) (c : TCmd) (h : [.mgmt] ⊆ ps) : LifeKeeps ps (doRebuildAdvance s c) :=
  LifeKeeps.mono h (by dsimp only [doRebuildAdvance]; (repeat' split) <;> simp)

@[simp] theorem dropHand_frame (s : State) (pa : Nat) (h : [.life] ⊆ ps) :
    SameBut ps z (dropHand s pa) ↔ SameBut ps z s :=
  SameBut.frame h (by unfold dropHand; simp)

@[simp] theorem retireBlock_frame (s : State) (pa : Nat) (h : [.sram, .life, .mgmt] ⊆ ps) :
    SameBut ps z (retireBlock s pa) ↔ SameBut ps z s :=
  SameBut.frame h (by unfold retireBlock; simp)

@[simp] theorem retireGroup_frame (s : State) (g : Nat) (h : [.sram, .life, .journal, .mgmt] ⊆ ps) : SameBut ps z (retireGroup s g) ↔ SameBut ps z s :=
  SameBut.frame h (by
    dsimp only [retireGroup]
    split
    · simp
    · exact jChange_same (by decide) (fun u => by simp))

@[simp] theorem memberDouble_frame (s : State) (c : TCmd) (r : Ran) (h : [.sram, .life, .journal, .events, .mgmt, .free] ⊆ ps) (k : RanKeeps ps z r) : RanKeeps ps z (memberDouble s c r) := by
  simp only [List.cons_subset] at h
  unfold memberDouble
  split
  · rw [RanKeeps.ends_iff] at k
    split <;> simp [h, k]
  · exact k

@[simp] theorem patchNoted_frame (s : State) (c : TCmd) (x : Ran) (h : [.life, .mgmt] ⊆ ps) (k : RanKeeps ps z x) : RanKeeps ps z (patchNoted s c x) := by
  simp only [List.cons_subset] at h
  dsimp only [patchNoted]
  split
  · rw [RanKeeps.ends_iff] at k
    (repeat' split) <;> simp [h, k]
  · exact k

@[simp] theorem runOvlPut_frame (e : Nat) (s : State) (c : TCmd) (h : [.tcam, .marker, .sram, .update, .life, .ports, .tally, .journal, .integ, .events, .mgmt, .free] ⊆ ps) (k : SameBut ps z s) : RanKeeps ps z (runOvlPut e s c) :=
  RanKeeps.frame h k (by
    have noted : ∀ v x, RanKeeps [.tcam, .marker, .sram, .update, .life, .ports, .tally, .journal, .integ, .events, .mgmt, .free] s x → RanKeeps [.tcam, .marker, .sram, .update, .life, .ports, .tally, .journal, .integ, .events, .mgmt, .free] s (patchNoted v c x) := fun v x => patchNoted_frame v c x (by decide)
    dsimp only [runOvlPut]
    split
    · simp
    split
    · trivial
    split
    · simp
    split
    · simp
    split
    · exact noted _ _ (by simp)
    · exact noted _ _ (insertEntry_frame _ _ _ _ _ _ _ _ _ _ (by decide) (by simp)))

@[simp] theorem runOvlDrop_frame (e : Nat) (s : State) (c : TCmd) (h : [.tcam, .marker, .sram, .update, .ports, .tally, .journal, .integ, .events, .mgmt, .free] ⊆ ps) (k : SameBut ps z s) : RanKeeps ps z (runOvlDrop e s c) :=
  RanKeeps.frame h k (by
    dsimp only [runOvlDrop]
    split
    · simp
    split
    · simp
    split
    · simp
    split
    · simp
    · exact foundAt_frame _ _ _ _ (remove_frame _ _ _ _ _ _ _ (by decide) (by simp)))

@[simp] theorem logRepointCheck_frame (s : State) (c : TCmd) (h : [.sram, .integ, .events, .mgmt, .free] ⊆ ps) :
    SameBut ps z (logRepointCheck s c).2 ↔ SameBut ps z s :=
  SameBut.frame h (by dsimp only [logRepointCheck]; (repeat' split) <;> simp)

theorem refill_succ (n : Nat) (s : State) : refill (n + 1) s =
    if s.str.reserve.toNat ≤ (freeList s 16).length then s
    else
      match fullestBin s with
      | none => s
      | some i =>
        match freeList s i with
        | [] => s
        | pa :: rest => refill n (setList (setList s i rest) 16 (freeList s 16 ++ [pa])) := by
  with_unfolding_all rfl

@[simp] theorem refill_frame (n : Nat) (s : State) (h : [.life] ⊆ ps) : SameBut ps z (refill n s) ↔ SameBut ps z s :=
  SameBut.frame h (by
    induction n generalizing s with
    | zero => exact SameBut.refl _ s
    | succ n ih =>
      rw [refill_succ]
      split
      · simp
      split
      · simp
      split
      · simp
      · exact SameBut.trans (by simp) (ih _))

@[simp] theorem spareRefill_frame (s : State) (h : [.life] ⊆ ps) :
    SameBut ps z (spareRefill s) ↔ SameBut ps z s :=
  SameBut.frame h (by unfold spareRefill; simp)

@[simp] theorem scanBinf_frame (s : State) (h : [.sram, .integ, .events, .mgmt, .free] ⊆ ps) :
    SameBut ps z (scanBinf s) ↔ SameBut ps z s :=
  SameBut.frame h (by unfold scanBinf; simp)

end Sys2Proof.Machine
end

section
/-! ## Frames: Image
What the operations of the model's file Image leave unchanged. -/

namespace Sys2Proof.Machine

open Sys2Proof

variable {ps : List Part} {z : State}

@[simp] theorem flashWrite_frame (s : State) (off : Nat) (bs : List Byte) (h : [.flash] ⊆ ps) :
    SameBut ps z (flashWrite s off bs) ↔ SameBut ps z s :=
  SameBut.frame h (by unfold flashWrite; simp)

@[simp] theorem putBuffer_frame (s : State) (n f : Nat) (ws : List Word) (h : [.sram] ⊆ ps) :
    SameBut ps z (putBuffer s n f ws) ↔ SameBut ps z s :=
  SameBut.frame h (by unfold putBuffer; simp)

@[simp] theorem loadPolicy_frame (s : State) (x : Sect) (h : [.str, .events] ⊆ ps) :
    SameBut ps z (loadPolicy s x) ↔ SameBut ps z s :=
  SameBut.frame h (by unfold loadPolicy; split <;> simp)

@[simp] theorem homeDir_frame (s : State) (h : [.marker] ⊆ ps) :
    SameBut ps z (homeDir s) ↔ SameBut ps z s :=
  SameBut.frame h (by unfold homeDir; simp)

@[simp] theorem loadDir_frame (s : State) (dir : List Byte) (h : [.marker] ⊆ ps) :
    SameBut ps z (loadDir s dir) ↔ SameBut ps z s :=
  SameBut.frame h (by unfold loadDir; simp)

@[simp] theorem putList_frame (s : State) (k : Nat) (bs : List Nat) (h : [.marker] ⊆ ps) :
    SameBut ps z (putList s k bs) ↔ SameBut ps z s :=
  SameBut.frame h (by unfold putList; simp)

@[simp] theorem spreadTable_frame (s : State) (t : Nat) (h : [.marker] ⊆ ps) : SameBut ps z (spreadTable s t) ↔ SameBut ps z s :=
  SameBut.frame h (by
    dsimp only [spreadTable]
    split
    · simp
    split
    · simp
    · refine SameBut.trans ?_ (SameBut.foldl (fun u x => ?_) _ _)
      · simp
      · split
        · simp
        · split <;> simp)

@[simp] theorem spreadAll_frame (s : State) (h : [.marker] ⊆ ps) :
    SameBut ps z (spreadAll s) ↔ SameBut ps z s :=
  SameBut.frame h (by unfold spreadAll; simp)

@[simp] theorem loadStruct_frame (s : State) (ss : List Sect) (h : [.str, .tcam, .marker, .sram, .search, .events] ⊆ ps) :
    SameBut ps z (loadStruct s ss) ↔ SameBut ps z s :=
  SameBut.frame h (by unfold loadStruct; simp)

end Sys2Proof.Machine
end

section
/-! ## Frames: Store
What the operations of the model's file Store leave unchanged. -/

namespace Sys2Proof.Machine

open Sys2Proof

variable {ps : List Part} {z : State}

@[simp] theorem storeDieFail_frame (s : State) (die : Nat) (h : [.store, .events, .free] ⊆ ps) :
    SameBut ps z (storeDieFail s die) ↔ SameBut ps z s :=
  SameBut.frame h (by unfold storeDieFail; simp)

@[simp] theorem advance_frame (s : State) (pages : Nat) (h : [.store] ⊆ ps) (k : SameBut ps z s) : OptBut ps z (advance s pages) :=
  OptBut.frame h k (by dsimp only [advance]; (repeat' split) <;> simp)

theorem advance_some {s u : State} {n : Nat} (q : advance s n = some u) (h : [.store] ⊆ ps) : SameBut ps s u :=
  (advance_frame s n h (SameBut.refl ps s)).some_same u q

@[simp] theorem bandCondition_frame (s : State) (k : Nat) (h : [.store] ⊆ ps) :
    SameBut ps z (bandCondition s k) ↔ SameBut ps z s :=
  SameBut.frame h (by unfold bandCondition; simp)

@[simp] theorem movePage_frame (s : State) (n : Nat) (h : [.store] ⊆ ps) : SameBut ps z (movePage s n) ↔ SameBut ps z s :=
  SameBut.frame h (by
    dsimp only [movePage]
    split
    · simp
    · rename_i q
      exact (advance_some q (by decide)).trans (by simp))

@[simp] theorem storeBlockRetire_frame (s : State) (die block : Nat) (h : [.store, .events, .mgmt, .free] ⊆ ps) :
    SameBut ps z (storeBlockRetire s die block) ↔ SameBut ps z s :=
  SameBut.frame h (by dsimp only [storeBlockRetire]; (repeat' split) <;> simp)

@[simp] theorem writeSuper_frame (s : State) (sj : Option Word) (h : [.store] ⊆ ps) (k : SameBut ps z s) : OptBut ps z (writeSuper s sj) :=
  OptBut.frame h k (by dsimp only [writeSuper]; (repeat' split) <;> simp)

@[simp] theorem ringCondition_frame (s : State) (pair : Nat) (readBack : Bool) (h : [.store] ⊆ ps) :
    SameBut ps z (ringCondition s pair readBack) ↔ SameBut ps z s :=
  SameBut.frame h (by unfold ringCondition; simp)

@[simp] theorem conditionStore_frame (s : State) (h : [.store] ⊆ ps) :
    SameBut ps z (conditionStore s) ↔ SameBut ps z s :=
  SameBut.frame h (by unfold conditionStore; simp)

@[simp] theorem closeFrame_frame (s : State) (h : [.journal] ⊆ ps) :
    SameBut ps z (closeFrame s) ↔ SameBut ps z s :=
  SameBut.frame h (by unfold closeFrame; simp)

@[simp] theorem frameMod_frame (p : Frame → Bool) (f : Frame → Frame) (s : State) (h : [.journal] ⊆ ps) :
    SameBut ps z (frameMod p f s) ↔ SameBut ps z s :=
  SameBut.frame h (by unfold frameMod; simp)

@[simp] theorem journalDrain_frame (s : State) (h : [.journal, .store, .mgmt] ⊆ ps) : SameBut ps z (journalDrain s) ↔ SameBut ps z s :=
  SameBut.frame h (by
    dsimp only [journalDrain]
    split
    · simp
    split
    · simp
    split
    · simp
    · rename_i q
      exact (advance_some q (by decide)).trans (by simp))

@[simp] theorem beginCkpt_frame (s : State) (h : [.store] ⊆ ps) :
    SameBut ps z (beginCkpt s) ↔ SameBut ps z s :=
  SameBut.frame h (by unfold beginCkpt; simp)

theorem placePages_some {s u : State} {l : List (List (Nat × Nat))} {qs : List CkPage} (q : placePages s l = some (u, qs))
    (h : [.store] ⊆ ps) : SameBut ps s u := by
  induction l generalizing s u qs with
  | nil => simp only [placePages] at q; cases q; exact SameBut.refl ps s
  | cons x l ih =>
    simp only [placePages] at q
    split at q
    · cases q
    · rename_i q1
      split at q
      · cases q
      · rename_i q2
        cases q
        exact (advance_some q1 h).trans (ih q2)

@[simp] theorem reportFixed_frame (s : State) (keys : List Nat) (h : [.sram, .integ, .events, .mgmt, .free] ⊆ ps) :
    SameBut ps z (reportFixed s keys) ↔ SameBut ps z s :=
  SameBut.frame h (by unfold reportFixed; simp)

@[simp] theorem checkpointSegment_frame (s : State) (h : [.sram, .store, .integ, .events, .mgmt, .free] ⊆ ps) : SameBut ps z (checkpointSegment s) ↔ SameBut ps z s :=
  SameBut.frame h (by
    dsimp only [checkpointSegment]
    split
    · simp
    split
    · simp
    split
    · simp
    split
    · simp
    split
    · simp
    · rename_i q
      exact (placePages_some q (by decide)).trans (by simp))

@[simp] theorem ckptDone_frame (s : State) (c : Ckpt) (h : [.journal, .store] ⊆ ps) :
    SameBut ps z (ckptDone s c) ↔ SameBut ps z s :=
  SameBut.frame h (by unfold ckptDone; simp)

@[simp] theorem checkpointComplete_frame (s : State) (h : [.fuses, .journal, .store, .mgmt] ⊆ ps) : SameBut ps z (checkpointComplete s) ↔ SameBut ps z s :=
  SameBut.frame h (by
    dsimp only [checkpointComplete]
    split
    · simp
    split
    · simp
    split
    · simp
    · rename_i q
      split
      · simp
      · rename_i q2
        exact ((placePages_some q (by decide)).trans ((writeSuper_frame _ _ (by decide) (by simp)).some_same _ q2)).trans (by simp))

end Sys2Proof.Machine
end

section
/-! ## Frames: Restore
What the operations of the model's file Restore leave unchanged. -/

namespace Sys2Proof.Machine

open Sys2Proof

variable {ps : List Part} {z : State}

@[simp] theorem installAt_frame (s : State) (t half addr tag : Nat) (care val : BitVec 192) (res : Word) (h : [.tcam, .sram] ⊆ ps) :
    SameBut ps z (installAt s t half addr tag care val res) ↔ SameBut ps z s :=
  SameBut.frame h (by unfold installAt; simp)

@[simp] theorem removeAt_frame (s : State) (t half addr : Nat) (h : [.tcam, .sram, .integ, .events, .mgmt, .free] ⊆ ps) :
    SameBut ps z (removeAt s t half addr) ↔ SameBut ps z s :=
  SameBut.frame h (by unfold removeAt; simp)

@[simp] theorem rewriteSlot_frame (s : State) (n : Nat) (ws : List Word) (h : [.sram, .search] ⊆ ps) :
    SameBut ps z (rewriteSlot s n ws) ↔ SameBut ps z s :=
  SameBut.frame h (by unfold rewriteSlot; simp)

@[simp] theorem liveProfiles_frame (s : State) (d : List Byte) (h : [.sram, .search] ⊆ ps) :
    SameBut ps z (liveProfiles s d) ↔ SameBut ps z s :=
  SameBut.frame h (by unfold liveProfiles; simp)

@[simp] theorem liveBank_frame (s : State) (off : Nat) (d : List Byte) (h : [.tcam] ⊆ ps) :
    SameBut ps z (liveBank s off d) ↔ SameBut ps z s :=
  SameBut.frame h (by unfold liveBank; simp)

@[simp] theorem liveDir_frame (s : State) (off : Nat) (d : List Byte) (h : [.marker] ⊆ ps) :
    SameBut ps z (liveDir s off d) ↔ SameBut ps z s :=
  SameBut.frame h (by unfold liveDir; simp)

@[simp] theorem setRebal_frame (s : State) (v : List Nat) (h : [.crew] ⊆ ps) :
    SameBut ps z (setRebal s v) ↔ SameBut ps z s :=
  SameBut.frame h (by unfold setRebal; simp)

@[simp] theorem applyLive_frame (s : State) (sec off : Nat) (d : List Byte) (h : [.str, .tcam, .marker, .sram, .search, .crew, .events] ⊆ ps) :
    SameBut ps z (applyLive s sec off d) ↔ SameBut ps z s :=
  SameBut.frame h (by unfold applyLive; split <;> simp)

@[simp] theorem applySects_frame (s : State) (ss : List Sect) (h : [.str, .tcam, .marker, .sram, .search, .crew, .events] ⊆ ps) :
    SameBut ps z (applySects s ss) ↔ SameBut ps z s :=
  SameBut.frame h (by unfold applySects; simp)

@[simp] theorem finishPackage_frame (s : State) (h : [.boot, .str, .tcam, .marker, .sram, .search, .waitos, .crew, .events] ⊆ ps) :
    SameBut ps z (finishPackage s) ↔ SameBut ps z s :=
  SameBut.frame h (by unfold finishPackage; split <;> simp)

@[simp] theorem replayLife_frame (s : State) (opc : Nat) (x : Slot) (port : Nat) (fw rsrc : Bool) (bepoch : BitVec 16) (block : Nat) (h : [.life] ⊆ ps) :
    SameBut ps z (replayLife s opc x port fw rsrc bepoch block) ↔ SameBut ps z s :=
  SameBut.frame h (by unfold replayLife; simp)

@[simp] theorem takeSite_frame (s : State) (b site : Nat) (h : [.tcam] ⊆ ps) :
    SameBut ps z (takeSite s b site) ↔ SameBut ps z s :=
  SameBut.frame h (by unfold takeSite; simp)

@[simp] theorem applyRec_frame (s : State) (r : JRec) (h : [.boot, .str, .tcam, .marker, .sram, .search, .life, .integ, .crew, .events, .mgmt, .free] ⊆ ps) :
    SameBut ps z (applyRec s r) ↔ SameBut ps z s :=
  SameBut.frame h (by unfold applyRec; split <;> simp)

@[simp] theorem applyGroup_frame (s : State) (g : List JRec) (h : [.boot, .str, .tcam, .marker, .sram, .search, .life, .integ, .crew, .events, .mgmt, .free] ⊆ ps) :
    SameBut ps z (applyGroup s g) ↔ SameBut ps z s :=
  SameBut.frame h (by unfold applyGroup; simp)

@[simp] theorem replay_frame (s : State) (gs : List (Word × List JRec)) (h : [.boot, .str, .tcam, .marker, .sram, .search, .life, .integ, .crew, .events, .mgmt, .free] ⊆ ps) :
    SameBut ps z (replay s gs) ↔ SameBut ps z s :=
  SameBut.frame h (by unfold replay; simp)

@[simp] theorem resumeRepoint_frame (s : State) (addr half : Nat) (done : Bool) (first : Word) (c : TCmd) (h : [.update] ⊆ ps) :
    SameBut ps z (resumeRepoint s addr half done first c) ↔ SameBut ps z s :=
  SameBut.frame h (by unfold resumeRepoint; simp)

@[simp] theorem resumeAll_frame (s : State) (es : List JEntry) (h : [.update] ⊆ ps) : SameBut ps z (resumeAll s es) ↔ SameBut ps z s :=
  SameBut.frame h (SameBut.foldl (fun u e => by split <;> simp) es s)

@[simp] theorem rebuildComposers_frame (s : State) (h : [.sram, .search] ⊆ ps) :
    SameBut ps z (rebuildComposers s) ↔ SameBut ps z s :=
  SameBut.frame h (by unfold rebuildComposers; simp)

@[simp] theorem rebuildMirror_frame (s : State) (h : [.marker] ⊆ ps) :
    SameBut ps z (rebuildMirror s) ↔ SameBut ps z s :=
  SameBut.frame h (by unfold rebuildMirror; simp)

@[simp] theorem dropRetired_frame (s : State) (h : [.life] ⊆ ps) :
    SameBut ps z (dropRetired s) ↔ SameBut ps z s :=
  SameBut.frame h (by unfold dropRetired; simp)

@[simp] theorem returnHands_frame (s : State) (h : [.life] ⊆ ps) : SameBut ps z (returnHands s) ↔ SameBut ps z s :=
  SameBut.frame h (SameBut.foldl (fun u p => by simp) _ s)

@[simp] theorem rebuildQueues_frame (s : State) (h : [.life] ⊆ ps) :
    SameBut ps z (rebuildQueues s) ↔ SameBut ps z s :=
  SameBut.frame h (by unfold rebuildQueues; simp)

@[simp] theorem migResume_frame (s : State) (h : [.events, .free] ⊆ ps) :
    SameBut ps z (migResume s) ↔ SameBut ps z s :=
  SameBut.frame h (by unfold migResume; simp)

@[simp] theorem migTimes_frame (s : State) (h : [.life] ⊆ ps) :
    SameBut ps z (migTimes s) ↔ SameBut ps z s :=
  SameBut.frame h (by unfold migTimes; simp)

@[simp] theorem lifeRestore_frame (s : State) (h : [.sram, .life, .events, .free] ⊆ ps) :
    SameBut ps z (lifeRestore s) ↔ SameBut ps z s :=
  SameBut.frame h (by unfold lifeRestore; simp)

@[simp] theorem loadMove_frame (t : Nat) (l : Loc) (s : State) (m : Nat × Nat) (h : [.tcam, .sram, .integ, .events, .mgmt, .free] ⊆ ps) :
    SameBut ps z (loadMove t l s m) ↔ SameBut ps z s :=
  SameBut.frame h (by unfold loadMove; simp)

@[simp] theorem installShared_frame (s : State) (t tag : Nat) (care val : BitVec 192) (res : Word) (h : [.tcam, .sram, .integ, .events, .mgmt, .free] ⊆ ps) :
    SameBut ps z (installShared s t tag care val res) ↔ SameBut ps z s :=
  SameBut.frame h (by
    dsimp only [installShared]
    split
    · simp
    · refine SameBut.foldl (fun u p => ?_) _ s
      refine SameBut.trans ?_ (SameBut.foldl (fun v b => by simp) _ _)
      exact SameBut.foldl (fun v m => by simp) _ u)

@[simp] theorem loadEntry_frame (s : State) (t half addr tag : Nat) (care val : BitVec 192) (res : Word) (h : [.tcam, .sram, .integ, .events, .mgmt, .free] ⊆ ps) :
    SameBut ps z (loadEntry s t half addr tag care val res) ↔ SameBut ps z s :=
  SameBut.frame h (by unfold loadEntry; simp)

@[simp] theorem loadWindows_frame (s : State) (rs : List ImgRec) (h : [.tcam, .sram, .integ, .events, .mgmt, .free] ⊆ ps) : SameBut ps z (loadWindows s rs) ↔ SameBut ps z s :=
  SameBut.frame h (SameBut.foldl (fun u r => by split <;> simp) rs s)

@[simp] theorem clearTables_frame (s : State) (h : [.tcam, .sram] ⊆ ps) :
    SameBut ps z (clearTables s) ↔ SameBut ps z s :=
  SameBut.frame h (by unfold clearTables; simp)

@[simp] theorem retireUnusable_frame (s : State) (h : [.sram] ⊆ ps) :
    SameBut ps z (retireUnusable s) ↔ SameBut ps z s :=
  SameBut.frame h (by unfold retireUnusable; simp)

@[simp] theorem loadInit_frame (s : State) (rs : List ImgRec) (h : [.tcam, .sram, .integ, .events, .mgmt, .free] ⊆ ps) : SameBut ps z (loadInit s rs) ↔ SameBut ps z s :=
  SameBut.frame h (by
    unfold loadInit
    refine (retireUnusable_frame _ (by decide)).2 (SameBut.foldl (fun u r => ?_) rs s)
    split <;> simp)

@[simp] theorem writeRow_frame (s : State) (key : Nat) (x : TRow) (h : [.tcam] ⊆ ps) :
    SameBut ps z (writeRow s key x) ↔ SameBut ps z s :=
  SameBut.frame h (by unfold writeRow; simp)

@[simp] theorem writeStored_frame (s : State) (key : Nat) (w : Cw) (h : [.sram] ⊆ ps) :
    SameBut ps z (writeStored s key w) ↔ SameBut ps z s :=
  SameBut.frame h (by unfold writeStored; simp)

@[simp] theorem writeStruct_frame (s : State) (c : Ckpt) (same : Bool) (h : [.boot, .str, .tcam, .marker, .sram, .search, .life, .crew, .events] ⊆ ps) :
    SameBut ps z (writeStruct s c same) ↔ SameBut ps z s :=
  SameBut.frame h (by unfold writeStruct; simp)

@[simp] theorem writeCkpt_frame (s : State) (c : Ckpt) (same : Bool) (h : [.boot, .str, .tcam, .marker, .sram, .search, .life, .crew, .events] ⊆ ps) :
    SameBut ps z (writeCkpt s c same) ↔ SameBut ps z s :=
  SameBut.frame h (by unfold writeCkpt; simp)

@[simp] theorem countReads_frame (s : State) (rf : Word) (h : [.mgmt] ⊆ ps) :
    SameBut ps z (countReads s rf) ↔ SameBut ps z s :=
  SameBut.frame h (by unfold countReads; simp)

@[simp] theorem markAll_frame (s : State) (t obj : Nat) (keys : List Nat) (h : [.sram, .events, .mgmt, .free] ⊆ ps) :
    SameBut ps z (markAll s t obj keys) ↔ SameBut ps z s :=
  SameBut.frame h (by unfold markAll; simp)

@[simp] theorem markPoisoned_frame (s : State) (t obj key : Nat) (h : [.sram, .events, .mgmt, .free] ⊆ ps) :
    SameBut ps z (markPoisoned s t obj key) ↔ SameBut ps z s :=
  SameBut.frame h (by unfold markPoisoned; simp)

@[simp] theorem poisonAt_frame (s : State) (t a h_ : Nat) (h : [.sram, .events, .mgmt, .free] ⊆ ps) :
    SameBut ps z (poisonAt s t a h_) ↔ SameBut ps z s :=
  SameBut.frame h (by unfold poisonAt; simp)

@[simp] theorem holePoison_frame (gs : List (Word × List JRec)) (s : State) (e : JEntry) (h : [.sram, .events, .mgmt, .free] ⊆ ps) :
    SameBut ps z (holePoison gs s e) ↔ SameBut ps z s :=
  SameBut.frame h (by dsimp only [holePoison]; (repeat' split) <;> simp)

@[simp] theorem poisonPlace_frame (s : State) (key : Nat) (h : [.sram, .events, .mgmt, .free] ⊆ ps) :
    SameBut ps z (poisonPlace s key) ↔ SameBut ps z s :=
  SameBut.frame h (by dsimp only [poisonPlace]; (repeat' split) <;> simp)

@[simp] theorem poisonLost_frame (s : State) (c : Ckpt) (h : [.sram, .events, .mgmt, .free] ⊆ ps) : SameBut ps z (poisonLost s c) ↔ SameBut ps z s :=
  SameBut.frame h (by
    unfold poisonLost
    refine SameBut.foldl (fun u p => ?_) _ s
    refine SameBut.trans ?_ (SameBut.foldl (fun v x => ?_) _ _)
    · simp
    · split
      · exact SameBut.foldl (fun w i => by simp) _ v
      · simp)

@[simp] theorem fillCopies_frame (s0 s : State) (h : [.tcam, .sram] ⊆ ps) : SameBut ps z (fillCopies s0 s) ↔ SameBut ps z s :=
  SameBut.frame h (SameBut.foldl (fun u t => SameBut.foldl (fun v x => SameBut.foldl (fun w c => SameBut.foldl (fun y i => by simp) _ w) _ v) _ u) _ s)

@[simp] theorem durability_frame (s : State) (b : Superblock) (hole : Bool) (last : Word) (h : [.holdup, .events, .free] ⊆ ps) :
    SameBut ps z (durability s b hole last) ↔ SameBut ps z s :=
  SameBut.frame h (by unfold durability; simp)

@[simp] theorem restore_frame (s : State) (b : Superblock) (same : Bool) (wins inits : List ImgRec) (h : [.clock, .boot, .str, .tcam, .marker, .sram, .search, .update, .life, .journal, .store, .holdup, .integ, .crew, .events, .mgmt, .free] ⊆ ps) :
    SameBut ps z (restore s b same wins inits) ↔ SameBut ps z s :=
  SameBut.frame h (by dsimp only [restore]; (repeat' split) <;> simp)

@[simp] theorem firstBoot_frame (s : State) (wins inits : List ImgRec) (h : [.clock, .boot, .tcam, .marker, .sram, .search, .store, .holdup, .integ, .events, .mgmt, .free] ⊆ ps) : SameBut ps z (firstBoot s wins inits) ↔ SameBut ps z s :=
  SameBut.frame h (by
    dsimp only [firstBoot]
    exact SameBut.getD (writeSuper_frame _ _ (by decide) (by simp)) (by simp))

end Sys2Proof.Machine
end

section
/-! ## Frames: Rebal
What the operations of the model's file Rebal leave unchanged. -/

namespace Sys2Proof.Machine

open Sys2Proof

variable {ps : List Part} {z : State}

@[simp] theorem rebalStep_frame {s : State} {v : List Nat} {f : State → State} (h : [.journal, .crew, .mgmt] ⊆ ps) (hf : ∀ u, SameBut ps u (f u)) :
    SameBut ps z (rebalStep s v f) ↔ SameBut ps z s :=
  jChange_frame (List.Subset.trans (by decide) h) (fun u => SameBut.trans ((setRebal_frame _ _ (List.Subset.trans (by decide) h)).2 (SameBut.refl ps u)) (hf _))

@[simp] theorem writeRte_frame (s : State) (g r : Nat) (h : [.tcam, .marker, .sram, .update, .ports, .tally, .journal, .integ, .events, .mgmt, .free] ⊆ ps) (k : SameBut ps z s) : OptBut ps z (writeRte s g r) :=
  OptBut.frame h k (by
    have inserted : ∀ e, RanKeeps [.tcam, .marker, .sram, .update, .ports, .tally, .journal, .integ, .events, .mgmt, .free] s (insertEntry s e tRTE rteCare (rteKey g) 26 (BitVec.ofNat 64 r) true false Extra.none) := fun e => by simp
    unfold writeRte
    dsimp only
    split <;> rename_i q <;> have k := (congrArg (RanKeeps [.tcam, .marker, .sram, .update, .ports, .tally, .journal, .integ, .events, .mgmt, .free] s) q).mp (inserted _)
    · simp
    · simp [SameBut.into (RanKeeps.stays_iff.1 k)]
    · split <;> simp [RanKeeps.ends_iff.1 k]
    · simp [RanKeeps.ends_iff.1 k])

@[simp] theorem tryOwn_frame (s : State) (need : List Nat) (r : Ran) (h : [.tcam, .marker, .sram, .update, .ports, .tally, .journal, .integ, .events, .mgmt, .free] ⊆ ps) (k : RanKeeps ps s r) : SameBut ps s (tryOwn s need r) := by
  simp only [List.cons_subset] at h
  unfold tryOwn
  split
  · exact SameBut.refl ps s
  split
  · simpa [h] using k
  · simpa [h] using k
  · exact SameBut.refl ps s

@[simp] theorem dropOverlay_frame (s : State) (x : Loc × Entry) (h : [.tcam, .marker, .sram, .update, .ports, .tally, .journal, .integ, .events, .mgmt, .free] ⊆ ps) :
    SameBut ps z (dropOverlay s x) ↔ SameBut ps z s :=
  SameBut.frame h (by unfold dropOverlay; simp)

@[simp] theorem releaseRow_frame (s : State) (l : Nat) (h : [.tcam, .marker, .sram, .search, .update, .life, .ports, .tally, .journal, .integ, .events, .mgmt, .free] ⊆ ps) : SameBut ps z (releaseRow s l) ↔ SameBut ps z s :=
  SameBut.frame h (by
    dsimp only [releaseRow]
    split
    · simp
    · exact tryOwn_frame _ _ _ (by decide) (lifeRun_frame (by decide) (fun u => doMapRelease_frame u _ (by decide))))

@[simp] theorem dropGranule_frame (s : State) (g : Nat) (h : [.tcam, .marker, .sram, .search, .update, .life, .ports, .tally, .journal, .integ, .events, .mgmt, .free] ⊆ ps) :
    SameBut ps z (dropGranule s g) ↔ SameBut ps z s :=
  SameBut.frame h (by unfold dropGranule; simp)

@[simp] theorem rebalIdle_frame (s : State) (h : [.journal, .crew, .mgmt] ⊆ ps) : SameBut ps z (rebalIdle s) ↔ SameBut ps z s :=
  rebalStep_frame h (fun u => by simp only [List.cons_subset] at h; simp [h])

@[simp] theorem rebalAfter_frame (s : State) (rollback : Bool) (h : [.tcam, .marker, .sram, .search, .update, .life, .ports, .tally, .journal, .integ, .crew, .events, .mgmt, .free] ⊆ ps) :
    SameBut ps z (rebalAfter s rollback) ↔ SameBut ps z s :=
  SameBut.frame h (by unfold rebalAfter; simp)

end Sys2Proof.Machine
end

section
/-! ## Frames: Boot
What the operations of the model's file Boot leave unchanged. -/

namespace Sys2Proof.Machine

open Sys2Proof

variable {ps : List Part} {z : State}

@[simp] theorem countP_frame (s : State) (i n : Nat) (h : [.mgmt] ⊆ ps) :
    SameBut ps z (countP s i n) ↔ SameBut ps z s :=
  SameBut.frame h (by unfold countP; simp)

@[simp] theorem domain_frame (s : State) (i : Nat) (on : Bool) (h : [.power, .mgmt] ⊆ ps) :
    SameBut ps z (domain s i on) ↔ SameBut ps z s :=
  SameBut.frame h (by unfold domain; simp)

@[simp] theorem domains_frame (s : State) (is : List Nat) (h : [.power, .mgmt] ⊆ ps) :
    SameBut ps z (domains s is) ↔ SameBut ps z s :=
  SameBut.frame h (by unfold domains; simp)

@[simp] theorem refclkLost_frame (s : State) (h : [.clock, .events, .free] ⊆ ps) :
    SameBut ps z (refclkLost s) ↔ SameBut ps z s :=
  SameBut.frame h (by unfold refclkLost; simp)

@[simp] theorem stopBoot_frame (s : State) (code : BitVec 4) (h : [.power, .boot] ⊆ ps) :
    SameBut ps z (stopBoot s code) ↔ SameBut ps z s :=
  SameBut.frame h (by unfold stopBoot; simp)

@[simp] theorem stepDone_frame (s : State) (n : BitVec 4) (h : [.boot] ⊆ ps) :
    SameBut ps z (stepDone_ s n) ↔ SameBut ps z s :=
  SameBut.frame h (by unfold stepDone_; simp)

@[simp] theorem sramMaps_frame (s : State) (rs : List Word) (h : [.sram] ⊆ ps) :
    SameBut ps z (sramMaps s rs) ↔ SameBut ps z s :=
  SameBut.frame h (by unfold sramMaps; simp)

@[simp] theorem siteMaps_frame (s : State) (rs : List Word) (h : [.tcam] ⊆ ps) :
    SameBut ps z (siteMaps s rs) ↔ SameBut ps z s :=
  SameBut.frame h (by unfold siteMaps; simp)

@[simp] theorem reject_frame (s : State) (slot : Nat) (code : BitVec 4) (h : [.boot] ⊆ ps) :
    SameBut ps z (reject s slot code) ↔ SameBut ps z s :=
  SameBut.frame h (by unfold reject; simp)

@[simp] theorem rejectHeaders_frame (s : State) (h : [.boot] ⊆ ps) :
    SameBut ps z (rejectHeaders s) ↔ SameBut ps z s :=
  SameBut.frame h (by unfold rejectHeaders; simp)

@[simp] theorem bootedImage_frame (s : State) (slot : Nat) (img : List Byte) (h : [.boot] ⊆ ps) :
    SameBut ps z (bootedImage s slot img) ↔ SameBut ps z s :=
  SameBut.frame h (by unfold bootedImage; simp)

@[simp] theorem portOn_frame (s : State) (p : Nat) (entry : Reg) (h : [.power, .ports, .mgmt] ⊆ ps) :
    SameBut ps z (portOn s p entry) ↔ SameBut ps z s :=
  SameBut.frame h (by unfold portOn; simp)

@[simp] theorem calibrated_frame (s : State) (h : [.therm, .free] ⊆ ps) :
    SameBut ps z (calibrated s) ↔ SameBut ps z s :=
  SameBut.frame h (by unfold calibrated; simp)

@[simp] theorem bootPorts_frame (s : State) (ss : List Sect) (h : [.power, .ports, .therm, .mgmt, .free] ⊆ ps) :
    SameBut ps z (bootPorts s ss) ↔ SameBut ps z s :=
  SameBut.frame h (by unfold bootPorts; simp)

@[simp] theorem replaceDies_frame (s : State) (h : [.store, .events, .free] ⊆ ps) :
    SameBut ps z (replaceDies s) ↔ SameBut ps z s :=
  SameBut.frame h (by unfold replaceDies; simp)

@[simp] theorem keptCounters_frame (s : State) (h : [.mgmt] ⊆ ps) :
    SameBut ps z (keptCounters s) ↔ SameBut ps z s :=
  SameBut.frame h (by unfold keptCounters; split <;> simp)

@[simp] theorem testsOver_frame (s : State) (h : [.tcam] ⊆ ps) :
    SameBut ps z (testsOver s) ↔ SameBut ps z s :=
  SameBut.frame h (by unfold testsOver; simp)

@[simp] theorem blowFuses_frame (s : State) (img : List Byte) (h : [.fuses] ⊆ ps) :
    SameBut ps z (blowFuses s img) ↔ SameBut ps z s :=
  SameBut.frame h (by unfold blowFuses; simp)

@[simp] theorem mediaGroups_frame (s : State) (h : [.therm] ⊆ ps) :
    SameBut ps z (mediaGroups s) ↔ SameBut ps z s :=
  SameBut.frame h (by unfold mediaGroups; simp)

@[simp] theorem sendCrewReady_frame (s : State) (h : [.ports] ⊆ ps) :
    SameBut ps z (sendCrewReady s) ↔ SameBut ps z s :=
  SameBut.frame h (by unfold sendCrewReady; simp)

@[simp] theorem enterReady_frame (s : State) (h : [.clock, .power, .boot, .ports, .store, .therm, .crew, .events, .free] ⊆ ps) : SameBut ps z (enterReady s) ↔ SameBut ps z s :=
  SameBut.frame h (by
    dsimp only [enterReady]
    have super : ∀ {u : State}, SameBut [.clock, .power, .boot, .ports, .store, .therm, .crew, .events, .free] s u → SameBut [.clock, .power, .boot, .ports, .store, .therm, .crew, .events, .free] s ((writeSuper u none).getD u) := fun k =>
      SameBut.getD (writeSuper_frame _ _ (by decide) k) k
    simp [SameBut.into (super _)])

@[simp] theorem bootTimes_frame (s : State) (h : [.boot, .holdup] ⊆ ps) :
    SameBut ps z (bootTimes s) ↔ SameBut ps z s :=
  SameBut.frame h (by unfold bootTimes; simp)

@[simp] theorem bootStore_frame (s : State) (ss : List Sect) (img : List Byte) (h : [.clock, .power, .boot, .fuses, .str, .tcam, .marker, .sram, .search, .update, .life, .ports, .tally, .journal, .store, .holdup, .therm, .integ, .crew, .events, .mgmt, .free] ⊆ ps) :
    SameBut ps z (bootStore s ss img) ↔ SameBut ps z s :=
  SameBut.frame h (by dsimp only [bootStore]; (repeat' split) <;> simp)

@[simp] theorem tryImages_frame (s : State) (h : [.power, .boot] ⊆ ps) :
    SameBut ps z (tryImages s) ↔ SameBut ps z s :=
  SameBut.frame h (by unfold tryImages; simp)

@[simp] theorem throughStep3_frame (s : State) (h : [.clock, .power, .boot, .tcam, .sram, .events, .mgmt, .free] ⊆ ps) :
    SameBut ps z (throughStep3 s) ↔ SameBut ps z s :=
  SameBut.frame h (by unfold throughStep3; simp)

@[simp] theorem clearH_frame (s : State) (h : [.tcam] ⊆ ps) :
    SameBut ps z (clearH s) ↔ SameBut ps z s :=
  SameBut.frame h (by unfold clearH; simp)

@[simp] theorem closeGates_frame (s : State) (h : [.tcam, .marker, .sram, .update, .ports, .tally, .journal, .integ, .events, .mgmt, .free] ⊆ ps) :
    SameBut ps z (closeGates s) ↔ SameBut ps z s :=
  SameBut.frame h (by unfold closeGates; simp)

@[simp] theorem sitesLeft_frame (s : State) (h : [.tcam, .update] ⊆ ps) : SameBut ps z (sitesLeft s) ↔ SameBut ps z s :=
  SameBut.frame h (SameBut.foldl (fun u e => by split <;> simp) _ s)

@[simp] theorem enginesAfter_frame (s : State) (h : [.tcam, .update] ⊆ ps) :
    SameBut ps z (enginesAfter s) ↔ SameBut ps z s :=
  SameBut.frame h (by unfold enginesAfter; simp)

@[simp] theorem dropTokens_frame (s : State) (h : [.search, .life] ⊆ ps) :
    SameBut ps z (dropTokens s) ↔ SameBut ps z s :=
  SameBut.frame h (by unfold dropTokens; simp)

@[simp] theorem warmClear_frame (s : State) (h : [.boot, .dbg, .str, .tcam, .marker, .sram, .search, .arbs, .tally, .journal, .store, .holdup, .therm, .integ, .waitos, .crew, .events, .free] ⊆ ps) :
    SameBut ps z (warmClear s) ↔ SameBut ps z s :=
  SameBut.frame h (by unfold warmClear; simp)

@[simp] theorem renewPorts_frame (s : State) (h : [.search, .update, .life, .ports, .tally, .crew, .events, .mgmt, .free] ⊆ ps) :
    SameBut ps z (renewPorts s) ↔ SameBut ps z s :=
  SameBut.frame h (by unfold renewPorts; simp)

@[simp] theorem clonesOn_frame (s : State) (h : [.tcam] ⊆ ps) :
    SameBut ps z (clonesOn s) ↔ SameBut ps z s :=
  SameBut.frame h (by unfold clonesOn; simp)

@[simp] theorem reload_frame (s : State) (b : Superblock) (h : [.clock, .boot, .str, .tcam, .marker, .sram, .search, .update, .life, .journal, .store, .holdup, .integ, .crew, .events, .mgmt, .free] ⊆ ps) :
    SameBut ps z (reload s b) ↔ SameBut ps z s :=
  SameBut.frame h (by unfold reload; simp)

@[simp] theorem rebuildDir_frame (s : State) (h : [.boot, .str, .tcam, .marker, .sram, .search, .life, .integ, .crew, .events, .mgmt, .free] ⊆ ps) :
    SameBut ps z (rebuildDir s) ↔ SameBut ps z s :=
  SameBut.frame h (by dsimp only [rebuildDir]; split <;> simp)

@[simp] theorem warmTables_frame (s : State) (h : [.clock, .boot, .str, .tcam, .marker, .sram, .search, .update, .life, .journal, .store, .holdup, .integ, .crew, .events, .mgmt, .free] ⊆ ps) :
    SameBut ps z (warmTables s) ↔ SameBut ps z s :=
  SameBut.frame h (by unfold warmTables; split <;> simp)

@[simp] theorem warmStart_frame (s : State) (h : [.clock, .power, .boot, .dbg, .str, .tcam, .marker, .sram, .search, .update, .life, .ports, .arbs, .tally, .journal, .store, .holdup, .therm, .integ, .waitos, .crew, .events, .mgmt, .free] ⊆ ps) :
    SameBut ps z (warmStart s) ↔ SameBut ps z s :=
  SameBut.frame h (by unfold warmStart; simp)

@[simp] theorem warmReset_frame (s : State) (crew : Bool) (h : [.clock, .power, .boot, .dbg, .str, .tcam, .marker, .sram, .search, .update, .life, .ports, .arbs, .tally, .journal, .store, .holdup, .therm, .integ, .waitos, .crew, .events, .mgmt, .free] ⊆ ps) :
    SameBut ps z (warmReset s crew) ↔ SameBut ps z s :=
  SameBut.frame h (by unfold warmReset; simp)

@[simp] theorem heldPorts_frame (s : State) (hold : Bool) (h : [.ports] ⊆ ps) :
    SameBut ps z (heldPorts s hold) ↔ SameBut ps z s :=
  SameBut.frame h (by unfold heldPorts; simp)

end Sys2Proof.Machine
end

section
/-! ## Frames: Save
What the operations of the model's file Save leave unchanged. -/

namespace Sys2Proof.Machine

open Sys2Proof

variable {ps : List Part} {z : State}

@[simp] theorem dropFlushed_frame (s : State) (p : Nat) (h : [.ports, .tally, .events, .free] ⊆ ps) :
    SameBut ps z (dropFlushed s p) ↔ SameBut ps z s :=
  SameBut.frame h (by unfold dropFlushed; split <;> simp)

@[simp] theorem fencePort_frame (t : Word) (s : State) (p : Nat) (h : [.ports, .tally, .events, .free] ⊆ ps) :
    SameBut ps z (fencePort t s p) ↔ SameBut ps z s :=
  SameBut.frame h (by unfold fencePort; simp)

@[simp] theorem abandonSession_frame (s : State) (h : [.waitos] ⊆ ps) :
    SameBut ps z (abandonSession s) ↔ SameBut ps z s :=
  SameBut.frame h (by dsimp only [abandonSession]; (repeat' split) <;> simp)

@[simp] theorem startSave_frame (s : State) (byPwrgd byTrip : Bool) (h : [.power, .ports, .tally, .holdup, .waitos, .events, .free] ⊆ ps) :
    SameBut ps z (startSave s byPwrgd byTrip) ↔ SameBut ps z s :=
  SameBut.frame h (by unfold startSave; simp)

@[simp] theorem powerFail_frame (s : State) (byPwrgd byTrip : Bool) (h : [.power, .boot, .ports, .tally, .holdup, .waitos, .events, .free] ⊆ ps) :
    SameBut ps z (powerFail s byPwrgd byTrip) ↔ SameBut ps z s :=
  SameBut.frame h (by unfold powerFail; split <;> simp)

@[simp] theorem closeFence_frame (s : State) (early : Bool) (h : [.ports, .journal, .holdup] ⊆ ps) :
    SameBut ps z (closeFence s early) ↔ SameBut ps z s :=
  SameBut.frame h (by unfold closeFence; simp)

@[simp] theorem flushedNote_frame (s : State) (p : Nat) (h : [.ports, .tally, .journal, .holdup, .events, .free] ⊆ ps) :
    SameBut ps z (flushedNote s p) ↔ SameBut ps z s :=
  SameBut.frame h (by unfold flushedNote; split <;> simp)

@[simp] theorem drainAll_frame (s : State) (h : [.journal, .store, .mgmt] ⊆ ps) :
    SameBut ps z (drainAll s) ↔ SameBut ps z s :=
  SameBut.frame h (by unfold drainAll; simp)

@[simp] theorem savedState_frame (s : State) (h : [.power, .holdup, .mgmt] ⊆ ps) :
    SameBut ps z (savedState s) ↔ SameBut ps z s :=
  SameBut.frame h (by unfold savedState; simp)

@[simp] theorem heldReset_frame (s : State) (h : [.clock, .power, .boot, .dbg, .str, .tcam, .marker, .sram, .search, .update, .life, .ports, .arbs, .tally, .journal, .store, .holdup, .therm, .integ, .waitos, .crew, .events, .mgmt, .free] ⊆ ps) :
    SameBut ps z (heldReset s) ↔ SameBut ps z s :=
  SameBut.frame h (by unfold heldReset; simp)

@[simp] theorem resetOf_frame (s : State) (h : [.clock, .power, .boot, .dbg, .str, .tcam, .marker, .sram, .search, .update, .life, .ports, .arbs, .tally, .journal, .store, .holdup, .therm, .integ, .waitos, .crew, .events, .mgmt, .free] ⊆ ps) :
    SameBut ps z (resetOf s) ↔ SameBut ps z s :=
  SameBut.frame h (by unfold resetOf; simp)

@[simp] theorem answerAll_frame (s : State) (h : [.search, .life, .ports, .tally, .events, .mgmt, .free] ⊆ ps) :
    SameBut ps z (answerAll s) ↔ SameBut ps z s :=
  SameBut.frame h (by unfold answerAll; simp)

@[simp] theorem stopPort_frame (s : State) (p : Nat) (h : [.search, .ports, .tally, .events, .free] ⊆ ps) :
    SameBut ps z (stopPort s p) ↔ SameBut ps z s :=
  SameBut.frame h (by unfold stopPort; simp)

@[simp] theorem pfailRise_frame (s : State) (vhok : Bool) (h : [.pins, .clock, .power, .boot, .dbg, .str, .tcam, .marker, .sram, .search, .update, .life, .ports, .arbs, .tally, .journal, .store, .holdup, .therm, .integ, .waitos, .crew, .events, .mgmt, .free] ⊆ ps) :
    SameBut ps z (pfailRise s vhok) ↔ SameBut ps z s :=
  SameBut.frame h (by unfold pfailRise; simp)

@[simp] theorem pwrgdDrop_frame (s : State) (lowNs : Nat) (h : [.pins, .power, .boot, .ports, .tally, .holdup, .waitos, .events, .mgmt, .free] ⊆ ps) :
    SameBut ps z (pwrgdDrop s lowNs) ↔ SameBut ps z s :=
  SameBut.frame h (by unfold pwrgdDrop; simp)

@[simp] theorem saveBegun_frame (s : State) (k : Nat) (h : [.power, .boot, .ports, .tally, .holdup, .waitos, .events, .free] ⊆ ps) :
    SameBut ps z (saveBegun s k) ↔ SameBut ps z s :=
  SameBut.frame h (by unfold saveBegun; split <;> simp)

end Sys2Proof.Machine
end

section
/-! ## Frames: WaitosOps
What the operations of the model's file WaitosOps leave unchanged. -/

namespace Sys2Proof.Machine

open Sys2Proof

variable {ps : List Part} {z : State}

@[simp] theorem setReqs_frame (s : State) (w : Client) (l : List Req) (h : [.waitos] ⊆ ps) :
    SameBut ps z (setReqs s w l) ↔ SameBut ps z s :=
  SameBut.frame h (by unfold setReqs; simp)

@[simp] theorem sendReply_frame (s : State) (w : Client) (r : Req) (x : Reply) (h : [.ports, .tally, .waitos, .events, .mgmt, .free] ⊆ ps) :
    SameBut ps z (sendReply s w r x) ↔ SameBut ps z s :=
  SameBut.frame h (by unfold sendReply; split <;> simp)

@[simp] theorem dropUnlisted_frame (n : Nat) (s : State) (w : Client) (h : [.ports, .tally, .waitos, .events, .mgmt, .free] ⊆ ps) : SameBut ps z (dropUnlisted n s w) ↔ SameBut ps z s :=
  SameBut.frame h (by
    induction n generalizing s with
    | zero => simp [dropUnlisted]
    | succ n ih =>
      unfold dropUnlisted
      split
      · split
        · simp
        · exact SameBut.trans (by simp) (ih _)
      · simp)

@[simp] theorem popReq_frame (s : State) (w : Client) (h : [.ports, .tally, .waitos, .events, .mgmt, .free] ⊆ ps) :
    SameBut ps z (popReq s w) ↔ SameBut ps z s :=
  SameBut.frame h (by unfold popReq; simp)

@[simp] theorem runReq_frame {s : State} {w : Client} {cmd : Nat} {lenOk : Nat → Bool} {parOk : List Byte → Bool}
    {f : State → List Byte → Executed} (h : [.ports, .tally, .waitos, .events, .mgmt, .free] ⊆ ps) (hf : ∀ u l, SameBut ps u (f u l).2) :
    SameBut ps z (runReq s w cmd lenOk parOk f) ↔ SameBut ps z s := by
  simp only [List.cons_subset] at h
  dsimp only [runReq]
  split
  · rfl
  · rename_i r _ _
    have k := hf s (rParams r)
    split
    · rfl
    split
    · simp [h]
    split
    · simp [h]
    split
    · simp [h]
    split <;> rename_i q <;> rw [q] at k <;> simp [h, SameBut.into k]

@[simp] theorem pushReq_frame (s : State) (w : Client) (r : Req) (h : [.ports, .tally, .waitos, .events, .mgmt, .free] ⊆ ps) :
    SameBut ps z (pushReq s w r) ↔ SameBut ps z s :=
  SameBut.frame h (by unfold pushReq; simp)

@[simp] theorem mgmtSegment_frame (s : State) (n : Fin 8) (h : [.ports, .tally, .waitos, .events, .mgmt, .free] ⊆ ps) :
    SameBut ps z (mgmtSegment s n) ↔ SameBut ps z s :=
  SameBut.frame h (by dsimp only [mgmtSegment]; (repeat' split) <;> simp)

@[simp] theorem sidebandRequest_frame (s : State) (ep : Byte) (tag : BitVec 3) (ps_ : List SbPacket) (h : [.ports, .tally, .waitos, .events, .mgmt, .free] ⊆ ps) :
    SameBut ps z (sidebandRequest s ep tag ps_) ↔ SameBut ps z s :=
  SameBut.frame h (by unfold sidebandRequest; simp)

theorem startOp_some {s u : State} {cmd owner : Nat} {auto : Bool} {obj : Nat × Nat} {n : Nat} (q : startOp s cmd owner auto obj = some (n, u))
    (h : [.waitos] ⊆ ps) : SameBut ps s u := by
  simp only [List.cons_subset] at h
  unfold startOp at q
  split at q
  · cases q
  · obtain ⟨m, -, e⟩ := Option.map_eq_some_iff.1 q
    cases e
    simp [h]

@[simp] theorem opLanes_frame (s : State) (h_ : Nat) (l : List Nat) (h : [.waitos] ⊆ ps) :
    SameBut ps z (opLanes s h_ l) ↔ SameBut ps z s :=
  SameBut.frame h (by unfold opLanes; split <;> simp)

@[simp] theorem knowOp_frame (s : State) (h_ : Nat) (st : Status) (progress : Word) (h : [.waitos] ⊆ ps) :
    SameBut ps z (knowOp s h_ st progress) ↔ SameBut ps z s :=
  SameBut.frame h (by unfold knowOp; split <;> simp)

@[simp] theorem endOp_frame (s : State) (h_ : Nat) (st : BitVec 4) (progress : Word) (h : [.waitos, .events, .free] ⊆ ps) :
    SameBut ps z (endOp s h_ st progress) ↔ SameBut ps z s :=
  SameBut.frame h (by unfold endOp; split <;> simp)

@[simp] theorem autoWithin_frame {s : State} {cmd : Nat} {obj : Nat × Nat} {f : State → State} (h : [.waitos, .events, .free] ⊆ ps) (hf : ∀ u, SameBut ps u (f u)) :
    SameBut ps z (autoWithin s cmd obj f) ↔ SameBut ps z s := by
  unfold autoWithin
  split
  · rename_i q
    refine SameBut.into ((startOp_some q (List.Subset.trans (by decide) h)).trans ((hf _).trans ?_))
    exact (endOp_frame _ _ _ _ (List.Subset.trans (by decide) h)).2 (SameBut.refl ps _)
  · exact SameBut.into (hf s)

@[simp] theorem startReply_frame {s : State} {cmd owner : Nat} {obj : Nat × Nat} {f : Nat → State → State} (h : [.waitos] ⊆ ps)
    (hf : ∀ n u, SameBut ps u (f n u)) : SameBut ps z (startReply s cmd owner obj f).2 ↔ SameBut ps z s := by
  unfold startReply
  split
  · rfl
  · rename_i q
    exact SameBut.into ((startOp_some q h).trans (hf _ _))

end Sys2Proof.Machine
end

section
/-! ## Frames: Replicas
What the operations of the model's file Replicas leave unchanged. -/

namespace Sys2Proof.Machine

open Sys2Proof

variable {ps : List Part} {z : State}

@[simp] theorem removeReplica_frame (s : State) (d i : Nat) (h : [.marker, .journal, .mgmt] ⊆ ps) : SameBut ps z (removeReplica s d i) ↔ SameBut ps z s :=
  SameBut.frame h (by
    dsimp only [removeReplica]
    exact jChange_same (by decide) (fun u => by simp))

@[simp] theorem poisonBank_frame (s : State) (t b : Nat) (h : [.sram] ⊆ ps) :
    SameBut ps z (poisonBank s t b) ↔ SameBut ps z s :=
  SameBut.frame h (by unfold poisonBank; simp)

@[simp] theorem loseBank_frame (s : State) (b : Nat) (h : [.tcam, .marker, .sram, .journal, .events, .mgmt, .free] ⊆ ps) :
    SameBut ps z (loseBank s b) ↔ SameBut ps z s :=
  SameBut.frame h (by dsimp only [loseBank]; (repeat' split) <;> simp)

end Sys2Proof.Machine
end

section
/-! ## Frames: ArbOps
What the operations of the model's file ArbOps leave unchanged. -/

namespace Sys2Proof.Machine

open Sys2Proof

variable {ps : List Part} {z : State}

@[simp] theorem refreshRow_frame (s : State) (a : Nat) (h : [.tcam] ⊆ ps) :
    SameBut ps z (refreshRow s a) ↔ SameBut ps z s :=
  SameBut.frame h (by unfold refreshRow; simp)

@[simp] theorem decideArb_frame (s : State) (a : Nat) (q : ArbAsk) (h : [.tcam, .arbs, .events, .free] ⊆ ps) :
    SameBut ps z (decideArb s a q) ↔ SameBut ps z s :=
  SameBut.frame h (by dsimp only [decideArb]; (repeat' split) <;> simp)

@[simp] theorem issueRefresh_frame (s : State) (a : Nat) (h : [.tcam, .arbs, .events, .free] ⊆ ps) :
    SameBut ps z (issueRefresh s a) ↔ SameBut ps z s :=
  SameBut.frame h (by unfold issueRefresh; simp)

@[simp] theorem retestRetention_frame (s : State) (h : [.tcam] ⊆ ps) :
    SameBut ps z (retestRetention s) ↔ SameBut ps z s :=
  SameBut.frame h (by unfold retestRetention; simp)

@[simp] theorem bandChanged_frame (s : State) (old : Nat) (h : [.tcam, .arbs, .events, .free] ⊆ ps) :
    SameBut ps z (bandChanged s old) ↔ SameBut ps z s :=
  SameBut.frame h (by unfold bandChanged; simp)

end Sys2Proof.Machine
end

section
/-! ## Frames: Voltage
What the operations of the model's file Voltage leave unchanged. -/

namespace Sys2Proof.Machine

open Sys2Proof

variable {ps : List Part} {z : State}

@[simp] theorem startTrans_frame (s : State) (code : BitVec 6) (h : [.power] ⊆ ps) :
    SameBut ps z (startTrans s code) ↔ SameBut ps z s :=
  SameBut.frame h (by unfold startTrans; simp)

@[simp] theorem requestCode_frame (s : State) (code : BitVec 6) (h : [.power] ⊆ ps) :
    SameBut ps z (requestCode s code) ↔ SameBut ps z s :=
  SameBut.frame h (by unfold requestCode; simp)

@[simp] theorem endTrans_frame (s : State) (h : [.power, .mgmt] ⊆ ps) :
    SameBut ps z (endTrans s) ↔ SameBut ps z s :=
  SameBut.frame h (by dsimp only [endTrans]; split <;> simp)

@[simp] theorem voltageTick_frame (s : State) (h : [.power, .mgmt] ⊆ ps) :
    SameBut ps z (voltageTick s) ↔ SameBut ps z s :=
  SameBut.frame h (by unfold voltageTick; split <;> simp)

@[simp] theorem loseCore_frame (s : State) (c : Nat) (h : [.waitos, .events, .free] ⊆ ps) :
    SameBut ps z (loseCore s c) ↔ SameBut ps z s :=
  SameBut.frame h (by unfold loseCore; simp)

end Sys2Proof.Machine
end

section
/-! ## Frames: Thermal
What the operations of the model's file Thermal leave unchanged. -/

namespace Sys2Proof.Machine

open Sys2Proof

variable {ps : List Part} {z : State}

@[simp] theorem startConv_frame (s : State) (h : [.therm] ⊆ ps) :
    SameBut ps z (startConv s) ↔ SameBut ps z s :=
  SameBut.frame h (by unfold startConv; simp)

@[simp] theorem catchUp_frame (s : State) (h : [.therm] ⊆ ps) :
    SameBut ps z (catchUp s) ↔ SameBut ps z s :=
  SameBut.frame h (by unfold catchUp; simp)

@[simp] theorem demandReading_frame (s : State) (h : [.therm] ⊆ ps) :
    SameBut ps z (demandReading s) ↔ SameBut ps z s :=
  SameBut.frame h (by unfold demandReading; simp)

@[simp] theorem runningConv_frame (s : State) (h : [.therm] ⊆ ps) (k : SameBut ps z s) : OptBut ps z (runningConv s) :=
  OptBut.frame h k (by unfold runningConv; split <;> simp)

@[simp] theorem writeBand_frame (s : State) (b : Nat) (h : [.tcam, .arbs, .therm, .events, .mgmt, .free] ⊆ ps) :
    SameBut ps z (writeBand s b) ↔ SameBut ps z s :=
  SameBut.frame h (by unfold writeBand; simp)

@[simp] theorem goodReading_frame (s : State) (v : ℤ) (h : [.tcam, .arbs, .therm, .events, .mgmt, .free] ⊆ ps) :
    SameBut ps z (goodReading s v) ↔ SameBut ps z s :=
  SameBut.frame h (by unfold goodReading; simp)

@[simp] theorem faultyReading_frame (s : State) (detail : Nat) (h : [.tcam, .arbs, .therm, .events, .mgmt, .free] ⊆ ps) :
    SameBut ps z (faultyReading s detail) ↔ SameBut ps z s :=
  SameBut.frame h (by unfold faultyReading; simp)

@[simp] theorem trip_frame (s : State) (h : [.power, .boot, .ports, .tally, .holdup, .therm, .waitos, .events, .mgmt, .free] ⊆ ps) :
    SameBut ps z (trip s) ↔ SameBut ps z s :=
  SameBut.frame h (by unfold trip; simp)

@[simp] theorem answerTemp_frame (s : State) (c : Nat) (h : [.ports, .tally, .waitos, .events, .mgmt, .free] ⊆ ps) :
    SameBut ps z (answerTemp s c) ↔ SameBut ps z s :=
  SameBut.frame h (by dsimp only [answerTemp]; split <;> simp)

@[simp] theorem serveReaders_frame (s : State) (h : [.ports, .tally, .therm, .waitos, .events, .mgmt, .free] ⊆ ps) :
    SameBut ps z (serveReaders s) ↔ SameBut ps z s :=
  SameBut.frame h (by unfold serveReaders; simp)

@[simp] theorem startCal_frame (s : State) (h : [.therm] ⊆ ps) :
    SameBut ps z (startCal s) ↔ SameBut ps z s :=
  SameBut.frame h (by unfold startCal; simp)

@[simp] theorem autoCal_frame (s : State) (h : [.therm, .waitos] ⊆ ps) : SameBut ps z (autoCal s) ↔ SameBut ps z s :=
  SameBut.frame h (by
    unfold autoCal
    refine (startCal_frame _ (by decide)).2 ?_
    split
    · rename_i q
      exact startOp_some q (by decide)
    · simp)

@[simp] theorem tryCal_frame (s : State) (h : [.therm, .waitos] ⊆ ps) :
    SameBut ps z (tryCal s) ↔ SameBut ps z s :=
  SameBut.frame h (by unfold tryCal; simp)

@[simp] theorem resumeCal_frame (s : State) (h : [.therm, .waitos] ⊆ ps) :
    SameBut ps z (resumeCal s) ↔ SameBut ps z s :=
  SameBut.frame h (by unfold resumeCal; simp)

@[simp] theorem conversionDone_frame (s : State) (raw : BitVec 12) (h : [.power, .boot, .tcam, .ports, .arbs, .tally, .holdup, .therm, .waitos, .events, .mgmt, .free] ⊆ ps) : SameBut ps z (conversionDone s raw) ↔ SameBut ps z s :=
  SameBut.frame h (by
    dsimp only [conversionDone]
    split
    · simp
    · rename_i q
      refine SameBut.trans ((runningConv_frame s (by decide) (SameBut.refl _ s)).some_same _ q) ?_
      split <;> simp)

@[simp] theorem conversionTimeout_frame (s : State) (h : [.tcam, .ports, .arbs, .tally, .therm, .waitos, .events, .mgmt, .free] ⊆ ps) : SameBut ps z (conversionTimeout s) ↔ SameBut ps z s :=
  SameBut.frame h (by
    dsimp only [conversionTimeout]
    split
    · simp
    · rename_i q
      refine SameBut.trans ((runningConv_frame s (by decide) (SameBut.refl _ s)).some_same _ q) ?_
      simp)

@[simp] theorem calibrationDone_frame (s : State) (h : [.therm, .waitos, .events, .mgmt, .free] ⊆ ps) :
    SameBut ps z (calibrationDone s) ↔ SameBut ps z s :=
  SameBut.frame h (by dsimp only [calibrationDone]; (repeat' split) <;> simp)

@[simp] theorem setGroup_frame (s : State) (g : Nat) (x : MGroup) (h : [.therm] ⊆ ps) :
    SameBut ps z (setGroup s g x) ↔ SameBut ps z s :=
  SameBut.frame h (by unfold setGroup; simp)

@[simp] theorem queueFirst_frame (s : State) (key : Nat) (h : [.integ, .mgmt] ⊆ ps) :
    SameBut ps z (queueFirst s key) ↔ SameBut ps z s :=
  SameBut.frame h (by unfold queueFirst; simp)

@[simp] theorem writeDcol_frame (s : State) (g : Nat) (h : [.sram, .search, .journal, .therm, .integ, .mgmt] ⊆ ps) :
    SameBut ps z (writeDcol s g) ↔ SameBut ps z s :=
  SameBut.frame h (by unfold writeDcol; simp)

@[simp] theorem writeDcols_frame (s : State) (h : [.sram, .search, .journal, .therm, .integ, .mgmt] ⊆ ps) :
    SameBut ps z (writeDcols s) ↔ SameBut ps z s :=
  SameBut.frame h (by unfold writeDcols; simp)

@[simp] theorem setMedia_frame (s : State) (g b : Nat) (v : ℤ) (h : [.sram, .search, .journal, .therm, .integ, .events, .mgmt, .free] ⊆ ps) :
    SameBut ps z (setMedia s g b v) ↔ SameBut ps z s :=
  SameBut.frame h (by unfold setMedia; simp)

@[simp] theorem mediaStep_frame (s : State) (g : Nat) (v : ℤ) (floor : Nat) (h : [.sram, .search, .journal, .therm, .integ, .events, .mgmt, .free] ⊆ ps) :
    SameBut ps z (mediaStep s g v floor) ↔ SameBut ps z s :=
  SameBut.frame h (by unfold mediaStep; simp)

@[simp] theorem tempEntry_frame (s : State) (p g : Nat) (v : ℤ) (h : [.sram, .search, .journal, .therm, .integ, .events, .mgmt, .free] ⊆ ps) :
    SameBut ps z (tempEntry s p g v) ↔ SameBut ps z s :=
  SameBut.frame h (by unfold tempEntry; simp)

@[simp] theorem tempReport_frame (s : State) (p : Nat) (h : [.sram, .search, .ports, .tally, .journal, .therm, .integ, .events, .mgmt, .free] ⊆ ps) :
    SameBut ps z (tempReport s p) ↔ SameBut ps z s :=
  SameBut.frame h (by unfold tempReport; split <;> simp)

@[simp] theorem staleGroup_frame (s : State) (g : Nat) (h : [.sram, .search, .journal, .therm, .integ, .events, .mgmt, .free] ⊆ ps) : SameBut ps z (staleGroup s g) ↔ SameBut ps z s :=
  SameBut.frame h (by
    -- The kernel is not to run the sweep that the body matches on: it stands as a variable from here on.
    generalize e : staleGroup = f
    delta staleGroup at e
    revert e
    generalize freshMax = fresh
    revert fresh
    refine id ?_
    intro fresh e
    subst e
    beta_reduce
    extract_lets p x u
    have marked : SameBut [.sram, .search, .journal, .therm, .integ, .events, .mgmt, .free] s u := by
      unfold u
      split
      · simp
      · exact SameBut.trans (t := countTh (setGroup s g { x with stale := true }) 8 1) (by simp) ((event_same ..).mono (by decide))
    split <;> simp [SameBut.into marked])

end Sys2Proof.Machine
end

section
/-! ## Frames: Integrity
What the operations of the model's file Integrity leave unchanged. -/

namespace Sys2Proof.Machine

open Sys2Proof

variable {ps : List Part} {z : State}

@[simp] theorem cloneOut_frame (s : State) (src dst mode : Nat) (h : [.update] ⊆ ps) :
    SameBut ps z (cloneOut s src dst mode) ↔ SameBut ps z s :=
  SameBut.frame h (by unfold cloneOut; simp)

@[simp] theorem opData_frame (s : State) (h_ : Nat) (obj : Nat × Nat) (l : List Nat) (h : [.waitos] ⊆ ps) :
    SameBut ps z (opData s h_ obj l) ↔ SameBut ps z s :=
  SameBut.frame h (by unfold opData; split <;> simp)

@[simp] theorem moveOut_frame (s : State) (h_ b dst : Nat) (h : [.update, .waitos] ⊆ ps) :
    SameBut ps z (moveOut s h_ b dst) ↔ SameBut ps z s :=
  SameBut.frame h (by unfold moveOut; simp)

@[simp] theorem startTest_frame (s : State) (w : Nat) (h : [.tcam, .marker, .sram, .update, .journal, .waitos, .events, .mgmt, .free] ⊆ ps) : SameBut ps z (startTest s w).1 ↔ SameBut ps z s :=
  SameBut.frame h (by
    dsimp only [startTest]
    split
    · simp
    split
    · simp
    split
    · simp
    split
    · simp
    · rename_i q
      exact (startOp_some q (by decide)).trans (by simp))

@[simp] theorem startTests_frame (s : State) (h : [.tcam, .marker, .sram, .update, .journal, .integ, .waitos, .events, .mgmt, .free] ⊆ ps) : SameBut ps z (startTests s) ↔ SameBut ps z s :=
  SameBut.frame h (by dsimp only [startTests]; split <;> simp)

@[simp] theorem askTest_frame (s : State) (w : Nat) (h : [.integ] ⊆ ps) :
    SameBut ps z (askTest s w) ↔ SameBut ps z s :=
  SameBut.frame h (by unfold askTest; simp)

@[simp] theorem selfTestRotation_frame (s : State) (h : [.tcam, .marker, .sram, .update, .journal, .integ, .waitos, .events, .mgmt, .free] ⊆ ps) :
    SameBut ps z (selfTestRotation s) ↔ SameBut ps z s :=
  SameBut.frame h (by dsimp only [selfTestRotation]; split <;> simp)

@[simp] theorem bankSelfTest_frame (s : State) (b : Nat) (result : BitVec 4) (h : [.tcam, .therm, .waitos] ⊆ ps) :
    SameBut ps z (bankSelfTest s b result) ↔ SameBut ps z s :=
  SameBut.frame h (by unfold bankSelfTest; simp)

@[simp] theorem selfTestDone_frame (s : State) (b : Nat) (h : [.tcam, .marker, .sram, .update, .journal, .integ, .waitos, .events, .mgmt, .free] ⊆ ps) :
    SameBut ps z (selfTestDone s b) ↔ SameBut ps z s :=
  SameBut.frame h (by dsimp only [selfTestDone]; (repeat' split) <;> simp)

@[simp] theorem setTrack_frame (s : State) (i : Nat) (x : Track) (h : [.integ] ⊆ ps) :
    SameBut ps z (setTrack s i x) ↔ SameBut ps z s :=
  SameBut.frame h (by unfold setTrack; simp)

@[simp] theorem freeTrack_frame (s : State) (h : [.mgmt] ⊆ ps) :
    SameBut ps z (freeTrack s).2 ↔ SameBut ps z s :=
  SameBut.frame h (by dsimp only [freeTrack]; (repeat' split) <;> simp)

@[simp] theorem trackerReport_frame (s : State) (h : [.tcam, .marker, .sram, .update, .journal, .integ, .waitos, .events, .mgmt, .free] ⊆ ps) :
    SameBut ps z (trackerReport s) ↔ SameBut ps z s :=
  SameBut.frame h (by dsimp only [trackerReport]; (repeat' split) <;> simp)

@[simp] theorem writeBackWord_frame (s : State) (key : Nat) (h : [.sram, .mgmt] ⊆ ps) :
    SameBut ps z (writeBackWord s key) ↔ SameBut ps z s :=
  SameBut.frame h (by unfold writeBackWord; simp)

@[simp] theorem scrubWord_frame (s : State) (key : Nat) (h : [.sram, .integ, .events, .mgmt, .free] ⊆ ps) :
    SameBut ps z (scrubWord s key) ↔ SameBut ps z s :=
  SameBut.frame h (by unfold scrubWord; simp)

@[simp] theorem writeBack_frame (s : State) (a : BitVec 28) (h : [.sram, .integ, .mgmt] ⊆ ps) :
    SameBut ps z (writeBack s a) ↔ SameBut ps z s :=
  SameBut.frame h (by unfold writeBack; split <;> simp)

@[simp] theorem spareCopy_frame (s : State) (key : Nat) (h : [.sram, .integ, .mgmt] ⊆ ps) :
    SameBut ps z (spareCopy s key) ↔ SameBut ps z s :=
  SameBut.frame h (by unfold spareCopy; simp)

@[simp] theorem addRecord_frame (s : State) (r : Word) (h : [.integ] ⊆ ps) :
    SameBut ps z (addRecord s r) ↔ SameBut ps z s :=
  SameBut.frame h (by unfold addRecord; simp)

@[simp] theorem freeTracks_frame (s : State) (p : Track → Bool) (h : [.integ] ⊆ ps) :
    SameBut ps z (freeTracks s p) ↔ SameBut ps z s :=
  SameBut.frame h (by unfold freeTracks; simp)

@[simp] theorem spareRow_frame (s : State) (a : BitVec 28) (spare : Nat) (h : [.sram, .integ, .mgmt] ⊆ ps) :
    SameBut ps z (spareRow s a spare) ↔ SameBut ps z s :=
  SameBut.frame h (by unfold spareRow; simp)

@[simp] theorem spareColumn_frame (s : State) (m b spare : Nat) (h : [.sram, .integ, .mgmt] ⊆ ps) :
    SameBut ps z (spareColumn s m b spare) ↔ SameBut ps z s :=
  SameBut.frame h (by unfold spareColumn; simp)

@[simp] theorem spareNone_frame (s : State) (m kind : Nat) (h : [.events, .free] ⊆ ps) :
    SameBut ps z (spareNone s m kind) ↔ SameBut ps z s :=
  SameBut.frame h (by unfold spareNone; simp)

@[simp] theorem rowSparing_frame (s : State) (a : BitVec 28) (h : [.sram, .integ, .waitos, .events, .mgmt, .free] ⊆ ps) : SameBut ps z (rowSparing s a) ↔ SameBut ps z s :=
  SameBut.frame h (by
    dsimp only [rowSparing]
    split
    · simp
    generalize (_ || _) = spared
    split
    · simp
    split
    · exact (autoWithin_frame (by decide) (fun u => by simp)).2 (SameBut.refl _ s)
    · simp)

@[simp] theorem columnSparing_frame (s : State) (a : BitVec 28) (b : Nat) (h : [.sram, .integ, .waitos, .events, .mgmt, .free] ⊆ ps) : SameBut ps z (columnSparing s a b) ↔ SameBut ps z s :=
  SameBut.frame h (by
    dsimp only [columnSparing]
    split
    · simp
    split
    · exact (autoWithin_frame (by decide) (fun u => by simp)).2 (SameBut.refl _ s)
    · simp)

@[simp] theorem programRecord_frame (s : State) (ok0 ok1 : Bool) (h : [.fuses, .integ, .events, .free] ⊆ ps) :
    SameBut ps z (programRecord s ok0 ok1) ↔ SameBut ps z s :=
  SameBut.frame h (by unfold programRecord; split <;> simp)

@[simp] theorem scrubPair_frame (s : State) (t b r n : Nat) (h : [.clock, .tcam, .sram, .integ, .events, .mgmt, .free] ⊆ ps) : SameBut ps z (scrubPair s t b r n) ↔ SameBut ps z s :=
  SameBut.frame h (by
    dsimp only [scrubPair]
    generalize hp : resolvePair s t _ b _ _ _ _ true = x
    have k : SameBut [.clock, .tcam, .sram, .integ, .events, .mgmt, .free] s x.2 := by
      rw [← hp]
      exact (resolvePair_frame _ _ _ _ _ _ _ _ _ (by decide) (fun u y => by simp)).2 (SameBut.refl _ s)
    (repeat' split) <;> simp [SameBut.into k])

@[simp] theorem scrubEntry_frame (s : State) (t b r h_ : Nat) (h : [.clock, .tcam, .sram, .integ, .events, .mgmt, .free] ⊆ ps) :
    SameBut ps z (scrubEntry s t b r h_) ↔ SameBut ps z s :=
  SameBut.frame h (by unfold scrubEntry; simp)

@[simp] theorem scrubRowAt_frame (s : State) (b r : Nat) (h : [.clock, .tcam, .sram, .integ, .events, .mgmt, .free] ⊆ ps) :
    SameBut ps z (scrubRowAt s b r) ↔ SameBut ps z s :=
  SameBut.frame h (by unfold scrubRowAt; split <;> simp)

@[simp] theorem bankScrub_frame (s : State) (e : Nat) (h : [.clock, .tcam, .sram, .update, .integ, .events, .mgmt, .free] ⊆ ps) :
    SameBut ps z (bankScrub s e) ↔ SameBut ps z s :=
  SameBut.frame h (by dsimp only [bankScrub]; split <;> simp)

@[simp] theorem sramScrub_frame (s : State) (e : Nat) (h : [.sram, .update, .integ, .events, .mgmt, .free] ⊆ ps) :
    SameBut ps z (sramScrub s e) ↔ SameBut ps z s :=
  SameBut.frame h (by unfold sramScrub; simp)

@[simp] theorem rederiveIndex_frame (s : State) (t key : Nat) (unread : Bool) (h : [.sram, .events, .mgmt, .free] ⊆ ps) :
    SameBut ps z (rederiveIndex s t key unread) ↔ SameBut ps z s :=
  SameBut.frame h (by unfold rederiveIndex; simp)

@[simp] theorem putStored_frame (s : State) (t b r h_ : Nat) (x : Option Stored) (h : [.tcam, .sram, .integ, .events, .mgmt, .free] ⊆ ps) :
    SameBut ps z (putStored s t b r h_ x) ↔ SameBut ps z s :=
  SameBut.frame h (by unfold putStored; split <;> simp)

@[simp] theorem rederiveDest_frame (s : State) (t src b r h_ : Nat) (h : [.tcam, .integ, .mgmt] ⊆ ps) :
    SameBut ps z (rederiveDest s t src b r h_) ↔ SameBut ps z s :=
  SameBut.frame h (by unfold rederiveDest; simp)

@[simp] theorem rederiveEntry_frame (s : State) (b r h_ : Nat) (unread : Bool) (h : [.tcam, .sram, .integ, .events, .mgmt, .free] ⊆ ps) :
    SameBut ps z (rederiveEntry s b r h_ unread) ↔ SameBut ps z s :=
  SameBut.frame h (by dsimp only [rederiveEntry]; (repeat' split) <;> simp)

@[simp] theorem rederiveProfile_frame (s : State) (key : Nat) (h : [.sram, .search, .integ, .mgmt] ⊆ ps) :
    SameBut ps z (rederiveProfile s key) ↔ SameBut ps z s :=
  SameBut.frame h (by unfold rederiveProfile; simp)

@[simp] theorem rederiveWord_frame (s : State) (key : Nat) (unread : Bool) (h : [.tcam, .sram, .search, .journal, .therm, .integ, .events, .mgmt, .free] ⊆ ps) :
    SameBut ps z (rederiveWord s key unread) ↔ SameBut ps z s :=
  SameBut.frame h (by dsimp only [rederiveWord]; (repeat' split) <;> simp)

@[simp] theorem rederiveDir_frame (s : State) (d : Nat) (h : [.marker] ⊆ ps) :
    SameBut ps z (rederiveDir s d) ↔ SameBut ps z s :=
  SameBut.frame h (by unfold rederiveDir; simp)

@[simp] theorem rederive_frame (s : State) (unread : Bool) (h : [.tcam, .marker, .sram, .search, .journal, .therm, .integ, .waitos, .events, .mgmt, .free] ⊆ ps) : SameBut ps z (rederive s unread) ↔ SameBut ps z s :=
  SameBut.frame h (by
    dsimp only [rederive]
    split
    · simp
    · refine (autoWithin_frame (by decide) (fun u => ?_)).2 (by simp)
      split <;> simp)

@[simp] theorem switchAll_frame (s : State) (copy : Nat) (h : [.integ] ⊆ ps) :
    SameBut ps z (switchAll s copy) ↔ SameBut ps z s :=
  SameBut.frame h (by unfold switchAll; simp)

@[simp] theorem coreOut_frame (s : State) (c : Nat) (h : [.integ, .waitos, .events, .free] ⊆ ps) :
    SameBut ps z (coreOut s c) ↔ SameBut ps z s :=
  SameBut.frame h (by unfold coreOut; simp)

@[simp] theorem romTrap_frame (s : State) (c copy word : Nat) (both : Bool) (h : [.integ, .waitos, .events, .mgmt, .free] ⊆ ps) :
    SameBut ps z (romTrap s c copy word both) ↔ SameBut ps z s :=
  SameBut.frame h (by unfold romTrap; simp)

@[simp] theorem dropRecord_frame (s : State) (q : Nat) (n : BitVec 32) (both : Bool) (h : [.events] ⊆ ps) :
    SameBut ps z (dropRecord s q n both) ↔ SameBut ps z s :=
  SameBut.frame h (by dsimp only [dropRecord]; split <;> simp)

@[simp] theorem dropTrace_frame (s : State) (i : Nat) (h : [.events] ⊆ ps) :
    SameBut ps z (dropTrace s i) ↔ SameBut ps z s :=
  SameBut.frame h (by unfold dropTrace; simp)

@[simp] theorem sramRegion_frame (s : State) (r : SramRegion) (h : [.clock, .power, .boot, .dbg, .str, .tcam, .marker, .sram, .search, .update, .life, .ports, .arbs, .tally, .journal, .store, .holdup, .therm, .integ, .waitos, .crew, .events, .mgmt, .free] ⊆ ps) :
    SameBut ps z (sramRegion s r) ↔ SameBut ps z s :=
  SameBut.frame h (by dsimp only [sramRegion]; split <;> simp)

@[simp] theorem scanWord_frame (s : State) (a : BitVec 28) (h : [.sram, .integ, .events, .mgmt, .free] ⊆ ps) :
    SameBut ps z (scanWord s a) ↔ SameBut ps z s :=
  SameBut.frame h (by unfold scanWord; simp)

@[simp] theorem fixWord_frame (s : State) (a : BitVec 28) (syn : Byte) (h : [.integ, .mgmt] ⊆ ps) :
    SameBut ps z (fixWord s a syn) ↔ SameBut ps z s :=
  SameBut.frame h (by unfold fixWord; simp)

@[simp] theorem ueAt_frame (s : State) (a : BitVec 28) (syn : Byte) (h : [.events, .mgmt, .free] ⊆ ps) :
    SameBut ps z (ueAt s a syn) ↔ SameBut ps z s :=
  SameBut.frame h (by unfold ueAt; simp)

@[simp] theorem channelReport_frame (s : State) (kind progress : Nat) (h : [.events, .free] ⊆ ps) :
    SameBut ps z (channelReport s kind progress) ↔ SameBut ps z s :=
  SameBut.frame h (by unfold channelReport; simp)

@[simp] theorem punchHole_frame (s : State) (f r : Nat) (firstOk : Bool) (h : [.journal, .mgmt] ⊆ ps) :
    SameBut ps z (punchHole s f r firstOk) ↔ SameBut ps z s :=
  SameBut.frame h (by unfold punchHole; simp)

@[simp] theorem haltOut_frame (s : State) (p k : Nat) (x : Stream) (b : Nat) (l : Loc) (h : [.update, .ports, .tally, .events, .mgmt, .free] ⊆ ps) :
    SameBut ps z (haltOut s p k x b l) ↔ SameBut ps z s :=
  SameBut.frame h (by unfold haltOut; simp)

@[simp] theorem haltDump_frame (s : State) (p k : Nat) (h : [.sram, .update, .ports, .tally, .integ, .events, .mgmt, .free] ⊆ ps) :
    SameBut ps z (haltDump s p k) ↔ SameBut ps z s :=
  SameBut.frame h (by dsimp only [haltDump]; (repeat' split) <;> simp)

@[simp] theorem haltCloneOf_frame (s : State) (e : Nat) (h : [.tcam, .update, .ports, .tally, .events, .mgmt, .free] ⊆ ps) :
    SameBut ps z (haltCloneOf s e) ↔ SameBut ps z s :=
  SameBut.frame h (by dsimp only [haltCloneOf]; (repeat' split) <;> simp)

@[simp] theorem endCloneOp_frame (s : State) (dst : Nat) (h : [.waitos, .events, .free] ⊆ ps) :
    SameBut ps z (endCloneOp s dst) ↔ SameBut ps z s :=
  SameBut.frame h (by unfold endCloneOp; split <;> simp)

@[simp] theorem haltClone_frame (s : State) (e row : Nat) (unread : Bool) (h : [.tcam, .sram, .update, .ports, .tally, .journal, .integ, .events, .mgmt, .free] ⊆ ps) :
    SameBut ps z (haltClone s e row unread) ↔ SameBut ps z s :=
  SameBut.frame h (by unfold haltClone; split <;> simp)

@[simp] theorem channelHalt_frame (s : State) (c : HaltCase) (h : [.tcam, .sram, .search, .update, .ports, .tally, .journal, .store, .therm, .integ, .events, .mgmt, .free] ⊆ ps) :
    SameBut ps z (channelHalt s c) ↔ SameBut ps z s :=
  SameBut.frame h (by unfold channelHalt; split <;> simp)

@[simp] theorem etRun_frame {s : State} {who : Requester} {f : State → Status × State} (h : [.integ] ⊆ ps) (hf : ∀ u, SameBut ps u (f u).2) :
    SameBut ps z (etRun s who f) ↔ SameBut ps z s := by
  simp only [List.cons_subset] at h
  dsimp only [etRun]
  (repeat' split) <;> simp [h, SameBut.into (hf s)]

@[simp] theorem rawRead_frame (s : State) (h : [.sram, .integ] ⊆ ps) :
    SameBut ps z (rawRead s).2 ↔ SameBut ps z s :=
  SameBut.frame h (by unfold rawRead; split <;> simp)

@[simp] theorem rawWrite_frame (s : State) (h : [.sram] ⊆ ps) :
    SameBut ps z (rawWrite s).2 ↔ SameBut ps z s :=
  SameBut.frame h (by unfold rawWrite; split <;> simp)

@[simp] theorem injectAt_frame (s : State) (h : [.sram] ⊆ ps) :
    SameBut ps z (injectAt s).2 ↔ SameBut ps z s :=
  SameBut.frame h (by unfold injectAt; split <;> simp)

@[simp] theorem trdRead_frame (s : State) (h : [.integ] ⊆ ps) :
    SameBut ps z (trdRead s).2 ↔ SameBut ps z s :=
  SameBut.frame h (by unfold trdRead; split <;> simp)

@[simp] theorem twrWrite_frame (s : State) (h : [.tcam] ⊆ ps) :
    SameBut ps z (twrWrite s).2 ↔ SameBut ps z s :=
  SameBut.frame h (by unfold twrWrite; split <;> simp)

end Sys2Proof.Machine
end

section
/-! ## Frames: Arbiters
What the operations of the model's file Arbiters leave unchanged. -/

namespace Sys2Proof.Machine

open Sys2Proof

variable {ps : List Part} {z : State}

@[simp] theorem cutSearch_frame (s : State) (a c : Nat) (h : [.search] ⊆ ps) :
    SameBut ps z (cutSearch s a c) ↔ SameBut ps z s :=
  SameBut.frame h (by unfold cutSearch; split <;> simp)

@[simp] theorem cutCoal_frame (s : State) (a : Nat) (h : [.sram, .update, .ports, .tally, .events, .mgmt, .free] ⊆ ps) :
    SameBut ps z (cutCoal s a) ↔ SameBut ps z s :=
  SameBut.frame h (by unfold cutCoal; split <;> simp)

@[simp] theorem cutRepair_frame (s : State) (a : Nat) (h : [.tcam] ⊆ ps) :
    SameBut ps z (cutRepair s a) ↔ SameBut ps z s :=
  SameBut.frame h (by unfold cutRepair; simp)

@[simp] theorem cutUpdate_frame (s : State) (a : Nat) (h : [.tcam, .sram, .update, .ports, .tally, .events, .mgmt, .free] ⊆ ps) :
    SameBut ps z (cutUpdate s a) ↔ SameBut ps z s :=
  SameBut.frame h (by dsimp only [cutUpdate]; (repeat' split) <;> simp)

@[simp] theorem cutRefresh_frame (s : State) (a : Nat) (h : [.tcam, .events, .free] ⊆ ps) :
    SameBut ps z (cutRefresh s a) ↔ SameBut ps z s :=
  SameBut.frame h (by unfold cutRefresh; simp)

@[simp] theorem cutClone_frame (s : State) (a : Nat) (h : [.tcam, .update, .ports, .tally, .waitos, .events, .mgmt, .free] ⊆ ps) :
    SameBut ps z (cutClone s a) ↔ SameBut ps z s :=
  SameBut.frame h (by unfold cutClone; split <;> simp)

@[simp] theorem stallCutoff_frame (s : State) (a : Nat) (h : [.tcam, .sram, .search, .update, .ports, .arbs, .tally, .waitos, .events, .mgmt, .free] ⊆ ps) :
    SameBut ps z (stallCutoff s a) ↔ SameBut ps z s :=
  SameBut.frame h (by dsimp only [stallCutoff]; split <;> simp)

@[simp] theorem writeDfrz_frame (s : State) (k : Nat) (v : Reg) (h : [.arbs] ⊆ ps) :
    SameBut ps z (writeDfrz s k v) ↔ SameBut ps z s :=
  SameBut.frame h (by unfold writeDfrz; simp)

@[simp] theorem freezeTimeout_frame (s : State) (g : Nat) (h : [.arbs, .events, .free] ⊆ ps) :
    SameBut ps z (freezeTimeout s g) ↔ SameBut ps z s :=
  SameBut.frame h (by unfold freezeTimeout; simp)

@[simp] theorem snapArb_frame (s : State) (a : Nat) (clr : Bool) (h : [.arbs] ⊆ ps) :
    SameBut ps z (snapArb s a clr) ↔ SameBut ps z s :=
  SameBut.frame h (by unfold snapArb; simp)

@[simp] theorem snapFor_frame (s : State) (who : Requester) (clr : Bool) (h : [.arbs] ⊆ ps) :
    SameBut ps z (snapFor s who clr) ↔ SameBut ps z s :=
  SameBut.frame h (by unfold snapFor; simp)

@[simp] theorem latchAll_frame (s : State) (h : [.arbs, .events] ⊆ ps) :
    SameBut ps z (latchAll s) ↔ SameBut ps z s :=
  SameBut.frame h (by unfold latchAll; simp)

@[simp] theorem shareRej_frame (s : State) (t : Nat) (h : [.str] ⊆ ps) :
    SameBut ps z (shareRej s t) ↔ SameBut ps z s :=
  SameBut.frame h (by unfold shareRej; simp)

@[simp] theorem commitShare_frame (s : State) (t : Nat) (h : [.str, .journal, .mgmt] ⊆ ps) :
    SameBut ps z (commitShare s t) ↔ SameBut ps z s :=
  SameBut.frame h (by unfold commitShare; simp)

@[simp] theorem switchTables_frame (s : State) (h : [.str] ⊆ ps) :
    SameBut ps z (switchTables s) ↔ SameBut ps z s :=
  SameBut.frame h (by unfold switchTables; simp)

@[simp] theorem refillAll_frame (s : State) (h : [.arbs] ⊆ ps) :
    SameBut ps z (refillAll s) ↔ SameBut ps z s :=
  SameBut.frame h (by unfold refillAll; simp)

@[simp] theorem paceAll_frame (s : State) (h : [.ports] ⊆ ps) :
    SameBut ps z (paceAll s) ↔ SameBut ps z s :=
  SameBut.frame h (by unfold paceAll; simp)

end Sys2Proof.Machine
end

section
/-! ## Frames: Tally
What the operations of the model's file Tally leave unchanged. -/

namespace Sys2Proof.Machine

open Sys2Proof

variable {ps : List Part} {z : State}

@[simp] theorem auditAll_frame (s : State) (h : [.tally, .events, .free] ⊆ ps) :
    SameBut ps z (auditAll s) ↔ SameBut ps z s :=
  SameBut.frame h (by unfold auditAll; split <;> simp)

@[simp] theorem setTval_frame (s : State) (side : Bool) (ws : List Reg) (h : [.tally] ⊆ ps) :
    SameBut ps z (setTval s side ws) ↔ SameBut ps z s :=
  SameBut.frame h (by unfold setTval; simp)

@[simp] theorem sampleFor_frame (s : State) (who : Requester) (h : [.tally] ⊆ ps) :
    SameBut ps z (sampleFor s who) ↔ SameBut ps z s :=
  SameBut.frame h (by unfold sampleFor; simp)

end Sys2Proof.Machine
end

section
/-! ## Frames: Crew
What the operations of the model's file Crew leave unchanged. -/

namespace Sys2Proof.Machine

open Sys2Proof

variable {ps : List Part} {z : State}

@[simp] theorem crewDup_frame (s : State) (p tag : Nat) (h : [.events, .mgmt, .free] ⊆ ps) :
    SameBut ps z (crewDup s p tag) ↔ SameBut ps z s :=
  SameBut.frame h (by unfold crewDup; simp)

@[simp] theorem takeFwd_frame (s : State) (k : Nat) (h : [.marker, .sram, .search, .ports, .tally, .integ, .events, .mgmt, .free] ⊆ ps) :
    SameBut ps z (takeFwd s k) ↔ SameBut ps z s :=
  SameBut.frame h (by dsimp only [takeFwd]; (repeat' split) <;> simp)

@[simp] theorem takeProbe_frame (s : State) (k : Nat) (h : [.marker, .search, .ports, .tally, .integ, .events, .mgmt, .free] ⊆ ps) :
    SameBut ps z (takeProbe s k) ↔ SameBut ps z s :=
  SameBut.frame h (by dsimp only [takeProbe]; split <;> simp)

@[simp] theorem takeFans_frame (s : State) (k : Nat) (h : [.search, .ports, .tally, .events, .mgmt, .free] ⊆ ps) :
    SameBut ps z (takeFans s k) ↔ SameBut ps z s :=
  SameBut.frame h (by dsimp only [takeFans]; (repeat' split) <;> simp)

@[simp] theorem takePans_frame (s : State) (k : Nat) (h : [.search, .ports, .tally, .events, .mgmt, .free] ⊆ ps) :
    SameBut ps z (takePans s k) ↔ SameBut ps z s :=
  SameBut.frame h (by dsimp only [takePans]; (repeat' split) <;> simp)

@[simp] theorem rebalEvent_frame (s : State) (h : [.events, .free] ⊆ ps) :
    SameBut ps z (rebalEvent s) ↔ SameBut ps z s :=
  SameBut.frame h (by unfold rebalEvent; simp)

@[simp] theorem rebalProgress_frame (s : State) (h : [.waitos] ⊆ ps) :
    SameBut ps z (rebalProgress s) ↔ SameBut ps z s :=
  SameBut.frame h (by unfold rebalProgress; split <;> simp)

@[simp] theorem sendRebal_frame (s : State) (rs : List Nat) (h : [.ports, .tally, .crew, .events, .mgmt, .free] ⊆ ps) :
    SameBut ps z (sendRebal s rs) ↔ SameBut ps z s :=
  SameBut.frame h (by unfold sendRebal; simp)

@[simp] theorem rebalPhase_frame {s : State} {ph cur : Nat} {f : State → State} (h : [.journal, .waitos, .crew, .events, .mgmt, .free] ⊆ ps) (hf : ∀ u, SameBut ps u (f u)) :
    SameBut ps z (rebalPhase s ph cur f) ↔ SameBut ps z s :=
  rebalStep_frame (List.Subset.trans (by decide) h) (fun u => SameBut.trans (by simp only [List.cons_subset] at h; simp [h]) (hf (rebalProgress (rebalEvent u))))

@[simp] theorem rebalWrite_frame (s : State) (h : [.tcam, .marker, .sram, .update, .ports, .tally, .journal, .integ, .events, .mgmt, .free] ⊆ ps) : SameBut ps z (rebalWrite s) ↔ SameBut ps z s :=
  SameBut.frame h (by
    unfold rebalWrite
    extract_lets c put
    have framed : ∀ u g r, SameBut [.tcam, .marker, .sram, .update, .ports, .tally, .journal, .integ, .events, .mgmt, .free] u (put u g r) := fun u g r => by
      dsimp only [put]
      split <;> simp
    exact (framed s c.gran.toNat c.dst.toNat).trans (framed _ c.part.toNat c.src.toNat))

@[simp] theorem rebalSwitchHere_frame (s : State) (h : [.tcam, .marker, .sram, .update, .ports, .tally, .journal, .integ, .crew, .events, .mgmt, .free] ⊆ ps) :
    SameBut ps z (rebalSwitchHere s) ↔ SameBut ps z s :=
  SameBut.frame h (by unfold rebalSwitchHere; simp)

@[simp] theorem rebalSwitched_frame (s : State) (h : [.tcam, .marker, .sram, .update, .ports, .tally, .journal, .integ, .waitos, .crew, .events, .mgmt, .free] ⊆ ps) : SameBut ps z (rebalSwitched s) ↔ SameBut ps z s :=
  SameBut.frame h (by
    dsimp only [rebalSwitched]
    split
    · exact (rebalPhase_frame (by decide) (fun u => by simp)).2 (by simp)
    · simp)

@[simp] theorem rebalSwitch_frame (s : State) (h : [.tcam, .marker, .sram, .update, .ports, .tally, .journal, .integ, .waitos, .crew, .events, .mgmt, .free] ⊆ ps) : SameBut ps z (rebalSwitch s) ↔ SameBut ps z s :=
  SameBut.frame h ((rebalPhase_frame (by decide) (fun u => by simp)).2 (SameBut.refl _ s))

@[simp] theorem rebalFinish_frame (s : State) (h : [.tcam, .marker, .sram, .search, .update, .life, .ports, .tally, .journal, .integ, .waitos, .crew, .events, .mgmt, .free] ⊆ ps) : SameBut ps z (rebalFinish s) ↔ SameBut ps z s :=
  SameBut.frame h (by
    dsimp only [rebalFinish]
    split
    · simp
    · exact (rebalPhase_frame (by decide) (fun u => by split <;> simp)).2 (by simp))

@[simp] theorem rebalAcked_frame (s : State) (r ph : Nat) (h : [.tcam, .marker, .sram, .search, .update, .life, .ports, .tally, .journal, .integ, .waitos, .crew, .events, .mgmt, .free] ⊆ ps) :
    SameBut ps z (rebalAcked s r ph) ↔ SameBut ps z s :=
  SameBut.frame h (by unfold rebalAcked; simp)

@[simp] theorem rebalNoteIn_frame (s : State) (x : Slot) (h : [.tcam, .marker, .sram, .update, .ports, .tally, .journal, .integ, .waitos, .crew, .events, .mgmt, .free] ⊆ ps) : SameBut ps z (rebalNoteIn s x) ↔ SameBut ps z s :=
  SameBut.frame h (by dsimp only [rebalNoteIn]; simp)

theorem crewNote_some {s u : State} {k op : Nat} {x : Slot} (q : crewNote s k op = some (x, u)) (h : [.ports, .tally, .events, .free] ⊆ ps) : SameBut ps s u := by
  simp only [List.cons_subset] at h
  unfold crewNote at q
  split at q
  · split at q
    · cases q
      simp [h]
    · cases q
  · cases q

@[simp] theorem rebalReport_frame (p : Nat) (s : State) (l : List Byte) (h : [.tcam, .marker, .sram, .search, .update, .life, .ports, .tally, .journal, .integ, .waitos, .crew, .events, .mgmt, .free] ⊆ ps) : SameBut ps z (rebalReport p s l).2 ↔ SameBut ps z s :=
  SameBut.frame h (by
    have told : ∀ v n, SameBut [.tcam, .marker, .sram, .search, .update, .life, .ports, .tally, .journal, .integ, .waitos, .crew, .events, .mgmt, .free] s (rebalPhase s v n (fun s => sendRebal s [s.crew.dst.toNat])) := fun v n =>
      (rebalPhase_frame (by decide) (fun u => by simp)).2 (SameBut.refl _ s)
    dsimp only [rebalReport]
    split
    · simp
    split
    · split
      · simp
      split
      · simp
      split
      · simp
      split
      · simp
      split
      · exact SameBut.ite_snd_iff.2 (by split <;> exact told _ _)
      · exact SameBut.ite_snd_iff.2 (by split <;> exact told _ _)
    · (repeat' split) <;> simp)

@[simp] theorem runReport_frame (s : State) (w : Client) (h : [.tcam, .marker, .sram, .search, .update, .life, .ports, .tally, .journal, .integ, .waitos, .crew, .events, .mgmt, .free] ⊆ ps) : SameBut ps z (runReport s w) ↔ SameBut ps z s :=
  SameBut.frame h ((runReq_frame (by decide) (fun u l => by simp)).2 (SameBut.refl _ s))

@[simp] theorem answerReports_frame (s : State) (h : [.tcam, .marker, .sram, .search, .update, .life, .ports, .tally, .journal, .integ, .waitos, .crew, .events, .mgmt, .free] ⊆ ps) :
    SameBut ps z (answerReports s) ↔ SameBut ps z s :=
  SameBut.frame h (by unfold answerReports; simp)

@[simp] theorem rebalAskAll_frame (s : State) (g h_ b : Nat) (h : [.ports, .tally, .crew, .events, .mgmt, .free] ⊆ ps) :
    SameBut ps z (rebalAskAll s g h_ b) ↔ SameBut ps z s :=
  SameBut.frame h (by unfold rebalAskAll; simp)

@[simp] theorem rebalStart_frame (s : State) (w : Client) (g n b : Nat) (h : [.ports, .tally, .journal, .waitos, .crew, .events, .mgmt, .free] ⊆ ps) : SameBut ps z (rebalStart s w g n b).2 ↔ SameBut ps z s :=
  SameBut.frame h (by
    dsimp only [rebalStart]
    split
    · simp
    · exact (startReply_frame (by decide) (fun n u => (rebalStep_frame (by decide) (fun v => by simp)).2 (SameBut.refl _ u))).2 (SameBut.refl _ s))

@[simp] theorem rebalBegin_frame (s : State) (w : Client) (g b : Nat) (h : [.ports, .tally, .journal, .waitos, .crew, .events, .mgmt, .free] ⊆ ps) :
    SameBut ps z (rebalBegin s w g b).2 ↔ SameBut ps z s :=
  SameBut.frame h (by dsimp only [rebalBegin]; (repeat' split) <;> simp)

@[simp] theorem runBegin_frame (s : State) (w : Client) (h : [.ports, .tally, .journal, .waitos, .crew, .events, .mgmt, .free] ⊆ ps) : SameBut ps z (runBegin s w) ↔ SameBut ps z s :=
  SameBut.frame h ((runReq_frame (by decide) (fun u l => by simp)).2 (SameBut.refl _ s))

@[simp] theorem rebalAnswer_frame (s : State) (q : RebalAsk) (r v : Nat) (h : [.ports, .tally, .journal, .waitos, .crew, .events, .mgmt, .free] ⊆ ps) :
    SameBut ps z (rebalAnswer s q r v) ↔ SameBut ps z s :=
  SameBut.frame h (by dsimp only [rebalAnswer]; (repeat' split) <;> simp)

@[simp] theorem rebalAgain_frame (s : State) (r : Nat) (h : [.ports, .tally, .events, .mgmt, .free] ⊆ ps) :
    SameBut ps z (rebalAgain s r) ↔ SameBut ps z s :=
  SameBut.frame h (by unfold rebalAgain; simp)

@[simp] theorem crewReadyIn_frame (s : State) (x : Slot) (h : [.clock, .ports, .tally, .crew, .events, .mgmt, .free] ⊆ ps) :
    SameBut ps z (crewReadyIn s x) ↔ SameBut ps z s :=
  SameBut.frame h (by unfold crewReadyIn; simp)

@[simp] theorem rebalPoll_frame (s : State) (h : [.tcam, .marker, .sram, .search, .update, .life, .ports, .tally, .journal, .integ, .waitos, .crew, .events, .mgmt, .free] ⊆ ps) :
    SameBut ps z (rebalPoll s) ↔ SameBut ps z s :=
  SameBut.frame h (by unfold rebalPoll; simp)

@[simp] theorem crewReset_frame (s : State) (h : [.clock, .power, .boot, .dbg, .str, .tcam, .marker, .sram, .search, .update, .life, .ports, .arbs, .tally, .journal, .store, .holdup, .therm, .integ, .waitos, .crew, .events, .mgmt, .free] ⊆ ps) :
    SameBut ps z (crewReset s) ↔ SameBut ps z s :=
  SameBut.frame h (by unfold crewReset; simp)

@[simp] theorem startCrewReset_frame (s : State) (h : [.clock, .power, .boot, .dbg, .str, .tcam, .marker, .sram, .search, .update, .life, .ports, .arbs, .tally, .journal, .store, .holdup, .therm, .integ, .waitos, .crew, .events, .mgmt, .free] ⊆ ps) :
    SameBut ps z (startCrewReset s) ↔ SameBut ps z s :=
  SameBut.frame h (by unfold startCrewReset; simp)

end Sys2Proof.Machine
end

section
/-! ## Frames: EventCmds
What the operations of the model's file EventCmds leave unchanged. -/

namespace Sys2Proof.Machine

open Sys2Proof

variable {ps : List Part} {z : State}

@[simp] theorem closeOld_frame (s : State) (q : Nat) (h : [.events] ⊆ ps) :
    SameBut ps z (closeOld s q) ↔ SameBut ps z s :=
  SameBut.frame h (by unfold closeOld; simp)

@[simp] theorem readHead_frame (s : State) (q : Nat) (h : [.events] ⊆ ps) :
    SameBut ps z (readHead s q) ↔ SameBut ps z s :=
  SameBut.frame h (by dsimp only [readHead]; split <;> simp)

@[simp] theorem popHead_frame (s : State) (q : Nat) (v : Reg) (h : [.events] ⊆ ps) :
    SameBut ps z (popHead s q v) ↔ SameBut ps z s :=
  SameBut.frame h (by dsimp only [popHead]; split <;> simp)

@[simp] theorem clearLost_frame (s : State) (q : Nat) (h : [.events] ⊆ ps) :
    SameBut ps z (clearLost s q) ↔ SameBut ps z s :=
  SameBut.frame h (by unfold clearLost; simp)

@[simp] theorem askSnap_frame (s : State) (h : [.events] ⊆ ps) :
    SameBut ps z (askSnap s) ↔ SameBut ps z s :=
  SameBut.frame h (by unfold askSnap; simp)

@[simp] theorem setFreeze_frame (s : State) (v : Bool) (h : [.events] ⊆ ps) :
    SameBut ps z (setFreeze s v) ↔ SameBut ps z s :=
  SameBut.frame h (by unfold setFreeze; simp)

@[simp] theorem clearTrace_frame (s : State) (h : [.events] ⊆ ps) :
    SameBut ps z (clearTrace s) ↔ SameBut ps z s :=
  SameBut.frame h (by unfold clearTrace; simp)

end Sys2Proof.Machine
end

section
/-! ## Frames: RegRead
What the operations of the model's file RegRead leave unchanged. -/

namespace Sys2Proof.Machine

open Sys2Proof

variable {ps : List Part} {z : State}

@[simp] theorem regRead_frame (s : State) (who : Requester) (off : Nat) (h : [.events, .mgmt] ⊆ ps) : SameBut ps z (regRead s who off).2.2 ↔ SameBut ps z s :=
  SameBut.frame h (by dsimp only [regRead]; (repeat' split) <;> simp)

end Sys2Proof.Machine
end

section
/-! ## Frames: RegWrite
What the operations of the model's file RegWrite leave unchanged. -/

namespace Sys2Proof.Machine

open Sys2Proof

variable {ps : List Part} {z : State}

theorem coreOnly_frame {who : Requester} {s : State} {w : Wrote} (k : SameBut ps s w.2) : SameBut ps s (coreOnly who s w).2 := by
  unfold coreOnly
  split
  · exact k
  · exact SameBut.refl ps s

theorem SameBut.of_ite_snd {α : Type} {c : Prop} [Decidable c] {s : State} {x y : α × State} (hx : SameBut ps s x.2) (hy : SameBut ps s y.2) :
    SameBut ps s (if c then x else y).2 := by
  split
  · exact hx
  · exact hy

theorem trigger_keeps {v : Reg} {i : Nat} {f : State → State} {s t : State} (k : SameBut ps s t) (hf : ∀ u, SameBut ps u (f u)) :
    SameBut ps s (trigger v i f t) := by
  unfold trigger
  split
  · exact k.trans (hf t)
  · exact k

@[simp] theorem setSels_frame (s : State) (who : Requester) (f : Sels → Sels) (h : [.mgmt] ⊆ ps) :
    SameBut ps z (setSels s who f) ↔ SameBut ps z s :=
  SameBut.frame h (by unfold setSels; simp)

@[simp] theorem selWrite_frame (s : State) (who : Requester) (f : Sels → Sels) (h : [.mgmt] ⊆ ps) :
    SameBut ps z (selWrite s who f).2 ↔ SameBut ps z s :=
  SameBut.frame h (by unfold selWrite; simp)

@[simp] theorem putSet_frame (s : State) (n : Nat) (x : RegSet) (h : [.update] ⊆ ps) :
    SameBut ps z (putSet s n x) ↔ SameBut ps z s :=
  SameBut.frame h (by unfold putSet; simp)

@[simp] theorem goSet_frame (s : State) (n : Nat) (h : [.update, .ports, .tally, .events, .mgmt, .free] ⊆ ps) :
    SameBut ps z (goSet s n) ↔ SameBut ps z s :=
  SameBut.frame h (by dsimp only [goSet]; (repeat' split) <;> simp)

@[simp] theorem writeStage_frame (s : State) (n r : Nat) (v : Reg) (h : [.update, .ports, .tally, .events, .mgmt, .free] ⊆ ps) : SameBut ps z (writeStage s n r v) ↔ SameBut ps z s :=
  SameBut.frame h (by
    dsimp only [writeStage]
    split
    · refine trigger_keeps ?_ (fun u => ?_) <;> simp
    · split <;> simp)

@[simp] theorem writeSet_frame (s : State) (who : Requester) (n r : Nat) (v : Reg) (h : [.update, .ports, .tally, .events, .mgmt, .free] ⊆ ps) :
    SameBut ps z (writeSet s who n r v).2 ↔ SameBut ps z s :=
  SameBut.frame h (by
    dsimp only [writeSet]
    split
    · simp
    split
    · exact coreOnly_frame (by simp)
    · (repeat' split) <;> simp)

@[simp] theorem writeTally_frame (s : State) (who : Requester) (r : Nat) (v : Reg) (h : [.tally, .events, .mgmt, .free] ⊆ ps) :
    SameBut ps z (writeTally s who r v).2 ↔ SameBut ps z s :=
  SameBut.frame h (by
    have audited : SameBut [.tally, .events, .mgmt, .free] s (trigger v 0 auditAll s) := trigger_keeps (SameBut.refl _ s) (fun u => by simp)
    dsimp only [writeTally]
    split
    · exact audited.trans (coreOnly_frame (by simp))
    · (repeat' split) <;> simp)

@[simp] theorem writeShare_frame (s : State) (t r : Nat) (v : Reg) (h : [.str, .journal, .mgmt] ⊆ ps) :
    SameBut ps z (writeShare s t r v).2 ↔ SameBut ps z s :=
  SameBut.frame h (by dsimp only [writeShare]; (repeat' split) <;> simp)

@[simp] theorem writeArbiter_frame (s : State) (who : Requester) (r : Nat) (v : Reg) (h : [.str, .arbs, .journal, .mgmt] ⊆ ps) :
    SameBut ps z (writeArbiter s who r v).2 ↔ SameBut ps z s :=
  SameBut.frame h (by
    unfold writeArbiter
    refine SameBut.of_ite_snd (by simp) (SameBut.of_ite_snd ?_
      (SameBut.of_ite_snd (coreOnly_frame ?_) (SameBut.of_ite_snd (SameBut.of_ite_snd (SameBut.refl _ s) (coreOnly_frame ?_)) ?_)))
    · refine trigger_keeps (f := fun s => snapFor s who (bit 1 v)) (SameBut.refl _ s) (fun u => ?_)
      simp
    · simp
    · simp
    · (repeat' split) <;> simp)

@[simp] theorem writeThermal_frame (s : State) (who : Requester) (r : Nat) (v : Reg) (h : [.str, .tcam, .arbs, .therm, .waitos, .events, .mgmt, .free] ⊆ ps) :
    SameBut ps z (writeThermal s who r v).2 ↔ SameBut ps z s :=
  SameBut.frame h (by
    dsimp only [writeThermal]
    split
    · refine coreOnly_frame ?_
      split <;> simp
    split
    · refine coreOnly_frame ?_
      split
      · exact trigger_keeps (trigger_keeps (SameBut.refl _ s) (fun u => by simp)) (fun u => by simp)
      · simp
    split
    · refine coreOnly_frame ?_
      split <;> simp
    split
    · refine coreOnly_frame ?_
      split <;> simp
    split <;> simp)

@[simp] theorem writeTest_frame (s : State) (who : Requester) (r : Nat) (v : Reg) (h : [.tcam, .sram, .integ] ⊆ ps) :
    SameBut ps z (writeTest s who r v).2 ↔ SameBut ps z s :=
  SameBut.frame h (by
    have run : ∀ n f, etOp n = some f → ∀ u, SameBut [.tcam, .sram, .integ] u (f u).2 := by
      intro n f q u
      unfold etOp at q
      split at q <;> cases q <;> simp
    have put : ∀ x, SameBut [.tcam, .sram, .integ] s { s with integ := x } := fun x => by simp
    unfold writeTest
    refine SameBut.of_ite_snd (put _) (SameBut.of_ite_snd ?_ ?_)
    · split
      · rename_i q
        exact (etRun_frame (by decide) (run _ _ q)).2 (SameBut.refl _ s)
      · split
        · exact SameBut.refl _ s
        · exact put _
    · repeat' refine SameBut.of_ite_snd (put _) ?_
      exact SameBut.refl _ s)

@[simp] theorem writeIntegrity_frame (s : State) (who : Requester) (r : Nat) (v : Reg) (h : [.tcam, .sram, .integ, .mgmt] ⊆ ps) :
    SameBut ps z (writeIntegrity s who r v).2 ↔ SameBut ps z s :=
  SameBut.frame h (by
    have tested : ∀ w : Wrote, SameBut [.tcam, .sram, .integ, .mgmt] s w.2 → SameBut [.tcam, .sram, .integ, .mgmt] s (if etWriter s who then w else ((.locked, s) : Wrote)).2 :=
      fun w k => SameBut.of_ite_snd k (SameBut.refl _ s)
    have put : ∀ x, SameBut [.tcam, .sram, .integ, .mgmt] s { s with integ := x } := fun x => by simp
    unfold writeIntegrity
    refine SameBut.of_ite_snd (tested _ ?_) (SameBut.of_ite_snd (tested _ ?_) (SameBut.of_ite_snd (tested _ ?_)
      (SameBut.of_ite_snd (coreOnly_frame (put _)) (SameBut.of_ite_snd (coreOnly_frame (SameBut.of_ite_snd (put _) (SameBut.refl _ s)))
      (SameBut.of_ite_snd (coreOnly_frame (SameBut.of_ite_snd (put _) (SameBut.refl _ s))) (tested _ (SameBut.refl _ s)))))))
    · simp
    · simp
    · simp)

@[simp] theorem writeEvent_frame (s : State) (who : Requester) (r : Nat) (v : Reg) (h : [.events, .mgmt] ⊆ ps) :
    SameBut ps z (writeEvent s who r v).2 ↔ SameBut ps z s :=
  SameBut.frame h (by
    unfold writeEvent
    refine SameBut.of_ite_snd (SameBut.of_ite_snd ?_ ?_) (SameBut.of_ite_snd (trigger_keeps ?_ fun u => ?_)
      (SameBut.of_ite_snd (coreOnly_frame ?_) (SameBut.of_ite_snd ?_ (SameBut.of_ite_snd (SameBut.of_ite_snd (SameBut.refl _ s)
      (trigger_keeps (SameBut.refl _ s) fun u => ?_)) (SameBut.refl _ s)))))
    · refine trigger_keeps (f := fun s => clearLost s (r / 256)) (SameBut.refl _ s) (fun u => ?_)
      simp
    · (repeat' split) <;> simp
    all_goals simp)

@[simp] theorem writeStore_frame (s : State) (who : Requester) (r : Nat) (v : Reg) (h : [.store] ⊆ ps) :
    SameBut ps z (writeStore s who r v).2 ↔ SameBut ps z s :=
  SameBut.frame h (by
    unfold writeStore
    refine SameBut.of_ite_snd ?_ (SameBut.refl _ s)
    extract_lets floorBad _ t
    have floored : SameBut [.store] s t := by
      unfold t
      split <;> simp
    refine coreOnly_frame ?_
    dsimp only
    split
    · refine trigger_keeps floored (fun u => ?_)
      simp
    · exact floored)

@[simp] theorem writePower_frame (s : State) (who : Requester) (r : Nat) (v : Reg) (h : [.power] ⊆ ps) :
    SameBut ps z (writePower s who r v).2 ↔ SameBut ps z s :=
  SameBut.frame h (by
    dsimp only [writePower]
    split
    · exact coreOnly_frame (by simp)
    split
    · exact coreOnly_frame (by simp)
    · simp)

@[simp] theorem dropLatch_frame (s : State) (who : Requester) (base : Nat) (h : [.mgmt] ⊆ ps) :
    SameBut ps z (dropLatch s who base) ↔ SameBut ps z s :=
  SameBut.frame h (by unfold dropLatch; simp)

end Sys2Proof.Machine
end

section
/-! ## Frames: WaitosInfo
What the operations of the model's file WaitosInfo leave unchanged. -/

namespace Sys2Proof.Machine

open Sys2Proof

variable {ps : List Part} {z : State}

@[simp] theorem migInfo_frame (s : State) (r : Nat) (h : [.sram, .integ, .events, .mgmt, .free] ⊆ ps) :
    SameBut ps z (migInfo s r).2 ↔ SameBut ps z s :=
  SameBut.frame h (by unfold migInfo; split <;> simp)

@[simp] theorem readWords_frame (who : Requester) (n off i : Nat) (s : State) (h : [.events, .mgmt] ⊆ ps) :
    SameBut ps z (readWords who n off i s).2.2 ↔ SameBut ps z s :=
  SameBut.frame h (by
    induction n generalizing off i s with
    | zero => simp [readWords]
    | succ n ih =>
      have k : SameBut [.events, .mgmt] s (regRead s who off).2.2 := by simp
      simp only [readWords]
      split <;> rename_i q <;> rw [q] at k
      · exact k.trans (ih _ _ _)
      · exact k)

@[simp] theorem mread_frame (s : State) (w : Client) (l : List Byte) (h : [.events, .mgmt] ⊆ ps) : SameBut ps z (mread s w l).2 ↔ SameBut ps z s :=
  SameBut.frame h (by unfold mread; simp)

@[simp] theorem ctxRead_frame (s : State) (r : Nat) (h : [.sram, .integ, .events, .mgmt, .free] ⊆ ps) :
    SameBut ps z (ctxRead s r).2 ↔ SameBut ps z s :=
  SameBut.frame h (by dsimp only [ctxRead]; (repeat' split) <;> simp)

@[simp] theorem doneWithin_frame {s : State} {cmd : Nat} {w : Client} {obj : Nat × Nat} {f : State → State × Word} (h : [.waitos] ⊆ ps)
    (hf : ∀ u, SameBut ps u (f u).1) : SameBut ps z (doneWithin s cmd w obj f).2 ↔ SameBut ps z s := by
  refine startReply_frame h (fun n u => (hf u).trans ?_)
  exact (knowOp_frame _ _ _ _ h).2 (SameBut.refl ps _)

@[simp] theorem scrubPass_frame (s : State) (kind n : Nat) (h : [.clock, .tcam, .sram, .integ, .events, .mgmt, .free] ⊆ ps) :
    SameBut ps z (scrubPass s kind n) ↔ SameBut ps z s :=
  SameBut.frame h (by unfold scrubPass; simp)

end Sys2Proof.Machine
end

section
/-! ## Frames: WaitosMaint
What the operations of the model's file WaitosMaint leave unchanged. -/

namespace Sys2Proof.Machine

open Sys2Proof

variable {ps : List Part} {z : State}

@[simp] theorem toTesting_frame (s : State) (b : Nat) (h : [.tcam, .journal, .mgmt] ⊆ ps) : SameBut ps z (toTesting s b) ↔ SameBut ps z s :=
  SameBut.frame h (jChange_same (by decide) (fun u => by simp))

@[simp] theorem bankTest_frame (s : State) (w : Client) (b : Nat) (h : [.tcam, .update, .journal, .waitos, .mgmt] ⊆ ps) : SameBut ps z (bankTest s w b).2 ↔ SameBut ps z s :=
  SameBut.frame h (by
    have start : ∀ {cmd owner obj f}, (∀ n u, SameBut [.tcam, .update, .journal, .waitos, .mgmt] u (f n u)) → SameBut [.tcam, .update, .journal, .waitos, .mgmt] s (startReply s cmd owner obj f).2 := fun hf =>
      (startReply_frame (by decide) hf).2 (SameBut.refl _ s)
    dsimp only [bankTest]
    split
    · simp
    split
    · simp
    split
    · split
      · simp
      · exact start (fun n u => by simp)
    split
    · exact start (fun n u => by simp)
    · simp)

@[simp] theorem retireNow_frame (s : State) (h_ b : Nat) (h : [.tcam, .journal, .integ, .waitos, .mgmt] ⊆ ps) :
    SameBut ps z (retireNow s h_ b) ↔ SameBut ps z s :=
  SameBut.frame h (by unfold retireNow; split <;> simp)

@[simp] theorem waitosRetire_frame (s : State) (w : Client) (b : Nat) (h : [.tcam, .update, .journal, .integ, .waitos, .mgmt] ⊆ ps) : SameBut ps z (waitosRetire s w b).2 ↔ SameBut ps z s :=
  SameBut.frame h (by
    have start : ∀ {cmd owner obj f}, (∀ n u, SameBut [.tcam, .update, .journal, .integ, .waitos, .mgmt] u (f n u)) → SameBut [.tcam, .update, .journal, .integ, .waitos, .mgmt] s (startReply s cmd owner obj f).2 := fun hf =>
      (startReply_frame (by decide) hf).2 (SameBut.refl _ s)
    dsimp only [waitosRetire]
    split
    · simp
    split
    · simp
    split
    · split
      · simp
      · exact start (fun n u => by simp)
    split
    · exact start (fun n u => by split <;> simp)
    · simp)

@[simp] theorem cellSpare_frame (s : State) (w : Client) (a : BitVec 28) (column : Bool) (b : Nat) (h : [.sram, .integ, .waitos, .mgmt] ⊆ ps) :
    SameBut ps z (cellSpare s w a column b).2 ↔ SameBut ps z s :=
  SameBut.frame h (by
    dsimp only [cellSpare]
    split
    · simp
    split
    · simp
    split
    · simp
    · exact (doneWithin_frame (by decide) (fun u => by simp)).2 (SameBut.refl _ s))

@[simp] theorem addReplica_frame (s : State) (h_ d : Nat) (bs : List Nat) (h : [.update, .waitos] ⊆ ps) :
    SameBut ps z (addReplica s h_ d bs) ↔ SameBut ps z s :=
  SameBut.frame h (by unfold addReplica; simp)

@[simp] theorem writeReplica_frame (s : State) (h_ d : Nat) (dests : List Nat) (h : [.tcam, .marker, .journal, .waitos, .events, .mgmt, .free] ⊆ ps) :
    SameBut ps z (writeReplica s h_ d dests) ↔ SameBut ps z s :=
  SameBut.frame h (by dsimp only [writeReplica]; split <;> simp)

@[simp] theorem doneJournaled_frame {s : State} {cmd : Nat} {w : Client} {obj : Nat × Nat} {rs : List JRec} {f : State → State}
    (h : [.waitos, .mgmt] ⊆ ps) (hf : ∀ u, SameBut ps u (f u)) : SameBut ps z (doneJournaled s cmd w obj rs f).2 ↔ SameBut ps z s := by
  have k := jAdmit_same s [rs]
  unfold doneJournaled
  split
  · rename_i q
    rw [q] at k
    exact SameBut.into (k.mono (List.Subset.trans (by decide) h))
  · exact doneWithin_frame (List.Subset.trans (by decide) h) hf

@[simp] theorem replicate_frame (s : State) (w : Client) (t d op : Nat) (h : [.marker, .update, .journal, .waitos, .mgmt] ⊆ ps) : SameBut ps z (replicate s w t d op).2 ↔ SameBut ps z s :=
  SameBut.frame h (by
    have journaled : ∀ {cmd obj rs f}, (∀ u, SameBut [.marker, .update, .journal, .waitos, .mgmt] u (f u)) → SameBut [.marker, .update, .journal, .waitos, .mgmt] s (doneJournaled s cmd w obj rs f).2 := fun hf =>
      (doneJournaled_frame (by decide) hf).2 (SameBut.refl _ s)
    dsimp only [replicate]
    split
    · simp
    split
    · simp
    split
    · exact journaled (fun u => jChange_same (by decide) (fun v => by simp))
    split
    · split
      · simp
      · exact journaled (fun u => by simp)
    split
    · simp
    · exact (startReply_frame (by decide) (fun n u => by simp)).2 (SameBut.refl _ s))

@[simp] theorem growSpan_frame (s : State) (d : Nat) (bs : List Nat) (k : Nat) (h : [.tcam, .marker, .journal, .mgmt] ⊆ ps) : SameBut ps z (growSpan s d bs k) ↔ SameBut ps z s :=
  SameBut.frame h (by
    dsimp only [growSpan]
    exact jChange_same (by decide) (fun u => by simp))

@[simp] theorem grow_frame (s : State) (w : Client) (t d : Nat) (h : [.tcam, .marker, .journal, .waitos, .mgmt] ⊆ ps) : SameBut ps z (grow s w t d).2 ↔ SameBut ps z s :=
  SameBut.frame h (by
    dsimp only [grow]
    split
    · simp
    split
    · simp
    split
    · simp
    · exact (doneJournaled_frame (by decide) (fun u => by simp)).2 (SameBut.refl _ s))

@[simp] theorem setRun_frame (s : State) (k n : Nat) (h : [.marker] ⊆ ps) :
    SameBut ps z (setRun s k n) ↔ SameBut ps z s :=
  SameBut.frame h (by unfold setRun; simp)

@[simp] theorem autoAdd_frame (s : State) (d : Nat) (h : [.update, .waitos] ⊆ ps) : SameBut ps z (autoAdd s d) ↔ SameBut ps z s :=
  SameBut.frame h (by
    unfold autoAdd
    split
    · simp
    split
    · rename_i q
      exact (startOp_some q (by decide)).trans (by simp)
    · simp)

@[simp] theorem autoDrop_frame (s : State) (d : Nat) (h : [.marker, .journal, .waitos, .events, .mgmt, .free] ⊆ ps) : SameBut ps z (autoDrop s d) ↔ SameBut ps z s :=
  SameBut.frame h (by
    unfold autoDrop
    split
    · exact (autoWithin_frame (by decide) (fun u => by simp)).2 (SameBut.refl _ s)
    · simp)

@[simp] theorem autoGrow_frame (s : State) (t : Nat) (h : [.tcam, .marker, .journal, .mgmt] ⊆ ps) :
    SameBut ps z (autoGrow s t).2 ↔ SameBut ps z s :=
  SameBut.frame h (by dsimp only [autoGrow]; (repeat' split) <;> simp)

@[simp] theorem waitosReadEntry_frame (s : State) (d : Nat) (h : [.marker, .update, .journal, .waitos, .events, .mgmt, .free] ⊆ ps) :
    SameBut ps z (readEntry_ s d) ↔ SameBut ps z s :=
  SameBut.frame h (by unfold readEntry_; simp)

@[simp] theorem readTable_frame (s : State) (t : Nat) (h : [.tcam, .marker, .journal, .events, .mgmt, .free] ⊆ ps) :
    SameBut ps z (readTable s t) ↔ SameBut ps z s :=
  SameBut.frame h (by unfold readTable; simp)

@[simp] theorem countReading_frame (s : State) (h : [.tcam, .marker, .update, .journal, .waitos, .events, .mgmt, .free] ⊆ ps) :
    SameBut ps z (countReading s) ↔ SameBut ps z s :=
  SameBut.frame h (by unfold countReading; simp)

end Sys2Proof.Machine
end

section
/-! ## Frames: WaitosImage
What the operations of the model's file WaitosImage leave unchanged. -/

namespace Sys2Proof.Machine

open Sys2Proof

variable {ps : List Part} {z : State}

@[simp] theorem answerThen_frame {s : State} {w : Client} {f : State → State} (h : [.ports, .tally, .waitos, .events, .mgmt, .free] ⊆ ps) (hf : ∀ u, SameBut ps u (f u)) :
    SameBut ps z (answerThen s w f).2 ↔ SameBut ps z s := by
  simp only [List.cons_subset] at h
  unfold answerThen
  split
  · simp [h, SameBut.into (hf _)]
  · rfl

@[simp] theorem timeAdvance_frame (s : State) (d : Nat) (h : [.clock, .tcam, .journal] ⊆ ps) :
    SameBut ps z (timeAdvance s d).2 ↔ SameBut ps z s :=
  SameBut.frame h (by unfold timeAdvance; split <;> simp)

@[simp] theorem setSession_frame (s : State) (x : Option Session) (h : [.waitos] ⊆ ps) :
    SameBut ps z (setSession s x) ↔ SameBut ps z s :=
  SameBut.frame h (by unfold setSession; simp)

@[simp] theorem eraseSlot_frame (s : State) (slot : Nat) (h : [.flash] ⊆ ps) :
    SameBut ps z (eraseSlot s slot) ↔ SameBut ps z s :=
  SameBut.frame h (by unfold eraseSlot; simp)

@[simp] theorem imgBegin_frame (s : State) (w : Client) (target len : Nat) (h : [.flash, .waitos] ⊆ ps) : SameBut ps z (imgBegin s w target len).2 ↔ SameBut ps z s :=
  SameBut.frame h (by
    dsimp only [imgBegin]
    split
    · simp
    split
    · simp
    · exact (startReply_frame (by decide) (fun n u => by simp)).2 (SameBut.refl _ s))

@[simp] theorem takeBytes_frame (s : State) (x : Session) (off : Nat) (bs : List Byte) (h : [.flash, .waitos] ⊆ ps) :
    SameBut ps z (takeBytes s x off bs) ↔ SameBut ps z s :=
  SameBut.frame h (by unfold takeBytes; simp)

@[simp] theorem imgData_frame (s : State) (off : Nat) (bs : List Byte) (h : [.flash, .waitos] ⊆ ps) :
    SameBut ps z (imgData s off bs).2 ↔ SameBut ps z s :=
  SameBut.frame h (by dsimp only [imgData]; (repeat' split) <;> simp)

@[simp] theorem commitImage_frame (s : State) (w : Client) (x : Session) (h : [.flash, .waitos] ⊆ ps) :
    SameBut ps z (commitImage s w x).2 ↔ SameBut ps z s :=
  SameBut.frame h (by
    unfold commitImage
    exact (startReply_frame (by decide) (fun n u => by split <;> simp)).2 (by simp))

@[simp] theorem applyPackage_frame (s : State) (x : Session) (h_ : Nat) (h : [.boot, .str, .tcam, .marker, .sram, .search, .waitos, .crew, .events] ⊆ ps) :
    SameBut ps z (applyPackage s x h_) ↔ SameBut ps z s :=
  SameBut.frame h (by unfold applyPackage; simp)

@[simp] theorem commitPackage_frame (s : State) (w : Client) (x : Session) (h : [.boot, .str, .tcam, .marker, .sram, .search, .journal, .waitos, .crew, .events, .mgmt] ⊆ ps) : SameBut ps z (commitPackage s w x).2 ↔ SameBut ps z s :=
  SameBut.frame h (by
    dsimp only [commitPackage]
    split
    · simp
    split
    · simp
    split
    · simp
    split
    · simp
    · exact (doneWithin_frame (by decide) (fun u => by simp)).2 (SameBut.refl _ s))

@[simp] theorem imgCommit_frame (s : State) (w : Client) (h : [.boot, .flash, .str, .tcam, .marker, .sram, .search, .journal, .waitos, .crew, .events, .mgmt] ⊆ ps) :
    SameBut ps z (imgCommit s w).2 ↔ SameBut ps z s :=
  SameBut.frame h (by dsimp only [imgCommit]; (repeat' split) <;> simp)

@[simp] theorem imgAbort_frame (s : State) (h : [.waitos] ⊆ ps) :
    SameBut ps z (imgAbort s).2 ↔ SameBut ps z s :=
  SameBut.frame h (by dsimp only [imgAbort]; (repeat' split) <;> simp)

@[simp] theorem sessionTimeout_frame (s : State) (h : [.waitos, .events, .free] ⊆ ps) :
    SameBut ps z (sessionTimeout s) ↔ SameBut ps z s :=
  SameBut.frame h (by unfold sessionTimeout; split <;> simp)

@[simp] theorem dbgGrant_frame (s : State) (g : List Byte) (h : [.dbg, .events, .free] ⊆ ps) :
    SameBut ps z (dbgGrant s g).2 ↔ SameBut ps z s :=
  SameBut.frame h (by dsimp only [dbgGrant]; (repeat' split) <;> simp)

@[simp] theorem opWork_frame (s : State) (h_ : Nat) (x : Op) (ok : Bool) (h : [.store, .waitos] ⊆ ps) :
    SameBut ps z (opWork s h_ x ok) ↔ SameBut ps z s :=
  SameBut.frame h (by unfold opWork; simp)

@[simp] theorem retireDone_frame (s : State) (h_ : Nat) (x : Op) (h : [.tcam, .journal, .integ, .waitos, .events, .mgmt, .free] ⊆ ps) :
    SameBut ps z (retireDone s h_ x) ↔ SameBut ps z s :=
  SameBut.frame h (by dsimp only [retireDone]; (repeat' split) <;> simp)

@[simp] theorem opEnds_frame (s : State) (h_ : Nat) (st : BitVec 4) (progress : Word) (h : [.tcam, .marker, .journal, .store, .integ, .waitos, .events, .mgmt, .free] ⊆ ps) :
    SameBut ps z (opEnds s h_ st progress) ↔ SameBut ps z s :=
  SameBut.frame h (by unfold opEnds; split <;> simp)

@[simp] theorem opDone_frame (s : State) (h_ : Nat) (st : BitVec 4) (progress : Word) (h : [.tcam, .marker, .journal, .store, .integ, .waitos, .events, .mgmt, .free] ⊆ ps) :
    SameBut ps z (opDone s h_ st progress) ↔ SameBut ps z s :=
  SameBut.frame h (by dsimp only [opDone]; (repeat' split) <;> simp)

end Sys2Proof.Machine
end

section
/-! ## Frames: Sideband
What the operations of the model's file Sideband leave unchanged. -/

namespace Sys2Proof.Machine

open Sys2Proof

variable {ps : List Part} {z : State}

@[simp] theorem mctpAnswer_frame (s : State) (code done : Nat) (data : List Byte) (h : [.waitos] ⊆ ps) :
    SameBut ps z (mctpAnswer s code done data) ↔ SameBut ps z s :=
  SameBut.frame h (by unfold mctpAnswer; simp)

@[simp] theorem mctp_frame (s : State) (m : MctpCmd) (h : [.waitos, .free] ⊆ ps) :
    SameBut ps z (mctp s m) ↔ SameBut ps z s :=
  SameBut.frame h (by unfold mctp; split <;> simp)

@[simp] theorem setTap_frame (s : State) (ir : Nat) (dr : Word) (h : [.waitos] ⊆ ps) :
    SameBut ps z (setTap s ir dr) ↔ SameBut ps z s :=
  SameBut.frame h (by unfold setTap; simp)

@[simp] theorem stroke_frame (s : State) (h : [.clock, .power, .boot, .str, .tcam, .marker, .sram, .search, .ports, .arbs, .tally, .waitos, .crew, .events, .mgmt, .free] ⊆ ps) :
    SameBut ps z (stroke s) ↔ SameBut ps z s :=
  SameBut.frame h (by unfold stroke; simp)

end Sys2Proof.Machine
end

section
/-! ## Frames of the commands
What each command leaves unchanged, but for those that touch the protection set-up or the debug state. -/

namespace Sys2Proof.Machine

open Sys2Proof

section
variable {ps : List Part} {s t : State}

@[simp] theorem OutBut.next_iff : OutBut ps s (.next t) ↔ SameBut ps s t := ⟨fun h => h.next_same t rfl, OutBut.next⟩

@[simp] theorem OutBut.ite_iff {c : Prop} [Decidable c] {x y : Host.Outcome State Fault Refusal} :
    OutBut ps s (if c then x else y) ↔ if c then OutBut ps s x else OutBut ps s y := by
  split <;> rfl
end

variable {ps : List Part}

theorem ranReply_keeps {x : Ran} {s : State} {f : TRsp → List Byte} (k : RanKeeps ps s x) : SameBut ps s (ranReply x s f).2 := by
  unfold ranReply
  split
  · exact SameBut.refl ps s
  · exact RanKeeps.stays_iff.1 k
  · exact RanKeeps.ends_iff.1 k
  · exact RanKeeps.ends_iff.1 k

@[simp] theorem execSrch_out (p : Fin 8) (s : State) (h : [.marker, .sram, .search, .ports, .tally, .integ, .events, .mgmt, .free] ⊆ ps) : OutBut ps s (execSrch p s) := by
  simp only [List.cons_subset] at h
  unfold execSrch
  simp [h]

@[simp] theorem execMatchStep_out (tok : Nat) (step : Fin 4) (s : State) (h : [.tcam, .sram, .search, .ports, .tally, .integ, .events, .mgmt, .free] ⊆ ps) : OutBut ps s (execMatchStep tok step s) := by
  simp only [List.cons_subset] at h
  unfold execMatchStep
  simp [h]

@[simp] theorem execRepairWrite_out (e : Fin 8) (s : State) (h : [.tcam, .sram, .integ, .events, .mgmt, .free] ⊆ ps) : OutBut ps s (execRepairWrite e s) := by
  simp only [List.cons_subset] at h
  unfold execRepairWrite
  simp [h]

@[simp] theorem execIndexStep_out (tok : Nat) (step : Fin 4) (s : State) (h : [.sram, .search, .life, .integ, .events, .mgmt, .free] ⊆ ps) : OutBut ps s (execIndexStep tok step s) := by
  simp only [List.cons_subset] at h
  unfold execIndexStep
  simp [h]

@[simp] theorem execLevelEnd_out (tok : Nat) (s : State) (h : [.sram, .search, .life, .ports, .tally, .journal, .integ, .events, .mgmt, .free] ⊆ ps) : OutBut ps s (execLevelEnd tok s) := by
  simp only [List.cons_subset] at h
  unfold execLevelEnd
  simp [h]

@[simp] theorem execSrsp_out (tok : Nat) (s : State) (h : [.search, .ports, .tally, .events, .mgmt, .free] ⊆ ps) : OutBut ps s (execSrsp tok s) := by
  simp only [List.cons_subset] at h
  unfold execSrsp
  simp [h]

@[simp] theorem execLateWatchdog_out (tok : Nat) (s : State) (h : [.search, .life, .ports, .tally, .events, .mgmt, .free] ⊆ ps) : OutBut ps s (execLateWatchdog tok s) := by
  simp only [List.cons_subset] at h
  unfold execLateWatchdog
  simp [h]

@[simp] theorem execTokenRetire_out (tok : Nat) (s : State) (h : [.search] ⊆ ps) : OutBut ps s (execTokenRetire tok s) := by
  simp only [List.cons_subset] at h
  unfold execTokenRetire
  simp [h]

@[simp] theorem execReplicaRelease_out (d : Nat) (s : State) (h : [.tcam, .marker] ⊆ ps) : OutBut ps s (execReplicaRelease d s) := by
  simp only [List.cons_subset] at h
  unfold execReplicaRelease
  simp [h]

@[simp] theorem execCreditReturn_out (p : Fin 11) (s : State) (h : [.power, .ports] ⊆ ps) : OutBut ps s (execCreditReturn p s) := by
  simp only [List.cons_subset] at h
  unfold execCreditReturn
  simp [h]

@[simp] theorem execCred_out (p : Fin 11) (s : State) (h : [.ports, .tally, .events, .mgmt, .free] ⊆ ps) : OutBut ps s (execCred p s) := by
  simp only [List.cons_subset] at h
  unfold execCred
  simp [h]

@[simp] theorem execFlit_out (p : Fin 11) (bytes : RxFlit) (s : State) (h : [.update, .ports, .tally, .events, .mgmt, .free] ⊆ ps) : OutBut ps s (execFlit p bytes s) := by
  simp only [List.cons_subset] at h
  unfold execFlit
  simp [h]

@[simp] theorem execTrainingFailure_out (p : Fin 11) (s : State) (h : [.ports, .events, .free] ⊆ ps) : OutBut ps s (execTrainingFailure p s) := by
  simp only [List.cons_subset] at h
  unfold execTrainingFailure
  simp [h]

@[simp] theorem execLinkTrained_out (p : Fin 11) (rate : BitVec 2) (tx rx : List (Fin 64)) (s : State) (h : [.ports, .tally, .events, .mgmt, .free] ⊆ ps) : OutBut ps s (execLinkTrained p rate tx rx s) := by
  simp only [List.cons_subset] at h
  unfold execLinkTrained
  simp [h]

@[simp] theorem execTrainingRetry_out (p : Fin 11) (s : State) (h : [.ports] ⊆ ps) : OutBut ps s (execTrainingRetry p s) := by
  simp only [List.cons_subset] at h
  unfold execTrainingRetry
  simp [h]

@[simp] theorem execFlitCrcError_out (p : Fin 11) (s : State) (h : [.mgmt] ⊆ ps) : OutBut ps s (execFlitCrcError p s) := by
  simp only [List.cons_subset] at h
  unfold execFlitCrcError
  simp [h]

@[simp] theorem execRetrain_out (p : Fin 11) (s : State) (h : [.ports, .mgmt] ⊆ ps) : OutBut ps s (execRetrain p s) := by
  simp only [List.cons_subset] at h
  unfold execRetrain
  simp [h]

@[simp] theorem execEvt_out (p : EvtSend) (s : State) (h : [.ports, .events] ⊆ ps) : OutBut ps s (execEvt p s) := by
  simp only [List.cons_subset] at h
  unfold execEvt
  simp [h]

@[simp] theorem execLaneShift_out (p : Fin 11) (lane : Fin 64) (rx : Bool) (s : State) (h : [.ports, .waitos, .mgmt] ⊆ ps) : OutBut ps s (execLaneShift p lane rx s) := by
  simp only [List.cons_subset] at h
  unfold execLaneShift
  simp [h]

@[simp] theorem execLaneShiftAck_out (p : Fin 11) (s : State) (h : [.ports, .waitos, .mgmt] ⊆ ps) : OutBut ps s (execLaneShiftAck p s) := by
  simp only [List.cons_subset] at h
  unfold execLaneShiftAck
  simp [h]

@[simp] theorem execLaneCalTimeout_out (p : Fin 11) (s : State) (h : [.ports] ⊆ ps) : OutBut ps s (execLaneCalTimeout p s) := by
  simp only [List.cons_subset] at h
  unfold execLaneCalTimeout
  simp [h]

@[simp] theorem execLaneCalibrated_out (p : Fin 11) (margin : BitVec 8) (s : State) (h : [.ports, .waitos, .events, .mgmt, .free] ⊆ ps) : OutBut ps s (execLaneCalibrated p margin s) := by
  simp only [List.cons_subset] at h
  unfold execLaneCalibrated
  simp [h]

@[simp] theorem execInsert_out (e : Fin 8) (s : State) (h : [.tcam, .marker, .sram, .update, .ports, .tally, .journal, .integ, .events, .mgmt, .free] ⊆ ps) : OutBut ps s (execInsert e s) :=
  OutBut.next ((runHead_frame (List.Subset.trans (by decide) h) (fun u c => by simp only [List.cons_subset] at h; simp [h])).2 (SameBut.refl ps s))

@[simp] theorem execDelete_out (e : Fin 8) (s : State) (h : [.tcam, .marker, .sram, .update, .ports, .tally, .journal, .integ, .events, .mgmt, .free] ⊆ ps) : OutBut ps s (execDelete e s) :=
  OutBut.next ((runHead_frame (List.Subset.trans (by decide) h) (fun u c => by simp only [List.cons_subset] at h; simp [h])).2 (SameBut.refl ps s))

@[simp] theorem execDeleteIfIdle_out (e : Fin 8) (s : State) (h : [.tcam, .marker, .sram, .update, .ports, .tally, .journal, .integ, .events, .mgmt, .free] ⊆ ps) : OutBut ps s (execDeleteIfIdle e s) :=
  OutBut.next ((runHead_frame (List.Subset.trans (by decide) h) (fun u c => by simp only [List.cons_subset] at h; simp [h])).2 (SameBut.refl ps s))

@[simp] theorem execWrite_out (e : Fin 8) (s : State) (h : [.tcam, .marker, .sram, .update, .ports, .tally, .journal, .integ, .events, .mgmt, .free] ⊆ ps) : OutBut ps s (execWrite e s) :=
  OutBut.next ((runHead_frame (List.Subset.trans (by decide) h) (fun u c => by simp only [List.cons_subset] at h; simp [h])).2 (SameBut.refl ps s))

@[simp] theorem execRead_out (e : Fin 8) (s : State) (h : [.tcam, .marker, .sram, .update, .ports, .tally, .journal, .integ, .events, .mgmt, .free] ⊆ ps) : OutBut ps s (execRead e s) :=
  OutBut.next ((runHead_frame (List.Subset.trans (by decide) h) (fun u c => by simp only [List.cons_subset] at h; simp [h])).2 (SameBut.refl ps s))

@[simp] theorem execHsweep_out (e : Fin 8) (s : State) (h : [.tcam, .marker, .sram, .update, .ports, .tally, .journal, .integ, .events, .mgmt, .free] ⊆ ps) : OutBut ps s (execHsweep e s) :=
  OutBut.next ((runHead_frame (List.Subset.trans (by decide) h) (fun u c => by simp only [List.cons_subset] at h; simp [h])).2 (SameBut.refl ps s))

@[simp] theorem execGateDrained_out (g : Fin 64) (s : State) (h : [.tcam, .marker, .sram, .update, .ports, .tally, .journal, .integ, .events, .mgmt, .free] ⊆ ps) : OutBut ps s (execGateDrained g s) := by
  simp only [List.cons_subset] at h
  unfold execGateDrained
  simp [h]

@[simp] theorem execIread_out (e : Fin 8) (s : State) (h : [.tcam, .marker, .sram, .update, .ports, .tally, .journal, .integ, .events, .mgmt, .free] ⊆ ps) : OutBut ps s (execIread e s) :=
  OutBut.next ((runHead_frame (List.Subset.trans (by decide) h) (fun u c => by simp only [List.cons_subset] at h; simp [h])).2 (SameBut.refl ps s))

@[simp] theorem execIwrite_out (e : Fin 8) (s : State) (h : [.tcam, .marker, .sram, .search, .update, .ports, .tally, .journal, .integ, .events, .mgmt, .free] ⊆ ps) : OutBut ps s (execIwrite e s) :=
  OutBut.next ((runHead_frame (List.Subset.trans (by decide) h) (fun u c => by simp only [List.cons_subset] at h; simp [h])).2 (SameBut.refl ps s))

@[simp] theorem execIfield_out (e : Fin 8) (s : State) (h : [.tcam, .marker, .sram, .search, .update, .ports, .tally, .journal, .integ, .events, .mgmt, .free] ⊆ ps) : OutBut ps s (execIfield e s) :=
  OutBut.next ((runHead_frame (List.Subset.trans (by decide) h) (fun u c => by simp only [List.cons_subset] at h; simp [h])).2 (SameBut.refl ps s))

@[simp] theorem execIcas_out (e : Fin 8) (s : State) (h : [.tcam, .marker, .sram, .search, .update, .ports, .tally, .journal, .integ, .events, .mgmt, .free] ⊆ ps) : OutBut ps s (execIcas e s) :=
  OutBut.next ((runHead_frame (List.Subset.trans (by decide) h) (fun u c => by simp only [List.cons_subset] at h; simp [h])).2 (SameBut.refl ps s))

@[simp] theorem execLearnNote_out (e : Fin 8) (s : State) (h : [.tcam, .marker, .sram, .update, .ports, .tally, .journal, .integ, .events, .mgmt, .free] ⊆ ps) : OutBut ps s (execLearnNote e s) :=
  OutBut.next ((runHead_frame (List.Subset.trans (by decide) h) (fun u c => by simp only [List.cons_subset] at h; simp [h])).2 (SameBut.refl ps s))

@[simp] theorem execCoalescerIssue_out (key : Nat) (s : State) (h : [.sram, .update, .ports, .tally, .journal, .integ, .events, .mgmt, .free] ⊆ ps) : OutBut ps s (execCoalescerIssue key s) := by
  simp only [List.cons_subset] at h
  unfold execCoalescerIssue
  simp [h]

@[simp] theorem execComposerGenerationCommit_out (s : State) (h : [.sram, .search, .update, .ports, .tally, .events, .mgmt, .free] ⊆ ps) : OutBut ps s (execComposerGenerationCommit s) := by
  simp only [List.cons_subset] at h
  unfold execComposerGenerationCommit
  simp [h]

@[simp] theorem execRepoint_out (e : Fin 8) (budget : Nat) (s : State) (h : [.tcam, .marker, .sram, .update, .ports, .tally, .journal, .integ, .events, .mgmt, .free] ⊆ ps) : OutBut ps s (execRepoint e budget s) :=
  OutBut.next ((rpStep_frame (List.Subset.trans (by decide) h) (fun u c => by simp)).2 (SameBut.refl ps s))

@[simp] theorem execBankClone_out (e : Fin 8) (s : State) (h : [.tcam, .marker, .sram, .update, .ports, .tally, .journal, .integ, .events, .mgmt, .free] ⊆ ps) : OutBut ps s (execBankClone e s) :=
  OutBut.next ((runHead_frame (List.Subset.trans (by decide) h) (fun u c => by simp only [List.cons_subset] at h; simp [h])).2 (SameBut.refl ps s))

@[simp] theorem execCloneComplete_out (e : Fin 8) (s : State) (h : [.tcam, .sram, .update, .ports, .tally, .journal, .integ, .events, .mgmt, .free] ⊆ ps) : OutBut ps s (execCloneComplete e s) := by
  simp only [List.cons_subset] at h
  unfold execCloneComplete
  simp [h]

@[simp] theorem execBankRetire_out (e : Fin 8) (s : State) (h : [.tcam, .marker, .sram, .update, .ports, .tally, .journal, .integ, .events, .mgmt, .free] ⊆ ps) : OutBut ps s (execBankRetire e s) :=
  OutBut.next ((runHead_frame (List.Subset.trans (by decide) h) (fun u c => by simp only [List.cons_subset] at h; simp [h])).2 (SameBut.refl ps s))

@[simp] theorem execBulkOpen_out (e : Fin 8) (s : State) (h : [.tcam, .marker, .sram, .update, .ports, .tally, .journal, .integ, .events, .mgmt, .free] ⊆ ps) : OutBut ps s (execBulkOpen e s) :=
  OutBut.next ((runHead_frame (List.Subset.trans (by decide) h) (fun u c => by simp only [List.cons_subset] at h; simp [h])).2 (SameBut.refl ps s))

@[simp] theorem execBulkClose_out (e : Fin 8) (s : State) (h : [.tcam, .marker, .sram, .update, .ports, .tally, .journal, .integ, .events, .mgmt, .free] ⊆ ps) : OutBut ps s (execBulkClose e s) :=
  OutBut.next ((runHead_frame (List.Subset.trans (by decide) h) (fun u c => by simp only [List.cons_subset] at h; simp [h])).2 (SameBut.refl ps s))

@[simp] theorem execBulkRecord_out (p : Fin 8) (s : State) (h : [.tcam, .marker, .sram, .update, .ports, .tally, .journal, .integ, .events, .mgmt, .free] ⊆ ps) : OutBut ps s (execBulkRecord p s) := by
  simp only [List.cons_subset] at h
  unfold execBulkRecord
  simp [h]

@[simp] theorem execDumpEntry_out (p : Fin 10) (k : Fin 4) (s : State) (h : [.sram, .update, .ports, .tally, .integ, .events, .mgmt, .free] ⊆ ps) : OutBut ps s (execDumpEntry p k s) := by
  simp only [List.cons_subset] at h
  unfold execDumpEntry
  simp [h]

@[simp] theorem execMapBind_out (e : Fin 8) (s : State) (h : [.tcam, .marker, .sram, .search, .update, .life, .ports, .tally, .journal, .integ, .events, .mgmt, .free] ⊆ ps) : OutBut ps s (execMapBind e s) :=
  OutBut.next ((lifeHead_frame (List.Subset.trans (by decide) h) (fun u c => by simp only [List.cons_subset] at h; simp [h])).2 (SameBut.refl ps s))

@[simp] theorem execMapRelease_out (e : Fin 8) (s : State) (h : [.tcam, .marker, .sram, .search, .update, .life, .ports, .tally, .journal, .integ, .events, .mgmt, .free] ⊆ ps) : OutBut ps s (execMapRelease e s) :=
  OutBut.next ((lifeHead_frame (List.Subset.trans (by decide) h) (fun u c => by simp only [List.cons_subset] at h; simp [h])).2 (SameBut.refl ps s))

@[simp] theorem execMapPoison_out (e : Fin 8) (s : State) (h : [.tcam, .marker, .sram, .search, .update, .life, .ports, .tally, .journal, .integ, .events, .mgmt, .free] ⊆ ps) : OutBut ps s (execMapPoison e s) :=
  OutBut.next ((lifeHead_frame (List.Subset.trans (by decide) h) (fun u c => by simp only [List.cons_subset] at h; simp [h])).2 (SameBut.refl ps s))

@[simp] theorem execHeatSet_out (e : Fin 8) (s : State) (h : [.tcam, .marker, .sram, .search, .update, .ports, .tally, .journal, .integ, .events, .mgmt, .free] ⊆ ps) : OutBut ps s (execHeatSet e s) :=
  OutBut.next ((lifeHead_frame (List.Subset.trans (by decide) h) (fun u c => by simp)).2 (SameBut.refl ps s))

@[simp] theorem execMigBegin_out (e : Fin 8) (s : State) (h : [.tcam, .marker, .sram, .search, .update, .life, .ports, .tally, .journal, .integ, .events, .mgmt, .free] ⊆ ps) : OutBut ps s (execMigBegin e s) :=
  OutBut.next ((lifeHead_frame (List.Subset.trans (by decide) h) (fun u c => by simp only [List.cons_subset] at h; simp [h])).2 (SameBut.refl ps s))

@[simp] theorem execMigCursor_out (e : Fin 8) (s : State) (h : [.tcam, .marker, .sram, .search, .update, .ports, .tally, .journal, .integ, .events, .mgmt, .free] ⊆ ps) : OutBut ps s (execMigCursor e s) :=
  OutBut.next ((lifeHead_frame (List.Subset.trans (by decide) h) (fun u c => by simp)).2 (SameBut.refl ps s))

@[simp] theorem execMigCopied_out (e : Fin 8) (s : State) (h : [.tcam, .marker, .sram, .search, .update, .ports, .tally, .journal, .integ, .events, .mgmt, .free] ⊆ ps) : OutBut ps s (execMigCopied e s) :=
  OutBut.next ((lifeHead_frame (List.Subset.trans (by decide) h) (fun u c => by simp)).2 (SameBut.refl ps s))

@[simp] theorem execMapSwitch_out (e : Fin 8) (s : State) (h : [.tcam, .marker, .sram, .search, .update, .life, .ports, .tally, .journal, .integ, .events, .mgmt, .free] ⊆ ps) : OutBut ps s (execMapSwitch e s) :=
  OutBut.next ((lifeHead_frame (List.Subset.trans (by decide) h) (fun u c => by simp only [List.cons_subset] at h; simp [h])).2 (SameBut.refl ps s))

@[simp] theorem execMigAbort_out (e : Fin 8) (s : State) (h : [.tcam, .marker, .sram, .search, .update, .life, .ports, .tally, .journal, .integ, .events, .mgmt, .free] ⊆ ps) : OutBut ps s (execMigAbort e s) :=
  OutBut.next ((lifeHead_frame (List.Subset.trans (by decide) h) (fun u c => by simp only [List.cons_subset] at h; simp [h])).2 (SameBut.refl ps s))

@[simp] theorem execLogOpen_out (e : Fin 8) (s : State) (h : [.tcam, .marker, .sram, .search, .update, .life, .ports, .tally, .journal, .integ, .events, .mgmt, .free] ⊆ ps) : OutBut ps s (execLogOpen e s) :=
  OutBut.next ((lifeHead_frame (List.Subset.trans (by decide) h) (fun u c => by simp only [List.cons_subset] at h; simp [h])).2 (SameBut.refl ps s))

@[simp] theorem execLogClose_out (e : Fin 8) (s : State) (h : [.tcam, .marker, .sram, .search, .update, .ports, .tally, .journal, .integ, .events, .mgmt, .free] ⊆ ps) : OutBut ps s (execLogClose e s) :=
  OutBut.next ((lifeHead_frame (List.Subset.trans (by decide) h) (fun u c => by simp)).2 (SameBut.refl ps s))

@[simp] theorem execLogFree_out (e : Fin 8) (s : State) (h : [.tcam, .marker, .sram, .search, .update, .life, .ports, .tally, .journal, .integ, .events, .mgmt, .free] ⊆ ps) : OutBut ps s (execLogFree e s) :=
  OutBut.next ((lifeHead_frame (List.Subset.trans (by decide) h) (fun u c => by simp only [List.cons_subset] at h; simp [h])).2 (SameBut.refl ps s))

@[simp] theorem execLogRepoint_out (e : Fin 8) (budget : Nat) (s : State) (h : [.tcam, .marker, .sram, .update, .ports, .tally, .journal, .integ, .events, .mgmt, .free] ⊆ ps) : OutBut ps s (execLogRepoint e budget s) :=
  OutBut.next ((rpStep_frame (List.Subset.trans (by decide) h) (fun u c => by simp only [List.cons_subset] at h; simp [h])).2 (SameBut.refl ps s))

@[simp] theorem execConditionBegin_out (e : Fin 8) (s : State) (h : [.tcam, .marker, .sram, .search, .update, .life, .ports, .tally, .journal, .integ, .events, .mgmt, .free] ⊆ ps) : OutBut ps s (execConditionBegin e s) :=
  OutBut.next ((lifeHead_frame (List.Subset.trans (by decide) h) (fun u c => by simp only [List.cons_subset] at h; simp [h])).2 (SameBut.refl ps s))

@[simp] theorem execConditionDone_out (e : Fin 8) (s : State) (h : [.tcam, .marker, .sram, .search, .update, .life, .ports, .tally, .journal, .integ, .events, .mgmt, .free] ⊆ ps) : OutBut ps s (execConditionDone e s) :=
  OutBut.next ((lifeHead_frame (List.Subset.trans (by decide) h) (fun u c => by simp only [List.cons_subset] at h; simp [h])).2 (SameBut.refl ps s))

@[simp] theorem execRefreshDone_out (e : Fin 8) (s : State) (h : [.tcam, .marker, .sram, .search, .update, .ports, .tally, .journal, .integ, .events, .mgmt, .free] ⊆ ps) : OutBut ps s (execRefreshDone e s) :=
  OutBut.next ((lifeHead_frame (List.Subset.trans (by decide) h) (fun u c => by simp only [List.cons_subset] at h; simp [h])).2 (SameBut.refl ps s))

@[simp] theorem execMemberFail_out (e : Fin 8) (s : State) (h : [.tcam, .marker, .sram, .search, .update, .life, .ports, .tally, .journal, .integ, .events, .mgmt, .free] ⊆ ps) : OutBut ps s (execMemberFail e s) :=
  OutBut.next ((runHead_frame (List.Subset.trans (by decide) h) (fun u c => memberDouble_frame _ _ _ (List.Subset.trans (by decide) h)
    (lifeRun_frame (List.Subset.trans (by decide) h) (fun v => by simp only [List.cons_subset] at h; simp [h])))).2 (SameBut.refl ps s))

@[simp] theorem execRebuildAdvance_out (e : Fin 8) (s : State) (h : [.tcam, .marker, .sram, .search, .update, .ports, .tally, .journal, .integ, .events, .mgmt, .free] ⊆ ps) : OutBut ps s (execRebuildAdvance e s) :=
  OutBut.next ((lifeHead_frame (List.Subset.trans (by decide) h) (fun u c => by simp only [List.cons_subset] at h; simp [h])).2 (SameBut.refl ps s))

@[simp] theorem execOvlPut_out (e : Fin 8) (s : State) (h : [.tcam, .marker, .sram, .update, .life, .ports, .tally, .journal, .integ, .events, .mgmt, .free] ⊆ ps) : OutBut ps s (execOvlPut e s) :=
  OutBut.next ((runHead_frame (List.Subset.trans (by decide) h) (fun u c => by simp only [List.cons_subset] at h; simp [h])).2 (SameBut.refl ps s))

@[simp] theorem execOvlDrop_out (e : Fin 8) (s : State) (h : [.tcam, .marker, .sram, .update, .ports, .tally, .journal, .integ, .events, .mgmt, .free] ⊆ ps) : OutBut ps s (execOvlDrop e s) :=
  OutBut.next ((runHead_frame (List.Subset.trans (by decide) h) (fun u c => by simp only [List.cons_subset] at h; simp [h])).2 (SameBut.refl ps s))

@[simp] theorem execSpareReserveRefill_out (s : State) (h : [.life] ⊆ ps) : OutBut ps s (execSpareReserveRefill s) := by
  simp only [List.cons_subset] at h
  unfold execSpareReserveRefill
  simp [h]

@[simp] theorem execConditionQueueScan_out (s : State) (h : [.sram, .life, .integ, .events, .mgmt, .free] ⊆ ps) : OutBut ps s (execConditionQueueScan s) := by
  simp only [List.cons_subset] at h
  unfold execConditionQueueScan
  simp [h]

@[simp] theorem execRefreshScan_out (s : State) (h : [.sram, .integ, .events, .mgmt, .free] ⊆ ps) : OutBut ps s (execRefreshScan s) := by
  simp only [List.cons_subset] at h
  unfold execRefreshScan
  simp [h]

@[simp] theorem execWearBinUpdate_out (s : State) (h : [.sram, .life, .integ, .events, .mgmt, .free] ⊆ ps) : OutBut ps s (execWearBinUpdate s) := by
  simp only [List.cons_subset] at h
  unfold execWearBinUpdate
  simp [h]

@[simp] theorem execHeatHalving_out (s : State) (h : [.sram, .integ, .events, .mgmt, .free] ⊆ ps) : OutBut ps s (execHeatHalving s) := by
  simp only [List.cons_subset] at h
  unfold execHeatHalving
  simp [h]

@[simp] theorem execStoreDieFail_out (die : Fin 16) (s : State) (h : [.store, .events, .free] ⊆ ps) : OutBut ps s (execStoreDieFail die s) := by
  simp only [List.cons_subset] at h
  unfold execStoreDieFail
  simp [h]

@[simp] theorem execBandCondition_out (band : Nat) (s : State) (h : [.store] ⊆ ps) : OutBut ps s (execBandCondition band s) := by
  simp only [List.cons_subset] at h
  unfold execBandCondition
  simp [h]

@[simp] theorem execStoreBlockRetire_out (die : Fin 16) (block : Nat) (s : State) (h : [.store, .events, .mgmt, .free] ⊆ ps) : OutBut ps s (execStoreBlockRetire die block s) := by
  simp only [List.cons_subset] at h
  unfold execStoreBlockRetire
  simp [h]

@[simp] theorem execSuperblockRingCondition_out (ask : RingAsk) (s : State) (h : [.store] ⊆ ps) : OutBut ps s (execSuperblockRingCondition ask s) := by
  simp only [List.cons_subset] at h
  unfold execSuperblockRingCondition
  simp [h]

@[simp] theorem execPageFrameClose_out (s : State) (h : [.journal] ⊆ ps) : OutBut ps s (execPageFrameClose s) := by
  simp only [List.cons_subset] at h
  unfold execPageFrameClose
  simp [h]

@[simp] theorem execJournalDrain_out (s : State) (h : [.journal, .store, .mgmt] ⊆ ps) : OutBut ps s (execJournalDrain s) := by
  simp only [List.cons_subset] at h
  unfold execJournalDrain
  simp [h]

@[simp] theorem execTimeRecord_out (s : State) (h : [.journal] ⊆ ps) : OutBut ps s (execTimeRecord s) := by
  simp only [List.cons_subset] at h
  unfold execTimeRecord
  simp [h]

@[simp] theorem execCheckpointBegin_out (s : State) (h : [.store] ⊆ ps) : OutBut ps s (execCheckpointBegin s) := by
  simp only [List.cons_subset] at h
  unfold execCheckpointBegin
  simp [h]

@[simp] theorem execCknow_out (who : Requester) (s : State) (h : [.store] ⊆ ps) : OutBut ps s (execCknow who s) := by
  simp only [List.cons_subset] at h
  unfold execCknow
  simp [h]

@[simp] theorem execCheckpointSegment_out (s : State) (h : [.sram, .store, .integ, .events, .mgmt, .free] ⊆ ps) : OutBut ps s (execCheckpointSegment s) := by
  simp only [List.cons_subset] at h
  unfold execCheckpointSegment
  simp [h]

@[simp] theorem execCheckpointComplete_out (s : State) (h : [.fuses, .journal, .store, .mgmt] ⊆ ps) : OutBut ps s (execCheckpointComplete s) := by
  simp only [List.cons_subset] at h
  unfold execCheckpointComplete
  simp [h]

@[simp] theorem execPfail_out (lowNs : Nat) (s : State) (h : [.pins, .power, .boot, .ports, .tally, .holdup, .waitos, .events, .mgmt, .free] ⊆ ps) : OutBut ps s (execPfail lowNs s) := by
  simp only [List.cons_subset] at h
  unfold execPfail
  simp [h]

@[simp] theorem execFenceClose_out (s : State) (h : [.ports, .journal, .holdup] ⊆ ps) : OutBut ps s (execFenceClose s) := by
  simp only [List.cons_subset] at h
  unfold execFenceClose
  simp [h]

@[simp] theorem execFlushed_out (p : Fin 8) (s : State) (h : [.ports, .tally, .journal, .holdup, .events, .free] ⊆ ps) : OutBut ps s (execFlushed p s) := by
  simp only [List.cons_subset] at h
  unfold execFlushed
  simp [h]

@[simp] theorem execPwrgdDrop_out (lowNs : Nat) (s : State) (h : [.pins, .power, .boot, .ports, .tally, .holdup, .waitos, .events, .mgmt, .free] ⊆ ps) : OutBut ps s (execPwrgdDrop lowNs s) := by
  simp only [List.cons_subset] at h
  unfold execPwrgdDrop
  simp [h]

@[simp] theorem execSaveBegun_out (k : Fin 3) (s : State) (h : [.power, .boot, .ports, .tally, .holdup, .waitos, .events, .free] ⊆ ps) : OutBut ps s (execSaveBegun k s) := by
  simp only [List.cons_subset] at h
  unfold execSaveBegun
  simp [h]

@[simp] theorem execMgmt_out (src : MgmtSrc) (s : State) (h : [.ports, .tally, .waitos, .events, .mgmt, .free] ⊆ ps) : OutBut ps s (execMgmt src s) := by
  simp only [List.cons_subset] at h
  unfold execMgmt
  split <;> simp [h]

@[simp] theorem execHandleFree_out (h_ : Nat) (s : State) (h : [.waitos] ⊆ ps) : OutBut ps s (execHandleFree h_ s) := by
  simp only [List.cons_subset] at h
  unfold execHandleFree
  split <;> simp [h]

@[simp] theorem execArbiterDecision_out (arb : Nat) (present : ArbAsk) (s : State) (h : [.tcam, .arbs, .events, .free] ⊆ ps) : OutBut ps s (execArbiterDecision arb present s) := by
  simp only [List.cons_subset] at h
  unfold execArbiterDecision
  simp [h]

@[simp] theorem execRefreshGroup_out (bank : Nat) (s : State) (h : [.tcam, .arbs, .events, .free] ⊆ ps) : OutBut ps s (execRefreshGroup bank s) := by
  simp only [List.cons_subset] at h
  unfold execRefreshGroup
  simp [h]

@[simp] theorem execVreq_out (who : Requester) (code : BitVec 6) (s : State) (h : [.power] ⊆ ps) : OutBut ps s (execVreq who code s) := by
  simp only [List.cons_subset] at h
  unfold execVreq
  simp [h]

@[simp] theorem execVoltageRequest_out (s : State) (h : [.power] ⊆ ps) : OutBut ps s (execVoltageRequest s) := by
  simp only [List.cons_subset] at h
  unfold execVoltageRequest
  simp [h]

@[simp] theorem execEpoch_out (s : State) (h : [.clock, .tcam] ⊆ ps) : OutBut ps s (execEpoch s) := by
  simp only [List.cons_subset] at h
  unfold execEpoch
  simp [h]

@[simp] theorem execRefclkFault_out (s : State) (h : [.pins, .clock, .events, .free] ⊆ ps) : OutBut ps s (execRefclkFault s) := by
  simp only [List.cons_subset] at h
  unfold execRefclkFault
  simp [h]

@[simp] theorem execRefclkRestore_out (s : State) (h : [.pins, .clock] ⊆ ps) : OutBut ps s (execRefclkRestore s) := by
  simp only [List.cons_subset] at h
  unfold execRefclkRestore
  simp [h]

@[simp] theorem execCoreLost_out (core : Fin 4) (s : State) (h : [.waitos, .events, .free] ⊆ ps) : OutBut ps s (execCoreLost core s) := by
  simp only [List.cons_subset] at h
  unfold execCoreLost
  simp [h]

@[simp] theorem execRefreshGuard_out (s : State) (h : [.tcam, .arbs, .therm, .events, .mgmt, .free] ⊆ ps) : OutBut ps s (execRefreshGuard s) := by
  simp only [List.cons_subset] at h
  unfold execRefreshGuard
  simp [h]

@[simp] theorem execBandWrite_out (who : Requester) (band : BitVec 3) (s : State) (h : [.tcam, .arbs, .therm, .waitos, .events, .mgmt, .free] ⊆ ps) : OutBut ps s (execBandWrite who band s) := by
  simp only [List.cons_subset] at h
  unfold execBandWrite
  simp [h]

@[simp] theorem execConversionDone_out (raw : BitVec 12) (s : State) (h : [.power, .boot, .tcam, .ports, .arbs, .tally, .holdup, .therm, .waitos, .events, .mgmt, .free] ⊆ ps) : OutBut ps s (execConversionDone raw s) := by
  simp only [List.cons_subset] at h
  unfold execConversionDone
  simp [h]

@[simp] theorem execConversionTimeout_out (s : State) (h : [.tcam, .ports, .arbs, .tally, .therm, .waitos, .events, .mgmt, .free] ⊆ ps) : OutBut ps s (execConversionTimeout s) := by
  simp only [List.cons_subset] at h
  unfold execConversionTimeout
  simp [h]

@[simp] theorem execGuardReading_out (s : State) (h : [.therm] ⊆ ps) : OutBut ps s (execGuardReading s) := by
  simp only [List.cons_subset] at h
  unfold execGuardReading
  simp [h]

@[simp] theorem execReadingDemand_out (s : State) (h : [.therm] ⊆ ps) : OutBut ps s (execReadingDemand s) := by
  simp only [List.cons_subset] at h
  unfold execReadingDemand
  simp [h]

@[simp] theorem execDemand_out (who : Requester) (s : State) (h : [.therm] ⊆ ps) : OutBut ps s (execDemand who s) := by
  simp only [List.cons_subset] at h
  unfold execDemand
  simp [h]

@[simp] theorem execDiodeRetry_out (s : State) (h : [.therm] ⊆ ps) : OutBut ps s (execDiodeRetry s) := by
  simp only [List.cons_subset] at h
  unfold execDiodeRetry
  simp [h]

@[simp] theorem execBandConfirm_out (s : State) (h : [.tcam, .arbs, .therm, .events, .mgmt, .free] ⊆ ps) : OutBut ps s (execBandConfirm s) := by
  simp only [List.cons_subset] at h
  unfold execBandConfirm
  simp [h]

@[simp] theorem execCalibration_out (s : State) (h : [.therm, .waitos] ⊆ ps) : OutBut ps s (execCalibration s) := by
  simp only [List.cons_subset] at h
  unfold execCalibration
  simp [h]

@[simp] theorem execCalnow_out (who : Requester) (s : State) (h : [.therm, .waitos] ⊆ ps) : OutBut ps s (execCalnow who s) := by
  simp only [List.cons_subset] at h
  unfold execCalnow
  simp [h]

@[simp] theorem execCalibrationDone_out (s : State) (h : [.therm, .waitos, .events, .mgmt, .free] ⊆ ps) : OutBut ps s (execCalibrationDone s) := by
  simp only [List.cons_subset] at h
  unfold execCalibrationDone
  simp [h]

@[simp] theorem execCalDeferred_out (s : State) (h : [.therm, .events, .free] ⊆ ps) : OutBut ps s (execCalDeferred s) := by
  simp only [List.cons_subset] at h
  unfold execCalDeferred
  simp [h]

@[simp] theorem execDiodeCal_out (w : Client) (s : State) (h : [.ports, .tally, .therm, .waitos, .events, .mgmt, .free] ⊆ ps) : OutBut ps s (execDiodeCal w s) :=
  OutBut.next ((runReq_frame (List.Subset.trans (by decide) h) (fun u l => by simp only [List.cons_subset] at h; (repeat' split) <;> simp [h])).2 (SameBut.refl ps s))

@[simp] theorem execTempRead_out (w : Client) (s : State) (h : [.ports, .tally, .therm, .waitos, .events, .mgmt, .free] ⊆ ps) : OutBut ps s (execTempRead w s) := by
  simp only [List.cons_subset] at h
  unfold execTempRead
  simp [h]

@[simp] theorem execTemp_out (p : Fin 8) (s : State) (h : [.sram, .search, .ports, .tally, .journal, .therm, .integ, .events, .mgmt, .free] ⊆ ps) : OutBut ps s (execTemp p s) := by
  simp only [List.cons_subset] at h
  unfold execTemp
  simp [h]

@[simp] theorem execMediaStaleCheck_out (s : State) (h : [.sram, .search, .journal, .therm, .integ, .events, .mgmt, .free] ⊆ ps) : OutBut ps s (execMediaStaleCheck s) := by
  simp only [List.cons_subset] at h
  unfold execMediaStaleCheck
  simp [h]

@[simp] theorem execSelfTestRotation_out (s : State) (h : [.tcam, .marker, .sram, .update, .journal, .integ, .waitos, .events, .mgmt, .free] ⊆ ps) : OutBut ps s (execSelfTestRotation s) := by
  simp only [List.cons_subset] at h
  unfold execSelfTestRotation
  simp [h]

@[simp] theorem execDisagreementResolution_out (tok : Nat) (step : Fin 4) (s : State) (h : [.clock, .tcam, .marker, .sram, .search, .update, .ports, .tally, .journal, .integ, .waitos, .events, .mgmt, .free] ⊆ ps) : OutBut ps s (execDisagreementResolution tok step s) := by
  simp only [List.cons_subset] at h
  unfold execDisagreementResolution
  simp [h]

@[simp] theorem execBankSelfTest_out (bank : Nat) (result : BitVec 4) (s : State) (h : [.tcam, .therm, .waitos] ⊆ ps) : OutBut ps s (execBankSelfTest bank result s) := by
  simp only [List.cons_subset] at h
  unfold execBankSelfTest
  simp [h]

@[simp] theorem execSelfTestDone_out (bank : Nat) (s : State) (h : [.tcam, .marker, .sram, .update, .journal, .integ, .waitos, .events, .mgmt, .free] ⊆ ps) : OutBut ps s (execSelfTestDone bank s) := by
  simp only [List.cons_subset] at h
  unfold execSelfTestDone
  simp [h]

@[simp] theorem execTrackerReport_out (s : State) (h : [.tcam, .marker, .sram, .update, .journal, .integ, .waitos, .events, .mgmt, .free] ⊆ ps) : OutBut ps s (execTrackerReport s) := by
  simp only [List.cons_subset] at h
  unfold execTrackerReport
  simp [h]

@[simp] theorem execWriteBack_out (addr : BitVec 28) (s : State) (h : [.sram, .integ, .mgmt] ⊆ ps) : OutBut ps s (execWriteBack addr s) := by
  simp only [List.cons_subset] at h
  unfold execWriteBack
  simp [h]

@[simp] theorem execTrackerAgeOut_out (i : Fin 1024) (s : State) (h : [.integ] ⊆ ps) : OutBut ps s (execTrackerAgeOut i s) := by
  simp only [List.cons_subset] at h
  unfold execTrackerAgeOut
  simp [h]

@[simp] theorem execRowSparing_out (addr : BitVec 28) (s : State) (h : [.sram, .integ, .waitos, .events, .mgmt, .free] ⊆ ps) : OutBut ps s (execRowSparing addr s) := by
  simp only [List.cons_subset] at h
  unfold execRowSparing
  simp [h]

@[simp] theorem execColumnSparing_out (addr : BitVec 28) (bit : Fin 72) (s : State) (h : [.sram, .integ, .waitos, .events, .mgmt, .free] ⊆ ps) : OutBut ps s (execColumnSparing addr bit s) := by
  simp only [List.cons_subset] at h
  unfold execColumnSparing
  simp [h]

@[simp] theorem execFieldRepairProgram_out (ok0 ok1 : Bool) (s : State) (h : [.fuses, .integ, .events, .free] ⊆ ps) : OutBut ps s (execFieldRepairProgram ok0 ok1 s) := by
  simp only [List.cons_subset] at h
  unfold execFieldRepairProgram
  simp [h]

@[simp] theorem execBankScrub_out (e : Fin 8) (s : State) (h : [.clock, .tcam, .marker, .sram, .update, .journal, .integ, .waitos, .events, .mgmt, .free] ⊆ ps) : OutBut ps s (execBankScrub e s) := by
  simp only [List.cons_subset] at h
  unfold execBankScrub
  simp [h]

@[simp] theorem execSramScrub_out (e : Fin 8) (s : State) (h : [.sram, .update, .integ, .events, .mgmt, .free] ⊆ ps) : OutBut ps s (execSramScrub e s) := by
  simp only [List.cons_subset] at h
  unfold execSramScrub
  simp [h]

@[simp] theorem execRederive_out (s : State) (h : [.tcam, .marker, .sram, .search, .journal, .therm, .integ, .waitos, .events, .mgmt, .free] ⊆ ps) : OutBut ps s (execRederive s) := by
  simp only [List.cons_subset] at h
  unfold execRederive
  simp [h]

@[simp] theorem execRomTrap_out (core : Fin 4) (copy : Fin 2) (word : Nat) (both : Bool) (s : State) (h : [.integ, .waitos, .events, .mgmt, .free] ⊆ ps) : OutBut ps s (execRomTrap core copy word both s) := by
  simp only [List.cons_subset] at h
  unfold execRomTrap
  simp [h]

@[simp] theorem execChannelHalt_out (c : HaltCase) (s : State) (h : [.tcam, .sram, .search, .update, .ports, .tally, .journal, .store, .therm, .integ, .events, .mgmt, .free] ⊆ ps) : OutBut ps s (execChannelHalt c s) := by
  simp only [List.cons_subset] at h
  unfold execChannelHalt
  simp [h]

@[simp] theorem execRawrd_out (who : Requester) (s : State) (h : [.sram, .integ] ⊆ ps) : OutBut ps s (execRawrd who s) := by
  simp only [List.cons_subset] at h
  unfold execRawrd
  simp [h]

@[simp] theorem execRawwr_out (who : Requester) (s : State) (h : [.sram, .integ] ⊆ ps) : OutBut ps s (execRawwr who s) := by
  simp only [List.cons_subset] at h
  unfold execRawwr
  simp [h]

@[simp] theorem execInject_out (who : Requester) (s : State) (h : [.sram, .integ] ⊆ ps) : OutBut ps s (execInject who s) := by
  simp only [List.cons_subset] at h
  unfold execInject
  simp [h]

@[simp] theorem execTrd_out (who : Requester) (s : State) (h : [.integ] ⊆ ps) : OutBut ps s (execTrd who s) := by
  simp only [List.cons_subset] at h
  unfold execTrd
  simp [h]

@[simp] theorem execTwr_out (who : Requester) (s : State) (h : [.tcam, .integ] ⊆ ps) : OutBut ps s (execTwr who s) := by
  simp only [List.cons_subset] at h
  unfold execTwr
  simp [h]

@[simp] theorem execDisarm_out (who : Requester) (s : State) (h : [.sram, .integ] ⊆ ps) : OutBut ps s (execDisarm who s) := by
  simp only [List.cons_subset] at h
  unfold execDisarm
  simp [h]

@[simp] theorem execStallCutoff_out (arb : Nat) (s : State) (h : [.tcam, .sram, .search, .update, .ports, .arbs, .tally, .waitos, .events, .mgmt, .free] ⊆ ps) : OutBut ps s (execStallCutoff arb s) := by
  simp only [List.cons_subset] at h
  unfold execStallCutoff
  simp [h]

@[simp] theorem execDfrz_out (who : Requester) (k : Fin 3) (v : BitVec 32) (s : State) (h : [.arbs] ⊆ ps) : OutBut ps s (execDfrz who k v s) := by
  simp only [List.cons_subset] at h
  unfold execDfrz
  simp [h]

@[simp] theorem execFreezeTimeout_out (g : Nat) (s : State) (h : [.arbs, .events, .free] ⊆ ps) : OutBut ps s (execFreezeTimeout g s) := by
  simp only [List.cons_subset] at h
  unfold execFreezeTimeout
  simp [h]

@[simp] theorem execSnap_out (who : Requester) (s : State) (h : [.arbs] ⊆ ps) : OutBut ps s (execSnap who s) := by
  simp only [List.cons_subset] at h
  unfold execSnap
  simp [h]

@[simp] theorem execClr_out (who : Requester) (s : State) (h : [.arbs] ⊆ ps) : OutBut ps s (execClr who s) := by
  simp only [List.cons_subset] at h
  unfold execClr
  simp [h]

@[simp] theorem execCommit_out (who : Requester) (t : Fin 8) (s : State) (h : [.str, .journal, .mgmt] ⊆ ps) : OutBut ps s (execCommit who t s) := by
  simp only [List.cons_subset] at h
  unfold execCommit
  simp [h]

@[simp] theorem execAudit_out (who : Requester) (s : State) (h : [.tally, .events, .free] ⊆ ps) : OutBut ps s (execAudit who s) := by
  simp only [List.cons_subset] at h
  unfold execAudit
  simp [h]

@[simp] theorem execTsnap_out (who : Requester) (s : State) (h : [.tally] ⊆ ps) : OutBut ps s (execTsnap who s) := by
  simp only [List.cons_subset] at h
  unfold execTsnap
  simp [h]

@[simp] theorem execFwd_out (k : Fin 3) (s : State) (h : [.marker, .sram, .search, .ports, .tally, .integ, .events, .mgmt, .free] ⊆ ps) : OutBut ps s (execFwd k s) := by
  simp only [List.cons_subset] at h
  unfold execFwd
  simp [h]

@[simp] theorem execProbe_out (k : Fin 3) (s : State) (h : [.marker, .search, .ports, .tally, .integ, .events, .mgmt, .free] ⊆ ps) : OutBut ps s (execProbe k s) := by
  simp only [List.cons_subset] at h
  unfold execProbe
  simp [h]

@[simp] theorem execFans_out (k : Fin 3) (s : State) (h : [.search, .ports, .tally, .events, .mgmt, .free] ⊆ ps) : OutBut ps s (execFans k s) := by
  simp only [List.cons_subset] at h
  unfold execFans
  simp [h]

@[simp] theorem execPans_out (k : Fin 3) (s : State) (h : [.search, .ports, .tally, .events, .mgmt, .free] ⊆ ps) : OutBut ps s (execPans k s) := by
  simp only [List.cons_subset] at h
  unfold execPans
  simp [h]

@[simp] theorem execRebal_out (k : Fin 3) (s : State) (h : [.tcam, .marker, .sram, .update, .ports, .tally, .journal, .integ, .waitos, .crew, .events, .mgmt, .free] ⊆ ps) : OutBut ps s (execRebal k s) := by
  unfold execRebal
  split
  · rename_i q
    have k := crewNote_some q (List.Subset.trans (by decide) h)
    simp only [List.cons_subset] at h
    refine OutBut.next ?_
    split
    · simp [h, k]
    · simp
  · simp

@[simp] theorem execRebalReport_out (w : Client) (s : State) (h : [.tcam, .marker, .sram, .search, .update, .life, .ports, .tally, .journal, .integ, .waitos, .crew, .events, .mgmt, .free] ⊆ ps) : OutBut ps s (execRebalReport w s) := by
  simp only [List.cons_subset] at h
  unfold execRebalReport
  simp [h]

@[simp] theorem execRebalBegin_out (w : Client) (s : State) (h : [.ports, .tally, .journal, .waitos, .crew, .events, .mgmt, .free] ⊆ ps) : OutBut ps s (execRebalBegin w s) := by
  simp only [List.cons_subset] at h
  unfold execRebalBegin
  simp [h]

@[simp] theorem execRebalAck_out (k : Fin 3) (s : State) (h : [.tcam, .marker, .sram, .search, .update, .life, .ports, .tally, .journal, .integ, .waitos, .crew, .events, .mgmt, .free] ⊆ ps) : OutBut ps s (execRebalAck k s) := by
  dsimp only [execRebalAck]
  split
  · rename_i q
    have k := crewNote_some q (List.Subset.trans (by decide) h)
    simp only [List.cons_subset] at h
    (repeat' split) <;> simp [h, k]
  · simp

@[simp] theorem execRebalRetire_out (s : State) (h : [.ports, .tally, .journal, .waitos, .crew, .events, .mgmt, .free] ⊆ ps) : OutBut ps s (execRebalRetire s) := by
  simp only [List.cons_subset] at h
  unfold execRebalRetire
  simp [h]

@[simp] theorem execCrewReady_out (k : Fin 3) (s : State) (h : [.clock, .ports, .tally, .crew, .events, .mgmt, .free] ⊆ ps) : OutBut ps s (execCrewReady k s) := by
  unfold execCrewReady
  split
  · rename_i q
    have k := crewNote_some q (List.Subset.trans (by decide) h)
    simp only [List.cons_subset] at h
    simp [h, k]
  · simp

@[simp] theorem execCrewReadyTimeout_out (s : State) (h : [.ports, .crew, .events, .free] ⊆ ps) : OutBut ps s (execCrewReadyTimeout s) := by
  simp only [List.cons_subset] at h
  unfold execCrewReadyTimeout
  simp [h]

@[simp] theorem execLinks_out (k : Fin 3) (s : State) (h : [.ports, .tally, .crew, .events, .free] ⊆ ps) : OutBut ps s (execLinks k s) := by
  unfold execLinks
  split
  · rename_i q
    have k := crewNote_some q (List.Subset.trans (by decide) h)
    simp only [List.cons_subset] at h
    simp [h, k]
  · simp

@[simp] theorem execLinksPeriod_out (s : State) (h : [.tcam, .marker, .sram, .search, .update, .life, .ports, .tally, .journal, .integ, .waitos, .crew, .events, .mgmt, .free] ⊆ ps) : OutBut ps s (execLinksPeriod s) := by
  simp only [List.cons_subset] at h
  unfold execLinksPeriod
  simp [h]

@[simp] theorem execRecordClose_out (q : Fin 10) (s : State) (h : [.events] ⊆ ps) : OutBut ps s (execRecordClose q s) := by
  simp only [List.cons_subset] at h
  unfold execRecordClose
  simp [h]

@[simp] theorem execEqhead_out (who : Requester) (q : Fin 10) (s : State) (h : [.events] ⊆ ps) : OutBut ps s (execEqhead who q s) := by
  simp only [List.cons_subset] at h
  unfold execEqhead
  simp [h]

@[simp] theorem execEqpop_out (who : Requester) (q : Fin 10) (v : BitVec 32) (s : State) (h : [.events] ⊆ ps) : OutBut ps s (execEqpop who q v s) := by
  simp only [List.cons_subset] at h
  unfold execEqpop
  simp [h]

@[simp] theorem execLclr_out (who : Requester) (q : Fin 10) (s : State) (h : [.events] ⊆ ps) : OutBut ps s (execLclr who q s) := by
  simp only [List.cons_subset] at h
  unfold execLclr
  simp [h]

@[simp] theorem execGsnap_out (who : Requester) (s : State) (h : [.events] ⊆ ps) : OutBut ps s (execGsnap who s) := by
  simp only [List.cons_subset] at h
  unfold execGsnap
  simp [h]

@[simp] theorem execFreeze_out (who : Requester) (v : Bool) (s : State) (h : [.events] ⊆ ps) : OutBut ps s (execFreeze who v s) := by
  simp only [List.cons_subset] at h
  unfold execFreeze
  simp [h]

@[simp] theorem execTrclr_out (who : Requester) (s : State) (h : [.events] ⊆ ps) : OutBut ps s (execTrclr who s) := by
  simp only [List.cons_subset] at h
  unfold execTrclr
  simp [h]

@[simp] theorem execWideRead_out (who : Requester) (off : BitVec 24) (s : State) (h : [.events, .mgmt] ⊆ ps) : OutBut ps s (execWideRead who off s) := by
  simp only [List.cons_subset] at h
  unfold execWideRead
  simp [h]

@[simp] theorem execGetInfo_out (w : Client) (s : State) (h : [.ports, .tally, .waitos, .events, .mgmt, .free] ⊆ ps) : OutBut ps s (execGetInfo w s) := by
  simp only [List.cons_subset] at h
  unfold execGetInfo
  simp [h]

@[simp] theorem execOpStatus_out (w : Client) (s : State) (h : [.ports, .tally, .waitos, .events, .mgmt, .free] ⊆ ps) : OutBut ps s (execOpStatus w s) := by
  simp only [List.cons_subset] at h
  unfold execOpStatus
  simp [h]

@[simp] theorem execGetKeyslots_out (w : Client) (s : State) (h : [.ports, .tally, .waitos, .events, .mgmt, .free] ⊆ ps) : OutBut ps s (execGetKeyslots w s) := by
  simp only [List.cons_subset] at h
  unfold execGetKeyslots
  split <;> simp [h]

@[simp] theorem execDirRead_out (w : Client) (s : State) (h : [.ports, .tally, .waitos, .events, .mgmt, .free] ⊆ ps) : OutBut ps s (execDirRead w s) := by
  simp only [List.cons_subset] at h
  unfold execDirRead
  simp [h]

@[simp] theorem execMigInfo_out (w : Client) (s : State) (h : [.sram, .ports, .tally, .integ, .waitos, .events, .mgmt, .free] ⊆ ps) : OutBut ps s (execMigInfo w s) := by
  simp only [List.cons_subset] at h
  unfold execMigInfo
  simp [h]

@[simp] theorem execMread_out (w : Client) (s : State) (h : [.ports, .tally, .waitos, .events, .mgmt, .free] ⊆ ps) : OutBut ps s (execMread w s) := by
  simp only [List.cons_subset] at h
  unfold execMread
  simp [h]

@[simp] theorem execCtxRead_out (w : Client) (s : State) (h : [.sram, .ports, .tally, .integ, .waitos, .events, .mgmt, .free] ⊆ ps) : OutBut ps s (execCtxRead w s) := by
  simp only [List.cons_subset] at h
  unfold execCtxRead
  simp [h]

@[simp] theorem execCtxWrite_out (w : Client) (s : State) (h : [.sram, .search, .update, .ports, .tally, .journal, .integ, .waitos, .events, .mgmt, .free] ⊆ ps) : OutBut ps s (execCtxWrite w s) :=
  OutBut.next ((runReq_frame (List.Subset.trans (by decide) h) (fun u l => ranReply_keeps (by simp only [List.cons_subset] at h; simp [h]))).2 (SameBut.refl ps s))

@[simp] theorem execCtxCas_out (w : Client) (s : State) (h : [.sram, .search, .update, .ports, .tally, .journal, .integ, .waitos, .events, .mgmt, .free] ⊆ ps) : OutBut ps s (execCtxCas w s) :=
  OutBut.next ((runReq_frame (List.Subset.trans (by decide) h) (fun u l => ranReply_keeps (by simp only [List.cons_subset] at h; simp [h]))).2 (SameBut.refl ps s))

@[simp] theorem execLaneCal_out (w : Client) (s : State) (h : [.ports, .tally, .waitos, .events, .mgmt, .free] ⊆ ps) : OutBut ps s (execLaneCal w s) :=
  OutBut.next ((runReq_frame (List.Subset.trans (by decide) h) (fun u l => by
    simp only [List.cons_subset] at h
    dsimp only
    split
    · simp
    · refine SameBut.ite_snd_iff.2 ?_
      split
      · simp
      · exact (startReply_frame (by simp [h]) (fun n v => by simp [h])).2 (SameBut.refl ps u))).2 (SameBut.refl ps s))

@[simp] theorem execScrubSet_out (w : Client) (s : State) (h : [.ports, .tally, .integ, .waitos, .events, .mgmt, .free] ⊆ ps) : OutBut ps s (execScrubSet w s) := by
  simp only [List.cons_subset] at h
  unfold execScrubSet
  simp [h]

@[simp] theorem execScrubNow_out (w : Client) (s : State) (h : [.clock, .tcam, .sram, .ports, .tally, .integ, .waitos, .events, .mgmt, .free] ⊆ ps) : OutBut ps s (execScrubNow w s) :=
  OutBut.next ((runReq_frame (List.Subset.trans (by decide) h) (fun u l => by
    simp only [List.cons_subset] at h
    dsimp only
    refine SameBut.ite_snd_iff.2 ?_
    split
    · simp
    · generalize (if natAt l 0 1 = 0 then _ else _ : Option Reply) = busy
      split
      · simp
      · exact (doneWithin_frame (by simp [h]) (fun v => by simp [h])).2 (SameBut.refl ps u))).2 (SameBut.refl ps s))

@[simp] theorem execAutoSet_out (w : Client) (s : State) (h : [.ports, .tally, .waitos, .events, .mgmt, .free] ⊆ ps) : OutBut ps s (execAutoSet w s) := by
  simp only [List.cons_subset] at h
  unfold execAutoSet
  simp [h]

@[simp] theorem execBankTest_out (w : Client) (s : State) (h : [.tcam, .update, .ports, .tally, .journal, .waitos, .events, .mgmt, .free] ⊆ ps) : OutBut ps s (execBankTest w s) := by
  simp only [List.cons_subset] at h
  unfold execBankTest
  simp [h]

@[simp] theorem execWaitosBankRetire_out (w : Client) (s : State) (h : [.tcam, .update, .ports, .tally, .journal, .integ, .waitos, .events, .mgmt, .free] ⊆ ps) : OutBut ps s (execWaitosBankRetire w s) := by
  simp only [List.cons_subset] at h
  unfold execWaitosBankRetire
  simp [h]

@[simp] theorem execCellSpare_out (w : Client) (s : State) (h : [.sram, .ports, .tally, .integ, .waitos, .events, .mgmt, .free] ⊆ ps) : OutBut ps s (execCellSpare w s) := by
  simp only [List.cons_subset] at h
  unfold execCellSpare
  simp [h]

@[simp] theorem execReplicate_out (w : Client) (s : State) (h : [.marker, .update, .ports, .tally, .journal, .waitos, .events, .mgmt, .free] ⊆ ps) : OutBut ps s (execReplicate w s) := by
  simp only [List.cons_subset] at h
  unfold execReplicate
  simp [h]

@[simp] theorem execGrow_out (w : Client) (s : State) (h : [.tcam, .marker, .ports, .tally, .journal, .waitos, .events, .mgmt, .free] ⊆ ps) : OutBut ps s (execGrow w s) := by
  simp only [List.cons_subset] at h
  unfold execGrow
  simp [h]

@[simp] theorem execMarkerCountReading_out (s : State) (h : [.tcam, .marker, .update, .journal, .waitos, .events, .mgmt, .free] ⊆ ps) : OutBut ps s (execMarkerCountReading s) := by
  simp only [List.cons_subset] at h
  unfold execMarkerCountReading
  simp [h]

@[simp] theorem execTimeAdvance_out (w : Client) (s : State) (h : [.clock, .tcam, .ports, .tally, .journal, .waitos, .events, .mgmt, .free] ⊆ ps) : OutBut ps s (execTimeAdvance w s) := by
  simp only [List.cons_subset] at h
  unfold execTimeAdvance
  simp [h]

@[simp] theorem execImgBegin_out (w : Client) (s : State) (h : [.flash, .ports, .tally, .waitos, .events, .mgmt, .free] ⊆ ps) : OutBut ps s (execImgBegin w s) := by
  simp only [List.cons_subset] at h
  unfold execImgBegin
  simp [h]

@[simp] theorem execImgData_out (w : Client) (s : State) (h : [.flash, .ports, .tally, .waitos, .events, .mgmt, .free] ⊆ ps) : OutBut ps s (execImgData w s) := by
  simp only [List.cons_subset] at h
  unfold execImgData
  simp [h]

@[simp] theorem execImgCommit_out (w : Client) (s : State) (h : [.boot, .flash, .str, .tcam, .marker, .sram, .search, .ports, .tally, .journal, .waitos, .crew, .events, .mgmt, .free] ⊆ ps) : OutBut ps s (execImgCommit w s) := by
  simp only [List.cons_subset] at h
  unfold execImgCommit
  simp [h]

@[simp] theorem execImgAbort_out (w : Client) (s : State) (h : [.ports, .tally, .waitos, .events, .mgmt, .free] ⊆ ps) : OutBut ps s (execImgAbort w s) := by
  simp only [List.cons_subset] at h
  unfold execImgAbort
  simp [h]

@[simp] theorem execImgSessionTimeout_out (s : State) (h : [.waitos, .events, .free] ⊆ ps) : OutBut ps s (execImgSessionTimeout s) := by
  simp only [List.cons_subset] at h
  unfold execImgSessionTimeout
  simp [h]

@[simp] theorem execDbgNonce_out (w : Client) (s : State) (h : [.ports, .tally, .waitos, .events, .mgmt, .free] ⊆ ps) : OutBut ps s (execDbgNonce w s) := by
  simp only [List.cons_subset] at h
  unfold execDbgNonce
  simp [h]

@[simp] theorem execStoreInit_out (w : Client) (s : State) (h : [.ports, .tally, .waitos, .events, .mgmt, .free] ⊆ ps) : OutBut ps s (execStoreInit w s) :=
  OutBut.next ((runReq_frame (List.Subset.trans (by decide) h) (fun u l => by simp only [List.cons_subset] at h; (repeat' split) <;> simp [h])).2 (SameBut.refl ps s))

@[simp] theorem execOpDone_out (h_ : Nat) (status : BitVec 4) (progress : BitVec 64) (s : State) (h : [.tcam, .marker, .journal, .store, .integ, .waitos, .events, .mgmt, .free] ⊆ ps) : OutBut ps s (execOpDone h_ status progress s) := by
  simp only [List.cons_subset] at h
  unfold execOpDone
  simp [h]

@[simp] theorem execMctpControl_out (m : MctpCmd) (s : State) (h : [.waitos, .free] ⊆ ps) : OutBut ps s (execMctpControl m s) := by
  simp only [List.cons_subset] at h
  unfold execMctpControl
  simp [h]

@[simp] theorem execDynamicAddress_out (_setdasa : Bool) (addr : BitVec 7) (s : State) (h : [.waitos] ⊆ ps) : OutBut ps s (execDynamicAddress _setdasa addr s) := by
  simp only [List.cons_subset] at h
  unfold execDynamicAddress
  simp [h]

@[simp] theorem execStroke_out (s : State) (h : [.clock, .power, .boot, .str, .tcam, .marker, .sram, .search, .ports, .arbs, .tally, .waitos, .crew, .events, .mgmt, .free] ⊆ ps) : OutBut ps s (execStroke s) := by
  simp only [List.cons_subset] at h
  unfold execStroke
  simp [h]

end Sys2Proof.Machine
end

section
/-! ## The lock and DEBUGGED
Apart from a cold boot, few operations touch the protection set-up or the debug state; every other one keeps both by its frame. -/

namespace Sys2Proof.Machine

open Sys2Proof

/-- From s to t the lock holds (R15, R497, R510): a locked protection set-up is the same, and DEBUGGED is not cleared. -/
structure LockHeld (s t : State) : Prop where
  prot : s.prot.locked = true → t.prot = s.prot
  debugged : s.dbg.debugged = true → t.dbg.debugged = true

/-- Every part but the protection set-up and the debug state. -/
def Part.besideLock : List Part := [.pins, .clock, .power, .boot, .fuses, .flash, .str, .tcam, .marker, .sram, .search, .update, .life, .ports, .arbs,
  .tally, .journal, .store, .holdup, .therm, .integ, .waitos, .crew, .events, .mgmt, .free]

@[simp] theorem Part.mem_besideLock {p : Part} : p ∈ Part.besideLock ↔ p ≠ .prot ∧ p ≠ .dbg ∧ p ≠ .pending := by
  cases p <;> decide

section
variable {s t u : State}

theorem LockHeld.refl (s : State) : LockHeld s s := ⟨fun _ => rfl, id⟩

theorem LockHeld.trans (h : LockHeld s t) (k : LockHeld t u) : LockHeld s u :=
  ⟨fun hs => (k.prot (by rw [h.prot hs]; exact hs)).trans (h.prot hs), fun hs => k.debugged (h.debugged hs)⟩

/-- What leaves the protection set-up and the debug state alone holds the lock. -/
theorem LockHeld.of_same (h : SameBut Part.besideLock s t) : LockHeld s t :=
  ⟨fun _ => h.prot, fun hs => by rw [h.dbg]; exact hs⟩

/-- What leaves the protection set-up alone and never clears DEBUGGED holds the lock. -/
theorem LockHeld.of_debugged (h : t.prot = s.prot) (hd : s.dbg.debugged = true → t.dbg.debugged = true) : LockHeld s t := ⟨fun _ => h, hd⟩

theorem LockHeld.ite {c : Prop} [Decidable c] (ht : c → LockHeld s t) (hu : ¬ c → LockHeld s u) : LockHeld s (if c then t else u) := by
  split
  · exact ht ‹_›
  · exact hu ‹_›

theorem LockHeld.ite_snd {α : Type} {c : Prop} [Decidable c] {x y : α × State} (hx : LockHeld s x.2) (hy : LockHeld s y.2) :
    LockHeld s (if c then x else y).2 := by
  split
  · exact hx
  · exact hy

theorem LockHeld.ite_self {c : Prop} [Decidable c] (ht : LockHeld s t) : LockHeld s (if c then t else s) := .ite (fun _ => ht) (fun _ => .refl s)

/-- What is framed beside the lock may follow. -/
theorem LockHeld.then_same (h : LockHeld s t) (k : SameBut Part.besideLock t u) : LockHeld s u := h.trans (.of_same k)

end

/-! ### Resets -/

theorem newNonce_lock (s : State) : LockHeld s (newNonce s) := ⟨fun _ => rfl, id⟩

theorem resetDebug_lock (s : State) : LockHeld s (resetDebug s) := ⟨fun _ => rfl, id⟩

theorem portReset_lock (s : State) (p trig reason : Nat) : LockHeld s (portReset s p trig reason) := by
  dsimp only [portReset]
  refine .ite (fun _ => .refl s) (fun _ => ?_)
  have renewed : LockHeld s (resetDebug (trace (renewPort (event (countPort s p 15 1) [qFW, qSB] 0x1003 p (trig + 256 * reason)) p) 2)) :=
    (LockHeld.of_same (by simp)).trans (resetDebug_lock _)
  exact .ite (fun _ => renewed.then_same (by simp)) (fun _ => renewed)

theorem resetReq_lock (s : State) (p : Nat) : LockHeld s (resetReq s p) := by
  unfold resetReq
  split
  · exact .ite_self ((LockHeld.of_same (by simp)).trans (portReset_lock _ p 4 _))
  · exact .refl s

theorem hello_lock (s : State) (p : Nat) : LockHeld s (hello s p) := by
  unfold hello
  split
  · exact .refl s
  · refine .ite (fun _ => (LockHeld.of_same (by simp)).trans (portReset_lock _ p 7 0)) (fun _ => .of_same ?_)
    (repeat' split) <;> simp

theorem warmClear_lock (s : State) : LockHeld s (warmClear s) := (LockHeld.of_same (by simp)).trans (resetDebug_lock _)

theorem warmStart_lock (s : State) : LockHeld s (warmStart s) := by
  have cleared : LockHeld s (warmClear (enginesAfter (dropTokens (closeGates (renewPorts (domain s 11 true)))))) :=
    (LockHeld.of_same (by simp)).trans (warmClear_lock _)
  exact cleared.then_same (by unfold warmStart; simp)

theorem heldReset_lock (s : State) : LockHeld s (heldReset s) :=
  (warmStart_lock s).then_same (by unfold heldReset; simp)

theorem warmReset_lock (s : State) (crew : Bool) : LockHeld s (warmReset s crew) :=
  (warmStart_lock s).then_same (by unfold warmReset; simp)

theorem resetOf_lock (s : State) : LockHeld s (resetOf s) := .ite (fun _ => warmReset_lock s false) (fun _ => heldReset_lock s)

theorem crewReset_lock (s : State) : LockHeld s (crewReset s) := .ite_self (warmReset_lock s true)

theorem startCrewReset_lock (s : State) : LockHeld s (startCrewReset s) :=
  .ite_self ((LockHeld.of_same (by simp)).trans (crewReset_lock _))

theorem sramRegion_lock (s : State) (r : SramRegion) : LockHeld s (sramRegion s r) := by
  dsimp only [sramRegion]
  split
  · exact .of_same (by simp)
  · exact .of_same (by simp)
  · refine .ite (fun _ => .of_same (by simp)) (fun _ => ?_)
    exact .ite (fun _ => (LockHeld.of_same (by simp)).trans (warmReset_lock _ false)) (fun _ => .of_same (by simp))

theorem pfailRise_lock (s : State) (vhok : Bool) : LockHeld s (pfailRise s vhok) := by
  unfold pfailRise
  extract_lets _ u
  have pins : LockHeld s u := .of_same (by simp [u])
  exact .ite (fun _ => pins) fun _ => .ite (fun _ => pins.then_same (by simp)) fun _ => .ite (fun _ => pins) fun _ => pins.trans (resetOf_lock u)

/-! ### Boot from the image: protection is set up once (R497, R514) -/

theorem protect_lock (s : State) (ss : List Sect) : LockHeld s (protect s ss) := by
  unfold protect
  split
  · exact .refl s
  · exact ⟨fun h => absurd h ‹_›, id⟩

theorem step7_lock (s : State) (ss : List Sect) : LockHeld s (step7 s ss) :=
  ((LockHeld.of_same (by simp)).trans (protect_lock (loadWindows (clearTables s) (sectRecs s ss 11)) ss)).then_same (by unfold step7; simp)

theorem throughStep7_lock (slot : Nat) (s : State) (img : List Byte) : LockHeld s (throughStep7 slot s img) :=
  (LockHeld.of_same (by simp)).trans (step7_lock (stepDone_ (bootPorts (bootedImage (stepDone_ s 5) slot img) (sections img)) 6) (sections img))

theorem tryImage_same {s c : State} {slot : Nat} {readFail : Bool} {img : List Byte} (h : tryImage s slot readFail = .inr (c, img)) :
    SameBut Part.besideLock s c := by
  have loaded : c = loadStruct s (sections (slotImage s slot)) := by
    dsimp only [tryImage] at h
    (repeat' split at h) <;> cases h <;> rfl
  rw [loaded]
  simp

theorem chooseImage_same {s u c : State} {is : List Nat} {slot : Nat} {img : List Byte} (h : chooseImage s is = (u, some (slot, c, img))) :
    SameBut Part.besideLock s c := by
  induction is generalizing s with
  | nil => cases h
  | cons i is ih =>
    rw [chooseImage] at h
    split at h
    · exact SameBut.trans (by simp) (ih h)
    · next q =>
      cases h
      exact (tryImage_same q).trans (by simp)

theorem chooseImage_rejected_same {s u : State} {is : List Nat} (h : chooseImage s is = (u, none)) : SameBut Part.besideLock s u := by
  induction is generalizing s with
  | nil =>
    cases h
    exact SameBut.refl _ _
  | cons i is ih =>
    rw [chooseImage] at h
    split at h
    · exact SameBut.trans (by simp) (ih h)
    · cases h

theorem bootFrom5_lock (s : State) : LockHeld s (bootFrom5 s) := by
  dsimp only [bootFrom5]
  split
  · next q => exact .of_same ((SameBut.trans (by simp) (chooseImage_rejected_same q)).trans (by simp))
  · next slot c img q =>
    exact ((LockHeld.of_same (SameBut.trans (by simp) (chooseImage_same q))).trans (throughStep7_lock slot c img)).then_same (by simp)

theorem resetPin_lock (s : State) (high : Bool) (lowNs : Nat) : LockHeld s (resetPin s high lowNs) := by
  have low : LockHeld s (countP (heldReset { s with pins := { s.pins with rstN := false } }) 3 1) := by
    have reset := (LockHeld.of_same (s := s) (by simp)).trans (heldReset_lock { s with pins := { s.pins with rstN := false } })
    exact reset.then_same (by simp)
  dsimp only [resetPin]
  refine .ite (fun _ => ?_) (fun _ => .ite (fun _ => .refl s) (fun _ => ?_))
  · split
    · exact (LockHeld.of_same (by simp)).trans (bootFrom5_lock _)
    · exact .of_same (by split <;> simp)
    · exact .of_same (by simp)
  · split
    · refine .ite (fun _ => low) (fun _ => .ite (fun _ => .of_same (by simp)) (fun _ => low))
    · exact .of_same (by simp)
    · exact .of_same (by split <;> simp)
    · exact .of_same (by simp)

/-! ### Register writes -/

theorem trigger_lock {v : Reg} {i : Nat} {f : State → State} (hf : ∀ u, LockHeld u (f u)) (s : State) : LockHeld s (trigger v i f s) := .ite_self (hf s)

theorem coreOnly_lock {who : Requester} {s : State} {w : Wrote} (h : LockHeld s w.2) : LockHeld s (coreOnly who s w).2 := .ite_snd h (.refl s)

/-- A field with access code RWL is written only while the lock is open (R15). -/
theorem rwl_lock {who : Requester} {s t : State} (h : t.dbg = s.dbg) : LockHeld s (rwl who s t).2 := by
  unfold rwl
  split
  · next hc => exact ⟨fun hl => by simp [hl] at hc, fun hd => by rw [h]; exact hd⟩
  · exact .refl s

theorem writeIdentity_lock (s : State) (r : Nat) (v : Reg) : LockHeld s (writeIdentity s r v).2 := .ite_self (trigger_lock bootFrom5_lock s)

theorem writeProtection_lock (s : State) (who : Requester) (r : Nat) (v : Reg) : LockHeld s (writeProtection s who r v).2 := by
  have put (q : Prot) : LockHeld s (rwl who s { s with prot := q }).2 := rwl_lock rfl
  unfold writeProtection
  refine .ite_snd (.ite_snd ?_ (coreOnly_lock (.refl s))) (.ite_snd (put _) (.ite_snd (put _) (.ite_snd (put _) (.ite_snd (put _) (.refl s)))))
  split
  · next hc => exact ⟨fun hl => by simp [hl] at hc, id⟩
  · exact .refl s

theorem writePort_lock (s : State) (who : Requester) (p r : Nat) (v : Reg) : LockHeld s (writePort s who p r v).2 := by
  unfold writePort
  refine .ite_snd (.refl s) (.ite_snd ?_ (.ite_snd (rwl_lock rfl) (.refl s)))
  exact (LockHeld.of_same (by simp)).trans (trigger_lock (fun u => portReset_lock u p 6 0) _)

theorem writeCrew_lock (s : State) (who : Requester) (r : Nat) (v : Reg) : LockHeld s (writeCrew s who r v).2 :=
  .ite_snd (.of_same (by simp)) (.ite_snd (coreOnly_lock (trigger_lock startCrewReset_lock s)) (.refl s))

theorem writeBlock_lock (s : State) (who : Requester) (off : Nat) (v : Reg) : LockHeld s (writeBlock s who off v).2 := by
  unfold writeBlock
  refine .ite_snd (writeIdentity_lock ..) (.ite_snd (writeProtection_lock ..) (.ite_snd (writePort_lock ..) (.ite_snd (writeCrew_lock ..) (.of_same ?_))))
  (repeat' split) <;> simp

theorem regWrite_lock (s : State) (who : Requester) (off : Nat) (v : Reg) : LockHeld s (regWrite s who off v).2 := by
  unfold regWrite
  refine .ite_snd (.refl s) (.ite_snd (.refl s) ?_)
  split
  · exact .refl s
  · exact (writeBlock_lock s who off v).then_same (by simp)

theorem writeWords_lock (who : Requester) (vs : List Reg) (off i : Nat) (s : State) : LockHeld s (writeWords who vs off i s).2 := by
  induction vs generalizing off i s with
  | nil => exact .refl s
  | cons v vs ih =>
    have wrote := regWrite_lock s who off v
    rw [writeWords]
    split
    · next q =>
      rw [q] at wrote
      exact wrote.trans (ih ..)
    · next q =>
      rw [q] at wrote
      exact wrote

theorem mwrite_lock (s : State) (l : List Byte) : LockHeld s (mwrite s l).2 := writeWords_lock ..

theorem tap_lock (s : State) (t : TapOp) : LockHeld s (tap s t) := by
  cases t with
  | internalWrite off v => exact .ite_self ((regWrite_lock s .jtag off.toNat v).then_same (by simp))
  | internalRead off =>
    show LockHeld s (if grantBit s 0 then setTap (regRead s .jtag off.toNat).2.2 4 ((regRead s .jtag off.toNat).1.setWidth 64) else s)
    exact .ite_self (.of_same (by simp))
  | _ => exact .of_same (by simp [tap])

/-! ### Requests to Waitos -/

theorem runReq_lock {s : State} {w : Client} {cmd : Nat} {lenOk : Nat → Bool} {parOk : List Byte → Bool} {f : State → List Byte → Executed}
    (hf : ∀ u l, LockHeld u (f u l).2) : LockHeld s (runReq s w cmd lenOk parOk f) := by
  unfold runReq
  split
  · exact .refl s
  · next r _ _ =>
    have ran := hf s (rParams r)
    refine .ite (fun _ => .refl s) fun _ => .ite (fun _ => .of_same (by simp)) fun _ => .ite (fun _ => .of_same (by simp)) fun _ => ?_
    split
    · exact .of_same (by simp)
    · split
      · next q =>
        rw [q] at ran
        exact ran.then_same (by simp)
      · next q =>
        rw [q] at ran
        exact ran

theorem answerThen_lock {s : State} {w : Client} {f : State → State} (hf : ∀ u, LockHeld u (f u)) : LockHeld s (answerThen s w f).2 := by
  unfold answerThen
  split
  · exact (LockHeld.of_same (by simp)).trans (hf _)
  · exact .refl s

theorem dbgGrant_lock (s : State) (l : List Byte) : LockHeld s (dbgGrant s l).2 := by
  have refused (f : Nat) : LockHeld s (event (newNonce s) [qFW, qSB] 0x4007 0 f) := (newNonce_lock s).then_same (by simp)
  dsimp only [dbgGrant]
  refine .ite_snd (refused _) (.ite_snd (refused _) ?_)
  have granted (scope : BitVec 4) (exp : Word) :
      LockHeld s (newNonce { s with dbg := { s.dbg with scope := scope, exp := exp, granted := true, debugged := true } }) := ⟨fun _ => rfl, fun _ => rfl⟩
  exact (granted (BitVec.ofNat 4 (natAt l 28 1)) (BitVec.ofNat 64 (natAt l 32 8))).then_same (by simp)

/-! ### Every command -/

theorem LockHeld.next {s t u : State} (h : LockHeld s u) (e : (Host.Outcome.next u : Host.Outcome State Fault Refusal) = .next t) : LockHeld s t := by
  cases e
  exact h

/-- A command whose frame is beside the lock holds it. -/
theorem OutBut.lock {s t : State} {x : Host.Outcome State Fault Refusal} (k : OutBut Part.besideLock s x) (e : x = .next t) : LockHeld s t :=
  .of_same (k.next_same t e)

theorem execCrewReset_lock (k : Fin 3) {s t : State} (e : execCrewReset k s = .next t) : LockHeld s t := by
  unfold execCrewReset at e
  split at e
  · next q => exact .next ((LockHeld.of_same (crewNote_some q (by decide))).trans (crewReset_lock _)) e
  · exact .next (.refl s) e

theorem execRomScrub_lock (b : BadWord) {s t : State} (e : execRomScrub b s = .next t) : LockHeld s t := by
  refine .next (.ite (fun _ => .refl s) fun _ => ?_) e
  cases b with
  | dataSram r => exact (LockHeld.of_same (by simp)).trans (sramRegion_lock _ r)
  | _ => exact .of_same (by simp)

theorem execSetlock_lock {who : Requester} {s t : State} (e : execSetlock who s = .next t) : LockHeld s t := by
  unfold execSetlock at e
  split at e
  · next hc =>
    cases e
    exact ⟨fun hl => by simp [hl] at hc, id⟩
  · exact .next (.refl s) e

theorem execDebugExpiry_lock {s t : State} (e : execDebugExpiry s = .next t) : LockHeld s t := by
  unfold execDebugExpiry at e
  split at e
  · cases e
    exact ⟨fun _ => rfl, id⟩
  · exact .next (.refl s) e

/-- No command but a cold boot takes the lock off or clears DEBUGGED (R15, R46, R510): POWER_UP, and what ends a save or its hold
when power has come back. -/
theorem exec_lock {c : Instr} {s t : State} (e : exec c s = .next t) (hp : ∀ b, c ≠ .powerUp b) (hs : c ≠ .saveComplete) (hh : c ≠ .holdEnd)
    (hv : c ≠ .vholdFloor) : LockHeld s t := by
  cases c with
  | powerUp b => exact absurd rfl (hp b)
  | saveComplete => exact absurd rfl hs
  | holdEnd => exact absurd rfl hh
  | vholdFloor => exact absurd rfl hv
  | rstN high lowNs => exact .next (resetPin_lock s high lowNs) e
  | pfailRise vhok => exact .next (pfailRise_lock s vhok) e
  | autowarm => exact .next (.ite_self ((LockHeld.of_same (by simp)).trans (warmReset_lock _ false))) e
  | resetReq p => exact .next (resetReq_lock s p.val) e
  | hello p => exact .next (hello_lock s p.val) e
  | retrainLimit p => exact .next (.ite_self (portReset_lock s p.val 3 0)) e
  | linkReset p => exact .next (portReset_lock s p.val 5 0) e
  | preset who p => exact .next (.ite_self (portReset_lock s p.val 6 0)) e
  | crewReset k => exact execCrewReset_lock k e
  | crewrst who => exact .next (.ite_self (startCrewReset_lock s)) e
  | dataSramTrap r => exact .next (.ite_self ((LockHeld.of_same (by simp)).trans (sramRegion_lock _ r))) e
  | romScrub b => exact execRomScrub_lock b e
  | setlock who => exact execSetlock_lock e
  | retry who b => exact .next (.ite_self ((LockHeld.of_same (by simp)).trans (bootFrom5_lock _))) e
  | debugExpiry => exact execDebugExpiry_lock e
  | mwrite w => exact .next (runReq_lock mwrite_lock) e
  | portResetCommand w => exact .next (runReq_lock fun u l => portReset_lock u _ 6 0) e
  | warmResetCommand w => exact .next (runReq_lock fun u _ => answerThen_lock fun v => warmReset_lock v false) e
  | crewResetCommand w => exact .next (runReq_lock fun u _ => answerThen_lock startCrewReset_lock) e
  | dbgGrant w => exact .next (runReq_lock dbgGrant_lock) e
  | registerWrite who off v => exact .next (.ite_self (regWrite_lock s who off.toNat v)) e
  | tapInstruction op => exact .next (.ite_self (tap_lock s op)) e
  | _ => exact OutBut.lock (by simp [exec]) e

end Sys2Proof.Machine
end

section
open Sys2Proof Sys2Proof.Machine

/-- Settles O5: the commands that touch the protection set-up or the debug state are taken one by one, and every other keeps both by its frame. -/
theorem onlyColdBootUnlocks : Obligations.OnlyColdBootUnlocks := by
  unfold Obligations.OnlyColdBootUnlocks
  intro c s t e hp hs hh hv
  obtain ⟨hprot, hdebugged⟩ := exec_lock e hp hs hh hv
  exact ⟨hprot, hdebugged⟩
end

section
open Sys2Proof Sys2Proof.Machine
namespace Sys2Proof.Machine

/-! ## The tick -/

theorem tick_running {s : State} (h : s.clock.running = true) :
    (tick s).clock = { s.clock with time := s.clock.time + 1, elapsed := s.clock.elapsed + 1 } := by
  rw [tick, if_pos h]

theorem tick_stopped {s : State} (h : s.clock.running = false) : tick s = s := if_neg (by simp [h])

theorem step_empty {s : State} (h : s.pending = []) : step s = .next (tick s) := by rw [step, h]

end Sys2Proof.Machine

/-- Settles O2: on an empty queue the step is a tick of the timebase. -/
theorem emptyQueueTicks : Obligations.EmptyQueueTicks := by
  unfold Obligations.EmptyQueueTicks
  exact fun s h => ⟨_, step_empty h, tick_same s, tick_running, tick_stopped⟩

end

section
open Sys2Proof Sys2Proof.Machine
namespace Sys2Proof.Machine

/-! ## The journal -/

/-- A record that is no commit of its own stands behind all others, under the last JSN given (R425, R447). -/
theorem jPut_recs (s : State) (r : JRec) :
    (jPut s r).journal.last = s.journal.last ∧
    (jPut s r).journal.frames.flatMap (·.recs) = s.journal.frames.flatMap (·.recs) ++ [⟨s.journal.last, false, r⟩] :=
  ⟨rfl, framesWith_recs ..⟩

theorem closeFrame_recs (s : State) : (closeFrame s).journal.frames.map (·.recs) = s.journal.frames.map (·.recs) := by
  rw [closeFrame, List.map_map]
  refine List.map_congr_left fun f _ => ?_
  rw [Function.comp_apply]
  split <;> rfl

theorem closeFrame_closed {s : State} {f : Frame} (hf : f ∈ (closeFrame s).journal.frames) (h : f.recs ≠ []) : f.closed = true := by
  obtain ⟨g, -, rfl⟩ := List.mem_map.1 hf
  by_cases hg : g.recs.isEmpty = true <;> simp_all

/-- The write pointer moves by the pages written, wherever it goes on, and the pages that the store holds stay (R418). -/
theorem advance_pages {s t : State} {n : Nat} (h : advance s n = some t) :
    t.store.pages = s.store.pages ∧ t.store.nextPage = s.store.nextPage + n := by
  unfold advance at h
  dsimp only at h
  split at h
  · cases h
    exact ⟨rfl, rfl⟩
  · split at h
    · cases h
    · split at h <;> cases h
      exact ⟨rfl, rfl⟩

/-- What the drain of the frame f leaves, when the write pointer has moved on to s1: f is the next page, and its frame is drained (R428). -/
def pageDrained (s s1 : State) (f : Frame) : State :=
  freeFrames (countStore (frameMod (fun f => f.closed && !f.drained) (fun f => { f with drained := true })
    { s1 with
      store := { s1.store with pages := s1.store.pages ++ [{ num := s.store.nextPage, band := s.store.band, unit := s.store.unit, recs := f.recs }] }
      journal := { s1.journal with dmark := f.recs.foldl (fun (m : Word) e => if m.toNat < e.jsn.toNat then e.jsn else m) s1.journal.dmark } }) 1 1)

theorem journalDrain_page {s s1 : State} {f : Frame} (hf : s.journal.frames.find? (fun f => f.closed && !f.drained) = some f)
    (hup : storeDown s = false) (hdom : bit 11 s.power.dom = true) (h : advance s 1 = some s1) : journalDrain s = pageDrained s s1 f := by
  simp only [journalDrain, hf, hup, hdom, h]
  rfl

theorem pageDrained_same (s s1 : State) (f : Frame) : SameBut [.store, .journal, .mgmt] s1 (pageDrained s s1 f) := by
  simp [pageDrained, frameMod]

/-- While a pair is FAILED nothing drains (R416). -/
theorem journalDrain_storeDown {s : State} (h : storeDown s = true) : journalDrain s = s := by
  unfold journalDrain
  dsimp only
  split
  · rfl
  · simp [h]

end Sys2Proof.Machine

/-- Settles O56: what a group, a TIME record, the close of a frame and the drain of one do to the frames and to the store's pages. -/
theorem journalKeepsCommitOrder : Obligations.JournalKeepsCommitOrder := by
  unfold Obligations.JournalKeepsCommitOrder
  refine fun s => ⟨fun rs applied => ⟨rfl, rfl, framesWith_recs .., jCommit_same s rs applied⟩, fun hready hroom => ?_, fun h => ?_,
    fun f e _ hfull => ?_, ⟨closeFrame s, rfl, closeFrame_recs s, fun f => closeFrame_closed, by simp [closeFrame]⟩,
    fun f s1 hf hup hdom hadv => ?_, fun hdown => congrArg _ (journalDrain_storeDown hdown)⟩
  · have run : exec .timeRecord s = .next (jPut s (.time s.clock.time)) := by
      show execTimeRecord s = _
      rw [execTimeRecord, if_pos hready, jNote, if_pos hroom]
    exact ⟨_, run, (jPut_recs ..).1, (jPut_recs ..).2, jPut_same ..⟩
  · show execTimeRecord s = _
    rcases h with hphase | hroom
    · rw [execTimeRecord, if_neg hphase]
    · rw [execTimeRecord, jNote, if_neg (ne_true_of_eq_false hroom), ite_self]
  · simp [Frame.push, hfull]
  · obtain ⟨hpages, hnext⟩ := advance_pages hadv
    have run : exec .journalDrain s = .next (pageDrained s s1 f) := congrArg Host.Outcome.next (journalDrain_page hf hup hdom hadv)
    refine ⟨_, run, ?_, hnext, (advance_some hadv (by decide)).trans (pageDrained_same s s1 f)⟩
    exact congrArg (· ++ _) hpages

end

section
open Sys2Proof Sys2Proof.Machine
namespace Sys2Proof.Machine

/-! ## Ports: what a consumed slot leaves -/

/-- What is written at port p is read back: the ports are in canonical form, or p can never look like an unlisted port, whatever
becomes of its ingress and its grants. -/
def PortReads (s : State) (p : Nat) : Prop :=
  swf Port.reset none s.ports = true ∨ ∀ i g, { getPort s p with ingress := i, grants := g } ≠ Port.reset

/-- Only the ingress and the grants of port p have changed. -/
structure OnlyTaken (s t : State) (p : Nat) : Prop where
  here : ∃ i g, getPort t p = { getPort s p with ingress := i, grants := g }
  others : ∀ q, q ≠ p → getPort t q = getPort s q

theorem getPort_setPort {s : State} (h : swf Port.reset none s.ports = true) (p : Nat) (x : Port) (q : Nat) :
    getPort (setPort s p x) q = if q = p then x else getPort s q := sget_sput h p x q

theorem getPort_setPort_self {s : State} {p : Nat} {x : Port} (h : x ≠ .reset) : getPort (setPort s p x) p = x :=
  sget_sput_self h s.ports p

theorem getPort_setPort_other {s : State} {p q : Nat} {x : Port} (h : x ≠ .reset) (hq : q ≠ p) : getPort (setPort s p x) q = getPort s q :=
  sget_sput_other h s.ports hq

theorem getPort_congr {s t : State} (h : t.ports = s.ports) (p : Nat) : getPort t p = getPort s p := by rw [getPort, getPort, h]

theorem setPort_canonical {s : State} (h : swf Port.reset none s.ports = true) (p : Nat) (x : Port) : swf Port.reset none (setPort s p x).ports = true :=
  swf_sput h p x (fun _ hl => nomatch hl)

theorem OnlyTaken.refl (s : State) (p : Nat) : OnlyTaken s s p := ⟨⟨_, _, rfl⟩, fun _ _ => rfl⟩

theorem OnlyTaken.trans {s t u : State} {p : Nat} (h : OnlyTaken s t p) (k : OnlyTaken t u p) : OnlyTaken s u p := by
  obtain ⟨i, g, hi⟩ := h.here
  obtain ⟨i', g', hi'⟩ := k.here
  exact ⟨⟨i', g', by rw [hi', hi]⟩, fun q hq => (k.others q hq).trans (h.others q hq)⟩

theorem OnlyTaken.of_ports {s t : State} (h : t.ports = s.ports) (p : Nat) : OnlyTaken s t p :=
  ⟨⟨_, _, getPort_congr h p⟩, fun q _ => getPort_congr h q⟩

/-- A write of the ingress and the grants of a port that reads back changes nothing else, and the port reads back again. -/
theorem PortReads.setPort {s : State} {p : Nat} (h : PortReads s p) (i : Sparse (List Slot)) (g : Sparse Grant) :
    OnlyTaken s (setPort s p { getPort s p with ingress := i, grants := g }) p ∧
    PortReads (Machine.setPort s p { getPort s p with ingress := i, grants := g }) p := by
  rcases h with h | h
  · refine ⟨⟨⟨i, g, ?_⟩, fun q hq => ?_⟩, .inl (setPort_canonical h ..)⟩
    · rw [getPort_setPort h, if_pos rfl]
    · rw [getPort_setPort h, if_neg hq]
  · have here := getPort_setPort_self (s := s) (p := p) (h i g)
    refine ⟨⟨⟨i, g, here⟩, fun q hq => getPort_setPort_other (h i g) hq⟩, .inr fun i' g' => ?_⟩
    rw [here]
    exact h i' g'

theorem freeCredit_taken {s : State} {p : Nat} (h : PortReads s p) (c n : Nat) : OnlyTaken s (freeCredit s p c n) p := by
  unfold freeCredit
  dsimp only
  split
  · exact .of_ports (refuseMove_same ..).ports p
  · exact (h.setPort (getPort s p).ingress _).1

/-- A slot taken off a port's ingress frees its credit, and leaves the rest of the port, and every other port, as they were. -/
theorem takeHead_taken {s : State} {p : Nat} (h : PortReads s p) (c : Nat) : OnlyTaken s (takeHead s p c) p := by
  obtain ⟨taken, reads⟩ := h.setPort (smod [] (getPort s p).ingress c (List.drop 1)) (getPort s p).grants
  unfold takeHead
  dsimp only
  split
  · exact taken.trans (freeCredit_taken reads ..)
  · exact taken

end Sys2Proof.Machine
end

section
open Sys2Proof Sys2Proof.Machine
namespace Sys2Proof.Machine

/-! ## The band of the diode -/

/-- The state in which a write of BAND has been counted and taken, before refresh follows it (R464). -/
def bandWritten (s : State) (b : Nat) : State :=
  { (if s.therm.band.toNat < b then countTh s 1 1 else if b < s.therm.band.toNat then countTh s 2 1 else s) with
    therm := { s.therm with band := BitVec.ofNat 3 b, decided := BitVec.ofNat 3 b, confirmed := now s, guard := false, entered := if b = s.therm.band.toNat then s.therm.entered else now s } }

theorem bandWritten_same (s : State) (b : Nat) : SameBut [.therm, .mgmt] s (bandWritten s b) := by
  unfold bandWritten
  split
  · simp [countTh, count]
  · split <;> simp [countTh, count]

theorem writeBand_eq (s : State) (b : Nat) : writeBand s b = bandChanged (bandWritten s b) (bandInForce s) := by
  unfold writeBand bandWritten
  dsimp only
  split
  · rfl
  · split <;> rfl

theorem bandInForce_bandWritten (s : State) {b : Nat} (h : b < 8) : bandInForce (bandWritten s b) = b := by
  simp [bandInForce, bandWritten, Nat.mod_eq_of_lt h]

theorem writeBand_therm (s : State) (b : Nat) :
    (writeBand s b).therm.band = BitVec.ofNat 3 b ∧ (writeBand s b).therm.confirmed = now s ∧ (writeBand s b).therm.guard = false ∧
    (writeBand s b).therm.deferred = s.therm.deferred := by
  have same : (writeBand s b).therm = (bandWritten s b).therm := by
    rw [writeBand_eq]
    exact ((bandChanged_frame _ _ (by simp)).2 (SameBut.refl [.tcam, .arbs, .events, .free] _)).therm
  rw [same]
  exact ⟨rfl, rfl, rfl, rfl⟩

theorem writeBand_down {s : State} {b : Nat} (h : b < 8) (hb : ¬ bandInForce s < b) : writeBand s b = bandWritten s b := by
  rw [writeBand_eq, bandChanged, bandInForce_bandWritten s h, if_neg hb]

theorem decideArb_retain (s : State) (a : Nat) (q : ArbAsk) : (decideArb s a q).tcam.retain = s.tcam.retain := by
  unfold decideArb
  split
  · rfl
  · dsimp only
    split
    · rfl
    · rw [(trace_same ..).tcam]
      split <;> rfl

theorem issueRefresh_retain (s : State) (a : Nat) : (issueRefresh s a).tcam.retain = s.tcam.retain := by
  unfold issueRefresh
  dsimp only
  split
  · exact decideArb_retain ..
  · split <;> rfl

theorem issueRefresh_sweep_retain (l : List Nat) (s : State) :
    (l.foldl (fun s b => issueRefresh s (siteOf s b)) s).tcam.retain = s.tcam.retain ∧
    (l.foldl (fun s b => issueRefresh s (siteOf s b)) s).clock = s.clock := by
  induction l generalizing s with
  | nil => exact ⟨rfl, rfl⟩
  | cons b l ih =>
    obtain ⟨hretain, hclock⟩ := ih (issueRefresh s (siteOf s b))
    have clock := ((issueRefresh_frame s (siteOf s b) (by simp)).2 (SameBut.refl [.tcam, .arbs, .events, .free] s)).clock
    exact ⟨hretain.trans (issueRefresh_retain ..), hclock.trans clock⟩

/-- When the band in force has risen, every retention test begins again (R407). -/
theorem bandChanged_retain {s : State} {old : Nat} (h : old < bandInForce s) :
    (bandChanged s old).tcam.retain = s.tcam.retain.map (fun e => (e.1, now s)) := by
  obtain ⟨hretain, hclock⟩ := issueRefresh_sweep_retain ((List.range 2112).filter (refreshed s)) s
  rw [bandChanged, if_pos h, retestRetention, hretain, now, now, hclock]

/-- A band written above the one in force: every retention test and every group period begins again (R94, R407). -/
theorem writeBand_up {s : State} {b : Nat} (h : b < 8) (hb : bandInForce s < b) :
    (writeBand s b).tcam.retain = s.tcam.retain.map (fun e => (e.1, now s)) ∧
    ∀ a < 2112, refreshed s a = true → sget 0 (writeBand s b).tcam.refBand (siteOf s a) = b := by
  have rise : bandInForce s < bandInForce (bandWritten s b) := (bandInForce_bandWritten s h).symm ▸ hb
  have same := bandWritten_same s b
  rw [writeBand_eq]
  refine ⟨?_, fun a ha hr => ?_⟩
  · rw [bandChanged_retain rise, same.tcam, now, now, same.clock]
  · rw [← siteOf_congr (congrArg Tcam.site same.tcam) a, bandChanged_refBand rise ha ((refreshed_congr same.tcam a).trans hr), bandInForce_bandWritten s h]

/-! ## Calibration -/

/-- A calibration has started in t (R468; log entry 139): the reading is held, nothing converts and nothing is deferred; the band, its
confirmation and the guard are those of s. -/
structure CalStarted (s t : State) : Prop where
  held : t.therm.held = true
  conv : t.therm.conv = false
  deferred : t.therm.deferred = none
  band : t.therm.band = s.therm.band ∧ t.therm.confirmed = s.therm.confirmed ∧ t.therm.guard = s.therm.guard

theorem startCal_started (s : State) : CalStarted s (startCal s) := by
  have band : (catchUp s).therm.band = s.therm.band ∧ (catchUp s).therm.confirmed = s.therm.confirmed ∧ (catchUp s).therm.guard = s.therm.guard := by
    unfold catchUp
    dsimp only
    split <;> exact ⟨rfl, rfl, rfl⟩
  exact ⟨rfl, rfl, rfl, band⟩

/-- The state in which an own calibration has taken its handle, when one is free (R523). -/
def calHandle (s : State) : State := match startOp s 0x0302 qFW true (5, 0) with | some (_, s1) => s1 | none => s

theorem calHandle_same (s : State) : SameBut [.waitos] s (calHandle s) := by
  unfold calHandle
  split
  · next q => exact startOp_some q (List.Subset.refl _)
  · exact SameBut.refl _ s

theorem autoCal_eq (s : State) : autoCal s = startCal (calHandle s) := rfl

theorem autoCal_started (s : State) : CalStarted s (autoCal s) := by
  obtain ⟨held, conv, deferred, band⟩ := startCal_started (calHandle s)
  rw [(calHandle_same s).therm] at band
  exact ⟨held, conv, deferred, band⟩

theorem autoCal_waitos (s : State) : (autoCal s).waitos = (calHandle s).waitos :=
  ((startCal_frame _ (List.Subset.refl _)).2 (SameBut.refl [.therm] _)).waitos

theorem tryCal_starts {s : State} (h : s.therm.held = false) (hd : calDefer s = 0) : tryCal s = autoCal s := by
  simp [tryCal, h, hd]

theorem tryCal_defers {s : State} (h : s.therm.held = false) (hd : calDefer s ≠ 0) :
    tryCal s = { s with therm := { s.therm with deferred := some (s.therm.deferred.getD (now s)) } } := by
  simp [tryCal, h, hd]

theorem resumeCal_of_none {s : State} (h : s.therm.deferred = none) : resumeCal s = s := by
  simp [resumeCal, h]

/-- A deferred calibration, whether it starts or not, leaves the band, its confirmation and the guard. -/
theorem resumeCal_band (s : State) :
    (resumeCal s).therm.band = s.therm.band ∧ (resumeCal s).therm.confirmed = s.therm.confirmed ∧ (resumeCal s).therm.guard = s.therm.guard := by
  unfold resumeCal tryCal
  split
  · split
    · exact ⟨rfl, rfl, rfl⟩
    · split
      · exact ⟨rfl, rfl, rfl⟩
      · exact (autoCal_started s).band
  · exact ⟨rfl, rfl, rfl⟩

/-- The state in which a calibration has left its trim and its time, and has been counted (R468). -/
def calTrimmed (s : State) : State := countTh (calibrated { s with therm := { s.therm with held := false } }) 6 1

/-- The state in which the operation that holds the diode has ended, where one does (R525). -/
def diodeFreed (s : State) : State := match holderOf s (5, 0) with | some h => endOp s h 0 0 | none => s

theorem diodeFreed_therm (s : State) : (diodeFreed s).therm = s.therm := by
  unfold diodeFreed
  split
  · exact ((endOp_frame _ _ _ _ (List.Subset.refl _)).2 (SameBut.refl _ _)).therm
  · rfl

theorem startConv_cal (s : State) : (startConv s).therm.held = s.therm.held ∧ (startConv s).therm.calTime = s.therm.calTime := by
  unfold startConv
  dsimp only
  split <;> exact ⟨rfl, rfl⟩

theorem calibrationDone_eq {s : State} (h : s.therm.held = true) : calibrationDone s = startConv (diodeFreed (calTrimmed s)) := by
  simp only [calibrationDone, h]
  rfl

/-- A calibration that is done leaves the reading free, and the time of it is the present device time (R468). -/
theorem calibrationDone_therm {s : State} (h : s.therm.held = true) :
    (calibrationDone s).therm.held = false ∧ (calibrationDone s).therm.calTime = s.clock.time := by
  obtain ⟨held, time⟩ := startConv_cal (diodeFreed (calTrimmed s))
  rw [calibrationDone_eq h, held, time, diodeFreed_therm]
  exact ⟨rfl, rfl⟩

/-! ## Media bands -/

/-- A group that has been heard of, or found stale: it is not one that no list names. -/
def MGroup.known (x : MGroup) : Bool := x.seen || x.stale || x.subst

theorem MGroup.ne_reset {x : MGroup} (h : x.known = true) : x ≠ .reset := fun e => by simp [e, MGroup.known, MGroup.reset] at h

theorem getGroup_setGroup_self {s : State} {g : Nat} {x : MGroup} (h : x.known = true) : getGroup (setGroup s g x) g = x :=
  sget_sput_self (MGroup.ne_reset h) s.therm.groups g

theorem getGroup_setGroup_other {s : State} {g k : Nat} {x : MGroup} (h : x.known = true) (hk : k ≠ g) :
    getGroup (setGroup s g x) k = getGroup s k := sget_sput_other (MGroup.ne_reset h) s.therm.groups hk

theorem getGroup_congr {s t : State} (h : t.therm.groups = s.therm.groups) (g : Nat) : getGroup t g = getGroup s g := by
  rw [getGroup, getGroup, h]

/-- The write of a group's DCOL leaves every group as it is (R473). -/
theorem writeDcol_groups (s : State) (g : Nat) : (writeDcol s g).therm.groups = s.therm.groups := by
  unfold writeDcol
  split
  · have queued : SameBut [.integ, .mgmt] s (((rowKeys s tSHT g).filter (fun k => (peek s k).bad)).foldl queueFirst s) := by simp
    rw [queued.therm]
  · dsimp only
    split
    · have written : SameBut [.sram, .search, .journal, .mgmt] s
          (composerWrite s [] tSHT g [(0, bset 24 4 (sht s g) (8 + (getGroup s g).band))] none).2 := by simp
      rw [written.therm]
    · rfl

/-- What a step of its media band leaves of group g (R473): it keeps all but its band, the time of the band, and the run of low values;
every other group stays. -/
structure MediaStepped (s t : State) (g : Nat) : Prop where
  here : ∃ b e l, getGroup t g = { getGroup s g with band := b, entered := e, lowRun := l }
  others : ∀ k, k ≠ g → getGroup t k = getGroup s k

theorem MediaStepped.of_groups {s t : State} {g : Nat} {b e : Nat} {l : Bool} (hk : (getGroup s g).known = true)
    (h : t.therm.groups = (setGroup s g { getGroup s g with band := b, entered := e, lowRun := l }).therm.groups) : MediaStepped s t g := by
  have known : ({ getGroup s g with band := b, entered := e, lowRun := l } : MGroup).known = true := hk
  exact ⟨⟨b, e, l, (getGroup_congr h g).trans (getGroup_setGroup_self known)⟩,
    fun k hne => (getGroup_congr h k).trans (getGroup_setGroup_other known hne)⟩

/-- A group that takes another media band (R473). -/
theorem setMedia_groups {s : State} {g b : Nat} (v : Int) (h : (getGroup s g).band ≠ b) :
    (setMedia s g b v).therm.groups = (setGroup s g { getGroup s g with band := b, entered := now s, lowRun := false }).therm.groups := by
  have touched : ∀ (u : State) (l : List Nat), (l.foldl touch u).therm = u.therm := fun u l =>
    ((foldl_touch_frame u l (List.Subset.refl _)).2 (SameBut.refl _ u)).therm
  unfold setMedia
  dsimp only
  rw [if_neg h]
  have raised : ∀ u : State, (if b = 5 then event u [portOfGroup g, qFW] 0x3004 g v.toNat else u).therm = u.therm := fun u => by
    split
    · exact (event_same ..).therm
    · rfl
  rw [raised, writeDcol_groups]
  dsimp only
  split
  · rw [touched]
    rfl
  · rfl

theorem setMedia_stepped {s : State} {g : Nat} (b : Nat) (v : Int) (hk : (getGroup s g).known = true) : MediaStepped s (setMedia s g b v) g := by
  by_cases h : (getGroup s g).band = b
  · rw [setMedia, if_pos h]
    exact ⟨⟨_, _, _, rfl⟩, fun _ _ => rfl⟩
  · exact .of_groups hk (setMedia_groups v h)

theorem setMedia_band {s : State} {g : Nat} (b : Nat) (v : Int) (hk : (getGroup s g).known = true) : (getGroup (setMedia s g b v) g).band = b := by
  by_cases h : (getGroup s g).band = b
  · rw [setMedia, if_pos h, h]
  · have known : ({ getGroup s g with band := b, entered := now s, lowRun := false } : MGroup).known = true := hk
    rw [getGroup_congr (setMedia_groups v h), getGroup_setGroup_self known]

theorem mediaStep_stepped {s : State} {g : Nat} (v : Int) (floor : Nat) (hk : (getGroup s g).known = true) :
    MediaStepped s (mediaStep s g v floor) g := by
  unfold mediaStep
  dsimp only
  split
  · exact setMedia_stepped _ v hk
  · split
    · exact setMedia_stepped _ v hk
    · exact .of_groups hk rfl

/-- Upward a group takes the band of its value at once (R473). -/
theorem mediaStep_up {s : State} {g : Nat} {v : Int} {floor : Nat} (h : (getGroup s g).band < mediaBand s v) :
    mediaStep s g v floor = setMedia s g (mediaBand s v) v := if_pos h

/-- The state in which an entry of a TEMP message stands as its group's value, before its band is stepped (R270). -/
def entryApplied (s : State) (g : Nat) (v : Int) : State :=
  setGroup s g { getGroup s g with value := v, reported := v, last := now s, stale := false, subst := false, seen := true, lowRun := (getGroup s g).lowRun && !(getGroup s g).subst }

theorem tempEntry_eq {s : State} {p g : Nat} {v : Int} (hp : portOfGroup g = p) (hg : g < 240) (h1 : -320 ≤ v) (h2 : v ≤ 1200) :
    tempEntry s p g v = if coresServe s then mediaStep (entryApplied s g v) g v 0 else entryApplied s g v := by
  rw [tempEntry, if_neg (by omega)]
  rfl

theorem mediaBand_congr {s t : State} (h : t.str = s.str) (v : Int) : mediaBand t v = mediaBand s v := by
  have low : mediaLow t = mediaLow s := funext fun n => by rw [mediaLow, mediaLow, h]
  rw [mediaBand, mediaBand, low]

/-- An applied entry stands as its group's value, and the group is fresh; a value of a higher band raises it at once (R270, R473). -/
theorem tempEntry_applied {s : State} {p g : Nat} {v : Int} (hp : portOfGroup g = p) (hg : g < 240) (h1 : -320 ≤ v) (h2 : v ≤ 1200) :
    (getGroup (tempEntry s p g v) g).value = v ∧ (getGroup (tempEntry s p g v) g).stale = false ∧
    (coresServe s = true → (getGroup s g).band < mediaBand s v → (getGroup (tempEntry s p g v) g).band = mediaBand s v) := by
  have applied := getGroup_setGroup_self (s := s) (g := g)
    (x := { getGroup s g with value := v, reported := v, last := now s, stale := false, subst := false, seen := true, lowRun := (getGroup s g).lowRun && !(getGroup s g).subst }) rfl
  have known : (getGroup (entryApplied s g v) g).known = true := by rw [entryApplied, applied]; rfl
  rw [tempEntry_eq hp hg h1 h2]
  split
  · next hserve =>
    obtain ⟨⟨b, e, l, here⟩, -⟩ := mediaStep_stepped v 0 known
    refine ⟨?_, ?_, fun _ hup => ?_⟩
    · rw [here, entryApplied, applied]
    · rw [here, entryApplied, applied]
    · have band : mediaBand (entryApplied s g v) v = mediaBand s v := mediaBand_congr rfl v
      have rise : (getGroup (entryApplied s g v) g).band < mediaBand (entryApplied s g v) v := by
        rw [band, entryApplied, applied]
        exact hup
      rw [mediaStep_up rise, setMedia_band _ v known, band]
  · next hidle => exact ⟨by rw [entryApplied, applied], by rw [entryApplied, applied], fun hserve => absurd hserve hidle⟩

/-- The state in which group g is marked stale, with its event where it was not before (R474). -/
def staleMarked (s : State) (g : Nat) : State :=
  if (getGroup s g).stale then s else
    event (countTh (setGroup s g { getGroup s g with stale := true }) 8 1) [portOfGroup g, qFW] 0x3005 g (min 0xFFFFFFFF ((now s - (getGroup s g).last) / 1000000))

theorem staleMarked_group (s : State) (g : Nat) :
    (getGroup (staleMarked s g) g).stale = true ∧ ∀ k, k ≠ g → getGroup (staleMarked s g) k = getGroup s k := by
  unfold staleMarked
  split
  · next h => exact ⟨h, fun _ _ => rfl⟩
  · have known : ({ getGroup s g with stale := true } : MGroup).known = true := by simp [MGroup.known]
    have groups : ∀ d, (event (countTh (setGroup s g { getGroup s g with stale := true }) 8 1) [portOfGroup g, qFW] 0x3005 g d).therm.groups =
        (setGroup s g { getGroup s g with stale := true }).therm.groups := fun d => congrArg Therm.groups (event_same ..).therm
    refine ⟨?_, fun k hk => ?_⟩
    · rw [getGroup_congr (groups _), getGroup_setGroup_self known]
    · rw [getGroup_congr (groups _), getGroup_setGroup_other known hk]

/-- What is left of group g when it has a substitute, from state s: it is stale and substituted, and every other group stays. -/
structure Substituted (s t : State) (g : Nat) : Prop where
  stale : (getGroup t g).stale = true
  subst : (getGroup t g).subst = true
  others : ∀ k, k ≠ g → getGroup t k = getGroup s k

theorem Substituted.of_stepped {s t : State} {g : Nat} {x : MGroup} (h : MediaStepped (setGroup (staleMarked s g) g x) t g) (hs : x.stale = true)
    (hx : x.subst = true) : Substituted s t g := by
  have known : x.known = true := by simp [MGroup.known, hs]
  obtain ⟨⟨b, e, l, here⟩, others⟩ := h
  rw [getGroup_setGroup_self known] at here
  refine ⟨by rw [here]; exact hs, by rw [here]; exact hx, fun k hk => ?_⟩
  rw [others k hk, getGroup_setGroup_other known hk, (staleMarked_group s g).2 k hk]

/-- A stale group takes a substitute value, or none and band M5 (R474). -/
theorem staleGroup_substituted (s : State) (g : Nat) : Substituted s (staleGroup s g) g := by
  have marked := (staleMarked_group s g).1
  have known : ∀ {x : MGroup}, x.stale = true → (getGroup (setGroup (staleMarked s g) g x) g).known = true := fun {x} hs => by
    have : x.known = true := by simp [MGroup.known, hs]
    rwa [getGroup_setGroup_self this]
  -- The kernel is not to run the sweep that the body matches on: it stands as a variable from here on.
  generalize e : staleGroup = f
  delta staleGroup at e
  revert e
  generalize freshMax = fresh
  revert fresh
  refine id ?_
  intro fresh e
  subst e
  beta_reduce
  extract_lets p x u floor
  have hu : u = staleMarked s g := rfl
  clear_value u floor
  subst hu
  split
  · exact .of_stepped (setMedia_stepped _ _ (known marked)) marked rfl
  · exact .of_stepped (mediaStep_stepped _ _ (known marked)) marked rfl

/-- After a sweep over stale groups every group that it comes to is stale and substituted, and so is one that was before. -/
theorem staleGroup_sweep (l : List Nat) (s : State) (g : Nat) (h : g ∈ l ∨ ((getGroup s g).stale = true ∧ (getGroup s g).subst = true)) :
    (getGroup (l.foldl staleGroup s) g).stale = true ∧ (getGroup (l.foldl staleGroup s) g).subst = true := by
  induction l generalizing s with
  | nil => exact h.resolve_left List.not_mem_nil
  | cons k l ih =>
    obtain ⟨stale, subst, others⟩ := staleGroup_substituted s k
    refine ih _ ?_
    by_cases hk : g = k
    · rw [hk]
      exact .inr ⟨stale, subst⟩
    · rw [others g hk]
      exact h.imp_left fun hm => (List.mem_cons.1 hm).resolve_left hk

end Sys2Proof.Machine
end

section
open Sys2Proof Sys2Proof.Machine
namespace Sys2Proof.Machine

/-! ## The thermal commands -/

theorem exec_bandWrite {who : Requester} {b : BitVec 3} {s : State} (h : mayTrigger s who false = true) (hb : b.toNat ≤ 4) :
    exec (.bandWrite who b) s = .next (resumeCal (writeBand s b.toNat)) := by
  show execBandWrite who b s = _
  simp [execBandWrite, h, hb]

theorem exec_bandConfirm {s : State} (h : s.therm.fault = true ∨ s.therm.held = true) (hw : waitosRuns s = true) :
    exec .bandConfirm s = .next (writeBand s s.therm.band.toNat) := by
  show execBandConfirm s = _
  simp [execBandConfirm, h, hw]

theorem exec_calibration {s : State} (hw : waitosRuns s = true) : exec .calibration s = .next (tryCal s) := by
  show execCalibration s = _
  rw [execCalibration, if_pos hw]

theorem exec_calnow {who : Requester} {s : State} (h : mayTrigger s who false = true) (hr : s.clock.running = true) :
    exec (.calnow who) s = .next (tryCal s) := by
  show execCalnow who s = _
  simp [execCalnow, h, hr]

/-- What a write of BAND leaves of the rest (R94, R464): upward, refresh and the retention tests begin again; else they are left alone. -/
theorem resumed_writeBand (s : State) {b : Nat} (h : b < 8) :
    if bandInForce s < b then
      SameBut [.therm, .mgmt, .waitos, .arbs, .tcam, .events, .free] s (resumeCal (writeBand s b)) ∧
      (resumeCal (writeBand s b)).tcam.retain = s.tcam.retain.map (fun e => (e.1, now s)) ∧
      ∀ a < 2112, refreshed s a = true → sget 0 (resumeCal (writeBand s b)).tcam.refBand (siteOf s a) = b
    else SameBut [.therm, .mgmt, .waitos] s (resumeCal (writeBand s b)) := by
  have tcam : (resumeCal (writeBand s b)).tcam = (writeBand s b).tcam :=
    ((resumeCal_frame _ (List.Subset.refl _)).2 (SameBut.refl [.therm, .waitos] _)).tcam
  split
  · next hup =>
    rw [tcam]
    exact ⟨by simp, writeBand_up h hup⟩
  · next hdown =>
    rw [writeBand_down h hdown]
    exact (resumeCal_frame _ (by simp)).2 ((bandWritten_same s b).mono (by simp))

/-! ## TEMP -/

/-- A report whose RSEQ is not newer than the last applied one (R270). -/
def oldReport (x : Port) (m : Slot) : Prop :=
  x.rseqSet = true ∧ (bf 16 16 m - x.rseq = 0 ∨ 32768 ≤ (bf 16 16 m - x.rseq).toNat)

theorem oldReport_iff (x : Port) (m : Slot) :
    (x.rseqSet && (decide ((bf 16 16 m - x.rseq).toNat = 0) || decide (32768 ≤ (bf 16 16 m - x.rseq).toNat))) = true ↔ oldReport x m := by
  have zero : (bf 16 16 m - x.rseq).toNat = 0 ↔ bf 16 16 m - x.rseq = 0 := by
    rw [← BitVec.toNat_inj]
    exact Iff.rfl
  simp only [oldReport, Bool.and_eq_true, Bool.or_eq_true, decide_eq_true_eq, zero]

/-- The state in which the report m has been taken off port p, and its RSEQ stands as the last applied. -/
def reportTaken (s : State) (p : Nat) (m : Slot) : State :=
  setPort (takeHead s p cTEMP) p { getPort (takeHead s p cTEMP) p with rseq := bf 16 16 m, rseqSet := true }

theorem tempReport_old {s : State} {p : Nat} {m : Slot} (h : ingressHead s p cTEMP = some m) (ho : oldReport (getPort (takeHead s p cTEMP) p) m) :
    tempReport s p = takeHead s p cTEMP := by
  simp only [tempReport, h]
  rw [if_pos ((oldReport_iff _ m).2 ho)]

/-- A newer report of one entry: the entry is applied (R270). -/
theorem tempReport_one {s : State} {p : Nat} {m : Slot} (h : ingressHead s p cTEMP = some m) (ho : ¬ oldReport (getPort (takeHead s p cTEMP) p) m)
    (hn : bn 8 4 m = 1) : tempReport s p = tempEntry (reportTaken s p m) p (bn 64 8 m) (bf 72 12 m).toInt := by
  simp only [tempReport, h]
  rw [if_neg (mt (oldReport_iff _ m).1 ho), hn]
  rfl

theorem reportTaken_same (s : State) (p : Nat) (m : Slot) : SameBut [.ports, .tally, .events, .free] s (reportTaken s p m) := by
  simp [reportTaken]

theorem reportTaken_rseq (s : State) (p : Nat) (m : Slot) : (getPort (reportTaken s p m) p).rseq = bf 16 16 m := by
  rw [reportTaken, getPort_setPort_self fun e => Bool.noConfusion (congrArg Port.rseqSet e)]

theorem oldReport_takeHead {s : State} {p : Nat} (h : PortReads s p) (c : Nat) (m : Slot) :
    oldReport (getPort (takeHead s p c) p) m ↔ oldReport (getPort s p) m := by
  obtain ⟨i, g, here⟩ := (takeHead_taken h c).here
  rw [here]
  exact Iff.rfl

end Sys2Proof.Machine

/-- Settles O42: a write of BAND through the band in force, a calibration through what its start and its end leave, and a media report
through the step of its group's band. -/
theorem bandsCalibrationAndMedia : Obligations.BandsCalibrationAndMedia := by
  unfold Obligations.BandsCalibrationAndMedia
  refine ⟨fun s => ⟨fun who b hmay hb => ?_, fun who b hb => ?_, fun hf hw => ?_, fun hw hheld => ⟨fun hd => ?_, fun hd => ?_⟩,
      fun who hmay hr hheld hd => ?_, fun hheld => ⟨_, rfl, calibrationDone_therm hheld⟩, fun hdef hw hd => ?_⟩,
    fun s => ⟨fun p m hm => ⟨fun hset hold => ?_, fun g v hwf hnew hn hg hv hp hlt h1 h2 => ?_⟩, fun hready hcores g hg hstale => ?_, fun hcores => ?_⟩⟩
  · obtain ⟨band, confirmed, guard, deferred⟩ := writeBand_therm s b.toNat
    obtain ⟨band', confirmed', guard'⟩ := resumeCal_band (writeBand s b.toNat)
    refine ⟨_, exec_bandWrite hmay hb, ?_, confirmed'.trans confirmed, guard'.trans guard, resumed_writeBand s b.isLt, fun hnone => ?_⟩
    · rw [band', band, BitVec.ofNat_toNat, BitVec.setWidth_eq]
    · rw [resumeCal_of_none (deferred.trans hnone)]
      exact ((writeBand_frame s b.toNat (List.Subset.refl _)).2 (SameBut.refl _ s)).waitos
  · show execBandWrite who b s = _
    simp [execBandWrite, Nat.not_le.2 hb]
  · obtain ⟨band, confirmed, guard, -⟩ := writeBand_therm s s.therm.band.toNat
    refine ⟨_, exec_bandConfirm hf hw, ?_, confirmed, guard, by simp⟩
    rw [band, BitVec.ofNat_toNat, BitVec.setWidth_eq]
  · have started := autoCal_started s
    exact ⟨_, (exec_calibration hw).trans (congrArg Host.Outcome.next (tryCal_starts hheld hd)), started.held, started.deferred⟩
  · exact ⟨_, (exec_calibration hw).trans (congrArg Host.Outcome.next (tryCal_defers hheld hd)), hheld, rfl, by simp⟩
  · have started := autoCal_started s
    refine ⟨_, (exec_calnow hmay hr).trans (congrArg Host.Outcome.next (tryCal_starts hheld hd)), started.held, started.conv, by simp, ?_⟩
    rw [autoCal_waitos, calHandle]
    split <;> simp [*]
  · refine ⟨{ s with therm := { s.therm with deferRaised := s.therm.deferRaised + 1 } }, ?_, by simp⟩
    show execCalDeferred s = _
    simp [execCalDeferred, hdef, hw, hd]
  · have reads : PortReads s p.val := .inr fun i g e => by simp [Port.reset] at e; simp [e] at hset
    exact congrArg Host.Outcome.next (tempReport_old hm ((oldReport_takeHead reads _ m).2 ⟨hset, hold⟩))
  · subst hg hv
    have same := reportTaken_same s p.val m
    have report := tempReport_one hm (mt (oldReport_takeHead (.inl hwf) _ m).1 hnew) hn
    obtain ⟨value, stale, band⟩ := tempEntry_applied (s := reportTaken s p.val m) hp hlt h1 h2
    refine ⟨_, congrArg Host.Outcome.next report, ?_, value, stale, fun hserve hup => ?_⟩
    · rw [getPort_congr ((tempEntry_frame _ _ _ _ (List.Subset.refl _)).2 (SameBut.refl _ (reportTaken s p.val m))).ports, reportTaken_rseq]
    · have serves : coresServe (reportTaken s p.val m) = true := by rw [coresServe, same.waitos]; exact hserve
      rw [← mediaBand_congr same.str]
      refine band serves ?_
      rw [getGroup_congr (congrArg Therm.groups same.therm), mediaBand_congr same.str]
      exact hup
  · have listed : g ∈ (List.range (min 240 (tCap s tSHT))).filter (isStale s) := List.mem_filter.2 ⟨List.mem_range.2 hg, hstale⟩
    refine ⟨_, ?_, staleGroup_sweep _ (writeDcols s) g (.inl listed)⟩
    show execMediaStaleCheck s = _
    rw [execMediaStaleCheck, if_pos ⟨hready, hcores⟩]
  · show execMediaStaleCheck s = _
    rw [execMediaStaleCheck, if_neg fun h => h.2 hcores]

end

section
open Sys2Proof Sys2Proof.Machine
namespace Sys2Proof.Machine

/-! ## Tokens: what their steps leave alone -/

/-- A token that differs from tk in its steps at most. -/
def StepsOnly (tk u : Token) : Prop := ∃ l, u = { tk with steps := l }

theorem StepsOnly.refl (tk : Token) : StepsOnly tk tk := ⟨_, rfl⟩

theorem StepsOnly.trans {tk u v : Token} (h : StepsOnly tk u) (k : StepsOnly u v) : StepsOnly tk v := by
  obtain ⟨l, rfl⟩ := h
  obtain ⟨l', rfl⟩ := k
  exact ⟨l', rfl⟩

theorem setStep_stepsOnly (tk : Token) (i : Nat) (x : StepRun) : StepsOnly tk (setStep tk i x) := ⟨_, rfl⟩

theorem StepsOnly.of_ite {c : Prop} [Decidable c] {tk : Token} {x y : Token × State} (hx : StepsOnly tk x.1) (hy : StepsOnly tk y.1) :
    StepsOnly tk (if c then x else y).1 := by
  split <;> assumption

/-- A sweep over steps that changes nothing of the token but its steps. -/
theorem StepsOnly.foldl {g : Token × State → Nat → Token × State} (h : ∀ ts i, StepsOnly ts.1 (g ts i).1) (l : List Nat) (ts : Token × State) :
    StepsOnly ts.1 (l.foldl g ts).1 := by
  induction l generalizing ts with
  | nil => exact .refl _
  | cons i l ih => exact (h ts i).trans (ih (g ts i))

theorem markerAll_stepsOnly (s : State) (tk : Token) : StepsOnly tk (markerAll s tk).1 := by
  refine StepsOnly.foldl (fun ts i => ?_) _ (tk, s)
  exact .of_ite (.of_ite (setStep_stepsOnly ..) (.refl _)) (.refl _)

theorem issueStep_stepsOnly (s : State) (tok : Nat) (tk : Token) (i : Nat) : StepsOnly tk (issueStep s tok tk i).1 := by
  unfold issueStep
  dsimp only
  (repeat' split) <;> exact setStep_stepsOnly ..

theorem getTok_setTok_self (s : State) (n : Nat) (tk : Token) : getTok (setTok s n (some tk)) n = some tk :=
  sget_sput_self (Option.some_ne_none tk) s.search.tokens n

theorem getTok_setTok_other (s : State) {n m : Nat} (tk : Token) (h : m ≠ n) : getTok (setTok s n (some tk)) m = getTok s m :=
  sget_sput_other (Option.some_ne_none tk) s.search.tokens h

theorem getTok_congr {s t : State} (h : t.search = s.search) (n : Nat) : getTok t n = getTok s n := by rw [getTok, getTok, h]

/-- A level that is issued becomes the token's, and changes no more of it than its steps (R105). -/
theorem issueLevel_token {s : State} {tok : Nat} {tk : Token} (n : Nat) (h : getTok s tok = some tk) :
    (issueLevel s tok n).search.next = s.search.next ∧ ∃ u, getTok (issueLevel s tok n) tok = some u ∧ StepsOnly { tk with level := n } u := by
  unfold issueLevel
  simp only [h]
  generalize hf : (List.range tk.steps.length).foldl _ ({ tk with level := n }, s) = ts
  have steps : StepsOnly { tk with level := n } ts.1 := by
    rw [← hf]
    exact StepsOnly.foldl (fun ts i => .of_ite (issueStep_stepsOnly ..) (.refl _)) _ ({ tk with level := n }, s)
  have same : SameBut [.ports, .tally, .events, .mgmt, .free] s ts.2 := by
    rw [← hf]
    refine SameBut.foldl_by Prod.snd (fun x i => ?_) _ ({ tk with level := n }, s)
    split <;> simp
  have next : ts.2.search.next = s.search.next := congrArg Search.next same.search
  exact ⟨next, ts.1, getTok_setTok_self ts.2 tok ts.1, steps⟩

/-- A search that starts here stands under its number as it was admitted, but for its level and its steps (R105, R110). -/
theorem startLevels_token (s : State) (tok : Nat) (tk : Token) (first : Nat) :
    (startLevels s tok tk first).search.next = s.search.next ∧
    ∃ u, getTok (startLevels s tok tk first) tok = some u ∧ StepsOnly { tk with level := first } u := by
  have marked : SameBut [.marker, .integ, .events, .mgmt, .free] s (markerAll s tk).2 := by simp
  have kept : (markerAll s tk).2.search.next = s.search.next := congrArg Search.next marked.search
  obtain ⟨l, hl⟩ := markerAll_stepsOnly s tk
  obtain ⟨next, u, hu, steps⟩ := issueLevel_token first (getTok_setTok_self (markerAll s tk).2 tok (markerAll s tk).1)
  refine ⟨next.trans kept, u, hu, StepsOnly.trans ?_ steps⟩
  exact ⟨l, by rw [hl]⟩

/-! ## Fields of a slot -/

theorem field_bput_above {n lo i w : Nat} (v : Nat) (h : i + w ≤ lo) : (bput n lo v).extractLsb' i w = 0 := by
  refine BitVec.eq_of_getLsbD_eq fun j hj => ?_
  simp [bput, hj, Nat.lt_of_lt_of_le (Nat.add_lt_add_left hj i) h]

theorem field_bput_below {n lo i w v k : Nat} (hv : v < 2 ^ k) (h : lo + k ≤ i) : (bput n lo v).extractLsb' i w = 0 := by
  refine BitVec.eq_of_getLsbD_eq fun j hj => ?_
  have big : 2 ^ k ≤ 2 ^ (i + j - lo) := Nat.pow_le_pow_right (by omega) (by omega)
  simp [bput, hj, BitVec.getLsbD_ofNat, Nat.testBit_lt_two_pow (Nat.lt_of_lt_of_le hv big)]

theorem field_bput_self {n lo w v : Nat} (hn : lo + w ≤ n) : (bput n lo v).extractLsb' lo w = BitVec.ofNat w v := by
  refine BitVec.eq_of_getLsbD_eq fun j hj => ?_
  have inside : lo + j < n := by omega
  have low : j < n := by omega
  rw [BitVec.getLsbD_extractLsb', bput, BitVec.getLsbD_shiftLeft, BitVec.getLsbD_ofNat, BitVec.getLsbD_ofNat]
  simp [hj, inside, low]

theorem statusNum_lt (st : Status) : statusNum st < 2 ^ 4 := by cases st <;> decide

/-- The class of a search response is SRSP, and its tag reads back (R263, R266). -/
theorem srspSlot_fields (st : Status) (hits : BitVec 4) {tag : Nat} (client : Nat) (ver : BitVec 16) (flags : Nat) (w0 w1 w2 : Word) (h : tag < 4096) :
    slotClass (srspSlot st hits tag client ver flags w0 w1 w2) = cSRSP ∧ bn 16 12 (srspSlot st hits tag client ver flags w0 w1 w2) = tag := by
  have hst := statusNum_lt st
  have hhits : hits.toNat < 2 ^ 4 := hits.isLt
  refine ⟨?_, ?_⟩
  · simp only [slotClass, bn, srspSlot, mkSlot, List.foldl_cons, List.foldl_nil, BitVec.extractLsb'_or]
    simp [field_bput_above, field_bput_self, cSRSP]
  · simp only [bn, srspSlot, mkSlot, List.foldl_cons, List.foldl_nil, BitVec.extractLsb'_or]
    rw [field_bput_below (k := 2) (by decide) (by decide), field_bput_below hst (by decide), field_bput_below hhits (by decide)]
    simp [field_bput_above, field_bput_self, Nat.mod_eq_of_lt h]

/-! ## Slots that leave a port -/

/-- Leaving slots change a port's egress and the credits that it spends, and no more of it (R283). -/
theorem drainSlots_keeps (p : Nat) (ms : List Slot) (x : Port) : ∃ e h, (drainSlots p ms x).1 = { x with egress := e, helds := h } := by
  induction ms generalizing x with
  | nil => exact ⟨_, _, rfl⟩
  | cons m ms ih =>
    unfold drainSlots
    dsimp only
    split
    · split
      · obtain ⟨e, h, heq⟩ := ih { x with egress := x.egress ++ [m] }
        exact ⟨e, h, heq⟩
      · obtain ⟨e, h, heq⟩ := ih (setHeld x ((creditOf (slotKind p m)).getD 0) { getHeld x ((creditOf (slotKind p m)).getD 0) with avail := (getHeld x ((creditOf (slotKind p m)).getD 0)).avail - 1 })
        exact ⟨e, h, heq⟩
    · obtain ⟨e, h, heq⟩ := ih x
      exact ⟨e, h, heq⟩

/-- A slot that needs no credit leaves, behind those before it. -/
theorem drainSlots_out (p : Nat) (ms : List Slot) {m : Slot} (hm : needsCredit (slotKind p m) = false) (x : Port) :
    ∃ l, (drainSlots p (ms ++ [m]) x).2 = l ++ [m] ∧ l ⊆ ms := by
  induction ms generalizing x with
  | nil => exact ⟨[], by simp [drainSlots, hm], List.Subset.refl _⟩
  | cons a ms ih =>
    rw [List.cons_append, drainSlots]
    dsimp only
    split
    · split
      · obtain ⟨l, hl, sub⟩ := ih { x with egress := x.egress ++ [a] }
        exact ⟨l, hl, List.subset_cons_of_subset a sub⟩
      · obtain ⟨l, hl, sub⟩ := ih (setHeld x ((creditOf (slotKind p a)).getD 0) { getHeld x ((creditOf (slotKind p a)).getD 0) with avail := (getHeld x ((creditOf (slotKind p a)).getD 0)).avail - 1 })
        exact ⟨a :: l, by rw [hl, List.cons_append], List.cons_subset_cons a sub⟩
    · obtain ⟨l, hl, sub⟩ := ih x
      exact ⟨a :: l, by rw [hl, List.cons_append], List.cons_subset_cons a sub⟩

/-- The tags that leaving slots free are those of the responses among them. -/
theorem freeTags_tags (out : List Slot) (x : Port) {m : Slot} (h : ∀ a ∈ out, slotClass a ≠ cSRSP) (hm : slotClass m = cSRSP) :
    (freeTags (out ++ [m]) x).tags = x.tags.erase (bn 16 12 m) := by
  have stay : ∀ (l : List Slot), (∀ a ∈ l, slotClass a ≠ cSRSP) → ∀ ts : List Nat,
      l.foldl (fun l m => if slotClass m = cSRSP then l.erase (bn 16 12 m) else l) ts = ts := by
    intro l
    induction l with
    | nil => intros; rfl
    | cons a l ih =>
      intro hl ts
      rw [List.foldl_cons, if_neg (hl a (by simp)), ih (fun b hb => hl b (by simp [hb]))]
  simp only [freeTags, List.foldl_append, List.foldl_cons, List.foldl_nil, stay out h, hm, if_true]

/-- A response that comes behind no other on a port whose link carries flits leaves at once, and frees its tag (R282). -/
theorem flushPort_response {p : Nat} {x : Port} {m : Slot} (hp : p < 8) (hup : linkUp x = true) (hq : ∀ a ∈ x.egress, slotClass a ≠ cSRSP)
    (hm : slotClass m = cSRSP) :
    (flushPort p { x with egress := x.egress ++ [m] }).tags = x.tags.erase (bn 16 12 m) ∧
    (flushPort p { x with egress := x.egress ++ [m] }).st = x.st := by
  have kind : slotKind p m = cSRSP := by simp [slotKind, isCascade, Nat.not_le.2 hp, hm]
  obtain ⟨e, h, keeps⟩ := drainSlots_keeps p (x.egress ++ [m]) { x with egress := [] }
  obtain ⟨l, out, sub⟩ := drainSlots_out p x.egress (m := m) (by rw [kind]; rfl) { x with egress := [] }
  have up : linkUp { x with egress := x.egress ++ [m] } = true := hup
  simp only [flushPort, up, if_true, isCascade, Nat.not_le.2 hp, decide_false, Bool.false_eq_true, if_false, keeps, out]
  rw [freeTags_tags l _ (fun a ha => hq a (sub ha)) hm]
  exact ⟨rfl, rfl⟩

end Sys2Proof.Machine
end

section
open Sys2Proof Sys2Proof.Machine
namespace Sys2Proof.Machine

/-! ## The answer of a search -/

theorem port_ne_reset {x : Port} (h : x.st ≠ pOFF) : x ≠ .reset := fun e => h (by rw [e]; rfl)

theorem linkUp_on {x : Port} (h : linkUp x = true) : x.st ≠ pOFF := fun e => by simp [linkUp, e] at h

/-- A response that is handed to a port whose link carries flits frees its tag as it leaves (R282). -/
theorem send_response {s : State} {p : Nat} {m : Slot} (hp : p < 8) (hup : linkUp (getPort s p) = true)
    (hq : ∀ a ∈ (getPort s p).egress, slotClass a ≠ cSRSP) (hm : slotClass m = cSRSP) :
    (getPort (send s p [m]) p).tags = (getPort s p).tags.erase (bn 16 12 m) := by
  obtain ⟨tags, st⟩ := flushPort_response hp hup hq hm
  have on := linkUp_on hup
  rw [send, if_neg on, modPort, getPort_setPort_self (port_ne_reset (by rw [st]; exact on)), tags]

/-- While its port retrains a slot waits in egress (R285). -/
theorem send_waits {s : State} {p : Nat} (ms : List Slot) (h : (getPort s p).st = pRETRAIN) :
    getPort (send s p ms) p = { getPort s p with egress := (getPort s p).egress ++ ms } := by
  have on : (getPort s p).st ≠ pOFF := by rw [h]; decide
  have down : linkUp { getPort s p with egress := (getPort s p).egress ++ ms } = false := by simp [linkUp, h]
  have flush : flushPort p { getPort s p with egress := (getPort s p).egress ++ ms } = { getPort s p with egress := (getPort s p).egress ++ ms } := by
    rw [flushPort, if_neg (by simp [down])]
  rw [send, if_neg on, modPort, flush]
  refine getPort_setPort_self (port_ne_reset ?_)
  exact on

theorem tagHeld_of_mem {s : State} {p : Nat} {inc : BitVec 16} {held : Port → List Nat} {t : Nat} (pool cap : Nat)
    (h : (held (getPort s p)).contains t = true) : tagHeld s p inc held pool cap t = s := if_pos (.inr h)

theorem tagHeld_of_old {s : State} {p : Nat} {inc : BitVec 16} (held : Port → List Nat) (pool cap t : Nat) (h : (getPort s p).incarn ≠ inc) :
    tagHeld s p inc held pool cap t = s := if_pos (.inl h)

/-- The response of a search: the slot that answers it (R266). -/
def srspOf (tk : Token) : Slot := srspSlot tk.st tk.hits tk.tag tk.client tk.ver (tokFlags tk) tk.w0 tk.w1 tk.w2

/-- The answer to a partner's search goes out on its port, in the incarnation of its request (R266, R294). -/
theorem sendAnswer_partner {s : State} {tk : Token} (hk : tk.kind = .partner) (hi : (getPort s tk.eng).incarn = tk.incarn)
    (ht : (getPort s tk.eng).tags.contains tk.tag = true) : sendAnswer s tk = send s tk.eng [srspOf tk] := by
  rw [sendAnswer, hk]
  show sendAs (tagHeld s tk.eng tk.incarn (·.tags) 0 4096 tk.tag) tk.eng tk.incarn [srspOf tk] = _
  rw [tagHeld_of_mem 0 4096 ht, sendAs, if_pos hi]

/-- One of an older incarnation is discarded and counted (R294). -/
theorem sendAnswer_old {s : State} {tk : Token} (hk : tk.kind = .partner) (hi : (getPort s tk.eng).incarn ≠ tk.incarn) :
    sendAnswer s tk = countPort s tk.eng 8 1 := by
  rw [sendAnswer, hk]
  show sendAs (tagHeld s tk.eng tk.incarn (·.tags) 0 4096 tk.tag) tk.eng tk.incarn [srspOf tk] = _
  rw [tagHeld_of_old (·.tags) 0 4096 tk.tag hi, sendAs, if_neg hi]

theorem sendSrsp_resolved {s : State} {tok : Nat} {tk : Token} (h : getTok s tok = some tk) (hph : tk.ph = .resolved) :
    sendSrsp s tok = sendAnswer (setTok s tok (some { tk with ph := .answered })) tk := by
  simp only [sendSrsp, h]
  exact if_pos hph

/-- SRSP of a search that is resolved, in the incarnation of its request. -/
theorem exec_srsp {s : State} {tok : Nat} {tk : Token} (h : getTok s tok = some tk) (hph : tk.ph = .resolved) (hk : tk.kind = .partner)
    (hi : (getPort s tk.eng).incarn = tk.incarn) (ht : (getPort s tk.eng).tags.contains tk.tag = true) :
    exec (.srsp tok) s = .next (send (setTok s tok (some { tk with ph := .answered })) tk.eng [srspOf tk]) :=
  congrArg Host.Outcome.next ((sendSrsp_resolved h hph).trans (sendAnswer_partner hk hi ht))

theorem sendSrsp_unresolved {s : State} {tok : Nat} {tk : Token} (h : getTok s tok = some tk) (hph : tk.ph ≠ .resolved) : sendSrsp s tok = s := by
  simp only [sendSrsp, h]
  exact if_neg hph

theorem counter_countPort {s : State} (h : swf 0 none s.mgmt.counters = true) (p i n : Nat) :
    counter (countPort s p i n) (0x020100 + 0x1000 * p + 8 * i) = counter s (0x020100 + 0x1000 * p + 8 * i) + BitVec.ofNat 64 n := by
  have written := sget_smod h (0x020100 + 0x1000 * p + 8 * i) (· + BitVec.ofNat 64 n) (0x020100 + 0x1000 * p + 8 * i)
  rw [if_pos rfl] at written
  exact written

/-! ## The watchdog -/

/-- What is left of a search that has expired (R131): answered LATE, with words of zero and nothing reserved; left says whether its
forward had left. -/
def lateToken (tk : Token) (left : Bool) : Token :=
  { tk with ph := .answered, st := .late, hits := 0, w0 := 0, w1 := 0, w2 := 0, resv := [], away := none, fwdFlag := left,
            steps := tk.steps.map (fun x => { x with ph := .ended, banks := [], await := [], unsent := [] }) }

/-- An unresolved search that expires stands answered LATE, and its reservations are back on their lists (R131, R132). -/
theorem lateWatchdog_late {s : State} {tok : Nat} {tk : Token} (h : getTok s tok = some tk) (hph : tk.ph = .running ∨ tk.ph = .away) :
    (∃ left, getTok (lateWatchdog s tok) tok = some (lateToken tk left)) ∧ (lateWatchdog s tok).life = (returnResv s tk.resv).life := by
  simp only [lateWatchdog, h]
  rw [if_pos hph]
  set left := (tk.away.map (fun (a : Nat × Nat) => !fwdWaits (getPort s a.2) a.2 a.1)).getD tk.fwdFlag
  set u := setTok (withdrawAll (returnResv s tk.resv) tok) tok (some (lateToken tk left)) with hu
  have same : ∀ qs code obj d, SameBut [.ports, .tally, .events, .mgmt, .free] u
      (sendAnswer (event (countPort u tk.eng 1 1) qs code obj d) (lateToken tk left)) := fun qs code obj d => by simp
  have withdrawn : (withdrawAll (returnResv s tk.resv) tok).life = (returnResv s tk.resv).life :=
    ((withdrawAll_frame _ _ (List.Subset.refl _)).2 (SameBut.refl [.ports] _)).life
  refine ⟨⟨left, (getTok_congr (same ..).search tok).trans (getTok_setTok_self ..)⟩, (same ..).life.trans withdrawn⟩

theorem lateWatchdog_settled {s : State} {tok : Nat} {tk : Token} (h : getTok s tok = some tk) (hph : tk.ph = .resolved ∨ tk.ph = .answered) :
    lateWatchdog s tok = s := by
  simp only [lateWatchdog, h]
  exact if_neg (by rcases hph with e | e <;> simp [e])

theorem tokenRetire_answered {s : State} {tok : Nat} {tk : Token} (h : getTok s tok = some tk) (hph : tk.ph = .answered) :
    tokenRetire s tok = setTok s tok none := by
  simp only [tokenRetire, h]
  exact if_pos hph

/-! ## Admission -/

section
variable {s : State} {p : Nat} {x : Slot}

theorem admitSearch_outside (h : ingressHead s p cSRCH = some x) (ha : admitting s = false) : admitSearch s p = s := by
  simp [admitSearch, h, ha]

theorem admitSearch_duplicate (h : ingressHead s p cSRCH = some x) (ha : admitting s = true) (ht : (getPort s p).tags.contains (qTag x) = true) :
    admitSearch s p = event (countPort (takeHead s p cSRCH) p 2 1) [p] 0x1001 p (qTag x) := by
  simp only [admitSearch, h, ha]
  simp only [Bool.not_true, Bool.false_eq_true, if_false]
  rw [if_pos ht]

theorem admitSearch_full (h : ingressHead s p cSRCH = some x) (ht : (getPort s p).tags.contains (qTag x) = false)
    (hf : 8192 ≤ tokensOf s p (fun _ => true)) : admitSearch s p = s := by
  simp only [admitSearch, h, if_neg (ne_true_of_eq_false ht), if_pos hf, ite_self]

theorem admitSearch_status (h : ingressHead s p cSRCH = some x) (ha : admitting s = true) (ht : (getPort s p).tags.contains (qTag x) = false)
    (hf : tokensOf s p (fun _ => true) < 8192) {st : Status} (hst : admissionStatus s p x = some st) {s1 s2 : State}
    (h1 : s1 = countPort (takeHead s p cSRCH) p 0 1)
    (h2 : s2 = if profBad s (qProfile x) (activeBuf s (qProfile x)) then (profKeys (qProfile x) (activeBuf s (qProfile x))).foldl touchQ s1 else s1) :
    admitSearch s p = answerAtAdmission (if st = .internal ∧ headerRead s (qProfile x) = true then heatCount s2 (admitToken s p x) else s2) p x st
      (hVer (header s (qProfile x) (activeBuf s (qProfile x)))) := by
  subst h1 h2
  simp only [admitSearch, h, ha, hst]
  simp only [Bool.not_true, Bool.false_eq_true, if_false]
  rw [if_neg (ne_true_of_eq_false ht), if_neg (Nat.not_le.2 hf)]

/-- The state in which a search has been counted, its tag is in flight, and its profile buffer has been read (R24, R371). -/
def searchRead (s : State) (p : Nat) (x : Slot) : State :=
  (profKeys (qProfile x) (activeBuf s (qProfile x))).foldl touch
    (modPort (countPort (takeHead s p cSRCH) p 0 1) p (fun y => { y with tags := y.tags ++ [qTag x] }))

theorem searchRead_same (s : State) (p : Nat) (x : Slot) :
    SameBut [.ports, .tally, .sram, .integ, .events, .mgmt, .free] s (searchRead s p x) := by
  simp [searchRead]

/-- A search that is not routed, or that no other die owns, starts here (R333). -/
theorem startSearch_here {s : State} (p tok : Nat) {tk : Token} (hr : ¬(1 < crewSize s ∧ bit tk.profile s.str.routed = true)) :
    startSearch s p tok tk = some (startLevels (setTok s tok (some tk)) tok tk 0) := by
  simp only [startSearch, if_neg hr]

theorem admitSearch_starts (h : ingressHead s p cSRCH = some x) (ha : admitting s = true) (ht : (getPort s p).tags.contains (qTag x) = false)
    (hf : tokensOf s p (fun _ => true) < 8192) (hst : admissionStatus s p x = none)
    (hr : ¬(1 < crewSize s ∧ bit (qProfile x) s.str.routed = true)) :
    admitSearch s p = startLevels (setTok (addTok (searchRead s p x) (admitToken s p x)).2 s.search.next (some (admitToken s p x)))
      s.search.next (admitToken s p x) 0 := by
  have same : SameBut [.ports, .tally, .sram, .search, .integ, .events, .mgmt, .free] s (addTok (searchRead s p x) (admitToken s p x)).2 :=
    (addTok_frame _ _ (by decide)).2 ((searchRead_same s p x).mono (by decide))
  have number : (addTok (searchRead s p x) (admitToken s p x)).1 = s.search.next := congrArg Search.next (searchRead_same s p x).search
  have here : ¬(1 < crewSize (addTok (searchRead s p x) (admitToken s p x)).2 ∧
      bit (admitToken s p x).profile (addTok (searchRead s p x) (admitToken s p x)).2.str.routed = true) := by
    rw [crewSize, same.power, same.str]
    exact hr
  simp only [admitSearch, h, ha, hst]
  simp only [Bool.not_true, Bool.false_eq_true, if_false]
  rw [if_neg (ne_true_of_eq_false ht), if_neg (Nat.not_le.2 hf), ← number]
  exact congrArg (Option.getD · s) (startSearch_here p _ here)

/-- The token of a search that starts here (R24, R134). -/
theorem admitSearch_token (h : ingressHead s p cSRCH = some x) (ha : admitting s = true) (ht : (getPort s p).tags.contains (qTag x) = false)
    (hf : tokensOf s p (fun _ => true) < 8192) (hst : admissionStatus s p x = none)
    (hr : ¬(1 < crewSize s ∧ bit (qProfile x) s.str.routed = true)) :
    (admitSearch s p).search.next = s.search.next + 1 ∧
    ∃ l, getTok (admitSearch s p) s.search.next = some { admitToken s p x with level := 0, steps := l } := by
  obtain ⟨next, u, hu, l, rfl⟩ := startLevels_token (setTok (addTok (searchRead s p x) (admitToken s p x)).2 s.search.next (some (admitToken s p x)))
    s.search.next (admitToken s p x) 0
  have counted : (searchRead s p x).search.next + 1 = s.search.next + 1 := by rw [(searchRead_same s p x).search]
  rw [admitSearch_starts h ha ht hf hst hr]
  exact ⟨next.trans counted, l, hu⟩

end

end Sys2Proof.Machine

/-- Settles O13: the arms of admission in their order, and the ways in which a token's answer leaves. -/
theorem searchesAdmittedAndAnsweredOnce : Obligations.SearchesAdmittedAndAnsweredOnce := by
  unfold Obligations.SearchesAdmittedAndAnsweredOnce
  refine ⟨fun p s x h => ⟨fun ha => congrArg Host.Outcome.next (admitSearch_outside h ha), fun ha ht => congrArg Host.Outcome.next (admitSearch_duplicate h ha ht),
      fun _ ht hf => congrArg Host.Outcome.next (admitSearch_full h ht hf), fun st s1 s2 ha ht hf hst h1 h2 => congrArg Host.Outcome.next (admitSearch_status h ha ht hf hst h1 h2),
      fun ha ht hf hst hr => ?_⟩,
    fun tok s tk h => ⟨fun hph hk he hi htag hmem => ⟨fun hup hq => ?_, fun hst => ?_⟩, fun hph hk hi _ hwf => ?_,
      fun hph => congrArg Host.Outcome.next (sendSrsp_unresolved h hph), fun hph => ?_, fun hph => congrArg Host.Outcome.next (lateWatchdog_settled h hph), fun hph hwf => ?_⟩⟩
  · obtain ⟨next, l, hu⟩ := admitSearch_token h ha ht hf hst hr
    exact ⟨_, rfl, next, _, hu, rfl, rfl, rfl, rfl, rfl, rfl, rfl, rfl, rfl, rfl, rfl⟩
  · obtain ⟨cls, tag⟩ := srspSlot_fields tk.st tk.hits tk.client tk.ver (tokFlags tk) tk.w0 tk.w1 tk.w2 htag
    have tags := send_response (s := setTok s tok (some { tk with ph := .answered })) (m := srspOf tk) he hup hq cls
    refine ⟨_, exec_srsp h hph hk hi hmem, ⟨_, (getTok_congr (send_same ..).search tok).trans (getTok_setTok_self ..), rfl⟩, ?_, by simp⟩
    rw [tags, srspOf, tag]
    rfl
  · have waits := send_waits (s := setTok s tok (some { tk with ph := .answered })) [srspOf tk] hst
    refine ⟨_, exec_srsp h hph hk hi hmem, ⟨_, (getTok_congr (send_same ..).search tok).trans (getTok_setTok_self ..), rfl⟩, ?_, by simp, ?_⟩
    · rw [waits]
      rfl
    · rw [waits]
      rfl
  · have old : exec (.srsp tok) s = .next (countPort (setTok s tok (some { tk with ph := .answered })) tk.eng 8 1) :=
      congrArg Host.Outcome.next ((sendSrsp_resolved h hph).trans (sendAnswer_old hk hi))
    exact ⟨_, old, rfl, counter_countPort (s := setTok s tok (some { tk with ph := .answered })) hwf tk.eng 8 1⟩
  · obtain ⟨⟨left, late⟩, life⟩ := lateWatchdog_late h hph
    exact ⟨_, rfl, ⟨_, late, rfl, rfl, rfl, rfl, rfl, rfl⟩, life⟩
  · have retired : exec (.tokenRetire tok) s = .next (setTok s tok none) := congrArg Host.Outcome.next (tokenRetire_answered h hph)
    exact ⟨_, retired, (sget_sput hwf tok none tok).trans (if_pos rfl), setTok_same ..⟩

end

section
open Sys2Proof Sys2Proof.Machine
namespace Sys2Proof.Machine

/-! ## Requests of other dies -/

section
variable {s : State} {k : Nat} {x y : Slot} {l : List Slot}

theorem takeFwd_outside (h : sget [] (getPort s (8 + k)).ingress cFWD = x :: y :: l) (ha : admitting s = false) : takeFwd s k = s := by
  simp [takeFwd, h, ha]

/-- The state in which a FWD, whose two slots are its port's first, has been taken (R337). -/
def fwdTaken (s : State) (p : Nat) : State := takeHead (takeHead s p cFWD) p cFWD

theorem takeFwd_duplicate (h : sget [] (getPort s (8 + k)).ingress cFWD = x :: y :: l) (ha : admitting s = true)
    (ht : crewTagBusy s (8 + k) false (bn 16 11 x) (bn 48 2 x) = true) :
    takeFwd s k = event (countPort (fwdTaken s (8 + k)) (8 + k) 2 1) [qFW] 0x1001 (8 + k) (bn 16 11 x) := by
  have owner : portOwner (8 + k) = [qFW] := by simp [portOwner]
  simp only [takeFwd, h, ha, ht, Bool.not_true, Bool.false_eq_true, if_false, if_true, crewDup, owner]
  rfl

theorem takeFwd_stale (h : sget [] (getPort s (8 + k)).ingress cFWD = x :: y :: l) (ha : admitting s = true)
    (ht : crewTagBusy s (8 + k) false (bn 16 11 x) (bn 48 2 x) = false) (hf : tokensOf s (8 + k) (fun tk => !isProbed tk) < 1536)
    (hb : bufferOf s (qProfile x) (bf 32 16 x) = none) :
    takeFwd s k = sendBy (countPort (fwdTaken s (8 + k)) (8 + k) 0 1) (8 + k) (bn 48 2 x) [fansSlot .staleVersion 0 (bn 16 11 x) 0 0 0 0] := by
  simp only [takeFwd, h, ha, ht, hb, Bool.not_true, Bool.false_eq_true, if_false]
  rw [if_neg (Nat.not_le.2 hf)]
  rfl

/-- The state in which a FWD has been taken and counted, and the buffer f of its profile read. -/
def fwdRead (s : State) (k f : Nat) (x : Slot) : State :=
  (profKeys (qProfile x) f).foldl touch (countPort (fwdTaken s (8 + k)) (8 + k) 0 1)

theorem fwdRead_same (s : State) (k f : Nat) (x : Slot) :
    SameBut [.ports, .tally, .sram, .integ, .events, .mgmt, .free] s (fwdRead s k f x) := by
  simp [fwdRead, fwdTaken]

theorem takeFwd_starts {f : Nat} (h : sget [] (getPort s (8 + k)).ingress cFWD = x :: y :: l) (ha : admitting s = true)
    (ht : crewTagBusy s (8 + k) false (bn 16 11 x) (bn 48 2 x) = false) (hf : tokensOf s (8 + k) (fun tk => !isProbed tk) < 1536)
    (hb : bufferOf s (qProfile x) (bf 32 16 x) = some f) (hg : profBad s (qProfile x) f = false) :
    takeFwd s k = startLevels (addTok (fwdRead s k f x) (fwdToken s (8 + k) f x y)).2 (fwdRead s k f x).search.next (fwdToken s (8 + k) f x y)
      (if bit 14 x then 0 else 1) := by
  simp only [takeFwd, h, ha, ht, hb, hg, Bool.not_true, Bool.false_eq_true, if_false]
  rw [if_neg (Nat.not_le.2 hf)]
  rfl

/-- A new token that starts at once stands under the next number, as it was made but for its level and its steps. -/
theorem startLevels_new (s : State) (tk : Token) (first : Nat) :
    (startLevels (addTok s tk).2 s.search.next tk first).search.next = s.search.next + 1 ∧
    ∃ l, getTok (startLevels (addTok s tk).2 s.search.next tk first) s.search.next = some { tk with level := first, steps := l } := by
  obtain ⟨next, u, hu, l, rfl⟩ := startLevels_token (addTok s tk).2 s.search.next tk first
  exact ⟨next, l, hu⟩

theorem takeFwd_token {f : Nat} (h : sget [] (getPort s (8 + k)).ingress cFWD = x :: y :: l) (ha : admitting s = true)
    (ht : crewTagBusy s (8 + k) false (bn 16 11 x) (bn 48 2 x) = false) (hf : tokensOf s (8 + k) (fun tk => !isProbed tk) < 1536)
    (hb : bufferOf s (qProfile x) (bf 32 16 x) = some f) (hg : profBad s (qProfile x) f = false) :
    (takeFwd s k).search.next = s.search.next + 1 ∧
    ∃ l, getTok (takeFwd s k) s.search.next = some { fwdToken s (8 + k) f x y with level := if bit 14 x then 0 else 1, steps := l } := by
  have new := startLevels_new (fwdRead s k f x) (fwdToken s (8 + k) f x y) (if bit 14 x then 0 else 1)
  rw [takeFwd_starts h ha ht hf hb hg]
  rwa [(fwdRead_same s k f x).search] at new ⊢

/-- The token of a PROBE (R341). -/
def probeToken (s : State) (p : Nat) (x : Slot) : Token :=
  { Token.blank with eng := p, kind := .probed p (bn 16 11 x) (bn 32 2 x) (bn 8 5 x), incarn := (getPort s p).incarn, key := qKey x, lk0 := qKey x,
                     gen := s.search.gen, steps := [.blank], t0 := now s }

theorem takeProbe_outside (h : ingressHead s (8 + k) cPROBE = some x) (ha : admitting s = false) : takeProbe s k = s := by
  simp [takeProbe, h, ha]

theorem takeProbe_token (h : ingressHead s (8 + k) cPROBE = some x) (ha : admitting s = true)
    (ht : crewTagBusy s (8 + k) true (bn 16 11 x) (bn 32 2 x) = false) (hf : tokensOf s (8 + k) isProbed < 512) :
    (takeProbe s k).search.next = s.search.next + 1 ∧
    ∃ l, getTok (takeProbe s k) s.search.next = some { probeToken s (8 + k) x with level := 0, steps := l } := by
  have new := startLevels_new (takeHead s (8 + k) cPROBE) (probeToken s (8 + k) x) 0
  have starts : takeProbe s k = startLevels (addTok (takeHead s (8 + k) cPROBE) (probeToken s (8 + k) x)).2
      (takeHead s (8 + k) cPROBE).search.next (probeToken s (8 + k) x) 0 := by
    simp only [takeProbe, h, ha, ht, Bool.not_true, Bool.false_eq_true, if_false]
    rw [if_neg (Nat.not_le.2 hf)]
    rfl
  rw [starts]
  rwa [(takeHead_same s (8 + k) cPROBE).search] at new ⊢
end

/-! ## Answers of other dies -/

theorem tBytes_congr {s t : State} (h : t.str = s.str) : tBytes t = tBytes s := by
  have tables : desc t = desc s := funext fun n => by rw [desc, desc, h]
  funext n
  unfold tBytes tCap rowWords tKind tRowW
  rw [tables]

theorem pageValid_congr {s t : State} (h : t.sram = s.sram) (hs : t.str = s.str) : pageValid t = pageValid s := by
  have kind : tKind t = tKind s := funext fun n => by rw [tKind, tKind, desc, desc, hs]
  funext key
  unfold pageValid pageBit tDefined
  rw [tBytes_congr hs, kind, h]

theorem peek_congr {s t : State} (h : t.sram = s.sram) (hs : t.str = s.str) : peek t = peek s := by
  funext key
  unfold peek cellInj cell
  rw [pageValid_congr h hs, h]

theorem header_congr {s t : State} (h : t.sram = s.sram) (hs : t.str = s.str) (n f : Nat) : header t n f = header s n f := by
  simp only [header, prof128, profWord, peek_congr h hs]

theorem withAdvisory_congr {s t : State} (h : t.sram = s.sram) (hs : t.str = s.str) (hl : t.life = s.life) (tk : Token) (w : Word) :
    withAdvisory t tk w = withAdvisory s tk w := by
  simp only [withAdvisory, header_congr h hs, hl]

theorem fansTo_congr {s t : State} (h : t.sram = s.sram) (hs : t.str = s.str) (hl : t.life = s.life) (tk : Token) (x : Slot) :
    fansTo t tk x = fansTo s tk x := by
  simp only [fansTo, withAdvisory_congr h hs hl]

/-- The state in which an answer at the head of cascade port p, with its tag in use, has been taken and the tag freed (R347). -/
def fansFreed (s : State) (p : Nat) (x : Slot) : State :=
  modPort (takeHead s p cFANS) p (fun y => { y with fwdTags := y.fwdTags.filter (fun e => e.1 ≠ bn 16 11 x) })

theorem fansFreed_same (s : State) (p : Nat) (x : Slot) : SameBut [.ports, .tally, .events, .free] s (fansFreed s p x) := by
  simp [fansFreed]

/-- The port of a tag that is in use reads back what is written to it. -/
theorem portReads_of_fwdTags {s : State} {p : Nat} (h : (getPort s p).fwdTags ≠ []) : PortReads s p :=
  .inr fun _ _ e => h (congrArg Port.fwdTags e)

theorem portReads_of_probeTags {s : State} {p : Nat} (h : (getPort s p).probeTags ≠ []) : PortReads s p :=
  .inr fun _ _ e => h (congrArg Port.probeTags e)

theorem takeFans_unknown {s : State} {k : Nat} {x : Slot} (h : ingressHead s (8 + k) cFANS = some x) (hr : PortReads s (8 + k))
    (ht : (getPort s (8 + k)).fwdTags.find? (fun e => e.1 = bn 16 11 x) = none) :
    takeFans s k = countPort (takeHead s (8 + k) cFANS) (8 + k) 8 1 := by
  obtain ⟨i, g, here⟩ := (takeHead_taken hr cFANS).here
  simp only [takeFans, h, here, ht]

theorem takeFans_known {s : State} {k n : Nat} {x : Slot} {tk : Token} (h : ingressHead s (8 + k) cFANS = some x)
    (ht : (getPort s (8 + k)).fwdTags.find? (fun e => e.1 = bn 16 11 x) = some (bn 16 11 x, n)) (hn : getTok s n = some tk)
    (hph : tk.ph = .away) (ha : tk.away = some (bn 16 11 x, 8 + k)) :
    takeFans s k = setTok (fansFreed s (8 + k) x) n (some (fansTo s tk x)) := by
  have reads : PortReads s (8 + k) := portReads_of_fwdTags fun e => by simp [e] at ht
  have same := fansFreed_same s (8 + k) x
  obtain ⟨i, g, here⟩ := (takeHead_taken reads cFANS).here
  have tok : getTok (fansFreed s (8 + k) x) n = some tk := (getTok_congr same.search n).trans hn
  rw [fansFreed] at tok
  simp only [takeFans, h, here, ht, tok]
  rw [if_pos ⟨hph, ha⟩, ← fansFreed, fansTo_congr same.sram same.str same.life]

/-! ## Probes that wait for a tag -/

theorem modTok_other (s : State) {n m : Nat} (f : Token → Token) (h : m ≠ n) : getTok (modTok s n f) m = getTok s m := by
  unfold modTok
  split
  · exact getTok_setTok_other s _ h
  · rfl

theorem modTok_self {s : State} {n : Nat} {tk : Token} (f : Token → Token) (h : getTok s n = some tk) : getTok (modTok s n f) n = some (f tk) := by
  simp only [modTok, h]
  exact getTok_setTok_self ..

theorem retryProbes_other (s : State) {tok n : Nat} (tk : Token) (i : Nat) (h : n ≠ tok) : getTok (retryProbes s tok tk i) n = getTok s n := by
  unfold retryProbes
  dsimp only
  rw [modTok_other _ _ h]
  refine getTok_congr (SameBut.search (ps := [.ports, .tally, .events, .mgmt, .free]) ?_) n
  exact SameBut.foldl_by Prod.snd (fun ys r => by simp) _ (({ stepAt tk i with unsent := [] } : StepRun), s)

/-- The probes of step i of a token are tried again. -/
def retryStep (tok : Nat) (s : State) (i : Nat) : State := match getTok s tok with | some tk => retryProbes s tok tk i | none => s

/-- The probes of a token that the store of tokens lists are tried again, those steps of it whose probes wait. -/
def retryListed (s : State) (e : Nat × Option Token) : State :=
  match e.2 with
  | some tk => ((List.range tk.steps.length).filter (fun i => !(stepAt tk i).unsent.isEmpty)).foldl (retryStep e.1) s
  | none => s

theorem retryAll_eq (s : State) : retryAll s = s.search.tokens.foldl retryListed s := rfl

theorem retryStep_other {tok n : Nat} (h : n ≠ tok) (l : List Nat) (s : State) : getTok (l.foldl (retryStep tok) s) n = getTok s n := by
  induction l generalizing s with
  | nil => rfl
  | cons i l ih =>
    have step : getTok (retryStep tok s i) n = getTok s n := by
      unfold retryStep
      split
      · exact retryProbes_other s _ i h
      · rfl
    exact (ih _).trans step

theorem unsent_stepAt {tk : Token} (h : ∀ y ∈ tk.steps, y.unsent = []) (i : Nat) : (stepAt tk i).unsent = [] := by
  unfold stepAt
  cases hi : tk.steps[i]? with
  | none => rfl
  | some y => exact h y (List.mem_of_getElem? hi)

/-- A listed token is left alone where it is another one, or has no probe that waits. -/
theorem retryListed_keeps (s : State) {e : Nat × Option Token} {n : Nat} {tk : Token} (hu : ∀ y ∈ tk.steps, y.unsent = [])
    (he : e.1 = n → e.2 = some tk) : getTok (retryListed s e) n = getTok s n := by
  unfold retryListed
  split
  · next tk' h' =>
    by_cases hn : e.1 = n
    · obtain rfl : tk' = tk := Option.some.inj (h'.symm.trans (he hn))
      simp [unsent_stepAt hu]
    · exact retryStep_other (Ne.symm hn) ..
  · rfl

/-- A token without a probe that waits is left alone when waiting probes are tried again (R345). -/
theorem retryAll_token {s : State} {n : Nat} {tk : Token} (hl : ∀ e ∈ s.search.tokens, e.1 = n → e.2 = some tk)
    (hu : ∀ y ∈ tk.steps, y.unsent = []) : getTok (retryAll s) n = getTok s n := by
  have sweep : ∀ (l : List (Nat × Option Token)) (u : State), (∀ e ∈ l, e.1 = n → e.2 = some tk) →
      getTok (l.foldl retryListed u) n = getTok u n := by
    intro l
    induction l with
    | nil => exact fun _ _ => rfl
    | cons e l ih => exact fun u h => (ih _ fun e he => h e (by simp [he])).trans (retryListed_keeps u hu (h e (by simp)))
  exact sweep _ s hl

/-! ## Shares that answer -/

theorem getElem?_modAt {α : Type} (f : α → α) (l : List α) (i : Nat) : (modAt f l i)[i]? = l[i]?.map f := by
  induction l generalizing i with
  | nil => rfl
  | cons x l ih =>
    cases i with
    | zero => rfl
    | succ i => exact ih i

theorem settle_shares (route broadcast : Bool) (x : StepRun) :
    (settle route broadcast x).await = x.await ∧ (settle route broadcast x).shares = x.shares := by
  unfold settle
  split
  · split <;> exact ⟨rfl, rfl⟩
  · exact ⟨rfl, rfl⟩

/-- A share that answers leaves those that its step awaits, and stands among those that have answered (R341). -/
theorem shareAnswers_step {s : State} {n i r : Nat} {tk : Token} (w : Share) (rsv : Bool) (h : getTok s n = some tk)
    (hr : (stepAt tk i).await.contains r = true) :
    ∃ u, getTok (shareAnswers s n i r .ok (some w) rsv) n = some u ∧ (stepAt u i).await.contains r = false ∧ w ∈ (stepAt u i).shares := by
  have listed : ∃ y, tk.steps[i]? = some y := by
    cases hi : tk.steps[i]? with
    | none => simp [stepAt, hi, StepRun.blank] at hr
    | some y => exact ⟨y, rfl⟩
  obtain ⟨y, hy⟩ := listed
  refine ⟨_, modTok_self _ h, ?_⟩
  rw [stepAt, getElem?_modAt, hy, Option.map_some, Option.getD_some, (settle_shares ..).1, (settle_shares ..).2]
  simp

/-- The share that a PANS brings, of the step that waits for the rank (R343). -/
def pansShare (x : Slot) (r : Nat) : Share := { tag := bn 32 7 x, rank := r, addr := bn 40 24 x, half := bn 39 1 x, rword := bf 64 64 x }

/-- The state in which a PANS has been taken, its tag freed, and the probes that wait for a tag have been tried again (R345, R347). -/
def pansFreed (s : State) (p : Nat) (x : Slot) : State :=
  retryAll (modPort (takeHead s p cPANS) p (fun y => { y with probeTags := y.probeTags.filter (fun e => e.1 ≠ bn 16 11 x) }))

theorem takePans_known {s : State} {k n w : Nat} {x : Slot} {tk : Token} (h : ingressHead s (8 + k) cPANS = some x)
    (ht : (getPort s (8 + k)).probeTags.find? (fun e => e.1 = bn 16 11 x) = some (bn 16 11 x, n, w))
    (hn : getTok (pansFreed s (8 + k) x) n = some tk) (hph : tk.ph = .running) (hw : (stepAt tk (w / 4)).await.contains (w % 4) = true)
    (hst : bn 8 4 x = 0) :
    takePans s k = shareAnswers (pansFreed s (8 + k) x) n (w / 4) (w % 4) .ok (some (pansShare x (w % 4))) (bit 128 x) := by
  have reads : PortReads s (8 + k) := portReads_of_probeTags fun e => by simp [e] at ht
  obtain ⟨i, g, here⟩ := (takeHead_taken reads cPANS).here
  rw [pansFreed] at hn
  simp only [takePans, h, here, ht, hn, hst, statusOf]
  rw [if_pos ⟨hph, hw⟩]
  rfl

end Sys2Proof.Machine

/-- Settles O37: FWD and PROBE through the token that they start, FANS through the token that it resolves, and PANS through the step that it
answers, once the probes that wait have been tried again. -/
theorem crewSearchesAct : Obligations.CrewSearchesAct := by
  unfold Obligations.CrewSearchesAct
  refine fun k s => ⟨fun x y l h => ⟨fun ha => congrArg Host.Outcome.next (takeFwd_outside h ha), fun ha ht => congrArg Host.Outcome.next (takeFwd_duplicate h ha ht),
      fun ha ht hf => ⟨fun hb => congrArg Host.Outcome.next (takeFwd_stale h ha ht hf hb), fun f hb hg => ?_⟩⟩,
    fun x h => ⟨fun ha => congrArg Host.Outcome.next (takeProbe_outside h ha), fun ha ht hf => ?_⟩,
    fun x h => ⟨fun hwf ht => congrArg Host.Outcome.next (takeFans_unknown h (.inl hwf) ht), fun n tk ht hn hph ha => ?_⟩,
    fun x n w tk h ht hn hl hu hph hw hst => ?_⟩
  · obtain ⟨next, l, hu⟩ := takeFwd_token h ha ht hf hb hg
    exact ⟨_, rfl, next, _, hu, rfl, rfl, rfl, rfl, rfl, rfl, rfl, rfl⟩
  · obtain ⟨next, l, hu⟩ := takeProbe_token h ha ht hf
    exact ⟨_, rfl, next, _, hu, rfl, rfl, rfl, rfl⟩
  · have same := (setTok_frame (fansFreed s (8 + k.val) x) n (some (fansTo s tk x)) (by decide)).2
      ((fansFreed_same s (8 + k.val) x).mono (qs := [.ports, .search, .tally, .events, .free]) (by decide))
    exact ⟨_, congrArg Host.Outcome.next (takeFans_known h ht hn hph ha), same, fansTo s tk x,
      getTok_setTok_self (fansFreed s (8 + k.val) x) n (fansTo s tk x), rfl, rfl, rfl, rfl, rfl, rfl, rfl, rfl⟩
  · have taken : SameBut [.ports, .tally, .events, .free] s
        (modPort (takeHead s (8 + k.val) cPANS) (8 + k.val) (fun y => { y with probeTags := y.probeTags.filter (fun e => e.1 ≠ bn 16 11 x) })) := by
      simp
    have kept : getTok (pansFreed s (8 + k.val) x) n = some tk := by
      rw [pansFreed, retryAll_token (by rw [taken.search]; exact hl) hu, getTok_congr taken.search, hn]
    obtain ⟨u, hu', await, shares⟩ := shareAnswers_step (pansShare x (w % 4)) (bit 128 x) kept hw
    refine ⟨_, congrArg Host.Outcome.next (takePans_known h ht kept hph hw hst), ?_, u, hu', await, shares⟩
    simp [pansFreed]

end

section
open Sys2Proof Sys2Proof.Machine
namespace Sys2Proof.Machine

/-! ## The flags of a port that the hold-up save sets (R268, R438) -/

/-- What SaveBegan says of a port: its state and READY, HOLD, and its fence. -/
def saveFlags (x : Port) : BitVec 3 × Bool × Bool × Bool := (x.st, x.ready, x.hold, x.fenced)

/-- The flags of a port as the start of a save leaves them: HOLD unless its domain is off, a fence if it has sent READY. -/
def begunFlags (x : Port) : BitVec 3 × Bool × Bool × Bool := (x.st, x.ready, decide (x.st ≠ pOFF), x.ready)

theorem begunFlags_congr {x y : Port} (h : saveFlags x = saveFlags y) : begunFlags x = begunFlags y := by
  simp only [saveFlags, Prod.mk.injEq] at h
  simp only [begunFlags, h]

/-- From s to t no port's flags have changed, and the ports are still in canonical form. -/
structure FlagsKept (s t : State) : Prop where
  flags : ∀ q, saveFlags (getPort t q) = saveFlags (getPort s q)
  wf : swf Port.reset none t.ports = true

theorem FlagsKept.refl {s : State} (h : swf Port.reset none s.ports = true) : FlagsKept s s := ⟨fun _ => rfl, h⟩

theorem FlagsKept.trans {s t u : State} (h : FlagsKept s t) (k : FlagsKept t u) : FlagsKept s u :=
  ⟨fun q => (k.flags q).trans (h.flags q), k.wf⟩

theorem FlagsKept.of_ports {s t : State} (h : t.ports = s.ports) (k : swf Port.reset none s.ports = true) : FlagsKept s t :=
  ⟨fun q => congrArg saveFlags (getPort_congr h q), by rw [h]; exact k⟩

theorem modPort_flags {s : State} (h : swf Port.reset none s.ports = true) (p : Nat) {f : Port → Port}
    (hf : ∀ x, saveFlags (f x) = saveFlags x) : FlagsKept s (modPort s p f) := by
  refine ⟨fun q => ?_, setPort_canonical h ..⟩
  rw [modPort, getPort_setPort h]
  split
  next e => rw [hf, e]
  · rfl

theorem flushPort_flags (p : Nat) (x : Port) : saveFlags (flushPort p x) = saveFlags x := by
  obtain ⟨e, h, keeps⟩ := drainSlots_keeps p x.egress { x with egress := [] }
  unfold flushPort
  dsimp only
  rw [keeps]
  split
  · split <;> rfl
  · rfl

theorem send_flags {s : State} (h : swf Port.reset none s.ports = true) (p : Nat) (ms : List Slot) : FlagsKept s (send s p ms) := by
  unfold send
  split
  · exact .refl h
  · exact modPort_flags h p fun x => flushPort_flags ..

theorem freeCredit_flags {s : State} (h : swf Port.reset none s.ports = true) (p c n : Nat) : FlagsKept s (freeCredit s p c n) := by
  unfold freeCredit
  dsimp only
  split
  · exact .of_ports (refuseMove_same ..).ports h
  · exact modPort_flags h p fun x => rfl

theorem takeHead_flags {s : State} (h : swf Port.reset none s.ports = true) (p c : Nat) : FlagsKept s (takeHead s p c) := by
  have taken : FlagsKept s (modPort s p (fun x => { x with ingress := smod [] x.ingress c (List.drop 1) })) := modPort_flags h p fun _ => rfl
  unfold takeHead
  dsimp only
  split
  · exact taken.trans (freeCredit_flags taken.wf ..)
  · exact taken

theorem dropFlushed_flags {s : State} (h : swf Port.reset none s.ports = true) (p : Nat) : FlagsKept s (dropFlushed s p) := by
  unfold dropFlushed
  dsimp only
  generalize (sget [] (getPort s p).ingress cNOTE).filter _ = keep
  have taken : FlagsKept s (modPort s p (fun x => { x with ingress := sput [] x.ingress cNOTE keep })) := modPort_flags h p fun _ => rfl
  split
  · split
    · exact taken.trans (freeCredit_flags taken.wf ..)
    · exact taken
  · exact taken

theorem sendAll_flags (ms : Nat → State → List Slot) (l : List Nat) {s : State} (h : swf Port.reset none s.ports = true) :
    FlagsKept s (l.foldl (fun s q => send s q (ms q s)) s) := by
  induction l generalizing s with
  | nil => exact .refl h
  | cons q l ih =>
    have sent := send_flags h q (ms q s)
    exact sent.trans (ih sent.wf)

/-! ## The save begins -/

/-- One port at the start of a save. -/
theorem fencePort_flags {s : State} (h : swf Port.reset none s.ports = true) (t : Word) (p : Nat) :
    swf Port.reset none (fencePort t s p).ports = true ∧
    ∀ q, saveFlags (getPort (fencePort t s p) q) = if q = p then begunFlags (getPort s q) else saveFlags (getPort s q) := by
  have dropped := dropFlushed_flags h p
  unfold fencePort
  dsimp only
  generalize dropFlushed s p = d at dropped ⊢
  set u := modPort d p (fun x => { x with hold := decide (x.st ≠ pOFF), fenced := (getPort d p).ready, flushed := false }) with hu
  have wf : swf Port.reset none u.ports = true := setPort_canonical dropped.wf ..
  have fenced : ∀ q, saveFlags (getPort u q) = if q = p then begunFlags (getPort s q) else saveFlags (getPort s q) := by
    intro q
    rw [hu, modPort, getPort_setPort dropped.wf]
    split
    next e =>
      subst e
      show begunFlags (getPort d q) = begunFlags (getPort s q)
      exact begunFlags_congr (dropped.flags q)
    · exact dropped.flags q
  split
  · have sent := send_flags wf p [saveFence t]
    exact ⟨sent.wf, fun q => (sent.flags q).trans (fenced q)⟩
  · exact ⟨wf, fenced⟩

/-- Ports are fenced one after another: those of the list carry the flags of a save, the others what they had. -/
theorem fencePorts_flags (t : Word) (l : List Nat) {s : State} (h : swf Port.reset none s.ports = true) :
    swf Port.reset none (l.foldl (fencePort t) s).ports = true ∧
    ∀ q, saveFlags (getPort (l.foldl (fencePort t) s) q) = if q ∈ l then begunFlags (getPort s q) else saveFlags (getPort s q) := by
  induction l generalizing s with
  | nil => exact ⟨h, fun q => by simp⟩
  | cons p l ih =>
    obtain ⟨wf, head⟩ := fencePort_flags h t p
    obtain ⟨wf', tail⟩ := ih wf
    refine ⟨wf', fun q => ?_⟩
    have kept : begunFlags (getPort (fencePort t s p) q) = begunFlags (getPort s q) := by
      have := head q
      split at this
      · simp only [saveFlags, begunFlags, Prod.mk.injEq] at this ⊢
        simp only [this, and_self]
      · exact begunFlags_congr this
    rw [List.foldl_cons, tail q, kept, head q]
    by_cases hp : q = p <;> simp [hp]

theorem abandonSession_same (s : State) : SameBut [.waitos] s (abandonSession s) := by simp

/-- The state in which a save has been noted, before its ports are told (R438). -/
def saveNoted (s : State) (byPwrgd byTrip : Bool) : State :=
  { s with holdup := { s.holdup with ph := 1, early := false, flushed := 0, pftime := s.clock.time, pfAt := now s, byPwrgd := byPwrgd, byTrip := byTrip, recover := false, reboot := false, incomplete := false },
           power := { s.power with pstate := 2 } }

/-- Beside the ports the start of a save notes it, and abandons an open session. -/
theorem startSave_same (s : State) (byPwrgd byTrip : Bool) :
    SameBut [.waitos, .ports, .tally, .events, .free] (saveNoted s byPwrgd byTrip) (startSave s byPwrgd byTrip) := by
  unfold startSave
  dsimp only
  simp [saveNoted]

/-- The hold-up save begins (R438): every port carries its flags. -/
theorem startSave_flags {s : State} (h : swf Port.reset none s.ports = true) (byPwrgd byTrip : Bool) {p : Nat} (hp : p < 11) :
    saveFlags (getPort (startSave s byPwrgd byTrip) p) = begunFlags (getPort s p) := by
  have noted : FlagsKept s (abandonSession (saveNoted s byPwrgd byTrip)) := .of_ports (abandonSession_same _).ports h
  obtain ⟨wf, fenced⟩ := fencePorts_flags s.clock.time (List.range 11) noted.wf
  have told := sendAll_flags (fun _ _ => [saveBegunNote s.clock.time])
    ([8, 9, 10].filter (portActive ((List.range 11).foldl (fencePort s.clock.time) (abandonSession (saveNoted s byPwrgd byTrip))))) wf
  calc saveFlags (getPort (startSave s byPwrgd byTrip) p)
      = saveFlags (getPort ((List.range 11).foldl (fencePort s.clock.time) (abandonSession (saveNoted s byPwrgd byTrip))) p) := told.flags p
    _ = begunFlags (getPort (abandonSession (saveNoted s byPwrgd byTrip)) p) := by rw [fenced p, if_pos (List.mem_range.2 hp)]
    _ = begunFlags (getPort s p) := begunFlags_congr (noted.flags p)

/-- A save that begins in s, where the clock, the ports' flags and all that is durable stand as they do in z. -/
theorem startSave_began {z s : State} (h : FlagsKept z s) (same : SameBut [.pins, .ports, .tally, .holdup, .events, .free] z s)
    (byPwrgd byTrip : Bool) : SaveBegan z (startSave s byPwrgd byTrip) := by
  have began := startSave_same s byPwrgd byTrip
  refine { phase := congrArg HoldUp.ph began.holdup, time := ?_, state := congrArg Power.pstate began.power, holds := fun p hp => ?_,
           journal := began.journal.trans same.journal, store := began.store.trans same.store,
           sram := began.sram.trans same.sram, tcam := began.tcam.trans same.tcam }
  · exact (congrArg HoldUp.pftime began.holdup).trans (congrArg Clock.time same.clock)
  · have flags := (startSave_flags h.wf byPwrgd byTrip hp).trans (begunFlags_congr (h.flags p))
    simp only [saveFlags, begunFlags, Prod.mk.injEq] at flags
    obtain ⟨_, _, hold, fenced⟩ := flags
    exact ⟨hold, fenced⟩

theorem SaveBegan.counted {s t : State} (h : SaveBegan s t) (i n : Nat) : SaveBegan s (countP t i n) :=
  ⟨h.phase, h.time, h.state, h.holds, h.journal, h.store, h.sram, h.tcam⟩

/-! ## What starts a save (R46, R362, R613) -/

/-- A power failure after ready, or in a warm reset that RST_N holds, starts a save where none is under way. -/
theorem powerFail_starts {s : State} (hb : s.boot.phase = .ready ∨ s.boot.phase = .resetHeld) (hp : s.holdup.ph = 0) (byPwrgd byTrip : Bool) :
    powerFail s byPwrgd byTrip = startSave s byPwrgd byTrip := by
  rcases hb with e | e <;> simp [powerFail, e, hp]

/-- A power failure before ready stops the boot. -/
theorem powerFail_stops {s : State} (hb : s.boot.phase = .booting ∨ s.boot.phase = .holdRst) (byPwrgd byTrip : Bool) :
    powerFail s byPwrgd byTrip = stopBoot s 5 := by
  rcases hb with e | e <;> simp [powerFail, e]

/-- PFAIL_N is low, and PWRGD has fallen. -/
def pfailLow (s : State) : State := { s with pins := { s.pins with pfailN := false }, holdup := { s.holdup with recover := false } }
def pwrgdLow (s : State) : State := { s with pins := { s.pins with pwrgd := false } }

theorem exec_pfail_long {s : State} {ns : Nat} (h : 200 ≤ ns) : exec (.pfail ns) s = .next (powerFail (pfailLow s) false false) :=
  congrArg Host.Outcome.next (if_neg (Nat.not_lt.2 h))

theorem pwrgdDrop_long {s : State} {ns : Nat} (h : 200 ≤ ns) : pwrgdDrop s ns =
    if s.holdup.ph = 0 ∧ (powerFail (pwrgdLow s) true false).holdup.ph = 1 then countP (powerFail (pwrgdLow s) true false) 2 1
    else powerFail (pwrgdLow s) true false := if_neg (Nat.not_lt.2 h)

theorem pwrgdDrop_starts {s : State} {ns : Nat} (h : 200 ≤ ns) (hb : s.boot.phase = .ready ∨ s.boot.phase = .resetHeld) (hp : s.holdup.ph = 0) :
    pwrgdDrop s ns = countP (startSave (pwrgdLow s) true false) 2 1 := by
  have began : (startSave (pwrgdLow s) true false).holdup.ph = 1 := congrArg HoldUp.ph (startSave_same ..).holdup
  rw [pwrgdDrop_long h, powerFail_starts (s := pwrgdLow s) hb hp, if_pos ⟨hp, began⟩]

theorem pwrgdDrop_stops {s : State} {ns : Nat} (h : 200 ≤ ns) (hb : s.boot.phase = .booting ∨ s.boot.phase = .holdRst) :
    pwrgdDrop s ns = stopBoot (pwrgdLow s) 5 ∨ pwrgdDrop s ns = countP (stopBoot (pwrgdLow s) 5) 2 1 := by
  rw [pwrgdDrop_long h, powerFail_stops (s := pwrgdLow s) hb]
  split
  · exact .inr rfl
  · exact .inl rfl

theorem exec_saveBegun {s : State} {k : Fin 3} {x : Slot} (hx : ingressHead s (8 + k.val) cNOTE = some x) (hop : bn 8 8 x = 0x11) :
    exec (.saveBegun k) s = .next (powerFail (takeHead s (8 + k.val) cNOTE) false false) := by
  refine congrArg Host.Outcome.next ?_
  simp only [saveBegun, hx, hop, if_true]

/-- The start clauses of a save. -/
theorem save_starts {s : State} (hb : s.boot.phase = .ready ∨ s.boot.phase = .resetHeld) (hp : s.holdup.ph = 0) (h : swf Port.reset none s.ports = true) :
    (∀ ns, 200 ≤ ns → Gives (.pfail ns) s (fun t => SaveBegan s t ∧ t.pins.pfailN = false)) ∧
    (∀ ns, 200 ≤ ns → Gives (.pwrgdDrop ns) s (fun t => SaveBegan s t ∧ t.pins.pwrgd = false ∧ t.holdup.byPwrgd = true)) ∧
    (∀ (k : Fin 3) x, ingressHead s (8 + k.val) cNOTE = some x → bn 8 8 x = 0x11 →
      Gives (.saveBegun k) s (fun t => SaveBegan s t ∧ t.pins = s.pins)) := by
  refine ⟨fun ns hns => ?_, fun ns hns => ?_, fun k x hx hop => ?_⟩
  · have began := startSave_began (z := s) (s := pfailLow s) (.of_ports rfl h) (by simp [pfailLow]) false false
    refine ⟨_, (exec_pfail_long hns).trans (congrArg Host.Outcome.next (powerFail_starts (s := pfailLow s) hb hp ..)), began, ?_⟩
    exact congrArg Pins.pfailN (startSave_same ..).pins
  · have began := startSave_began (z := s) (s := pwrgdLow s) (.of_ports rfl h) (by simp [pwrgdLow]) true false
    have counted : SameBut [.mgmt] (startSave (pwrgdLow s) true false) (countP (startSave (pwrgdLow s) true false) 2 1) := by simp
    have same := startSave_same (pwrgdLow s) true false
    refine ⟨_, congrArg Host.Outcome.next (pwrgdDrop_starts hns hb hp), began.counted 2 1, ?_, ?_⟩
    · exact congrArg Pins.pwrgd (counted.pins.trans same.pins)
    · exact congrArg HoldUp.byPwrgd (counted.holdup.trans same.holdup)
  · have taken : SameBut [.ports, .tally, .events, .free] s (takeHead s (8 + k.val) cNOTE) := by simp
    have hb' : (takeHead s (8 + k.val) cNOTE).boot.phase = .ready ∨ (takeHead s (8 + k.val) cNOTE).boot.phase = .resetHeld := by rw [taken.boot]; exact hb
    have hp' : (takeHead s (8 + k.val) cNOTE).holdup.ph = 0 := by rw [taken.holdup]; exact hp
    refine ⟨_, (exec_saveBegun hx hop).trans (congrArg Host.Outcome.next (powerFail_starts hb' hp' ..)),
      startSave_began (takeHead_flags h ..) (taken.mono (by decide)) .., ?_⟩
    exact (startSave_same ..).pins.trans taken.pins

/-- Before ready a power failure stops the boot, with nothing written (R46). -/
theorem failure_stops {s : State} (hb : s.boot.phase = .booting ∨ s.boot.phase = .holdRst) :
    (∀ ns, 200 ≤ ns → Gives (.pfail ns) s (fun t => t.boot.phase = .stopped ∧ t.boot.stop = 5 ∧ SameBut [.pins, .boot, .power, .holdup] s t)) ∧
    (∀ ns, 200 ≤ ns → Gives (.pwrgdDrop ns) s (fun t => t.boot.phase = .stopped ∧ t.boot.stop = 5 ∧ SameBut [.pins, .boot, .power, .holdup, .mgmt] s t)) := by
  refine ⟨fun ns hns => ?_, fun ns hns => ?_⟩
  · refine ⟨_, (exec_pfail_long hns).trans (congrArg Host.Outcome.next (powerFail_stops (s := pfailLow s) hb ..)), rfl, rfl, ?_⟩
    simp [pfailLow]
  · rcases pwrgdDrop_stops hns hb with e | e <;> refine ⟨_, congrArg Host.Outcome.next e, rfl, rfl, ?_⟩ <;> simp [pwrgdLow]

/-- A dip of less than 200 ns is only counted (R437, R613). -/
theorem dip_counted {s : State} (hb : s.boot.phase ≠ .off) {ns : Nat} (h : ns < 200) :
    exec (.pfail ns) s = .next (countStore s 11 1) ∧ exec (.pwrgdDrop ns) s = .next (countP s 1 1) :=
  ⟨congrArg Host.Outcome.next ((if_pos h).trans (if_neg hb)), congrArg Host.Outcome.next ((if_pos h).trans (if_neg hb))⟩

end Sys2Proof.Machine
end

section
open Sys2Proof Sys2Proof.Machine
namespace Sys2Proof.Machine

/-! ## The fence closes (R268, R438, R439) -/

/-- The fence has closed: the journal is sealed at its last JSN. -/
def fenceSealed (s : State) (early : Bool) : State :=
  { s with holdup := { s.holdup with ph := 2, early := early, sealJsn := s.journal.last }, journal := { s.journal with sealed := true } }

/-- A fence that closes seals the journal, and tells the ports. -/
theorem closeFence_closes {s : State} (h : s.holdup.ph = 1) (early : Bool) : SameBut [.ports] (fenceSealed s early) (closeFence s early) := by
  simp only [closeFence, h, if_true]
  exact SameBut.foldl (fun u p => by simp) _ _

theorem allFlushed_iff (s : State) : allFlushed s = true ↔ ∀ q < 8, (getPort s q).fenced = true → (getPort s q).flushed = true := by
  simp only [allFlushed, List.all_eq_true, List.mem_range, Bool.or_eq_true, Bool.not_eq_true']
  refine forall₂_congr fun q _ => ?_
  cases (getPort s q).fenced <;> simp

theorem bit_bset_set {n : Nat} {i : Nat} (h : i < n) (x : BitVec n) : bit i (bset i 1 x 1) = true := by
  simp [bit, bset, h]

/-- The state in which a FLUSHED of port p has been counted. -/
def flushCounted (s : State) (p : Nat) : State :=
  let u := modPort (takeHead s p cNOTE) p (fun y => { y with flushed := true })
  { u with holdup := { u.holdup with flushed := bset p 1 u.holdup.flushed 1 } }

section
variable {s : State} {p : Nat}

theorem flushCounted_same (s : State) (p : Nat) : SameBut [.ports, .tally, .holdup, .events, .free] s (flushCounted s p) := by
  simp [flushCounted]

theorem flushCounted_holdup (s : State) (p : Nat) :
    (flushCounted s p).holdup = { s.holdup with flushed := bset p 1 s.holdup.flushed 1 } := by
  have taken : SameBut [.ports, .tally, .events, .free] s (takeHead s p cNOTE) := by simp
  have holdup : (modPort (takeHead s p cNOTE) p (fun y => { y with flushed := true })).holdup = s.holdup := taken.holdup
  simp only [flushCounted, holdup]

theorem fenced_reads (h : (getPort s p).fenced = true) : PortReads s p :=
  .inr fun i g e => by
    have := (congrArg Port.fenced e).symm.trans h
    cases this

theorem flushCounted_ports (h : (getPort s p).fenced = true) :
    (getPort (flushCounted s p) p).flushed = true ∧ ∀ q, q ≠ p → getPort (flushCounted s p) q = getPort s q := by
  have taken := takeHead_taken (fenced_reads h) cNOTE
  obtain ⟨i, g, here⟩ := taken.here
  have on : { getPort (takeHead s p cNOTE) p with flushed := true } ≠ Port.reset := fun e => nomatch congrArg Port.flushed e
  refine ⟨?_, fun q hq => ?_⟩
  · exact congrArg Port.flushed (getPort_setPort_self (s := takeHead s p cNOTE) (p := p) on)
  · exact (getPort_setPort_other (s := takeHead s p cNOTE) on hq).trans (taken.others q hq)

/-- FLUSHED from a port with a fence counts, and closes the fence as the last one. -/
theorem flushedNote_counts {x : Slot} (hx : ingressHead s p cNOTE = some x) (hop : bn 8 8 x = 3) (hp : s.holdup.ph = 1)
    (hf : (getPort s p).fenced = true) :
    flushedNote s p = if allFlushed (flushCounted s p) then closeFence (flushCounted s p) true else flushCounted s p := by
  have taken : SameBut [.ports, .tally, .events, .free] s (takeHead s p cNOTE) := by simp
  obtain ⟨i, g, here⟩ := (takeHead_taken (fenced_reads hf) cNOTE).here
  have counts : (takeHead s p cNOTE).holdup.ph = 1 ∧ (getPort (takeHead s p cNOTE) p).fenced = true :=
    ⟨(congrArg HoldUp.ph taken.holdup).trans hp, (congrArg Port.fenced here).trans hf⟩
  simp only [flushedNote, hx]
  rw [if_neg (fun h => h hop), if_pos counts]
  rfl

/-- The last FLUSHED closes the fence early. -/
theorem flushed_last (hx : ∃ x, ingressHead s p cNOTE = some x ∧ bn 8 8 x = 3) (hp : s.holdup.ph = 1) (hf : (getPort s p).fenced = true)
    (hq : ∀ q < 8, q ≠ p → (getPort s q).fenced = true → (getPort s q).flushed = true) :
    SameBut [.ports] (fenceSealed (flushCounted s p) true) (flushedNote s p) := by
  obtain ⟨x, hx, hop⟩ := hx
  obtain ⟨here, others⟩ := flushCounted_ports hf
  have all : allFlushed (flushCounted s p) = true := by
    refine (allFlushed_iff _).2 fun q hq8 hfq => ?_
    by_cases e : q = p
    · rw [e]; exact here
    · rw [others q e] at hfq ⊢; exact hq q hq8 e hfq
  rw [flushedNote_counts hx hop hp hf, if_pos all]
  exact closeFence_closes (by rw [flushCounted_holdup]; exact hp) true

/-- While a fenced port has still to flush, the fence stays. -/
theorem flushed_waits (hx : ∃ x, ingressHead s p cNOTE = some x ∧ bn 8 8 x = 3) (hp : s.holdup.ph = 1) (hf : (getPort s p).fenced = true)
    {q : Nat} (hq : q < 8) (hqp : q ≠ p) (hfq : (getPort s q).fenced = true) (hw : (getPort s q).flushed = false) :
    flushedNote s p = flushCounted s p := by
  obtain ⟨x, hx, hop⟩ := hx
  obtain ⟨_, others⟩ := flushCounted_ports hf
  have some : ¬ allFlushed (flushCounted s p) = true := fun all => by
    have := (allFlushed_iff _).1 all q hq (by rw [others q hqp]; exact hfq)
    rw [others q hqp, hw] at this
    cases this
  rw [flushedNote_counts hx hop hp hf, if_neg some]

end

/-! ## The save is complete (R40, R46, R438, R444) -/

/-- A save under way, the fence closed and the journal sealed, may complete. -/
theorem saveComplete_goes {s : State} (hph : s.holdup.ph ≠ 1) (hruns : saveRuns s = true) (hsealed : s.journal.sealed = true) :
    ¬ (s.holdup.ph = 1 ∨ saveRuns s = false ∨ s.journal.sealed = false) := by
  rw [hruns, hsealed]
  rintro (h | h | h)
  · exact hph h
  · cases h
  · cases h

/-- A save whose store can take its superblock, that has sealed its journal, drained every frame, and written the superblock. -/
theorem saveComplete_saves {s s2 s3 : State} (hph : s.holdup.ph ≠ 1) (hruns : saveRuns s = true) (hsealed : s.journal.sealed = true)
    (hdown : storeDown s = false) (hdrained : undrained (drainAll s) = false) (hidle : storeIdle (drainAll s) = true)
    (h2 : s2 = drainAll (jPut (drainAll s) (.seal (drainAll s).clock.time))) (hdrained2 : undrained s2 = false)
    (h3 : writeSuper s2 (some s2.holdup.sealJsn) = some s3) : saveComplete s = afterSave (savedState s3) := by
  subst h2
  have done : ¬ (undrained (drainAll s) || !storeIdle (drainAll s)) = true := by simp [hdrained, hidle]
  rw [saveComplete, if_neg (saveComplete_goes hph hruns hsealed), if_neg (ne_true_of_eq_false hdown)]
  dsimp only
  rw [if_neg done, if_neg (ne_true_of_eq_false hdrained2)]
  simp only [h3]

/-- What the drain, the SEAL record and the superblock of a save leave unchanged. -/
theorem saved_same {s s2 s3 : State} (h2 : s2 = drainAll (jPut (drainAll s) (.seal (drainAll s).clock.time)))
    (h3 : writeSuper s2 (some s2.holdup.sealJsn) = some s3) : SameBut [.journal, .store, .mgmt] s s3 := by
  have drained : SameBut [.journal, .store, .mgmt] s s2 := by rw [h2]; simp
  exact (writeSuper_frame _ _ (by decide) drained).some_same s3 h3

/-- Nothing waits for the save: the die stays as the save left it. -/
theorem afterSave_rests {s : State} (hreboot : s.holdup.reboot = false) (hrecover : s.holdup.recover = false) (hrst : s.pins.rstN = true) :
    afterSave s = s := by
  unfold afterSave powerBack
  rw [hreboot, hrecover, hrst]
  cases s.therm.tripped <;> rfl

theorem domain_off (s : State) (i : Nat) : bit i (domain s i false).power.dom = false := by
  unfold domain
  split
  next h => exact h
  · show bit i (bset i 1 s.power.dom 0) = false
    rw [bit_bset]
    simp

/-- A completed save, as the commands after it find it: its phase, its power state, and the store domain off. -/
theorem savedState_fields (s : State) :
    (savedState s).holdup.ph = (if s.holdup.ph = 5 then 5 else 4) ∧ (savedState s).power.pstate = (if s.holdup.ph = 5 then 4 else 3) ∧
    bit 11 (savedState s).power.dom = false ∧ (savedState s).holdup.reboot = s.holdup.reboot ∧ (savedState s).holdup.recover = s.holdup.recover ∧
    (savedState s).pins = s.pins ∧ (savedState s).store = s.store := by
  have off : SameBut [.power, .mgmt] s (countStore (domain s 11 false) 10 1) := by simp
  have counted : SameBut [.mgmt] (domain s 11 false) (countStore (domain s 11 false) 10 1) := by simp
  have dom := domain_off s 11
  rw [← counted.power] at dom
  unfold savedState
  generalize countStore (domain s 11 false) 10 1 = u at off dom ⊢
  rw [← off.holdup]
  exact ⟨rfl, rfl, dom, rfl, rfl, off.pins, off.store⟩

/-- With a pair FAILED no save completes, and what waits in power's return goes on (R42, R46; log entry 130). -/
theorem saveComplete_down {s : State} (hph : s.holdup.ph ≠ 1) (hruns : saveRuns s = true) (hsealed : s.journal.sealed = true)
    (hdown : storeDown s = true) : saveComplete s = powerBack s := by
  rw [saveComplete, if_neg (saveComplete_goes hph hruns hsealed), if_pos hdown]

/-! ## The hold window ends (R442, R444) -/

theorem grants_ne_nil {x : Port} {c : Nat} {g : Grant} (h : g ≠ .reset) : setGrant x c g ≠ Port.reset := fun e => by
  have granted : sget .reset (setGrant x c g).grants c = g := sget_sput_self h x.grants c
  rw [e] at granted
  exact h granted.symm

/-- A credit that is freed leaves every port in its state. -/
theorem freeCredit_st (s : State) (p c q : Nat) : (getPort (freeCredit s p c 1) q).st = (getPort s q).st := by
  unfold freeCredit
  dsimp only
  split
  · exact congrArg Port.st (getPort_congr (refuseMove_same ..).ports q)
  · set g : Grant := { getGrant (getPort s p) c with queued := _, freed := _ } with hg
    have freed : setGrant (getPort s p) c g ≠ Port.reset := grants_ne_nil fun e => by
      have := congrArg Grant.freed e
      simp [hg, Grant.reset] at this
    by_cases e : q = p
    · rw [e, modPort, getPort_setPort_self freed]
      rfl
    · rw [modPort, getPort_setPort_other freed e]

theorem foldl_st {α : Type} {g : State → α → State} {q : Nat} (h : ∀ u a, (getPort (g u a) q).st = (getPort u q).st) (l : List α)
    (s : State) : (getPort (l.foldl g s) q).st = (getPort s q).st := by
  induction l generalizing s with
  | nil => rfl
  | cons a l ih => exact (ih (g s a)).trans (h s a)

/-- A cascade port whose domain is on loses what is outstanding on it; no port changes its state. -/
theorem cascadeDown_st {s : State} {p : Nat} (h : (getPort s p).st ≠ pOFF) (q : Nat) :
    (getPort (cascadeDown s p) q).st = (getPort s q).st := by
  unfold cascadeDown
  split
  · dsimp only
    set x : Port := { getPort s p with fwdTags := [], probeTags := [], relay := [] } with hx
    have cleared : (getPort (setPort s p x) q).st = (getPort s q).st := by
      have on : x ≠ Port.reset := port_ne_reset h
      by_cases e : q = p
      · rw [e, getPort_setPort_self on]
      · rw [getPort_setPort_other on e]
    generalize setPort s p x = s1 at cleared ⊢
    generalize hs2 : (getPort s p).fwdTags.foldl _ s1 = s2
    generalize hs3 : (getPort s p).probeTags.foldl _ s2 = s3
    have tokens : SameBut [.search] s1 s3 := by
      rw [← hs3, ← hs2]
      exact (SameBut.foldl (fun u e => by simp) _ s1).trans (SameBut.foldl (fun u e => by simp) _ _)
    refine (foldl_st (fun u m => ?_) _ s3).trans ?_
    · split
      · exact freeCredit_st ..
      · rfl
    · rw [getPort_congr tokens.ports, cleared]
  · rfl

/-- A port stops, unless its domain is off; the others stay as they are. -/
theorem stopPort_st (s : State) (p q : Nat) :
    (getPort (stopPort s p) q).st = if q = p ∧ (getPort s p).st ≠ pOFF then pDOWN else (getPort s q).st := by
  unfold stopPort
  split
  next off => rw [if_neg (fun h => h.2 off)]
  next on =>
    have down : { getPort (cascadeDown s p) p with st := pDOWN, hold := false } ≠ Port.reset := port_ne_reset (x := { getPort (cascadeDown s p) p with st := pDOWN, hold := false }) (show pDOWN ≠ pOFF by decide)
    by_cases e : q = p
    · rw [if_pos ⟨e, on⟩, e, modPort, getPort_setPort_self down]
    · rw [if_neg (fun h => e h.1), modPort, getPort_setPort_other down e, cascadeDown_st on]

/-- A port that carries nothing any more (R296). -/
def Stopped (s : State) (p : Nat) : Prop := (getPort s p).st = pOFF ∨ (getPort s p).st = pDOWN

theorem stopPort_keeps {s : State} {q : Nat} (h : Stopped s q) (p : Nat) : Stopped (stopPort s p) q := by
  unfold Stopped
  rw [stopPort_st]
  split
  · exact .inr rfl
  · exact h

theorem stopPort_stops (s : State) (p : Nat) : Stopped (stopPort s p) p := by
  unfold Stopped
  rw [stopPort_st]
  split
  · exact .inr rfl
  next h => exact .inl (Decidable.not_not.1 fun on => h ⟨rfl, on⟩)

theorem stopPorts_stop (l : List Nat) {s : State} {q : Nat} (h : q ∈ l ∨ Stopped s q) : Stopped (l.foldl stopPort s) q := by
  induction l generalizing s with
  | nil => exact h.resolve_left List.not_mem_nil
  | cons p l ih =>
    refine ih ?_
    rcases h with h | h
    · rcases List.mem_cons.1 h with e | h
      · exact .inr (by rw [e]; exact stopPort_stops s p)
      · exact .inl h
    · exact .inr (stopPort_keeps h p)

/-- The state at the end of the hold window, before what waits for power's return goes on (R442). -/
def holdEnded (s : State) : State :=
  let u := (List.range 11).foldl stopPort (answerAll s)
  { u with holdup := { u.holdup with ph := 5, incomplete := decide (s.holdup.ph = 1 ∨ s.holdup.ph = 2) && !storeDown s }, power := { u.power with pstate := 4 } }

theorem holdEnded_same (s : State) : SameBut [.search, .life, .ports, .tally, .events, .mgmt, .free, .holdup, .power] s (holdEnded s) := by
  unfold holdEnded
  simp

theorem holdEnded_stopped (s : State) {p : Nat} (hp : p < 11) : Stopped (holdEnded s) p := by
  have stopped := stopPorts_stop (List.range 11) (s := answerAll s) (.inl (List.mem_range.2 hp))
  unfold holdEnded
  generalize (List.range 11).foldl stopPort (answerAll s) = u at stopped ⊢
  exact stopped

theorem endHold_ends {s : State} (h0 : s.holdup.ph ≠ 0) (h5 : s.holdup.ph ≠ 5) :
    endHold s = if (!(holdEnded s).holdup.incomplete && s.pins.vhok) = true then powerBack (holdEnded s) else holdEnded s := by
  have pins : (holdEnded s).pins = s.pins := (holdEnded_same s).pins
  rw [← pins]
  exact if_neg (fun h => h.elim h0 h5)

/-- With VHOLD below its floor nothing goes on after the hold window (R618). -/
theorem endHold_low {s : State} (h0 : s.holdup.ph ≠ 0) (h5 : s.holdup.ph ≠ 5) (hv : s.pins.vhok = false) : endHold s = holdEnded s := by
  rw [endHold_ends h0 h5, if_neg (by rw [hv, Bool.and_false]; exact Bool.false_ne_true)]

end Sys2Proof.Machine

/-- Settles O35: what a save notes, seals and writes, and how its ports end. -/
theorem powerFailureRunsTheSave : Obligations.PowerFailureRunsTheSave := by
  unfold Obligations.PowerFailureRunsTheSave
  refine ⟨fun s => ⟨fun hb hp h => save_starts hb hp h, fun hb => failure_stops hb, fun hb ns h => dip_counted hb h⟩,
    fun s => ⟨fun hp => ?_, fun p x hx hop hp hf => ⟨fun hq => ?_, fun q hq8 hqp hfq hw => ?_⟩,
      fun s2 s3 hph hsealed hrst hidle hdown hreboot hrecover hdrained h2 hdrained2 h3 => ?_,
      fun hph hruns hsealed hdown => congrArg Host.Outcome.next (saveComplete_down hph hruns hsealed hdown), fun h0 h5 => ⟨⟨holdEnded s, ?_, rfl, rfl, rfl, fun p hp => holdEnded_stopped s hp⟩, ?_⟩⟩⟩
  · have closed := closeFence_closes hp false
    have sealed : SameBut [.holdup, .journal] s (fenceSealed s false) := by simp [fenceSealed]
    exact ⟨_, rfl, congrArg HoldUp.ph closed.holdup, congrArg HoldUp.sealJsn closed.holdup, closed.journal, (sealed.mono (by decide)).trans (closed.mono (by decide))⟩
  · have closed := flushed_last ⟨x, hx, hop⟩ hp hf hq
    have journal := (flushCounted_same s p.val).journal
    exact ⟨_, rfl, congrArg HoldUp.ph closed.holdup, congrArg HoldUp.early closed.holdup,
      (congrArg HoldUp.sealJsn closed.holdup).trans (congrArg Journal.last journal), congrArg Journal.sealed closed.journal⟩
  · have waits := flushed_waits ⟨x, hx, hop⟩ hp hf hq8 hqp hfq hw
    refine ⟨flushCounted s p.val, congrArg Host.Outcome.next waits, ?_, ?_, (flushCounted_same s p.val).journal⟩
    · rw [flushCounted_holdup]; exact hp
    · rw [flushCounted_holdup]; exact bit_bset_set p.isLt s.holdup.flushed
  · have ph : s.holdup.ph ≠ 1 := by rcases hph with e | ⟨e, _, _⟩ <;> rw [e] <;> decide
    have runs : saveRuns s = true := by
      rcases hph with e | ⟨e, i, v⟩
      · simp [saveRuns, e]
      · simp [saveRuns, e, i, v]
    have same := saved_same h2 h3
    obtain ⟨phase, pstate, dom, reboot, recover, pins, store⟩ := savedState_fields s3
    rw [same.holdup] at phase pstate reboot recover
    rw [same.pins] at pins
    have rests : afterSave (savedState s3) = savedState s3 :=
      afterSave_rests (reboot.trans hreboot) (recover.trans hrecover) ((congrArg Pins.rstN pins).trans hrst)
    have saves := saveComplete_saves ph runs hsealed hdown hdrained hidle h2 hdrained2 h3
    exact ⟨savedState s3, congrArg Host.Outcome.next (saves.trans rests), rfl, phase, pstate, dom, store⟩
  · refine congrArg Host.Outcome.next ((endHold_ends h0 h5).trans (if_congr ?_ rfl rfl))
    simp
  · have low : endHold { s with pins := { s.pins with vhok := false } } = holdEnded { s with pins := { s.pins with vhok := false } } :=
      endHold_low (s := { s with pins := { s.pins with vhok := false } }) h0 h5 rfl
    exact ⟨_, congrArg Host.Outcome.next low, congrArg Pins.vhok (holdEnded_same _).pins, rfl, fun p hp => holdEnded_stopped _ hp⟩

end

section
open Sys2Proof Sys2Proof.Machine
namespace Sys2Proof.Machine

/-! ## The identity of the booted image (R513) -/

/-- From s to t the boot slot and the image version have not changed. -/
structure ImageKept (s t : State) : Prop where
  slot : t.boot.slot = s.boot.slot
  imgver : t.boot.imgver = s.boot.imgver

theorem ImageKept.of_boot {s t : State} (h : t.boot = s.boot) : ImageKept s t := ⟨by rw [h], by rw [h]⟩

theorem ImageKept.of_same {ps : List Part} {s t : State} (h : SameBut ps s t) (hb : Part.boot ∉ ps := by decide) : ImageKept s t :=
  .of_boot (h.boot hb)

theorem ImageKept.refl (s : State) : ImageKept s s := ⟨rfl, rfl⟩

theorem ImageKept.trans {s t u : State} (h : ImageKept s t) (k : ImageKept t u) : ImageKept s u :=
  ⟨k.slot.trans h.slot, k.imgver.trans h.imgver⟩

theorem ImageKept.foldl {α : Type} {g : State → α → State} (h : ∀ u a, ImageKept u (g u a)) (l : List α) (s : State) :
    ImageKept s (l.foldl g s) := by
  induction l generalizing s with
  | nil => exact .refl s
  | cons a l ih => exact (h s a).trans (ih (g s a))

/-- A replayed record changes no more of the boot than the structure version (R506). -/
theorem applyRec_image (s : State) (r : JRec) : ImageKept s (applyRec s r) := by
  cases r with
  | live sec off ver d =>
    have applied : SameBut [.str, .tcam, .marker, .sram, .search, .crew, .events] s (applyLive s sec off d) := by simp
    unfold applyRec
    dsimp only
    split
    · exact (ImageKept.of_same applied).trans ⟨rfl, rfl⟩
    · exact .of_same applied
  | _ => exact .of_same (ps := [.tcam, .sram, .life, .integ, .events, .mgmt, .free]) (by simp [applyRec])

theorem replay_image (s : State) (gs : List (Word × List JRec)) : ImageKept s (replay s gs) := by
  refine .foldl (fun u g => ?_) gs s
  have applied : ImageKept u (applyGroup u g.2) := .foldl applyRec_image _ u
  exact applied.trans (.of_same (ps := [.mgmt]) (by simp))

theorem writeStruct_image (s : State) (c : Ckpt) (same : Bool) : ImageKept s (writeStruct s c same) := by
  unfold writeStruct
  dsimp only
  split <;> exact ⟨rfl, rfl⟩

theorem writeCkpt_image (s : State) (c : Ckpt) (same : Bool) : ImageKept s (writeCkpt s c same) := by
  have struct : ImageKept s (if c.hasStruct then writeStruct s c same else s) := by
    split
    · exact writeStruct_image ..
    · exact .refl s
  unfold writeCkpt
  dsimp only
  generalize (if c.hasStruct then writeStruct s c same else s) = u at struct ⊢
  exact struct.trans (.of_same (ps := [.tcam, .sram]) (by simp))

theorem durability_ph (s : State) (b : Superblock) (hole : Bool) (last : Word) : (durability s b hole last).holdup.ph = s.holdup.ph := by
  unfold durability
  extract_lets running short n cause
  split
  · rfl
  · exact (congrArg HoldUp.ph (event_same ..).holdup).trans rfl

/-- A restore keeps the identity of the booted image, and the phase of a save (R445, R506). -/
theorem restore_keeps (s : State) (b : Superblock) (same : Bool) (wins inits : List ImgRec) :
    ImageKept s (restore s b same wins inits) ∧ (restore s b same wins inits).holdup.ph = s.holdup.ph := by
  unfold restore
  extract_lets es store cleared written poisoned all gs replayed holes last bytes journal marked rebuilt t clock timed lost done store' holdup
  have hcleared : SameBut [.tcam, .sram, .store] s cleared := by simp [cleared]
  clear_value cleared
  have hwritten : ImageKept cleared written ∧ written.holdup = cleared.holdup := by
    simp only [written]
    split
    · exact ⟨writeCkpt_image .., SameBut.holdup ((writeCkpt_frame (ps := [.boot, .str, .tcam, .marker, .sram, .search, .life, .crew, .events]) _ _ _ (by decide)).2 (.refl _ _))⟩
    · have init : SameBut [.tcam, .sram, .integ, .events, .mgmt, .free] cleared (loadInit cleared inits) := by simp
      exact ⟨.of_same init, init.holdup⟩
  clear_value written
  have hpoisoned : SameBut [.sram, .events, .mgmt, .free] written poisoned := by
    simp only [poisoned]
    split <;> simp
  clear_value poisoned
  have hreplayed : ImageKept poisoned replayed ∧ replayed.holdup = poisoned.holdup := by
    have image := replay_image poisoned gs
    have same : SameBut [.boot, .str, .tcam, .marker, .sram, .search, .life, .integ, .crew, .events, .mgmt, .free] poisoned (replay poisoned gs) := by simp
    have rest : SameBut [.tcam, .sram, .integ, .events, .mgmt, .free] (replay poisoned gs) replayed := by simp [replayed]
    exact ⟨image.trans (.of_same rest), rest.holdup.trans same.holdup⟩
  clear_value replayed
  have hholes : SameBut [.sram, .events, .mgmt, .free] replayed holes := SameBut.foldl (fun u e => by split <;> simp) es replayed
  clear_value holes
  have hrebuilt : SameBut [.journal, .marker, .sram, .search, .update, .life, .events, .free] holes rebuilt := by simp [rebuilt, marked]
  clear_value rebuilt
  have htimed : SameBut [.clock, .life, .mgmt] rebuilt (countReads timed b.rfjsn) := by simp [timed]
  have hdone : SameBut [.holdup, .events, .free] (countReads timed b.rfjsn) done ∧ done.holdup.ph = (countReads timed b.rfjsn).holdup.ph :=
    ⟨by simp [done], durability_ph ..⟩
  generalize countReads timed b.rfjsn = read at htimed hdone
  clear_value done
  obtain ⟨imageWritten, holdupWritten⟩ := hwritten
  obtain ⟨imageReplayed, holdupReplayed⟩ := hreplayed
  obtain ⟨sameDone, phDone⟩ := hdone
  have image : ImageKept s done := (ImageKept.of_same hcleared).trans <| imageWritten.trans <| (ImageKept.of_same hpoisoned).trans <|
    imageReplayed.trans <| (ImageKept.of_same hholes).trans <| (ImageKept.of_same hrebuilt).trans <| (ImageKept.of_same htimed).trans (.of_same sameDone)
  have phase : done.holdup.ph = s.holdup.ph := by
    rw [phDone, htimed.holdup, hrebuilt.holdup, hholes.holdup, holdupReplayed, hpoisoned.holdup, holdupWritten, hcleared.holdup]
  exact ⟨image.trans ⟨rfl, rfl⟩, phase⟩

/-- The first boot keeps the identity of the booted image (R495). -/
theorem firstBoot_image (s : State) (wins inits : List ImgRec) : ImageKept s (firstBoot s wins inits) := by
  unfold firstBoot
  extract_lets loaded rebuilt clock boot holdup mgmt booted
  have hrebuilt : SameBut [.tcam, .marker, .sram, .search, .store, .integ, .events, .mgmt, .free] s rebuilt := by simp [rebuilt, loaded]
  have hbooted : ImageKept rebuilt booted := ⟨rfl, rfl⟩
  clear_value booted
  have written : SameBut [.store] booted ((writeSuper booted none).getD booted) :=
    SameBut.getD (writeSuper_frame _ _ (by decide) (.refl _ _)) (.refl _ _)
  exact (ImageKept.of_same hrebuilt).trans (hbooted.trans (.of_same written))

/-! ## Ready (R44 step 9) -/

/-- The state that is ready, before the superblock, the checkpoint and the crew are seen to. -/
def readied (s : State) : State :=
  { s with boot := { s.boot with phase := .ready, step := 9, stop := 0 }, power := { s.power with pstate := 1 },
           clock := { s.clock with advanced := 0 }, crew := { s.crew with restoredAt := now s, timedOut := false } }

/-- Ready is noted, and then only the ports, the store, the thermal part and the events change. -/
theorem enterReady_same (s : State) : SameBut [.ports, .store, .therm, .events, .free] (readied s) (enterReady s) := by
  have super : SameBut [.store] (readied s) ((writeSuper (readied s) none).getD (readied s)) :=
    SameBut.getD (writeSuper_frame _ _ (by decide) (.refl _ _)) (.refl _ _)
  have rest : ∀ u : State, SameBut [.ports, .store, .therm, .events, .free] u (tryReadyAll (sendCrewReady (mediaGroups (beginCkpt u)))) := fun u => by simp
  exact (super.mono (by decide)).trans (rest _)

/-- A device that is ready. -/
structure IsReady (t : State) : Prop where
  phase : t.boot.phase = .ready
  step : t.boot.step = 9
  pstate : t.power.pstate = 1

theorem enterReady_ready (s : State) : IsReady (enterReady s) :=
  ⟨congrArg Boot.phase (enterReady_same s).boot, congrArg Boot.step (enterReady_same s).boot, congrArg Power.pstate (enterReady_same s).power⟩

theorem enterReady_image (s : State) : ImageKept s (enterReady s) :=
  ImageKept.trans (t := readied s) ⟨rfl, rfl⟩ (.of_same (enterReady_same s))

/-- What follows the restore or the first boot, to ready and its fuses (R44, R488, R489). -/
def bootEnd (s : State) (img : List Byte) : State := bootTimes (blowFuses (enterReady (rebalAfter (stepDone_ s 8) true)) img)

theorem bootEnd_ready (s : State) (img : List Byte) : IsReady (bootEnd s img) ∧ ImageKept s (bootEnd s img) := by
  have after : SameBut [.tcam, .marker, .sram, .search, .update, .life, .ports, .tally, .journal, .integ, .crew, .events, .mgmt, .free]
      (stepDone_ s 8) (rebalAfter (stepDone_ s 8) true) := by simp
  have image : ImageKept s (rebalAfter (stepDone_ s 8) true) := ImageKept.trans (t := stepDone_ s 8) ⟨rfl, rfl⟩ (.of_same after)
  unfold bootEnd
  generalize rebalAfter (stepDone_ s 8) true = u at image ⊢
  have ready := enterReady_ready u
  have kept := image.trans (enterReady_image u)
  generalize enterReady u = v at ready kept ⊢
  exact ⟨⟨ready.phase, ready.step, ready.pstate⟩, kept.trans ⟨rfl, rfl⟩⟩

end Sys2Proof.Machine
end

section
open Sys2Proof Sys2Proof.Machine
namespace Sys2Proof.Machine

/-! ## Steps 5 to 9 of a boot (R44, R491 to R496) -/

/-- With a store that reads, or is new, the boot ends in ready, with the image that was booted. -/
theorem bootStore_ready {s b : State} (ss : List Sect) (img : List Byte) (hb : b = replaceDies s) (hdown : storeDown b = false)
    (hnew : newestSuper b = none → b.fuses.initDone = false ∨ b.store.blank = true) :
    IsReady (bootStore s ss img) ∧ ImageKept s (bootStore s ss img) := by
  have image : ImageKept s b := by rw [hb]; exact .of_same (ps := [.store, .events, .free]) (by simp)
  unfold bootStore
  extract_lets u wins inits go
  have hu : u = b := hb.symm
  clear_value u
  subst hu
  rw [if_neg (ne_true_of_eq_false hdown)]
  have ends : ∀ v, ImageKept u v → IsReady (go v) ∧ ImageKept s (go v) := fun v kept =>
    ⟨(bootEnd_ready v img).1, image.trans (kept.trans (bootEnd_ready v img).2)⟩
  clear_value go
  split
  next sb _ =>
    have counters : ImageKept u (keptCounters u) := .of_same (ps := [.mgmt]) (by simp)
    have restored := (restore_keeps (keptCounters u) sb (sameImage u) wins inits).1
    exact ends _ (counters.trans (restored.trans (.of_same (ps := [.tcam]) (by simp))))
  next none =>
    have fresh : ¬ (u.fuses.initDone && !u.store.blank) = true := by rcases hnew none with e | e <;> simp [e]
    rw [if_neg fresh]
    exact ends _ (firstBoot_image u wins inits)

/-- Step 7 leaves the identity of the image that steps 5 to 7 have booted. -/
theorem throughStep7_image (slot : Nat) (c : State) (img : List Byte) :
    (throughStep7 slot c img).boot.slot = BitVec.ofNat 1 slot ∧ (throughStep7 slot c img).boot.imgver = BitVec.ofNat 16 (imgVer img) := by
  have ports : SameBut [.power, .ports, .therm, .mgmt, .free] (bootedImage (stepDone_ c 5) slot img)
      (bootPorts (bootedImage (stepDone_ c 5) slot img) (sections img)) := by simp
  have kept : ImageKept (bootedImage (stepDone_ c 5) slot img) (throughStep7 slot c img) := by
    unfold throughStep7 step7
    extract_lets ss
    generalize bootPorts (bootedImage (stepDone_ c 5) slot img) ss = u at ports
    have windows : SameBut [.tcam, .sram, .integ, .events, .mgmt, .free] (stepDone_ u 6) (loadWindows (clearTables (stepDone_ u 6)) (sectRecs (stepDone_ u 6) ss 11)) := by simp
    generalize loadWindows (clearTables (stepDone_ u 6)) (sectRecs (stepDone_ u 6) ss 11) = v at windows
    have prot : SameBut [.prot] v (protect v ss) := by unfold protect; split <;> simp
    generalize protect v ss = w at prot
    exact (ImageKept.of_same ports).trans <| ImageKept.trans (t := stepDone_ u 6) ⟨rfl, rfl⟩ <| (ImageKept.of_same windows).trans <|
      (ImageKept.of_same prot).trans ⟨rfl, rfl⟩
  exact ⟨kept.slot, kept.imgver⟩

/-- A boot from step 5 with an image that R491 accepts, and a store that reads or is new. -/
theorem bootFrom5_ready {s s6 c b : State} {slot : Nat} {img : List Byte}
    (hc : chooseImage (tryImages s) (candidates (tryImages s)) = (s6, some (slot, c, img))) (hb : b = replaceDies (throughStep7 slot c img))
    (hdown : storeDown b = false) (hnew : newestSuper b = none → b.fuses.initDone = false ∨ b.store.blank = true) :
    IsReady (bootFrom5 s) ∧ (bootFrom5 s).boot.slot = BitVec.ofNat 1 slot ∧ (bootFrom5 s).boot.imgver = BitVec.ofNat 16 (imgVer img) := by
  have boots : bootFrom5 s = bootStore (throughStep7 slot c img) (sections img) img := by
    simp only [bootFrom5, hc]
  obtain ⟨ready, kept⟩ := bootStore_ready (sections img) img hb hdown hnew
  obtain ⟨hslot, himgver⟩ := throughStep7_image slot c img
  rw [boots]
  exact ⟨ready, kept.slot.trans hslot, kept.imgver.trans himgver⟩

/-! ## No image (R491, R494) -/

/-- The candidates are those of the boot store, whatever else there is. -/
theorem candidates_congr {s t : State} (h : t.flash = s.flash) : candidates t = candidates s := by
  have bytes : flashBytes t = flashBytes s := by
    funext off len
    unfold flashBytes
    rw [h]
  unfold candidates
  rw [bytes]

/-- The state in which step 5 begins, before the headers are read. -/
def step5Begun (s : State) : State :=
  { s with boot := { s.boot with phase := .booting, step := 4, rejA := 0, rejB := 0, stop := 0 }, power := { s.power with pstate := 0 } }

theorem tryImages_none {s : State} (h : candidates s = []) : tryImages s = reject (reject (step5Begun s) 0 1) 1 1 := by
  have none : candidates (step5Begun s) = [] := (candidates_congr (t := step5Begun s) rfl).trans h
  show rejectHeaders (step5Begun s) = _
  rw [rejectHeaders, none]
  rfl

/-- When neither slot has a valid header the boot stops, and says so of both (R491, R494). -/
theorem bootFrom5_none {s : State} (h : candidates s = []) : bootFrom5 s = stopBoot (reject (reject (step5Begun s) 0 1) 1 1) 1 := by
  have none : candidates (reject (reject (step5Begun s) 0 1) 1 1) = [] := (candidates_congr (t := reject (reject (step5Begun s) 0 1) 1 1) rfl).trans h
  unfold bootFrom5
  rw [tryImages_none h]
  dsimp only
  rw [none]
  rfl

/-! ## Steps 1 to 4 (R38, R44, R329, R615) -/

theorem domains_straps (is : List Nat) (s : State) : (domains s is).power.crewSz = s.power.crewSz ∧ (domains s is).power.crewRk = s.power.crewRk := by
  have one : ∀ (u : State) (i : Nat), (domain u i true).power.crewSz = u.power.crewSz ∧ (domain u i true).power.crewRk = u.power.crewRk := fun u i => by
    unfold domain
    split <;> exact ⟨rfl, rfl⟩
  induction is generalizing s with
  | nil => exact ⟨rfl, rfl⟩
  | cons i is ih =>
    obtain ⟨sz, rk⟩ := one s i
    obtain ⟨sz', rk'⟩ := ih (domain s i true)
    exact ⟨sz'.trans sz, rk'.trans rk⟩

theorem refclkLost_clock (s : State) : (refclkLost s).clock.running = s.clock.running ∧ (refclkLost s).clock.time = s.clock.time := by
  unfold refclkLost
  split
  · exact ⟨rfl, rfl⟩
  · have told := event_same { s with clock := { s.clock with ring := true } } [qFW, qSB] 0xE004 0 0
    exact ⟨(congrArg Clock.running told.clock).trans rfl, (congrArg Clock.time told.clock).trans rfl⟩

/-- Steps 1 to 3 keep the straps and the time, and end as step 3. -/
theorem throughStep3_keeps (s : State) : (throughStep3 s).boot.step = 3 ∧
    (throughStep3 s).clock.running = s.clock.running ∧ (throughStep3 s).clock.time = s.clock.time ∧
    (throughStep3 s).power.crewSz = s.power.crewSz ∧ (throughStep3 s).power.crewRk = s.power.crewRk := by
  unfold throughStep3
  extract_lets mapped clocked
  have hmapped : SameBut [.sram, .tcam] s mapped := by simp [mapped]
  clear_value mapped
  have hclocked : (clocked.clock.running = mapped.clock.running ∧ clocked.clock.time = mapped.clock.time) ∧ clocked.power = mapped.power := by
    simp only [clocked]
    split
    · exact ⟨⟨rfl, rfl⟩, rfl⟩
    · exact ⟨refclkLost_clock mapped, SameBut.power ((refclkLost_frame (ps := [.clock, .events, .free]) mapped (by decide)).2 (.refl _ _))⟩
  clear_value clocked
  obtain ⟨⟨running, time⟩, power⟩ := hclocked
  obtain ⟨sz, rk⟩ := domains_straps [22, 20, 21, 12, 13, 14, 15, 16, 17, 18, 19, 11] (stepDone_ clocked 1)
  have on : SameBut [.power, .mgmt] (stepDone_ clocked 1) (domains (stepDone_ clocked 1) [22, 20, 21, 12, 13, 14, 15, 16, 17, 18, 19, 11]) := by simp
  generalize domains (stepDone_ clocked 1) [22, 20, 21, 12, 13, 14, 15, 16, 17, 18, 19, 11] = u at sz rk on
  refine ⟨rfl, ?_, ?_, ?_, ?_⟩
  · exact ((congrArg Clock.running on.clock).trans running).trans (congrArg Clock.running hmapped.clock)
  · exact ((congrArg Clock.time on.clock).trans time).trans (congrArg Clock.time hmapped.clock)
  · exact (sz.trans (congrArg Power.crewSz power)).trans (congrArg Power.crewSz hmapped.power)
  · exact (rk.trans (congrArg Power.crewRk power)).trans (congrArg Power.crewRk hmapped.power)

/-- The die at the start of step 1, its debug policy reset (R30, R44). -/
def coldStart (s : State) (e : BootEnv) : State := resetDebug (coldState s e)

theorem coldStart_same (s : State) (e : BootEnv) : SameBut [.dbg, .free] (coldState s e) (coldStart s e) := by simp [coldStart]

theorem coldStart_granted (s : State) (e : BootEnv) : (coldStart s e).dbg.granted = false := rfl

theorem strapsBad_coldStart (s : State) (e : BootEnv) :
    strapsBad (coldStart s e) = true ↔ s.pins.crewSz = 2 ∨ s.pins.crewSz.toNat < s.pins.crewRk.toNat := by
  unfold strapsBad
  rw [(coldStart_same s e).power, Bool.or_eq_true, decide_eq_true_iff, decide_eq_true_iff]
  rfl

/-- Step 3 of a cold boot from s. -/
def coldStep3 (s : State) (e : BootEnv) : State := throughStep3 (coldStart s e)

theorem coldStep3_same (s : State) (e : BootEnv) :
    SameBut [.clock, .power, .boot, .tcam, .sram, .events, .mgmt, .dbg, .free] (coldState s e) (coldStep3 s e) := by
  have three : SameBut [.clock, .power, .boot, .tcam, .sram, .events, .mgmt, .free] (coldStart s e) (coldStep3 s e) := by simp [coldStep3]
  exact ((coldStart_same s e).mono (by decide)).trans (three.mono (by decide))

section
variable {s : State} {e : BootEnv}

theorem coldBoot_bad (h : s.pins.crewSz = 2 ∨ s.pins.crewSz.toNat < s.pins.crewRk.toNat) :
    coldBoot s e = stopBoot (event (coldStart s e) [qSB] 0xF007 0 1) 4 := if_pos ((strapsBad_coldStart s e).2 h)

/-- With straps that R329 admits the cold boot comes through step 3. -/
theorem coldBoot_step3 (h2 : s.pins.crewSz ≠ 2) (hr : s.pins.crewRk.toNat ≤ s.pins.crewSz.toNat) :
    coldBoot s e = if s.pins.pfailN = false then stopBoot (coldStep3 s e) 5
      else if s.pins.rstN = false then { coldStep3 s e with boot := { (coldStep3 s e).boot with phase := .holdRst } }
      else bootFrom4 (coldStep3 s e) := by
  have good : ¬ strapsBad (coldStart s e) = true := fun h => ((strapsBad_coldStart s e).1 h).elim h2 (Nat.not_lt.2 hr)
  have pins : (coldStep3 s e).pins = s.pins := (coldStep3_same s e).pins
  unfold coldBoot
  extract_lets start three
  refine (if_neg good).trans (if_congr ?_ rfl (if_congr ?_ rfl rfl))
  · show (!(coldStep3 s e).pins.pfailN) = true ↔ _
    rw [pins, Bool.not_eq_true']
  · show (!(coldStep3 s e).pins.rstN) = true ↔ _
    rw [pins, Bool.not_eq_true']

end

end Sys2Proof.Machine
end

section
open Sys2Proof Sys2Proof.Machine
namespace Sys2Proof.Machine

/-! ## Warm reset (R449 to R451, R615) -/

theorem warmClear_ph (s : State) : (warmClear s).holdup.ph = 0 := by
  unfold warmClear
  extract_lets u sram tcam integ tally str events waitos therm arbs crew journal store holdup v
  have reset : SameBut [.dbg, .free] v (resetDebug v) := by simp
  exact congrArg HoldUp.ph reset.holdup

theorem reload_ph (s : State) (b : Superblock) : (reload s b).holdup.ph = s.holdup.ph := by
  unfold reload
  extract_lets img ss clk tcam sram emptied loaded back timed
  have hloaded : SameBut [.sram, .str, .tcam, .marker, .search, .events] s loaded := by simp [loaded, emptied]
  clear_value loaded
  have restored : back.holdup.ph = loaded.holdup.ph := (restore_keeps ..).2
  clear_value back
  have htimed : SameBut [.clock, .life] back timed := by simp [timed]
  clear_value timed
  have drawn : SameBut [.free] timed (fresh timed).2 := by simp
  generalize fresh timed = x at drawn ⊢
  obtain ⟨w, u⟩ := x
  have cloned : ∀ v, SameBut [.tcam] v (clonesOn v) := fun v => by simp
  have phase : u.holdup.ph = s.holdup.ph := by rw [drawn.holdup, htimed.holdup, restored, hloaded.holdup]
  dsimp only
  rw [(cloned _).holdup]
  exact phase

/-- The tables of a warm reset, kept or restored, leave the phase of a save alone. -/
theorem warmTables_ph (s : State) : (warmTables s).holdup.ph = s.holdup.ph := by
  unfold warmTables
  split
  · rfl
  · split
    · have kept : SameBut [.boot, .str, .tcam, .marker, .sram, .search, .life, .integ, .crew, .events, .mgmt, .free] s (lifeRestore (rebuildDir s)) := by simp
      exact congrArg HoldUp.ph kept.holdup
    · exact reload_ph ..

/-- A warm reset ends a save, and says that it was one (R451, R453). -/
theorem warmStart_holdup (s : State) : (warmStart s).holdup.ph = 0 ∧ (warmStart s).holdup.warm = true := by
  unfold warmStart
  extract_lets on quiet rebuilt
  have cleared := (warmTables_ph (warmClear quiet)).trans (warmClear_ph quiet)
  have hrebuilt : SameBut [.tcam, .sram, .search, .marker] (warmTables (warmClear quiet)) rebuilt := by simp [rebuilt]
  clear_value rebuilt quiet
  exact ⟨(congrArg HoldUp.ph hrebuilt.holdup).trans cleared, rfl⟩

theorem warmStart_pins (s : State) : (warmStart s).pins = s.pins :=
  SameBut.pins ((warmStart_frame (ps := [.clock, .power, .boot, .dbg, .str, .tcam, .marker, .sram, .search, .update, .life, .ports, .arbs, .tally, .journal, .store, .holdup, .therm, .integ, .waitos, .crew, .events, .mgmt, .free]) s (by decide)).2 (.refl _ _))

/-- A warm reset that RST_N holds, before a power failure that has not ended is seen to (R615). -/
def resetHolds (s : State) : State :=
  let s := heldPorts (warmStart s) true
  { s with boot := { s.boot with phase := .resetHeld } }

theorem resetHolds_fields (s : State) : (resetHolds s).boot.phase = .resetHeld ∧ (resetHolds s).pins = s.pins ∧
    (resetHolds s).holdup.ph = 0 ∧ (resetHolds s).holdup.warm = true := by
  obtain ⟨ph, warm⟩ := warmStart_holdup s
  have pins := warmStart_pins s
  unfold resetHolds
  generalize warmStart s = u at ph warm pins
  have held : SameBut [.ports] u (heldPorts u true) := by simp
  generalize heldPorts u true = v at held
  exact ⟨rfl, held.pins.trans pins, (congrArg HoldUp.ph held.holdup).trans ph, (congrArg HoldUp.warm held.holdup).trans warm⟩

theorem heldReset_eq (s : State) :
    heldReset s = if (resetHolds s).pins.pfailN && (resetHolds s).pins.pwrgd then resetHolds s else startSave (resetHolds s) (!(resetHolds s).pins.pwrgd) false := rfl

/-- A held reset, whether or not it starts a save again (R46, R615). -/
theorem heldReset_fields (s : State) :
    (heldReset s).boot.phase = .resetHeld ∧ (heldReset s).pins = s.pins ∧ (heldReset s).holdup.warm = true := by
  obtain ⟨phase, pins, _, warm⟩ := resetHolds_fields s
  rw [heldReset_eq]
  generalize resetHolds s = r at phase pins warm
  split
  · exact ⟨phase, pins, warm⟩
  · have began := startSave_same r (!r.pins.pwrgd) false
    generalize startSave r (!r.pins.pwrgd) false = t at began
    exact ⟨(congrArg Boot.phase began.boot).trans phase, began.pins.trans pins, (congrArg HoldUp.warm began.holdup).trans warm⟩

/-- With power good no save begins in a held reset. -/
theorem heldReset_quiet {s : State} (hf : s.pins.pfailN = true) (hg : s.pins.pwrgd = true) : heldReset s = resetHolds s := by
  have pins := (resetHolds_fields s).2.1
  rw [heldReset_eq, if_pos (by rw [pins, hf, hg]; rfl)]

/-- A warm reset that nothing holds reaches ready. -/
theorem warmReset_ready (s : State) (crew : Bool) : IsReady (warmReset s crew) ∧ (warmReset s crew).holdup.ph = 0 ∧ (warmReset s crew).holdup.warm = true := by
  obtain ⟨ph, warm⟩ := warmStart_holdup s
  unfold warmReset
  generalize warmStart s = u at ph warm
  have after : SameBut [.tcam, .marker, .sram, .search, .update, .life, .ports, .tally, .journal, .integ, .crew, .events, .mgmt, .free] u (rebalAfter u crew) := by simp
  generalize rebalAfter u crew = v at after
  have holdup : (enterReady v).holdup = u.holdup := (enterReady_same v).holdup.trans after.holdup
  exact ⟨enterReady_ready v, by rw [holdup]; exact ph, by rw [holdup]; exact warm⟩

/-! ## Power returns (R46) -/

/-- PFAIL_N is high, with VHOLD recovered. -/
def pfailHigh (s : State) : State := { s with pins := { s.pins with pfailN := true, vhok := true } }

theorem pfailRise_under {s : State} (hg : s.pins.pwrgd = true) (h0 : s.holdup.ph ≠ 0) :
    pfailRise s true = if saveRuns (pfailHigh s) && !storeDown s then { pfailHigh s with holdup := { s.holdup with recover := true } }
      else if s.therm.tripped then pfailHigh s else resetOf (pfailHigh s) := by
  have goes : ¬ ((pfailHigh s).holdup.ph = 0 ∨ true = false ∨ (pfailHigh s).pins.pwrgd = false) := by
    rintro (h | h | h)
    · exact h0 h
    · cases h
    · exact Bool.false_ne_true (h.symm.trans hg)
  exact if_neg goes

/-- While a save can complete, the warm reset waits for it. -/
theorem pfailRise_waits {s : State} (hg : s.pins.pwrgd = true) (hph : s.holdup.ph = 1 ∨ s.holdup.ph = 2 ∨ (s.holdup.ph = 5 ∧ s.holdup.incomplete = true))
    (hd : storeDown s = false) : pfailRise s true = { pfailHigh s with holdup := { s.holdup with recover := true } } := by
  have h0 : s.holdup.ph ≠ 0 := by rcases hph with e | e | ⟨e, _⟩ <;> rw [e] <;> decide
  have runs : saveRuns (pfailHigh s) = true := by rcases hph with e | e | ⟨e, i⟩ <;> simp [saveRuns, pfailHigh, *]
  rw [pfailRise_under hg h0, if_pos (by rw [runs, hd]; rfl)]

/-- A save that has ended, or never can, leaves the warm reset to follow at once. -/
theorem pfailRise_resets {s : State} (hg : s.pins.pwrgd = true)
    (hph : s.holdup.ph = 4 ∨ (s.holdup.ph = 5 ∧ s.holdup.incomplete = false) ∨ (s.holdup.ph ≠ 0 ∧ storeDown s = true))
    (ht : s.therm.tripped = false) : pfailRise s true = resetOf (pfailHigh s) := by
  have h0 : s.holdup.ph ≠ 0 := by
    rcases hph with e | ⟨e, _⟩ | ⟨e, _⟩
    · rw [e]; decide
    · rw [e]; decide
    · exact e
  have ended : (saveRuns (pfailHigh s) && !storeDown s) = false := by
    rcases hph with e | ⟨e, i⟩ | ⟨_, d⟩
    · simp [saveRuns, pfailHigh, e]
    · simp [saveRuns, pfailHigh, e, i]
    · rw [d]; exact Bool.and_false _
  rw [pfailRise_under hg h0, if_neg (ne_true_of_eq_false ended), if_neg (ne_true_of_eq_false ht)]

theorem pfailRise_clauses {s : State} (hg : s.pins.pwrgd = true) :
    (s.holdup.ph = 1 ∨ s.holdup.ph = 2 ∨ (s.holdup.ph = 5 ∧ s.holdup.incomplete = true) → storeDown s = false →
      exec (.pfailRise true) s = .next { s with pins := { s.pins with pfailN := true, vhok := true }, holdup := { s.holdup with recover := true } }) ∧
    (s.holdup.ph = 4 ∨ (s.holdup.ph = 5 ∧ s.holdup.incomplete = false) ∨ (s.holdup.ph ≠ 0 ∧ storeDown s = true) → s.therm.tripped = false → s.pins.rstN = false →
      Gives (.pfailRise true) s (fun t => t.boot.phase = .resetHeld ∧ t.holdup.ph = 0 ∧ t.holdup.warm = true)) ∧
    (s.holdup.ph = 4 ∨ (s.holdup.ph = 5 ∧ s.holdup.incomplete = false) ∨ (s.holdup.ph ≠ 0 ∧ storeDown s = true) → s.therm.tripped = false → s.pins.rstN = true →
      Gives (.pfailRise true) s (fun t => t.boot.phase = .ready ∧ t.boot.step = 9 ∧ t.holdup.ph = 0 ∧ t.holdup.warm = true ∧ t.power.pstate = 1)) := by
  refine ⟨fun hph hd => congrArg Host.Outcome.next (pfailRise_waits hg hph hd), fun hph ht hr => ?_, fun hph ht hr => ?_⟩
  · have resets : pfailRise s true = resetHolds (pfailHigh s) := by
      rw [pfailRise_resets hg hph ht]
      exact (if_neg (ne_true_of_eq_false hr)).trans (heldReset_quiet (s := pfailHigh s) rfl hg)
    obtain ⟨phase, _, ph, warm⟩ := resetHolds_fields (pfailHigh s)
    exact ⟨_, congrArg Host.Outcome.next resets, phase, ph, warm⟩
  · have resets : pfailRise s true = warmReset (pfailHigh s) false := (pfailRise_resets hg hph ht).trans (if_pos hr)
    obtain ⟨ready, ph, warm⟩ := warmReset_ready (pfailHigh s) false
    exact ⟨_, congrArg Host.Outcome.next resets, ready.phase, ready.step, ph, warm, ready.pstate⟩

/-! ## RST_N (R494, R615) -/

/-- RST_N is low, or high. -/
def rstLow (s : State) : State := { s with pins := { s.pins with rstN := false } }
def rstHigh (s : State) : State := { s with pins := { s.pins with rstN := true } }

section
variable {s : State} {ns : Nat}

theorem resetPin_ready (h : 1000 ≤ ns) (hb : s.boot.phase = .ready) (hp : s.holdup.ph = 0) : resetPin s false ns = countP (heldReset (rstLow s)) 3 1 := by
  simp [resetPin, Nat.not_lt.2 h, hb, hp, rstLow]

theorem resetPin_booting (h : 1000 ≤ ns) (hb : s.boot.phase = .booting) :
    resetPin s false ns = { rstLow s with boot := { s.boot with phase := .holdRst } } := by
  simp [resetPin, Nat.not_lt.2 h, hb, rstLow]

theorem resetPin_stopped (h : 1000 ≤ ns) (hb : s.boot.phase = .stopped) (h1 : s.boot.stop ≠ 1) (h2 : s.boot.stop ≠ 2) :
    resetPin s false ns = rstLow s := by
  have stays : ¬ ((rstLow s).pins.pwrgd = true ∧ (rstLow s).pins.pfailN = true ∧ ((rstLow s).boot.stop = 1 ∨ (rstLow s).boot.stop = 2)) :=
    fun ⟨_, _, h⟩ => h.elim h1 h2
  simp only [resetPin, Bool.false_eq_true, if_false, if_neg (Nat.not_lt.2 h), hb]
  exact if_neg stays

theorem resetPin_high (hb : s.boot.phase = .resetHeld) (hp : s.holdup.ph = 0) :
    resetPin s true ns = enterReady (rebalAfter (heldPorts (rstHigh s) false) false) := by
  simp [resetPin, hb, hp, rstHigh]

/-- The rise of RST_N ends a warm reset in ready. -/
theorem rstHigh_ready (s : State) : IsReady (enterReady (rebalAfter (heldPorts (rstHigh s) false) false)) ∧
    (enterReady (rebalAfter (heldPorts (rstHigh s) false) false)).pins.rstN = true := by
  have after : SameBut [.tcam, .marker, .sram, .search, .update, .life, .ports, .tally, .journal, .integ, .crew, .events, .mgmt, .free]
      (rstHigh s) (rebalAfter (heldPorts (rstHigh s) false) false) := by simp
  generalize rebalAfter (heldPorts (rstHigh s) false) false = v at after
  exact ⟨enterReady_ready v, congrArg Pins.rstN ((enterReady_same v).pins.trans after.pins)⟩

end

end Sys2Proof.Machine
end

section
open Sys2Proof Sys2Proof.Machine
namespace Sys2Proof.Machine

/-! ## The clauses of power-up, RST_N and RETRY (R44, R494, R613, R615) -/

/-- PWRGD is high. -/
def pwrgdHigh (s : State) : State := { s with pins := { s.pins with pwrgd := true } }

theorem powerUp_cold {s : State} (e : BootEnv) (hg : s.pins.pwrgd = false) (h : (saveRuns s && !storeDown s) = false) :
    powerUp s e = coldBoot (pwrgdHigh s) e :=
  (if_neg (ne_true_of_eq_false hg)).trans (if_neg (ne_true_of_eq_false h))

theorem powerUp_waits {s : State} (e : BootEnv) (hg : s.pins.pwrgd = false) (hr : saveRuns s = true) (hd : storeDown s = false) :
    powerUp s e = { pwrgdHigh s with holdup := { s.holdup with reboot := true }, boot := { s.boot with env := e } } :=
  (if_neg (ne_true_of_eq_false hg)).trans (if_pos (show (saveRuns s && !storeDown s) = true by rw [hr, hd]; rfl))

/-- What a cold boot that RST_N holds stands in: step 3, with the time at zero and no grant of debug. -/
theorem coldStep3_keeps (s : State) (e : BootEnv) : (coldStep3 s e).boot.step = 3 ∧ (coldStep3 s e).clock.running = true ∧
    (coldStep3 s e).clock.time = 0 ∧ (coldStep3 s e).power.crewSz = s.pins.crewSz ∧ (coldStep3 s e).power.crewRk = s.pins.crewRk ∧
    (coldStep3 s e).dbg.granted = false := by
  have start := coldStart_same s e
  have dbg : (coldStep3 s e).dbg = (coldStart s e).dbg :=
    SameBut.dbg ((throughStep3_frame (ps := [.clock, .power, .boot, .tcam, .sram, .events, .mgmt, .free]) (coldStart s e) (by decide)).2 (.refl _ _))
  obtain ⟨step, running, time, sz, rk⟩ := throughStep3_keeps (coldStart s e)
  exact ⟨step, running.trans (congrArg Clock.running start.clock), time.trans (congrArg Clock.time start.clock),
    sz.trans (congrArg Power.crewSz start.power), rk.trans (congrArg Power.crewRk start.power), (congrArg Debug.granted dbg).trans (coldStart_granted s e)⟩

section
variable {s : State} (e : BootEnv)

theorem coldBoot_stops_bad (h : s.pins.crewSz = 2 ∨ s.pins.crewSz.toNat < s.pins.crewRk.toNat) :
    (coldBoot s e).boot.phase = .stopped ∧ (coldBoot s e).boot.stop = 4 ∧ (coldBoot s e).fuses = s.fuses ∧ (coldBoot s e).flash = s.flash := by
  have start := coldStart_same s e
  rw [coldBoot_bad h]
  generalize coldStart s e = u at start
  have told := event_same u [qSB] 0xF007 0 1
  generalize event u [qSB] 0xF007 0 1 = v at told
  exact ⟨rfl, rfl, told.fuses.trans start.fuses, told.flash.trans start.flash⟩

variable (h2 : s.pins.crewSz ≠ 2) (hr : s.pins.crewRk.toNat ≤ s.pins.crewSz.toNat)
include h2 hr

theorem coldBoot_stops_pfail (hf : s.pins.pfailN = false) :
    (coldBoot s e).boot.phase = .stopped ∧ (coldBoot s e).boot.stop = 5 ∧ (coldBoot s e).fuses = s.fuses ∧ (coldBoot s e).flash = s.flash := by
  have three := coldStep3_same s e
  rw [coldBoot_step3 h2 hr, if_pos hf]
  generalize coldStep3 s e = u at three
  exact ⟨rfl, rfl, three.fuses, three.flash⟩

theorem coldBoot_holds (hf : s.pins.pfailN = true) (hn : s.pins.rstN = false) :
    (coldBoot s e).boot.phase = .holdRst ∧ (coldBoot s e).boot.step = 3 ∧ (coldBoot s e).clock.running = true ∧ (coldBoot s e).clock.time = 0 ∧
    (coldBoot s e).power.crewSz = s.pins.crewSz ∧ (coldBoot s e).power.crewRk = s.pins.crewRk ∧ (coldBoot s e).dbg.granted = false ∧
    (coldBoot s e).fuses = s.fuses ∧ (coldBoot s e).flash = s.flash := by
  have three := coldStep3_same s e
  obtain ⟨step, running, time, sz, rk, granted⟩ := coldStep3_keeps s e
  rw [coldBoot_step3 h2 hr, if_neg (by rw [hf]; decide), if_pos hn]
  generalize coldStep3 s e = u at three granted step running time sz rk
  exact ⟨rfl, step, running, time, sz, rk, granted, three.fuses, three.flash⟩

/-- With no power failure and RST_N high the cold boot goes on to step 5. -/
theorem coldBoot_goes (hf : s.pins.pfailN = true) (hn : s.pins.rstN = true) : coldBoot s e = bootFrom5 (stepDone_ (coldStep3 s e) 4) := by
  rw [coldBoot_step3 h2 hr, if_neg (by rw [hf]; decide), if_neg (by rw [hn]; decide)]
  rfl

theorem coldBoot_stops_imageless (hf : s.pins.pfailN = true) (hn : s.pins.rstN = true) (hc : candidates s = []) :
    (coldBoot s e).boot.phase = .stopped ∧ (coldBoot s e).boot.stop = 1 ∧ (coldBoot s e).boot.rejA = 1 ∧ (coldBoot s e).boot.rejB = 1 ∧
    (coldBoot s e).fuses = s.fuses ∧ (coldBoot s e).flash = s.flash := by
  have three := coldStep3_same s e
  rw [coldBoot_goes e h2 hr hf hn]
  generalize coldStep3 s e = u at three
  have flash : (stepDone_ u 4).flash = s.flash := three.flash
  rw [bootFrom5_none ((candidates_congr flash).trans hc)]
  exact ⟨rfl, rfl, rfl, rfl, three.fuses, three.flash⟩

end

/-- The clauses of a cold boot (R44, R329, R613). -/
theorem powerUp_clauses (s : State) (e : BootEnv) (hg : s.pins.pwrgd = false) (hs : (saveRuns s && !storeDown s) = false) :
    (s.pins.crewSz = 2 ∨ s.pins.crewSz.toNat < s.pins.crewRk.toNat →
      Gives (.powerUp e) s (fun t => t.boot.phase = .stopped ∧ t.boot.stop = 4 ∧ t.fuses = s.fuses ∧ t.flash = s.flash)) ∧
    (s.pins.crewSz ≠ 2 → s.pins.crewRk.toNat ≤ s.pins.crewSz.toNat →
      (s.pins.pfailN = false → Gives (.powerUp e) s (fun t => t.boot.phase = .stopped ∧ t.boot.stop = 5 ∧ t.fuses = s.fuses ∧ t.flash = s.flash)) ∧
      (s.pins.pfailN = true → s.pins.rstN = false →
        Gives (.powerUp e) s (fun t => t.boot.phase = .holdRst ∧ t.boot.step = 3 ∧ t.clock.running = true ∧ t.clock.time = 0 ∧
          t.power.crewSz = s.pins.crewSz ∧ t.power.crewRk = s.pins.crewRk ∧ t.dbg.granted = false ∧ t.fuses = s.fuses ∧ t.flash = s.flash)) ∧
      (s.pins.pfailN = true → s.pins.rstN = true → candidates s = [] →
        Gives (.powerUp e) s (fun t => t.boot.phase = .stopped ∧ t.boot.stop = 1 ∧ t.boot.rejA = 1 ∧ t.boot.rejB = 1 ∧ t.fuses = s.fuses ∧ t.flash = s.flash)) ∧
      (∀ s5 s6 slot c img b, s.pins.pfailN = true → s.pins.rstN = true →
        s5 = tryImages (stepDone_ (coldStep3 (pwrgdHigh s) e) 4) → chooseImage s5 (candidates s5) = (s6, some (slot, c, img)) →
        b = replaceDies (throughStep7 slot c img) → storeDown b = false → (newestSuper b = none → b.fuses.initDone = false) →
        Gives (.powerUp e) s (fun t => t.boot.phase = .ready ∧ t.boot.step = 9 ∧ t.power.pstate = 1 ∧ t.boot.slot = BitVec.ofNat 1 slot ∧
          t.boot.imgver = BitVec.ofNat 16 (imgVer img)))) := by
  have cold : exec (.powerUp e) s = .next (coldBoot (pwrgdHigh s) e) := congrArg Host.Outcome.next (powerUp_cold e hg hs)
  refine ⟨fun h => ⟨_, cold, coldBoot_stops_bad (s := pwrgdHigh s) e h⟩, fun h2 hr => ⟨fun hf => ⟨_, cold, coldBoot_stops_pfail (s := pwrgdHigh s) e h2 hr hf⟩,
    fun hf hn => ⟨_, cold, coldBoot_holds (s := pwrgdHigh s) e h2 hr hf hn⟩,
    fun hf hn hc => ⟨_, cold, coldBoot_stops_imageless (s := pwrgdHigh s) e h2 hr hf hn ((candidates_congr (t := pwrgdHigh s) rfl).trans hc)⟩,
    fun s5 s6 slot c img b hf hn h5 hc hb hd hnew => ?_⟩⟩
  subst h5
  obtain ⟨ready, hslot, himgver⟩ := bootFrom5_ready hc hb hd (fun h => .inl (hnew h))
  rw [coldBoot_goes (s := pwrgdHigh s) e h2 hr hf hn] at cold
  exact ⟨_, cold, ready.phase, ready.step, ready.pstate, hslot, himgver⟩

theorem exec_retry {s : State} {who : Requester} (e : BootEnv) (hw : mayTrigger s who true = true) (hb : s.boot.phase = .stopped)
    (hs : s.boot.stop = 1 ∨ s.boot.stop = 2) : exec (.retry who e) s = .next (bootFrom5 { s with boot := { s.boot with env := e } }) := by
  refine congrArg Host.Outcome.next (if_pos ?_)
  rcases hs with h | h <;> simp [hw, hb, h]

/-- A RETRY that finds no image stops again, and nothing but the boot has changed. -/
theorem retry_imageless {s : State} {who : Requester} (e : BootEnv) (hw : mayTrigger s who true = true) (hb : s.boot.phase = .stopped)
    (hs : s.boot.stop = 1 ∨ s.boot.stop = 2) (hc : candidates s = []) :
    Gives (.retry who e) s (fun t => t.boot.phase = .stopped ∧ t.boot.stop = 1 ∧ t.boot.rejA = 1 ∧ t.boot.rejB = 1 ∧ SameBut [.boot, .power] s t) := by
  have stops := bootFrom5_none (s := { s with boot := { s.boot with env := e } }) ((candidates_congr rfl).trans hc)
  refine ⟨_, (exec_retry e hw hb hs).trans (congrArg Host.Outcome.next stops), rfl, rfl, rfl, rfl, ?_⟩
  simp [step5Begun]

end Sys2Proof.Machine

/-- Settles O36: what each pin leads to, through the steps of a boot and of a warm reset. -/
theorem powerAndResetPins : Obligations.PowerAndResetPins := by
  unfold Obligations.PowerAndResetPins
  refine fun s => ⟨fun e hg hs => powerUp_clauses s e hg hs, fun e hg hr hd => congrArg Host.Outcome.next (powerUp_waits e hg hr hd),
    fun hg => pfailRise_clauses hg, fun ns h hb hp => ?_, fun ns h => congrArg Host.Outcome.next (if_pos h),
    fun ns h hb => congrArg Host.Outcome.next (resetPin_booting h hb), fun ns h hb h1 h2 => congrArg Host.Outcome.next (resetPin_stopped h hb h1 h2),
    fun ns hb hp => ?_, fun who e hw hb hs hc => retry_imageless e hw hb hs hc, fun who e s5 s6 slot c img b hw hb hs h5 hc hb' hd hnew => ?_,
    fun who hw hl hb => ?_, fun hd hx => ?_⟩
  · obtain ⟨phase, pins, warm⟩ := heldReset_fields (rstLow s)
    have counted : SameBut [.mgmt] (heldReset (rstLow s)) (countP (heldReset (rstLow s)) 3 1) := by simp
    exact ⟨_, congrArg Host.Outcome.next (resetPin_ready h hb hp), (congrArg Boot.phase counted.boot).trans phase,
      congrArg Pins.rstN (counted.pins.trans pins), (congrArg HoldUp.warm counted.holdup).trans warm⟩
  · obtain ⟨ready, rst⟩ := rstHigh_ready s
    exact ⟨_, congrArg Host.Outcome.next (resetPin_high hb hp), ready.phase, ready.step, rst, ready.pstate⟩
  · subst h5
    obtain ⟨ready, hslot, _⟩ := bootFrom5_ready hc hb' hd hnew
    exact ⟨_, exec_retry e hw hb hs, ready.phase, ready.step, ready.pstate, hslot⟩
  · refine congrArg Host.Outcome.next (if_pos ?_)
    rcases hb with h | h <;> simp [hw, hl, h]
  · refine congrArg Host.Outcome.next (if_pos ?_)
    simp [hd, hx]

end

section
open Sys2Proof Sys2Proof.Machine
namespace Sys2Proof.Machine

/-! ## VHOLD_FLOOR and the pins -/

/-- Outside a save VHOLD_FLOOR lowers the VHOLD pin and changes nothing else (R442). -/
theorem exec_vholdFloor_quiet {s : State} (h : s.holdup.ph = 0) :
    exec .vholdFloor s = .next { s with pins := { s.pins with vhok := false } } := by
  refine congrArg Host.Outcome.next (if_pos ?_)
  exact Or.inl h

/-- A die at reset whose VHOLD is above its floor. -/
def vholdHigh : State := { State.reset with pins := { State.reset.pins with vhok := true } }

end Sys2Proof.Machine

/-- Refutes O3: VHOLD_FLOOR lowers the VHOLD pin, and the pins are no part that its row of `touches` names. -/
theorem not_everyCommandKeepsItsFrame : ¬ Obligations.EveryCommandKeepsItsFrame := by
  unfold Obligations.EveryCommandKeepsItsFrame
  intro h
  obtain ⟨t, e, frame, -⟩ := h .vholdFloor vholdHigh
  rw [exec_vholdFloor_quiet rfl] at e
  cases e
  have pins := frame.pins (by decide)
  exact absurd (congrArg Pins.vhok pins) (by decide)
end

section
open Sys2Proof Sys2Proof.Machine
namespace Sys2Proof.Machine

/-! ## Matching -/

/-- Trits match exactly when each cared-for value bit is its key bit (R47). -/
theorem tritsMatch_iff (care val key : BitVec 192) :
    tritsMatch care val key = true ↔ ∀ i < 192, bit i care = true → bit i val = bit i key := by
  rw [tritsMatch, beq_iff_eq, BitVec.eq_of_getLsbD_eq_iff]
  refine forall₂_congr fun i _ => ?_
  simp only [bit, BitVec.getLsbD_and, BitVec.getLsbD_xor, BitVec.ofNat_eq_ofNat, BitVec.getLsbD_zero]
  cases care.getLsbD i <;> simp

/-- An entry without a gate takes part under every snapshot (R79). -/
theorem gateAdmits_zero (s : State) (snap : BitVec 64) (b : Nat) : gateAdmits s snap b 0 = true := rfl

end Sys2Proof.Machine

/-- Settles O11: the three conditions of R51 are the three of `entryMatches`, the trits compared bit by bit. -/
theorem entryMatchesKey : Obligations.EntryMatchesKey := by
  unfold Obligations.EntryMatchesKey
  refine fun s snap b key e => ⟨?_, gateAdmits_zero s snap b⟩
  rw [entryMatches, Bool.and_eq_true, Bool.and_eq_true, tritsMatch_iff, and_assoc]
end

section
open Sys2Proof Sys2Proof.Machine
namespace Sys2Proof.Machine

/-! ## Bit fields -/

theorem mem_setBits {n : Nat} {x : BitVec n} {i : Nat} : i ∈ setBits x ↔ bit i x = true := by
  rw [setBits, List.mem_filter, List.mem_range, bit]
  exact ⟨And.right, fun h => ⟨BitVec.lt_of_getLsbD h, h⟩⟩

/-- A field written holds the low bits of its value, and every bit outside it stays. -/
theorem bit_bset_field {n : Nat} {lo w v i : Nat} (x : BitVec n) (hi : i < n) :
    bit i (bset lo w x v) = if lo ≤ i ∧ i < lo + w then v.testBit (i - lo) else bit i x := by
  have mask : (BitVec.ofNat n (2 ^ w - 1)).getLsbD (i - lo) = decide (i - lo < w) := by
    rw [BitVec.getLsbD_ofNat, Nat.testBit_two_pow_sub_one]
    simp [show i - lo < n by omega]
  have value : (BitVec.ofNat n v).getLsbD (i - lo) = v.testBit (i - lo) := by
    rw [BitVec.getLsbD_ofNat]
    simp [show i - lo < n by omega]
  simp only [bit, bset, BitVec.getLsbD_or, BitVec.getLsbD_and, BitVec.getLsbD_not, BitVec.getLsbD_shiftLeft, mask, value, hi, decide_true,
    Bool.true_and]
  by_cases h1 : i < lo
  · simp [h1, show ¬ lo ≤ i by omega]
  · by_cases h2 : i < lo + w
    · simp [h1, h2, show lo ≤ i by omega, show i - lo < w by omega]
    · simp [h1, h2, show ¬ i - lo < w by omega]

/-! ## The classes of an arbiter -/

theorem getClass_setClass_self {x : Arb} {c : Nat} {y : ArbClass} (hy : y ≠ .reset) : getClass (setClass x c y) c = y := sget_sput_self hy ..

theorem getClass_setClass_other {x : Arb} {c d : Nat} {y : ArbClass} (hy : y ≠ .reset) (h : d ≠ c) :
    getClass (setClass x c y) d = getClass x d := sget_sput_other hy _ h

/-- The classes of an arbiter are listed in canonical form. -/
def Arb.canonical (x : Arb) : Prop := swf ArbClass.reset none x.classes = true

theorem Arb.canonical.setClass {x : Arb} (h : x.canonical) (c : Nat) (y : ArbClass) : (Machine.setClass x c y).canonical :=
  swf_sput h c y (fun _ hl => nomatch hl)

theorem Arb.canonical.getClass_setClass {x : Arb} (h : x.canonical) (c : Nat) (y : ArbClass) (d : Nat) :
    getClass (Machine.setClass x c y) d = if d = c then y else getClass x d := sget_sput h c y d

/-- Every class is put as a function of what it held. -/
theorem getClass_foldl_setClass {x : Arb} (h : x.canonical) (f : ArbClass → ArbClass) {l : List Nat} (hl : l.Nodup) (d : Nat) :
    getClass (l.foldl (fun y c => setClass y c (f (getClass y c))) x) d = if d ∈ l then f (getClass x d) else getClass x d := by
  induction l generalizing x with
  | nil => simp
  | cons c l ih =>
    obtain ⟨hc, hl⟩ := List.nodup_cons.1 hl
    rw [List.foldl_cons, ih (h.setClass c _) hl, h.getClass_setClass]
    by_cases hd : d = c
    · simp [hd, hc]
    · simp [hd]

/-! ## The choice of a winner (R299, R301, R312) -/

theorem fullest_mem {credit : Nat → Nat} {prev : Nat} {cs : List Nat} {c : Nat} (h : fullest credit prev cs = some c) : c ∈ cs := by
  induction cs generalizing c with
  | nil => cases h
  | cons e cs ih =>
    rw [fullest] at h
    split at h
    · cases h
      exact List.mem_cons_self
    · next d q =>
      split at h
      · cases h
        exact List.mem_cons_self
      · cases h
        exact List.mem_cons_of_mem _ (ih q)

theorem starved_mem {x : Arb} {t : Nat} {cs : List Nat} {c : Nat} (h : starved x t cs = some c) : c ∈ cs :=
  (List.mem_filter.1 (fullest_mem h)).1

/-- The winner is one of the classes that may be granted. -/
theorem decideWinner_mem {credit : Nat → Nat} {x : Arb} {t : Nat} {cs : List Nat} {c : Nat} {line : Bool}
    (h : decideWinner credit x t cs = some (c, line)) : c ∈ cs := by
  dsimp only [decideWinner] at h
  split at h
  · next q =>
    cases h
    split at q
    · exact starved_mem q
    · cases q
  · obtain ⟨d, hd, he⟩ := Option.map_eq_some_iff.1 h
    cases he
    split at hd
    · exact (List.mem_filter.1 (fullest_mem hd)).1
    · split at hd
      · split at hd
        · next hc =>
          cases hd
          simpa using (Bool.and_eq_true_iff.1 hc).2
        · exact fullest_mem hd
      · exact fullest_mem hd

/-- A class that asks is presented, or is REF while the refresh control waits; and R299 makes it a member. -/
theorem mem_asking {s : State} {a : Nat} {cls : BitVec 16} {c : Nat} (h : c ∈ asking s a cls) :
    (bit c cls = true ∨ (c = 12 ∧ a < 2112 ∧ sget 0 s.tcam.refDue a ≠ 0)) ∧ isMember a c = true := by
  obtain ⟨hset, member⟩ := List.mem_filter.1 h
  refine ⟨?_, member⟩
  rw [mem_setBits] at hset
  split at hset
  · next ha =>
    rw [bit_bset_field _ (BitVec.lt_of_getLsbD hset)] at hset
    split at hset
    · next hc =>
      refine Or.inr ⟨by omega, ha, fun h0 => ?_⟩
      simp [h0] at hset
    · exact Or.inl hset
  · exact Or.inl hset

/-- On a frozen bank only REF and a multi-cycle holder may be granted (R312). -/
theorem mem_mayGrant {s : State} {a : Nat} {x : Arb} {cs : List Nat} {c : Nat} (h : c ∈ mayGrant s a x cs) :
    c ∈ cs ∧ (a < 2112 → bankFrozen s a = true → c = 12 ∨ (isMulti c = true ∧ x.holder = some c)) := by
  unfold mayGrant at h
  split at h
  · obtain ⟨hc, may⟩ := List.mem_filter.1 h
    exact ⟨hc, fun _ _ => by simpa using may⟩
  · next open_ => exact ⟨h, fun ha hf => absurd ⟨ha, hf⟩ open_⟩

/-! ## A grant (R301 to R303) -/

theorem satInc_ne_zero {n : Nat} (hn : 0 < n) (x : BitVec n) : satInc x ≠ 0 := by
  unfold satInc
  split
  · next h =>
    subst h
    exact fun h0 => by simpa [hn] using congrArg (fun y : BitVec n => y.getLsbD 0) h0
  · next h => exact fun h0 => h ((eq_neg_of_add_eq_zero_left h0).trans BitVec.neg_one_eq_allOnes)

/-- An arbiter whose holder gives way to class c: a multi-cycle one is preempted, with its progress (R303). -/
def giveWay (t : Nat) (x : Arb) (c : Nat) : Arb :=
  match x.holder with
  | some h =>
    if h ≠ c ∧ isMulti h = true then
      setClass { x with preempted := x.preempted ++ [(x.progress + 1, h)] } h
        { getClass x h with preempt := (getClass x h).preempt + 1, waits := t :: (getClass x h).waits }
    else x
  | none => x

theorem endWait_grants (t : Nat) (y : ArbClass) : (endWait t y).grants = y.grants := by
  unfold endWait
  split <;> rfl

theorem endWait_dead (t : Nat) (y : ArbClass) : (endWait t y).dead = y.dead := by
  unfold endWait
  split <;> rfl

/-- The winner's class as a grant leaves it. -/
def granted (t : Nat) (y : ArbClass) (line : Bool) : ArbClass :=
  { endWait t y with used := satInc (endWait t y).used, grants := (endWait t y).grants + 1, starve := if line then (endWait t y).starve + 1 else (endWait t y).starve }

theorem granted_ne_reset (t : Nat) (y : ArbClass) (line : Bool) : granted t y line ≠ .reset :=
  fun h => satInc_ne_zero (by decide) _ (congrArg ArbClass.used h)

/-- The parts of a grant that decisions are read from. -/
theorem grantTo_fields (t : Nat) (x : Arb) (c : Nat) (line : Bool) :
    (grantTo t x c line).holder = some c ∧ (grantTo t x c line).prev = c ∧
    (grantTo t x c line).classes = sput .reset (giveWay t x c).classes c (granted t (getClass (giveWay t x c) c) line) := ⟨rfl, rfl, rfl⟩

theorem getClass_grantTo (t : Nat) (x : Arb) (c d : Nat) (line : Bool) :
    getClass (grantTo t x c line) d = if d = c then granted t (getClass (giveWay t x c) c) line else getClass (giveWay t x c) d := by
  rw [getClass, (grantTo_fields t x c line).2.2]
  split
  · next h =>
    subst h
    exact sget_sput_self (granted_ne_reset _ _ _) ..
  · next h => exact sget_sput_other (granted_ne_reset _ _ _) _ h

/-- What giving way changes of a class is its wait and its count of preemptions. -/
theorem getClass_giveWay (t : Nat) (x : Arb) (c d : Nat) :
    (getClass (giveWay t x c) d).grants = (getClass x d).grants ∧ (getClass (giveWay t x c) d).dead = (getClass x d).dead := by
  unfold giveWay
  split
  · next h _ =>
    split
    · have listed : ({ getClass x h with preempt := (getClass x h).preempt + 1, waits := t :: (getClass x h).waits } : ArbClass) ≠ .reset :=
        fun e => List.cons_ne_nil _ _ (congrArg ArbClass.waits e)
      by_cases hd : d = h
      · subst hd
        rw [getClass_setClass_self listed]
        exact ⟨rfl, rfl⟩
      · rw [getClass_setClass_other listed hd]
        exact ⟨rfl, rfl⟩
    · exact ⟨rfl, rfl⟩
  · exact ⟨rfl, rfl⟩

theorem grantTo_grants (t : Nat) (x : Arb) (c : Nat) (line : Bool) : (getClass (grantTo t x c line) c).grants = (getClass x c).grants + 1 := by
  rw [getClass_grantTo, if_pos rfl, granted]
  exact congrArg (· + 1) ((endWait_grants ..).trans (getClass_giveWay ..).1)

theorem grantTo_dead (t : Nat) (x : Arb) (c d : Nat) (line : Bool) : (getClass (grantTo t x c line) d).dead = (getClass x d).dead := by
  rw [getClass_grantTo]
  split
  · next h =>
    subst h
    exact (endWait_dead ..).trans (getClass_giveWay ..).2
  · exact (getClass_giveWay ..).2

/-! ## Dead slots (R304) -/

/-- y has the dead slots of x in every class, and lists its classes in canonical form as x does. -/
structure SameDead (x y : Arb) : Prop where
  canonical : y.canonical
  dead : ∀ c, (getClass y c).dead = (getClass x c).dead

theorem SameDead.setClass {x y : Arb} (h : SameDead x y) {c : Nat} {z : ArbClass} (hz : z.dead = (getClass y c).dead) :
    SameDead x (setClass y c z) where
  canonical := h.canonical.setClass c z
  dead d := by
    rw [h.canonical.getClass_setClass]
    split
    · next hd => rw [hz, hd, h.dead]
    · exact h.dead d

theorem foldl_addWait_dead (l : List Nat) (f : Nat → Nat) (y : ArbClass) : (l.foldl (fun y w => addWait y (f w)) y).dead = y.dead := by
  induction l generalizing y with
  | nil => rfl
  | cons w l ih => exact (ih _).trans rfl

theorem SameDead.foldl {α : Type} {x : Arb} {g : Arb → α → Arb} (hg : ∀ y a, SameDead x y → SameDead x (g y a)) (l : List α) {y : Arb}
    (h : SameDead x y) : SameDead x (l.foldl g y) := by
  induction l generalizing y with
  | nil => exact h
  | cons a l ih => exact ih (hg y a h)

theorem present_sameDead {x : Arb} (h : x.canonical) (t : Nat) (q : ArbAsk) (cs : List Nat) : SameDead x (present t q cs x) := by
  have told (y : ArbClass) (l : List Nat) : (l.foldl addWait y).dead = y.dead := foldl_addWait_dead l id y
  have classes := SameDead.foldl (x := x) (y := x) (l := List.range 16) (g := fun x c =>
    let y := (q.gone.getD c []).foldl addWait (getClass x c)
    if cs.contains c then setClass x c { y with waits := standing t q x c }
    else setClass x c { (if (q.gone.getD c []).isEmpty then y.waits.foldl (fun y w => addWait y (t - w)) y else y) with waits := [] })
    (fun y c hy => by
      dsimp only
      split
      · exact hy.setClass (told ..)
      · refine hy.setClass ?_
        split
        · exact (foldl_addWait_dead _ (fun w => t - w) _).trans (told ..)
        · exact told ..) ⟨h, fun _ => rfl⟩
  exact ⟨classes.canonical, classes.dead⟩

/-- A search that withdrew after its grant costs its class one dead slot. -/
theorem dropGrant_search {x : Arb} {h : Nat} (hc : x.canonical) (hh : x.holder = some h) (hs : h ≤ 10) :
    (dropGrant true x).canonical ∧ (getClass (dropGrant true x) h).dead = (getClass x h).dead + 1 := by
  have dropped : dropGrant true x = setClass { x with holder := none } h { getClass x h with dead := (getClass x h).dead + 1 } := by
    simp [dropGrant, hh, hs]
  have kept : Arb.canonical { x with holder := none } := hc
  rw [dropped]
  refine ⟨kept.setClass h _, ?_⟩
  rw [kept.getClass_setClass, if_pos rfl]

/-! ## Decisions -/

theorem getArb_setArb_self {s : State} {a : Nat} {x : Arb} (h : x ≠ .reset) : getArb (setArb s a x) a = x := sget_sput_self h ..

theorem getArb_setArb_other {s : State} {a b : Nat} {x : Arb} (h : x ≠ .reset) (hb : b ≠ a) : getArb (setArb s a x) b = getArb s b :=
  sget_sput_other h _ hb

theorem getArb_setArb_canonical {s : State} (h : swf Arb.reset none s.arbs.live = true) (a : Nat) (x : Arb) : getArb (setArb s a x) a = x :=
  (sget_sput h a x a).trans (if_pos rfl)

theorem getArb_congr {s t : State} (h : t.arbs = s.arbs) (a : Nat) : getArb t a = getArb s a := by rw [getArb, getArb, h]

/-- The arbiter when the requests of q have been presented. -/
def presented (s : State) (a : Nat) (q : ArbAsk) : Arb := present (now s) q (asking s a q.classes) (dropGrant q.dead (getArb s a))

/-- The winner of a decision, and whether it wins under the 1 µs line. -/
def winner (s : State) (a : Nat) (q : ArbAsk) : Option (Nat × Bool) :=
  decideWinner (creditNow s a (presented s a q)) (presented s a q) (now s) (mayGrant s a (presented s a q) (asking s a q.classes))

theorem decideArb_none {s : State} {a : Nat} {q : ArbAsk} (ha : a < 7251) (h : winner s a q = none) :
    decideArb s a q = setArb s a { presented s a q with holder := none, progress := 0 } := by
  rw [decideArb, if_neg (by omega)]
  change (match winner s a q with | none => _ | some (c, line) => _) = _
  rw [h]
  rfl

theorem decideArb_some {s : State} {a : Nat} {q : ArbAsk} {c : Nat} {line : Bool} (ha : a < 7251) (h : winner s a q = some (c, line)) :
    decideArb s a q = trace (if a < 2112 ∧ c = 12 then refreshRow (setArb s a (grantTo (now s) (presented s a q) c line)) a
      else setArb s a (grantTo (now s) (presented s a q) c line)) 3 := by
  rw [decideArb, if_neg (by omega)]
  change (match winner s a q with | none => _ | some (c, line) => _) = _
  rw [h]
  rfl

/-- The winner is a class that asks and that R299 makes a member; on a frozen bank it is REF or a multi-cycle holder. -/
theorem winner_may {s : State} {a : Nat} {q : ArbAsk} {c : Nat} {line : Bool} (h : winner s a q = some (c, line)) :
    (bit c q.classes = true ∨ (c = 12 ∧ a < 2112 ∧ sget 0 s.tcam.refDue a ≠ 0)) ∧ isMember a c = true ∧
    (a < 2112 → bankFrozen s a = true → c = 12 ∨ (isMulti c = true ∧ (presented s a q).holder = some c)) := by
  obtain ⟨asks, frozen⟩ := mem_mayGrant (decideWinner_mem h)
  exact ⟨(mem_asking asks).1, (mem_asking asks).2, frozen⟩

/-- A grant changes its arbiter alone, and the refresh of the bank's group when REF takes it. -/
theorem decideArb_grants {s : State} {a : Nat} {q : ArbAsk} {c : Nat} {line : Bool} (ha : a < 7251) (h : winner s a q = some (c, line)) :
    getArb (decideArb s a q) a = grantTo (now s) (presented s a q) c line ∧
    (∀ b, b ≠ a → getArb (decideArb s a q) b = getArb s b) ∧
    (decideArb s a q).tcam = (if a < 2112 ∧ c = 12 then (refreshRow s a).tcam else s.tcam) := by
  have held : grantTo (now s) (presented s a q) c line ≠ .reset := fun e => nomatch congrArg Arb.holder e
  rw [decideArb_some ha h]
  set g := setArb s a (grantTo (now s) (presented s a q) c line) with hg
  have arbs : (trace (if a < 2112 ∧ c = 12 then refreshRow g a else g) 3).arbs = g.arbs := by
    have row : SameBut [.tcam, .events, .free] g (trace (if a < 2112 ∧ c = 12 then refreshRow g a else g) 3) := by simp
    exact row.arbs
  refine ⟨(getArb_congr arbs a).trans (getArb_setArb_self held), fun b hb => (getArb_congr arbs b).trans (getArb_setArb_other held hb), ?_⟩
  refine (trace_same _ 3).tcam.trans ?_
  split <;> rfl

theorem refreshRow_group {s : State} (h : swf 0 none s.tcam.refGroup = true) (a : Nat) :
    sget 0 (refreshRow s a).tcam.refGroup a = (sget 0 s.tcam.refGroup a + 1) % 512 := (sget_sput h a _ a).trans (if_pos rfl)

/-- A decision keeps the dead slots of every class, with the one that a withdrawn search has just cost. -/
theorem decideArb_dead {s : State} {a : Nat} {q : ArbAsk} (ha : a < 7251) (hl : swf Arb.reset none s.arbs.live = true)
    (c : Nat) : (getClass (getArb (decideArb s a q) a) c).dead = (getClass (presented s a q) c).dead := by
  cases h : winner s a q with
  | none => rw [decideArb_none ha h, getArb_setArb_canonical hl]; rfl
  | some w => rw [(decideArb_grants ha h).1, grantTo_dead]

/-! ## Cut-offs and freeze bits (R305, R306, R312, R313) -/

/-- The arbiter whose holder c is cut off. -/
def cutOff (x : Arb) (c : Nat) : Arb :=
  setClass { x with holder := none, progress := 0, cut := true } c { getClass x c with cuts := (getClass x c).cuts + 1 }

/-- Whatever the cut operation leads to, the arbiters are those of the cut-off. -/
theorem stallCutoff_arbs {s : State} {a c : Nat} (h : (getArb s a).holder = some c) :
    (stallCutoff s a).arbs = (setArb s a (cutOff (getArb s a) c)).arbs := by
  have ends : SameBut [.tcam, .sram, .search, .update, .ports, .tally, .waitos, .events, .mgmt, .free] (setArb s a (cutOff (getArb s a) c)) (stallCutoff s a) := by
    simp only [stallCutoff, h]
    simp [cutOff]
  exact ends.arbs

theorem writeDfrz_bits (s : State) (k : Fin 3) (v : Reg) {i : Nat} (hi : i < 66) :
    bit i (writeDfrz s k.val v).arbs.dfrz = if i / 32 = k.val then bit (i % 32) v else bit i s.arbs.dfrz := by
  refine (bit_bset_field _ hi).trans ?_
  have span : (32 * k.val ≤ i ∧ i < 32 * k.val + if k.val = 2 then 2 else 32) ↔ i / 32 = k.val := by
    have := k.isLt
    split <;> omega
  simp only [span]
  split
  · next hk => rw [show i - 32 * k.val = i % 32 by omega]; rfl
  · rfl

/-! ## Snapshots and share tables (R308 to R310, R315) -/

theorem snapArb_clears {s : State} {a : Nat} (hl : swf Arb.reset none s.arbs.live = true) (hc : (getArb s a).canonical) {c : Nat} (h : c < 16) :
    getClass (getArb (snapArb s a true) a) c = clearCounts (getClass (getArb s a) c) := by
  have live : getArb (snapArb s a true) a = (List.range 16).foldl (fun y c => setClass y c (clearCounts (getClass y c))) (getArb s a) :=
    (sget_sput hl a _ a).trans (if_pos rfl)
  rw [live, getClass_foldl_setClass hc clearCounts List.nodup_range, if_pos (List.mem_range.2 h)]

theorem snapFor_of {s : State} {who : Requester} (clr : Bool) (hw : mayTrigger s who true = true) (ha : (selsOf s who).csel.toNat < 7251) :
    snapFor s who clr = snapArb s (selsOf s who).csel.toNat clr := if_pos (by simp [hw, ha])

theorem snapArb_shadow (s : State) (a : Nat) (clr : Bool) : sget none (snapArb s a clr).arbs.shadow a = some (shadowOf s a) := by
  cases clr <;> exact sget_sput_self (Option.some_ne_none _) ..

theorem exec_commit {s : State} {who : Requester} (k : Fin 8) (hw : mayTrigger s who false = true) :
    exec (.commit who k) s = .next (commitShare s k.val) := congrArg Host.Outcome.next (if_pos hw)

theorem shareRej_set (s : State) (k : Fin 8) : bit k.val (shareRej s k.val).str.srej = true := bit_bset_set k.isLt _

/-- The group that a COMMIT of table k enters. -/
def commitGroup (s : State) (k : Nat) : List JRec := [.live 5 (16 * k) s.boot.strver ((List.range 16).map (fun c => sget 0 s.str.wpend (16 * k + c)))]

theorem commitShare_waiting {s : State} {k : Nat} (h : bit k s.str.spend = true) : commitShare s k = shareRej s k := if_pos h

theorem commitShare_weights {s : State} {k : Nat} (hp : bit k s.str.spend = false) (h : shareOk s.str.stmap (pendingIn s k) (roleNow s) k = false) :
    commitShare s k = shareRej { s with str := { s.str with cstat := sput 0 s.str.cstat k 13 } } k := by
  simp [commitShare, hp, h]

theorem commitShare_full {s : State} {k : Nat} (hp : bit k s.str.spend = false) (h : shareOk s.str.stmap (pendingIn s k) (roleNow s) k = true)
    (hj : (jAdmit s [commitGroup s k]).1 = false) : commitShare s k = shareRej (jAdmit s [commitGroup s k]).2 k := by
  have refused : jAdmit s [commitGroup s k] = (false, (jAdmit s [commitGroup s k]).2) := Prod.ext hj rfl
  unfold commitGroup at refused ⊢
  rw [commitShare, if_neg (by simp [hp]), if_neg (by simp [h])]
  dsimp only
  rw [refused]
  rfl

theorem jAdmit_admits {s : State} {gs : List (List JRec)} (h : (jAdmit s gs).1 = true) : jAdmit s gs = (true, s) := by
  unfold jAdmit at h ⊢
  split at h
  · cases h
  · next unsealed =>
    split at h
    · cases h
    · next below =>
      split at h
      · next fits => rw [if_neg unsealed, if_neg below, if_pos fits]
      · cases h

theorem commitShare_enters {s : State} {k : Nat} (hp : bit k s.str.spend = false) (h : shareOk s.str.stmap (pendingIn s k) (roleNow s) k = true)
    (hj : (jAdmit s [commitGroup s k]).1 = true) :
    commitShare s k = { (jCommit s (commitGroup s k) true).2 with
      str := { s.str with spend := bset k 1 s.str.spend 1, cstat := sput 0 s.str.cstat k 0 } } := by
  have admitted := jAdmit_admits hj
  unfold commitGroup at admitted ⊢
  rw [commitShare, if_neg (by simp [hp]), if_neg (by simp [h])]
  dsimp only
  rw [admitted]
  rfl

end Sys2Proof.Machine

/-- Settles O39: the winner of a decision is one of the classes that ask; what a cut-off, a freeze word, a snapshot and a COMMIT leave is read
off the one arbiter, word, shadow or share table that each writes. -/
theorem arbitersGrantAndFreeze : Obligations.ArbitersGrantAndFreeze := by
  unfold Obligations.ArbitersGrantAndFreeze
  refine ⟨?_, fun a q s ha => congrArg Host.Outcome.next (if_pos ha), fun s => ⟨?_, ?_, ?_, ?_, ?_⟩, fun who s => ⟨fun hw ha => ⟨?_, ?_⟩, fun k hw => ⟨?_, ?_, ?_, ?_⟩⟩⟩
  · rintro a q s cs x ha rfl rfl
    refine ⟨fun c line h => ?_, fun hl => ⟨fun h => ?_, fun c hd hh hs hc => ?_⟩⟩
    · obtain ⟨asks, member, frozen⟩ := winner_may h
      obtain ⟨arb, others, rows⟩ := decideArb_grants ha h
      refine ⟨asks, member, frozen, _, rfl, ?_, ?_, ?_, others, ?_, (decideArb_frame s a q (by simp)).2 (SameBut.refl _ s)⟩
      · rw [arb]; rfl
      · rw [arb]; rfl
      · rw [arb, grantTo_grants]; rfl
      · split
        · next hr => exact fun hg => (congrArg (fun t => sget 0 t.refGroup a) (rows.trans (if_pos hr))).trans (refreshRow_group hg a)
        · next hr => exact rows.trans (if_neg hr)
    · have idle := decideArb_none ha h
      refine ⟨_, congrArg Host.Outcome.next idle, ?_, by simp⟩
      rw [getArb_setArb_canonical hl]
    · obtain ⟨dropped, dead⟩ := dropGrant_search (x := getArb s a) hc hh hs
      have same := present_sameDead dropped (now s) q (asking s a q.classes)
      rw [← hd] at same dead
      exact ⟨_, rfl, (decideArb_dead ha hl c).trans ((same.dead c).trans dead)⟩
  · intro a c hh hc
    have kept : Arb.canonical { getArb s a with holder := none, progress := 0, cut := true } := hc
    have cut : cutOff (getArb s a) c ≠ .reset := fun e => nomatch congrArg Arb.cut e
    have arb := (getArb_congr (stallCutoff_arbs hh) a).trans (getArb_setArb_self cut)
    refine ⟨_, rfl, congrArg Arb.holder arb, congrArg Arb.cut arb, ?_⟩
    rw [arb, cutOff, kept.getClass_setClass, if_pos rfl]
  · intro a hh
    refine congrArg Host.Outcome.next ?_
    simp only [stallCutoff, hh]
  · intro who k v hw
    refine ⟨_, congrArg Host.Outcome.next (if_pos hw), fun i hi hk => ?_, fun i hi hk => ?_, by simp⟩
    · rw [writeDfrz_bits s k v hi, if_pos hk]
    · rw [writeDfrz_bits s k v hi, if_neg hk]
  · exact fun who k v hw => congrArg Host.Outcome.next (if_neg (by simp [hw]))
  · intro g hg
    refine ⟨_, congrArg Host.Outcome.next (if_pos hg), ?_, bit_bset_set (BitVec.lt_of_getLsbD hg) _, by simp⟩
    exact (bit_bset ..).trans (by simp)
  · refine ⟨_, congrArg Host.Outcome.next (snapFor_of false hw ha), snapArb_shadow .., rfl, by simp⟩
  · refine ⟨_, congrArg Host.Outcome.next (snapFor_of true hw ha), snapArb_shadow .., by simp, fun hl hc c h => snapArb_clears hl hc h⟩
  · intro hp
    exact ⟨_, (exec_commit k hw).trans (congrArg Host.Outcome.next (commitShare_waiting hp)), shareRej_set s k, rfl, by simp⟩
  · intro hp h
    refine ⟨_, (exec_commit k hw).trans (congrArg Host.Outcome.next (commitShare_weights hp h)), shareRej_set _ k, sget_sput_self (by decide) .., by simp⟩
  · intro hp h hj
    refine ⟨_, (exec_commit k hw).trans (congrArg Host.Outcome.next (commitShare_full hp h hj)), shareRej_set _ k, ?_, by simp⟩
    have spend := congrArg Struct.spend (jAdmit_same s [commitGroup s k]).str
    exact spend
  · intro hp h hj
    refine ⟨_, (exec_commit k hw).trans (congrArg Host.Outcome.next (commitShare_enters hp h hj)), bit_bset_set k.isLt _, rfl, rfl, by simp⟩
end

section
open Sys2Proof Sys2Proof.Machine
namespace Sys2Proof.Machine

/-! ## A word that is both a result word and a step descriptor

`Config.placeOf` is opaque, but the place of an address whose array number is above all of R369's regions lies at 2 ^ 44 or above, and its low bits are
those of the address. A bank number and a profile number beyond the die's make the same place a result word and the low word of a step
descriptor; an injection armed there (R411) shows a read another descriptor than the one stored, and the read of the winner's result
word consumes it. -/

/-- An address in array 16,384, which no region of R369 reaches. -/
def farAddr : BitVec 28 := 134217738

theorem regionMacro_lt (key m : Nat) : regionMacro key m < 5388 := by
  unfold regionMacro
  (repeat' split) <;> omega

/-- A place at which a buffer may begin, so far up that a result slot and a descriptor can both stand there. -/
structure FarPlace (B : Nat) : Prop where
  aligned : B % 2 ^ 27 = 0
  high : 2 ^ 44 ≤ B

theorem placeAt_farAddr : ∃ B, FarPlace B ∧ placeAt farAddr = B + 10 := by
  have raw : ∃ B, FarPlace B ∧ kRaw farAddr.toNat = B + 10 := ⟨2 ^ 44 + 2 ^ 27, ⟨by norm_num, by norm_num⟩, rfl⟩
  unfold placeAt
  split
  · next k _ =>
    split
    · next h =>
      have num := congrArg BitVec.toNat h
      rw [addrAt] at num
      split at num
      · next far =>
        rw [BitVec.toNat_ofNat, show farAddr.toNat = 134217738 from rfl] at num
        exact ⟨k - 10, ⟨by omega, by omega⟩, by omega⟩
      · have low := regionMacro_lt k ((Config.addrOf k).toNat / 8192)
        rw [BitVec.toNat_ofNat, show farAddr.toNat = 134217738 from rfl] at num
        omega
    · exact raw
  · exact raw

/-- The bank whose result slot of row 2, half 1 stands at B + 10, and the profile whose buffer 0 begins at B. -/
def sharedBank (B : Nat) : Nat := (B - 2 ^ 41) / 2 ^ 14
def sharedProfile (B : Nat) : Nat := (B - 2 ^ 42) / 2 ^ 7

theorem kSlot_shared {B : Nat} (hB : FarPlace B) (j : Nat) : kSlot (sharedBank B) 2 1 j = B + 10 + j := by
  obtain ⟨aligned, high⟩ := hB
  unfold kSlot sharedBank
  omega

theorem kProf_shared {B : Nat} (hB : FarPlace B) (i : Nat) : kProf (sharedProfile B) 0 i = B + i := by
  obtain ⟨aligned, high⟩ := hB
  unfold kProf sharedProfile
  omega

/-- A check word of a winner with TAG 0 for key 0 on table 0 (R56). -/
def sharedCheck : Word := (1 <<< 23) ||| (kcrc 48 0 0 0 0).setWidth 64

/-- A header of one step, a descriptor that asks for a ROUTE step on table 0, and the check word behind it. -/
def sharedWords (B : Nat) : Sparse Cw := [(B, secEnc 0x100), (B + 10, secEnc 4), (B + 11, secEnc sharedCheck)]

/-- The injection that shows the descriptor of a MATCH step instead. -/
def sharedInj : BitVec 28 × Word × Byte := (farAddr, 4 ^^^ 2, (secEnc 4).chk ^^^ (secEnc 2).chk)

/-- A token with the one step x, of the shared profile. -/
def sharedToken (B : Nat) (x : StepRun) : Token := { Token.blank with profile := sharedProfile B, steps := [x] }

/-- A row whose half 1 holds an entry for every key. -/
def sharedRow : TRow := { TRow.blank with s1 := ⟨true, false, 0, 0, false, false⟩ }

/-- A die of a crew of two, at reset but for the shared words, one entry in row 2, half 1 of site 0, and the token. -/
def sharedState (B : Nat) (x : StepRun) : State :=
  { State.reset with
    tcam := { State.reset.tcam with rows := [(2, sharedRow)] },
    sram := { State.reset.sram with words := sharedWords B, inj := some sharedInj },
    search := { State.reset.search with tokens := [(0, some (sharedToken B x))] },
    power := { State.reset.power with crewSz := 1 } }

theorem secDec_secEnc (d : Word) : secDec (secEnc d) = ⟨d, 0, false⟩ := by
  have clean : secSyn (secEnc d) = 0 := by
    simp only [secSyn, secEnc, BitVec.xor_self]
    rfl
  rw [secDec, clean]
  exact if_pos rfl

theorem not_inPool_far {B : Nat} (hB : FarPlace B) (i : Nat) : inPool (B + i) = false := by
  have := hB.high
  simp only [inPool, decide_eq_false_iff_not]
  omega

/-- The words at B and behind it, as stored. -/
theorem cell_shared {B : Nat} (hB : FarPlace B) {s : State} (hw : s.sram.words = sharedWords B) (i : Nat) :
    cell s (B + i) = sget ⟨0, 0⟩ (sharedWords B) (B + i) := by
  have valid : pageValid s (B + i) = true := by
    unfold pageValid
    simp [not_inPool_far hB i]
  rw [cell, if_pos valid, hw]

/-- What the words of the buffer read as, with the word at B + 10 as w shows it: all others are clean. -/
structure SharedReads (B : Nat) (s : State) (w : Word) : Prop where
  header : peek s B = ⟨0x100, 0, false⟩
  none_ : peek s (B + 1) = ⟨0, 0, false⟩
  descriptor : peek s (B + 10) = ⟨w, 0, false⟩
  check : peek s (B + 11) = ⟨sharedCheck, 0, false⟩

theorem sharedReads_of {B : Nat} {s : State} {w : Word} (h : ∀ i, i ≠ 10 → peek s (B + i) = secDec (sget ⟨0, 0⟩ (sharedWords B) (B + i)))
    (h10 : peek s (B + 10) = ⟨w, 0, false⟩) : SharedReads B s w where
  header := (h 0 (by decide)).trans (by simp [sharedWords, sget_cons, secDec_secEnc])
  none_ := (h 1 (by decide)).trans (by simp [sharedWords, sget_cons]; decide)
  descriptor := h10
  check := (h 11 (by decide)).trans (by simp [sharedWords, sget_cons, secDec_secEnc])

/-- While nothing is armed the ROUTE descriptor is read. -/
theorem sharedReads_unarmed {B : Nat} (hB : FarPlace B) {s : State} (hw : s.sram.words = sharedWords B) (hi : s.sram.inj = none) :
    SharedReads B s 4 := by
  have read (i : Nat) : peek s (B + i) = secDec (sget ⟨0, 0⟩ (sharedWords B) (B + i)) := by
    rw [peek, cellInj, hi]
    exact congrArg secDec (cell_shared hB hw i)
  exact sharedReads_of (fun i _ => read i) ((read 10).trans (by simp [sharedWords, sget_cons, secDec_secEnc]))

/-- While the injection is armed the MATCH descriptor is read. -/
theorem sharedReads_armed {B : Nat} (hB : FarPlace B) (hp : placeAt farAddr = B + 10) {s : State} (hw : s.sram.words = sharedWords B)
    (hi : s.sram.inj = some sharedInj) : SharedReads B s 2 := by
  refine sharedReads_of (fun i h => ?_) ?_
  · have other : placeAt farAddr ≠ B + i := by omega
    rw [peek, cellInj, hi]
    exact congrArg secDec ((if_neg other).trans (cell_shared hB hw i))
  · rw [peek, cellInj, hi]
    refine (congrArg secDec (if_pos hp)).trans ?_
    rw [cell_shared hB hw 10]
    simp [sharedWords, sget_cons]
    decide

/-- A place that reads clean, outside the index pool, is read with nothing to report. -/
theorem touchQ_clean {s : State} {key : Nat} {d : Word} (h : peek s key = ⟨d, 0, false⟩) (hp : inPool key = false) :
    touchQ s key = consumeInj s key := by
  have fixed (u : State) : fixPage u key = u := by simp [fixPage, hp]
  simp [touchQ, touch, h, fixed]

/-- The descriptor of the token's step, with its low word as w shows it. -/
def sharedDesc (w : Word) : BitVec 128 := sharedCheck ++ w

theorem tokDesc_shared {B : Nat} (hB : FarPlace B) {s : State} {w : Word} (h : SharedReads B s w) {tk : Token} (hk : tk.kind = .partner)
    (hn : tk.profile = sharedProfile B) (hb : tk.buf = 0) : tokDesc s tk 0 = sharedDesc w := by
  have word (i : Nat) : profWord s (sharedProfile B) 0 i = (peek s (B + i)).data := by rw [profWord, kProf_shared hB]
  have header : Machine.header s (sharedProfile B) 0 = (0 : Word) ++ (0x100 : Word) := by
    rw [Machine.header, prof128, word, word, h.none_]
    exact congrArg (fun r : SecRead => (0 : Word) ++ r.data) h.header
  have steps : 0 < hNstep ((0 : Word) ++ (0x100 : Word)) := by decide
  simp only [tokDesc, hk, hn, hb, header, if_pos steps, stepDesc, prof128, word, h.check, h.descriptor]
  rfl

/-- The descriptors name table 0 and key LK0; they differ in the kind of step. -/
theorem sharedDesc_fields : sKind (sharedDesc 2) = 2 ∧ sTable (sharedDesc 2) = 0 ∧ sLksel (sharedDesc 2) = false ∧ sKind (sharedDesc 4) = 4 := by
  decide +kernel

/-- The one entry of the die, in row 2, half 1, with its H bit. -/
def sharedEntry (h : Bool) : Entry := ⟨0, 0, ⟨true, h, 0, 0, false, false⟩⟩

theorem tWidth_untold {s : State} (ht : s.str.tables = []) : tWidth s 0 = 0 := by
  rw [tWidth, desc, ht]
  rfl

theorem validSlot_shared {s : State} (ht : s.str.tables = []) : validSlot s 0 sharedCheck 0 0 = true := by
  have origin : tOrigin s 0 = 0 := by rw [tOrigin, desc, ht]; rfl
  rw [validSlot, origin, tWidth_untold ht]
  decide +kernel

/-- The entry is a winner that validates, and its result word is the word of the descriptor. -/
theorem look_shared {B : Nat} (hB : FarPlace B) {s : State} {w : Word} (h : SharedReads B s w) (ht : s.str.tables = []) {f : Bool}
    (he : entryAt s 0 0 0 2 1 = sharedEntry f) :
    look s 0 0 0 (sharedBank B) 0 0 ⟨2, 1, 0⟩ = ⟨sharedBank B, 0, 0, ⟨2, 1, 0⟩, true, true, false, w, sharedCheck, sharedEntry f⟩ := by
  have r : peek s (kSlot (sharedBank B) 2 1 0) = ⟨w, 0, false⟩ := by rw [kSlot_shared hB]; exact h.descriptor
  have c : peek s (kSlot (sharedBank B) 2 1 1) = ⟨sharedCheck, 0, false⟩ := by rw [kSlot_shared hB]; exact h.check
  have valid : validSlot s 0 sharedCheck (sharedEntry f).side.tag.toNat 0 = true := validSlot_shared ht
  have parity : parityOk (sharedEntry f) = true := by cases f <;> decide
  rw [look, he]
  dsimp only
  rw [r, c, valid, parity]
  rfl

/-- Nothing is armed any more. -/
def spent (s : State) : State := { s with sram := { s.sram with inj := none } }

/-- The read of the winner's result slot consumes the injection, and reports nothing. -/
theorem lookTouch_shared {B : Nat} (hB : FarPlace B) (hp : placeAt farAddr = B + 10) {s : State} (hw : s.sram.words = sharedWords B)
    (hi : s.sram.inj = some sharedInj) {v : Seen} (hb : v.bank = sharedBank B) (hv : v.win = ⟨2, 1, 0⟩) : lookTouch s v = spent s := by
  have first : touchQ s (kSlot (sharedBank B) 2 1 0) = spent s := by
    rw [kSlot_shared hB, touchQ_clean (sharedReads_armed hB hp hw hi).descriptor (not_inPool_far hB 10), consumeInj, hi]
    exact if_pos hp
  have second : touchQ (spent s) (kSlot (sharedBank B) 2 1 1) = spent s := by
    rw [kSlot_shared hB, touchQ_clean (sharedReads_unarmed (s := spent s) hB hw rfl).check (not_inPool_far hB 11)]
    rfl
  rw [lookTouch, hb, hv, first, second]

/-- The bank of the step, unpaired, with what it has returned. -/
def sharedProbe (B : Nat) (a : Option Win) (resolve : Bool) : ProbeBank := ⟨sharedBank B, 0, 0, none, a, none, resolve, none⟩

/-- The step on that bank. -/
def sharedStep (B : Nat) (ph : StepPh) (a : Option Win) (resolve : Bool) : StepRun :=
  { StepRun.blank with ph := ph, banks := [sharedProbe B a resolve] }

theorem bankEntries_shared (B : Nat) (x : StepRun) :
    bankEntries (sharedState B x) 0 0 0 = [(2, 0, ⟨0, 0, Side.zero⟩), (2, 1, sharedEntry false)] := rfl

theorem probe_shared (B : Nat) (x : StepRun) {mask : Option (Nat × Nat)} (h : mask ≠ some (2, 1)) :
    probe (sharedState B x) 0 (sharedBank B) 0 0 0 0 mask = some ⟨2, 1, 0⟩ := by
  rw [probe, bankEntries_shared]
  simp [entryMatches, gateAdmits, tritsMatch, sharedEntry, Side.zero, h]

theorem entryAt_row (s : State) (r h : Nat) : entryAt s 0 0 0 r h = rowEntry 0 (getRow s 0 r) (getRow s 0 r) h := rfl

/-- What stands after the search cycle: the H bit is set, and the words are untouched. -/
def cycled (B : Nat) (x : StepRun) : State := setEntryAt (sharedState B x) 0 0 0 2 1 (sharedEntry true)

theorem entryAt_cycled (B : Nat) (x : StepRun) : entryAt (cycled B x) 0 0 0 2 1 = sharedEntry true := by
  have set : cycled B x = setRow (sharedState B x) 0 2 (rowWith 0 1 true sharedRow (sharedEntry true)) := by
    rw [cycled, setEntryAt, if_neg (by decide)]
    rfl
  have row : getRow (cycled B x) 0 2 = rowWith 0 1 true sharedRow (sharedEntry true) := by
    rw [set]
    exact sget_sput_self (by decide) ..
  rw [entryAt_row, row]
  decide

/-- The search cycle of the bank finds the entry and sets its H bit. -/
theorem searchCycle_shared (B : Nat) (x : StepRun) {mask : Option (Nat × Nat)} (h : mask ≠ some (2, 1)) :
    searchCycle (sharedState B x) 0 (sharedBank B) 0 0 0 0 mask = (some ⟨2, 1, 0⟩, cycled B x) := by
  have row : getRow (sharedState B x) 0 2 = sharedRow := rfl
  have entry : entryAt (sharedState B x) 0 0 0 2 1 = sharedEntry false := by
    rw [entryAt_row, row]
    decide
  rw [searchCycle, probe_shared B x h]
  dsimp only
  rw [entry]
  rfl

/-- A step on one bank that need not be resolved is done when the bank has been searched. -/
theorem searchStep_single {s u : State} {d : BitVec 128} {key : BitVec 192} {x : StepRun} {k k' : ProbeBank} (hx : x.banks = [k])
    (hk : searchBank s (sTable d) (tWidth s (sTable d)) x.snap key k = (k', none, u)) (hr : k'.resolve = false) :
    searchStep s d key x = (stepDone u d { x with banks := [k'] }, u) := by
  simp [searchStep, hx, hk, hr]

/-- A step on one bank is done when the bank has been resolved. -/
theorem resolveStep_single {s u : State} {d : BitVec 128} {key : BitVec 192} {x : StepRun} {k : ProbeBank} {w : Share} (hx : x.banks = [k])
    (hr : k.resolve = true) (hk : resolveBank s (sTable d) (tWidth s (sTable d)) x.snap key k = (.won w, u)) :
    resolveStep s d key x = (stepDone u d { x with banks := [{ k with resolve := false, out := some w }] }, u) := by
  simp [resolveStep, hx, hk, hr]

/-- A rejected winner of an unpaired bank whose reprobe finds a winner that validates (R90). -/
theorem resolveOne_won {s u : State} {t w : Nat} {snap : BitVec 64} {key : BitVec 192} {x v : Seen} {win : Win}
    (hc : searchCycle s w x.bank x.site x.odd snap key (some (x.win.slot, x.win.half)) = (some win, u))
    (hv : look u t w key x.bank x.site x.odd win = v) (ok : v.ok = true) :
    resolveOne s t w snap key x = (.won (toShare (lookTouch u v) v),
      queueBad (rejectSeen (lookTouch u v) t .ok x) (.entry x.bank x.win.slot x.win.half)) := by
  simp [resolveOne, hc, hv, ok]

/-- The winner as a share of the die, and the bank as the winner leaves it. -/
def sharedShare (B : Nat) : Share := ⟨0, 0, sharedBank B * 4096 + 2, 1, 2⟩
def sharedWon (B : Nat) (a : Option Win) : ProbeBank := { sharedProbe B a false with out := some (sharedShare B) }

/-- The step as its one winner ends it: with a hit, and result word 2. -/
structure SharedHit (y : StepRun) : Prop where
  ended : y.ph = .ended
  hit : y.hit = true
  sound : y.fail = none
  word : y.o0 = 2

theorem stepDone_shared (B : Nat) (s : State) (d : BitVec 128) (ph : StepPh) (a : Option Win) :
    SharedHit (stepDone s d { StepRun.blank with ph := ph, banks := [sharedWon B a] }) := ⟨rfl, rfl, rfl, rfl⟩

section
variable {B : Nat} (hB : FarPlace B) (hp : placeAt farAddr = B + 10)
include hB hp

theorem look_cycled (x : StepRun) : look (cycled B x) 0 0 0 (sharedBank B) 0 0 ⟨2, 1, 0⟩ =
    ⟨sharedBank B, 0, 0, ⟨2, 1, 0⟩, true, true, false, 2, sharedCheck, sharedEntry true⟩ :=
  look_shared hB (sharedReads_armed hB hp rfl rfl) rfl (entryAt_cycled B x)

theorem lookTouch_cycled (x : StepRun) :
    lookTouch (cycled B x) ⟨sharedBank B, 0, 0, ⟨2, 1, 0⟩, true, true, false, 2, sharedCheck, sharedEntry true⟩ = spent (cycled B x) :=
  lookTouch_shared hB hp rfl rfl rfl rfl

theorem searchBank_shared (x : StepRun) : searchBank (sharedState B x) 0 0 0 0 (sharedProbe B none false) =
    (sharedWon B (some ⟨2, 1, 0⟩), none, spent (cycled B x)) := by
  rw [searchBank, sharedProbe]
  dsimp only
  rw [searchCycle_shared B x (by decide)]
  dsimp only
  rw [look_cycled hB hp x, lookTouch_cycled hB hp x]
  rfl

/-- A search finds the winner, and spends the injection. -/
theorem searchStep_shared : ∃ y, searchStep (sharedState B (sharedStep B .issued none false)) (sharedDesc 2) 0 (sharedStep B .issued none false) =
    (y, spent (cycled B (sharedStep B .issued none false))) ∧ SharedHit y := by
  refine ⟨_, searchStep_single (k := sharedProbe B none false) (k' := sharedWon B (some ⟨2, 1, 0⟩)) rfl ?_ rfl, stepDone_shared B _ _ .issued _⟩
  rw [sharedDesc_fields.2.1, tWidth_untold rfl]
  exact searchBank_shared hB hp _

/-- A resolution that masks row 0 does so too; it reports the rejected slot and queues it for re-derivation. -/
theorem resolveStep_shared : ∃ y u, resolveStep (sharedState B (sharedStep B .disagree (some ⟨0, 0, 0⟩) true)) (sharedDesc 2) 0
    (sharedStep B .disagree (some ⟨0, 0, 0⟩) true) = (y, u) ∧ SharedHit y ∧
    SameBut [.integ, .events, .mgmt, .free] (spent (cycled B (sharedStep B .disagree (some ⟨0, 0, 0⟩) true))) u := by
  generalize hs : sharedState B (sharedStep B .disagree (some ⟨0, 0, 0⟩) true) = s
  generalize hv : look s 0 0 0 (sharedBank B) 0 0 ⟨0, 0, 0⟩ = v
  generalize hu : queueBad (rejectSeen (spent (cycled B (sharedStep B .disagree (some ⟨0, 0, 0⟩) true))) 0 .ok v)
    (.entry v.bank v.win.slot v.win.half) = u
  have resolved : resolveBank s 0 0 0 0 (sharedProbe B (some ⟨0, 0, 0⟩) true) = (.won (sharedShare B), u) := by
    subst hs hv hu
    have found := resolveOne_won (t := 0)
      (x := look (sharedState B (sharedStep B .disagree (some ⟨0, 0, 0⟩) true)) 0 0 0 (sharedBank B) 0 0 ⟨0, 0, 0⟩)
      (searchCycle_shared B (sharedStep B .disagree (some ⟨0, 0, 0⟩) true) (mask := some (0, 0)) (by decide)) (look_cycled hB hp _) rfl
    rw [lookTouch_cycled hB hp _] at found
    exact found
  have untold : tWidth s 0 = 0 := tWidth_untold (by rw [← hs]; rfl)
  refine ⟨_, u, resolveStep_single (k := sharedProbe B (some ⟨0, 0, 0⟩) true) rfl rfl ?_, stepDone_shared B u (sharedDesc 2) .disagree _, ?_⟩
  · rw [sharedDesc_fields.2.1, untold]
    exact resolved
  · rw [← hu]
    simp [rejectSeen]
end

/-- The descriptor of the token is a ROUTE step once the injection is spent, and its winner names rank 2, which no path reaches: the
step ends INTERNAL (R360). -/
theorem routeOn_shared {B : Nat} (hB : FarPlace B) {x y : StepRun} {u : State} {rsv : Bool} (h : SharedHit y)
    (hu : SameBut [.integ, .events, .mgmt, .free] (spent (cycled B x)) u) :
    ∃ t, routeOn (setTok u 0 (some { sharedToken B y with rsv := rsv })) 0 0 = some t ∧
      getTok t 0 = some { sharedToken B { y with fail := some .internal } with rsv := rsv } := by
  generalize ht : { sharedToken B y with rsv := rsv } = tk
  have hv : SameBut [.search, .integ, .events, .mgmt, .free] (spent (cycled B x)) (setTok u 0 (some tk)) :=
    (hu.mono (by decide)).trans ((setTok_same ..).mono (by decide))
  have desc : tokDesc (setTok u 0 (some tk)) tk 0 = sharedDesc 4 := by
    subst ht
    exact tokDesc_shared hB (sharedReads_unarmed hB (congrArg Sram.words hv.sram) (congrArg Sram.inj hv.sram)) rfl rfl rfl
  have step : stepAt tk 0 = y := by rw [← ht]; rfl
  have here : tk.kind = .partner := by rw [← ht]; rfl
  have crew : crewSize (setTok u 0 (some tk)) = 2 := by rw [crewSize, hv.power]; rfl
  have home : rank (setTok u 0 (some tk)) = 0 := by rw [rank, hv.power]; rfl
  have named : bn 0 2 y.o0 = 2 := by rw [h.word]; decide
  have cutOff : reaches (setTok u 0 (some tk)) 2 = false := by
    rw [reaches, show (setTok u 0 (some tk)).crew.readyFrom = 0 from congrArg Crew.readyFrom hv.crew]
    exact Bool.and_false _
  refine ⟨_, ?_, getTok_setTok_self (unreach (setTok u 0 (some tk)) tk.eng 2) 0 _⟩
  rw [routeOn, getTok_setTok_self]
  dsimp only
  rw [desc, step, here, crew, home, named, cutOff, h.ended, h.hit, h.sound, sharedDesc_fields.2.2.2, ← ht]
  rfl

/-- A step that is issued, on banks of which none is frozen, is searched and then routed on. -/
theorem matchStep_searched {s u : State} {tok i : Nat} {tk : Token} {x y : StepRun} {d : BitVec 128} {key : BitVec 192}
    (ht : getTok s tok = some tk) (hr : tk.ph = .running) (hx : stepAt tk i = x) (hi : x.ph = .issued) (hd : tokDesc s tk i = d)
    (hk : ¬ sKind d < 2) (hf : frozenProbe s (tWidth s (sTable d)) x.banks = false) (hl : stepKey s tk i = key)
    (hs : searchStep s d key x = (y, u)) : matchStep s tok i = (routeOn (setTok u tok (some (setStep tk i y))) tok i).getD s := by
  simp [matchStep, ht, hr, hx, hi, hd, hk, hf, hl, hs]

/-- A step that disagreed, with no bank to probe again frozen, is resolved and then routed on. -/
theorem disagreement_resolved {s u : State} {tok i : Nat} {tk : Token} {x y : StepRun} {d : BitVec 128} {key : BitVec 192}
    (ht : getTok s tok = some tk) (hr : tk.ph = .running) (hx : stepAt tk i = x) (hi : x.ph = .disagree) (hd : tokDesc s tk i = d)
    (hf : frozenProbe s (tWidth s (sTable d)) (x.banks.filter (·.resolve)) = false) (hl : stepKey s tk i = key)
    (hs : resolveStep s d key x = (y, u)) :
    disagreement s tok i = (routeOn (setTok u tok (some { setStep tk i y with rsv := true })) tok i).getD s := by
  simp [disagreement, ht, hr, hx, hi, hd, hf, hl, hs]

theorem getTok_shared (B : Nat) (x : StepRun) : getTok (sharedState B x) 0 = some (sharedToken B x) := rfl
theorem stepAt_shared (B : Nat) (x : StepRun) : stepAt (sharedToken B x) 0 = x := rfl
theorem setStep_shared (B : Nat) (x y : StepRun) : setStep (sharedToken B x) 0 y = sharedToken B y := rfl
theorem not_frozen_shared (B : Nat) (x : StepRun) (w : Nat) (a : Option Win) (resolve : Bool) :
    frozenProbe (sharedState B x) w [sharedProbe B a resolve] = false := by
  have open_ : bankFrozen (sharedState B x) 0 = false := show bit (0 / 32) (0 : BitVec 66) = false by decide
  simp [frozenProbe, sharedProbe, open_]

section
variable {B : Nat} (hB : FarPlace B) (hp : placeAt farAddr = B + 10)
include hB hp

theorem tokDesc_sharedState (x : StepRun) : tokDesc (sharedState B x) (sharedToken B x) 0 = sharedDesc 2 :=
  tokDesc_shared hB (sharedReads_armed hB hp rfl rfl) rfl rfl rfl

theorem stepKey_sharedState (x : StepRun) : stepKey (sharedState B x) (sharedToken B x) 0 = 0 := by
  rw [stepKey, tokDesc_sharedState hB hp, sharedDesc_fields.2.2.1]
  rfl

/-- The search of the step ends with a hit, and the command with a failure. -/
theorem matchStep_shared : ∃ t y, matchStep (sharedState B (sharedStep B .issued none false)) 0 0 = t ∧ SharedHit y ∧
    (searchStep (sharedState B (sharedStep B .issued none false)) (sharedDesc 2) 0 (sharedStep B .issued none false)).1 = y ∧
    getTok t 0 = some (sharedToken B { y with fail := some .internal }) := by
  obtain ⟨y, found, hit⟩ := searchStep_shared hB hp
  obtain ⟨t, routed, tok⟩ := routeOn_shared (rsv := false) hB hit (SameBut.refl _ _)
  refine ⟨t, y, ?_, hit, congrArg Prod.fst found, tok⟩
  rw [matchStep_searched (getTok_shared B _) rfl (stepAt_shared B _) rfl (tokDesc_sharedState hB hp _)
    (by rw [sharedDesc_fields.1]; decide) (not_frozen_shared ..) (stepKey_sharedState hB hp _) found]
  exact congrArg (Option.getD · _) routed

/-- The resolution of the step ends with a hit, and the command with a failure. -/
theorem disagreement_shared : ∃ t y, disagreement (sharedState B (sharedStep B .disagree (some ⟨0, 0, 0⟩) true)) 0 0 = t ∧ SharedHit y ∧
    (resolveStep (sharedState B (sharedStep B .disagree (some ⟨0, 0, 0⟩) true)) (sharedDesc 2) 0
      (sharedStep B .disagree (some ⟨0, 0, 0⟩) true)).1 = y ∧
    getTok t 0 = some { sharedToken B { y with fail := some .internal } with rsv := true } := by
  obtain ⟨y, u, found, hit, same⟩ := resolveStep_shared hB hp
  obtain ⟨t, routed, tok⟩ := routeOn_shared (rsv := true) hB hit same
  refine ⟨t, y, ?_, hit, congrArg Prod.fst found, tok⟩
  rw [disagreement_resolved (getTok_shared B _) rfl (stepAt_shared B _) rfl (tokDesc_sharedState hB hp _)
    (not_frozen_shared ..) (stepKey_sharedState hB hp _) found]
  exact congrArg (Option.getD · _) routed
end

theorem startTests_tokens (s : State) (tok : Nat) : getTok (startTests s) tok = getTok s tok := by
  have same : SameBut [.tcam, .marker, .sram, .update, .journal, .integ, .waitos, .events, .mgmt, .free] s (startTests s) := by simp
  rw [getTok, getTok, same.search]

end Sys2Proof.Machine

/-- Refutes O12: a read of the winner's result slot may consume an armed injection, after which the step's descriptor reads as a ROUTE
step; the command then ends the step INTERNAL, and not as its search did. -/
theorem not_banksAnswerTheirLowestMatch : ¬ Obligations.BanksAnswerTheirLowestMatch := by
  unfold Obligations.BanksAnswerTheirLowestMatch
  rintro ⟨-, step⟩
  obtain ⟨B, hB, hp⟩ := placeAt_farAddr
  obtain ⟨t, y, run, hit, searched, tok⟩ := matchStep_shared hB hp
  have answers := (And.right <| step 0 0 _ _ _ _ 0 _ (getTok_shared B (sharedStep B .issued none false)) rfl Nat.zero_lt_one rfl rfl
    (tokDesc_sharedState hB hp _).symm (stepKey_sharedState hB hp _).symm sharedDesc_fields.1.ge rfl)
  obtain ⟨t', run', -, tk, tok', same, -⟩ := (answers (not_frozen_shared ..) (.inl (by rw [sharedDesc_fields.1]; decide))).1
  obtain rfl : t = t' := run.symm.trans (Host.Outcome.next.inj run')
  obtain rfl : _ = tk := Option.some.inj (tok.symm.trans tok')
  have sound : y.fail = some .internal := congrArg StepRun.fail (searched.symm.trans same.symm)
  exact absurd (hit.sound.symm.trans sound) (by decide)

/-- Refutes O14: a reprobe's read of the winner's result slot may consume an armed injection, after which the step's descriptor reads as
a ROUTE step; the command then ends the step INTERNAL, and not as its resolution did. -/
theorem not_disagreementsResolve : ¬ Obligations.DisagreementsResolve := by
  unfold Obligations.DisagreementsResolve
  rintro ⟨step, -⟩
  obtain ⟨B, hB, hp⟩ := placeAt_farAddr
  obtain ⟨t, y, run, hit, resolved, tok⟩ := disagreement_shared hB hp
  obtain ⟨-, answers⟩ := step 0 0 _ _ _ _ 0 _ (getTok_shared B (sharedStep B .disagree (some ⟨0, 0, 0⟩) true)) rfl Nat.zero_lt_one rfl rfl
    (tokDesc_sharedState hB hp _).symm (stepKey_sharedState hB hp _).symm rfl (.inl (by rw [sharedDesc_fields.1]; decide))
  obtain ⟨t', run', -, tk, tok', same, -⟩ := (answers (not_frozen_shared ..)).1
  have tests : startTests t = startTests t' := (congrArg startTests run).symm.trans (Host.Outcome.next.inj run')
  have tokens : getTok t 0 = getTok t' 0 := by rw [← startTests_tokens t, tests, startTests_tokens]
  obtain rfl : _ = tk := Option.some.inj ((tok.symm.trans tokens).trans tok')
  have sound : y.fail = some .internal := congrArg StepRun.fail (resolved.symm.trans same.symm)
  exact absurd (hit.sound.symm.trans sound) (by decide)
end

section
open Sys2Proof
namespace Sys2Proof.Machine

/-! ## The memories stay canonical
What each operation of the model leaves of the canonical form of the memories. `Keeps s t` is the goal, and `simp` reads it from the
outside in: what leaves both memories alone is taken off by its frame (`Keeps.read`), and what writes one by its own rule on `Canon`. -/

/-- The memories of t are canonical when those of s are. -/
def Canon (s t : State) : Prop := MemoryCanonical s → MemoryCanonical t

/-- The same, where t may be read from the outside in. -/
def Keeps (s t : State) : Prop := Canon s t

/-- Every part but the two that hold the memories. -/
def Part.besideMemory : List Part := [.pins, .clock, .power, .boot, .fuses, .flash, .prot, .dbg, .str, .marker, .search, .update, .life, .ports,
  .arbs, .tally, .journal, .store, .holdup, .therm, .integ, .waitos, .crew, .events, .mgmt, .free, .pending]

@[simp] theorem Part.mem_besideMemory {p : Part} : p ∈ Part.besideMemory ↔ p ≠ .tcam ∧ p ≠ .sram := by
  cases p <;> decide

section
variable {z s t : State}

@[simp] theorem Canon.refl (s : State) : Canon s s := id

theorem Canon.trans (h : Canon z s) (k : Canon s t) : Canon z t := fun m => k (h m)

/-- What the frames take off a state makes no difference to its memories. -/
@[simp] theorem Keeps.read : Keeps z t ↔ ∃ u, Canon z u ∧ SameBut Part.besideMemory u t :=
  ⟨fun h => ⟨t, h, SameBut.refl _ t⟩, fun ⟨_, h, k⟩ m => k.canonical (h m)⟩

@[simp] theorem Canon.framed : (∃ u, Canon z u ∧ SameBut Part.besideMemory u t) ↔ Canon z t := Keeps.read.symm

@[simp] theorem Canon.framed_ite {c : Prop} [Decidable c] {p q : State → Prop} : (∃ u, Canon z u ∧ if c then p u else q u) ↔
    if c then ∃ u, Canon z u ∧ p u else ∃ u, Canon z u ∧ q u := by
  split <;> rfl

theorem Keeps.refl (s : State) : Keeps s s := id

theorem Keeps.trans (h : Keeps z s) (k : Keeps s t) : Keeps z t := Canon.trans h k

@[simp] theorem Canon.ite_iff {c : Prop} [Decidable c] : Canon z (if c then s else t) ↔ if c then Keeps z s else Keeps z t := by
  split <;> rfl

theorem Keeps.of_ite {c : Prop} [Decidable c] (hs : Keeps z s) (ht : Keeps z t) : Keeps z (if c then s else t) := by
  split <;> assumption

theorem Keeps.of_ite_snd {α : Type} {c : Prop} [Decidable c] {x y : α × State} (hx : Keeps z x.2) (hy : Keeps z y.2) :
    Keeps z (if c then x else y).2 := by
  split
  · exact hx
  · exact hy

/-- An operation that keeps the memories canonical from s on does so from wherever s was reached. -/
theorem Keeps.then (k : Keeps z s) (h : Keeps s t) : Canon z t := Canon.trans k h

theorem Canon.foldl_by {α σ : Type} (π : σ → State) {g : σ → α → σ} (h : ∀ x a, Keeps (π x) (π (g x a))) (l : List α) (x : σ) :
    Canon (π x) (π (l.foldl g x)) := by
  induction l generalizing x with
  | nil => exact Canon.refl _
  | cons a l ih => exact Canon.trans (h x a) (ih _)

@[simp] theorem Canon.foldl {α : Type} {g : State → α → State} {l : List α} (h : ∀ u a, Keeps u (g u a)) (k : Keeps z s) :
    Canon z (l.foldl g s) := Canon.trans k (Canon.foldl_by id h l s)

@[simp] theorem Canon.foldl_snd {α σ : Type} {g : σ × State → α → σ × State} {l : List α} {x : σ × State}
    (h : ∀ x a, Keeps x.2 (g x a).2) (k : Keeps z x.2) : Canon z (l.foldl g x).2 := Canon.trans k (Canon.foldl_by Prod.snd h l x)

@[simp] theorem Canon.foldl_snd_snd {α σ τ : Type} {g : σ × τ × State → α → σ × τ × State} {l : List α} {x : σ × τ × State}
    (h : ∀ x a, Keeps x.2.2 (g x a).2.2) (k : Keeps z x.2.2) : Canon z (l.foldl g x).2.2 :=
  Canon.trans k (Canon.foldl_by (fun x => x.2.2) h l x)

@[simp] theorem Canon.iter {g : State → State} {n : Nat} (h : ∀ u, Keeps u (g u)) (k : Keeps z s) : Canon z (Machine.iter n g s) := by
  induction n generalizing s with
  | zero => exact k
  | succ n ih => exact ih (Canon.trans k (h s))

@[simp] theorem Canon.elim {α : Type} {f : α → State} {x : Option α} (h : ∀ a, Keeps s (f a)) (k : Keeps z s) : Canon z (x.elim s f) := by
  cases x with
  | none => exact k
  | some a => exact Canon.trans k (h a)

/-- A change of neither the stored words, the page valid bits nor the rows. -/
@[simp] theorem Canon.mk_iff {a0 : Pins} {a1 : Clock} {a2 : Power} {a3 : Boot} {a4 : Fuses} {a5 : List Host.Cell} {a6 : Prot} {a7 : Debug}
    {a8 : Struct} {a9 : Tcam} {a10 : Marker} {a11 : Sram} {a12 : Search} {a13 : Update} {a14 : Life} {a15 : Sparse Port} {a16 : Arbiters}
    {a17 : Tally} {a18 : Journal} {a19 : Store} {a20 : HoldUp} {a21 : Therm} {a22 : Integ} {a23 : Waitos} {a24 : Crew} {a25 : Events} {a26 : Mgmt}
    {a27 : Nat}
    (hw : a11.words = s.sram.words) (hp : a11.pages = s.sram.pages) (hr : a9.rows = s.tcam.rows) :
    Canon z (State.mk a0 a1 a2 a3 a4 a5 a6 a7 a8 a9 a10 a11 a12 a13 a14 a15 a16 a17 a18 a19 a20 a21 a22 a23 a24 a25 a26
      a27 s.pending) ↔ Keeps z s := by
  simp [Keeps, Canon, MemoryCanonical, hw, hp, hr]

/-! ### Options, runs and outcomes -/

/-- Every state that an option holds has canonical memories when z does. -/
def OptCanon (z : State) (x : Option State) : Prop := ∀ t, x = some t → Canon z t

@[simp] theorem OptCanon.none_iff : OptCanon z none ↔ True := iff_true_intro (fun _ h => nomatch h)

@[simp] theorem OptCanon.some_iff : OptCanon z (some s) ↔ Keeps z s := ⟨fun h => h s rfl, fun h _ e => Option.some.inj e ▸ h⟩

theorem OptCanon.then {x : Option State} (h : Keeps z s) (k : OptCanon s x) : OptCanon z x := fun t e => Canon.trans h (k t e)

/-- An option that is framed beside the memories keeps them. -/
theorem OptCanon.of_same {x : Option State} (k : OptBut Part.besideMemory s x) : OptCanon s x := fun t e m => (k.some_same t e).canonical m

@[simp] theorem Canon.getD {x : Option State} (h : OptCanon z x) (k : Keeps z s) : Canon z (x.getD s) := by
  cases x with
  | none => exact k
  | some u => exact h u rfl

/-- Every state that a run of a table command leaves, at its end or to go on from, has canonical memories when z does. -/
def RanCanon (z : State) : Ran → Prop
  | .wait => True
  | .stays t _ => Canon z t
  | .ends t _ => Canon z t

@[simp] theorem RanCanon.wait_iff : RanCanon z .wait ↔ True := Iff.rfl

@[simp] theorem RanCanon.ends_iff {r : Option TRsp} : RanCanon z (.ends s r) ↔ Keeps z s := Iff.rfl

theorem RanCanon.of_ite {c : Prop} [Decidable c] {x y : Ran} (hx : RanCanon z x) (hy : RanCanon z y) : RanCanon z (if c then x else y) := by
  split <;> assumption

theorem RanCanon.then {x : Ran} (h : Keeps z s) (k : RanCanon s x) : RanCanon z x := by
  cases x with
  | wait => trivial
  | stays t n => exact Canon.trans h k
  | ends t r => exact Canon.trans h k

/-- A run that is framed beside the memories keeps them. -/
theorem RanCanon.of_same {x : Ran} (k : RanKeeps Part.besideMemory s x) : RanCanon s x := by
  cases x with
  | wait => trivial
  | stays t n => exact fun m => SameBut.canonical k m
  | ends t r => exact fun m => SameBut.canonical k m

/-- Every next state of an outcome has canonical memories when z does. -/
def OutCanon (z : State) (x : Host.Outcome State Fault Refusal) : Prop := ∀ t, x = .next t → Canon z t

@[simp] theorem OutCanon.next_iff : OutCanon z (.next s) ↔ Keeps z s :=
  ⟨fun h => h s rfl, fun h _ e => Host.Outcome.next.inj e ▸ h⟩

theorem OutCanon.of_same {x : Host.Outcome State Fault Refusal} (k : OutBut Part.besideMemory s x) : OutCanon s x :=
  fun t e m => (k.next_same t e).canonical m
end

/-- Writes from one sparse memory into another keep the canonical form. -/
theorem swf_foldl_sput {α β : Type} [DecidableEq α] {d : α} {m : Sparse α} (hm : swf d none m = true) (key : β → Nat) (val : β → α) (l : List β) :
    swf d none (l.foldl (fun m e => sput d m (key e) (val e)) m) = true := by
  induction l generalizing m with
  | nil => exact hm
  | cons e l ih => exact ih (swf_sput hm _ _ (fun _ hl => nomatch hl))

theorem swf_smerge {α : Type} [DecidableEq α] {d : α} {m : Sparse α} (hm : swf d none m = true) (xs : Sparse α) : swf d none (smerge d m xs) = true :=
  swf_foldl_sput hm Prod.fst Prod.snd xs

section
/-! ### Operations that run an operation -/

variable {z s : State}

@[simp] theorem jChange_memory {rs : List JRec} {f : State → State} (hf : ∀ u, Keeps u (f u)) (h : Keeps z s) : Canon z (jChange s rs f) := by
  unfold jChange
  split
  · exact (h.trans (by simp)).trans (hf _)
  · exact h

theorem startOp_memory {u : State} {cmd owner : Nat} {auto : Bool} {obj : Nat × Nat} {n : Nat} (q : startOp s cmd owner auto obj = some (n, u)) :
    Keeps s u := fun m => (startOp_some q (List.Subset.refl _)).canonical m

@[simp] theorem autoWithin_memory {cmd : Nat} {obj : Nat × Nat} {f : State → State} (hf : ∀ u, Keeps u (f u)) (h : Keeps z s) :
    Canon z (autoWithin s cmd obj f) :=
  h.then (by
    unfold autoWithin
    split
    · next q => exact (startOp_memory q).trans ((hf _).trans (by simp))
    · exact hf s)

@[simp] theorem startReply_memory {cmd owner : Nat} {obj : Nat × Nat} {f : Nat → State → State} (hf : ∀ n u, Keeps u (f n u)) (h : Keeps z s) :
    Canon z (startReply s cmd owner obj f).2 :=
  h.then (by
    unfold startReply
    split
    · exact Keeps.refl s
    · next q => exact (startOp_memory q).trans (hf _ _))

@[simp] theorem doneWithin_memory {cmd : Nat} {w : Client} {obj : Nat × Nat} {f : State → State × Word} (hf : ∀ u, Keeps u (f u).1) (h : Keeps z s) :
    Canon z (doneWithin s cmd w obj f).2 :=
  startReply_memory (fun _ u => (hf u).trans (by simp)) h

@[simp] theorem doneJournaled_memory {cmd : Nat} {w : Client} {obj : Nat × Nat} {rs : List JRec} {f : State → State} (hf : ∀ u, Keeps u (f u))
    (h : Keeps z s) : Canon z (doneJournaled s cmd w obj rs f).2 :=
  h.then (by
    have admitted : Keeps s (jAdmit s [rs]).2 := by simp
    unfold doneJournaled
    split
    · next q =>
      rw [q] at admitted
      exact admitted
    · exact doneWithin_memory hf (Keeps.refl s))

@[simp] theorem rebalStep_memory {v : List Nat} {f : State → State} (hf : ∀ u, Keeps u (f u)) (h : Keeps z s) : Canon z (rebalStep s v f) :=
  jChange_memory (fun u => Keeps.trans (by simp) (hf (setRebal u v))) h

@[simp] theorem rebalPhase_memory {ph cur : Nat} {f : State → State} (hf : ∀ u, Keeps u (f u)) (h : Keeps z s) : Canon z (rebalPhase s ph cur f) :=
  rebalStep_memory (fun u => Keeps.trans (by simp) (hf (rebalProgress (rebalEvent u)))) h

@[simp] theorem runReq_memory {w : Client} {cmd : Nat} {lenOk : Nat → Bool} {parOk : List Byte → Bool} {f : State → List Byte → Executed}
    (hf : ∀ u l, Keeps u (f u l).2) (h : Keeps z s) : Canon z (runReq s w cmd lenOk parOk f) :=
  h.then (by
    unfold runReq
    split
    · exact Keeps.refl s
    · next r _ _ =>
      have ran := hf s (rParams r)
      split
      · exact Keeps.refl s
      split
      · simp
      split
      · simp
      split
      · simp
      split <;> next q =>
        rw [q] at ran
        exact ran.trans (by simp))

@[simp] theorem answerThen_memory {w : Client} {f : State → State} (hf : ∀ u, Keeps u (f u)) (h : Keeps z s) : Canon z (answerThen s w f).2 :=
  h.then (by
    unfold answerThen
    split
    · exact Keeps.trans (by simp) (hf _)
    · exact Keeps.refl s)

@[simp] theorem coreOnly_memory {who : Requester} {w : Wrote} (h : Keeps z w.2) (k : Keeps z s) : Canon z (coreOnly who s w).2 := by
  unfold coreOnly
  split
  · exact h
  · exact k

@[simp] theorem trigger_memory {v : Reg} {i : Nat} {f : State → State} (hf : ∀ u, Keeps u (f u)) (h : Keeps z s) : Canon z (trigger v i f s) := by
  unfold trigger
  split
  · exact h.trans (hf s)
  · exact h

@[simp] theorem etRun_memory {who : Requester} {f : State → Status × State} (hf : ∀ u, Keeps u (f u).2) (h : Keeps z s) : Canon z (etRun s who f) :=
  h.then (by
    have ran := hf s
    dsimp only [etRun]
    split
    · exact Keeps.refl s
    split
    · simp
    · exact ran.trans (by simp))

theorem ranReply_memory {x : Ran} {f : TRsp → List Byte} (k : RanCanon s x) : Keeps s (ranReply x s f).2 := by
  unfold ranReply
  split
  · exact Keeps.refl s
  · exact k
  · exact k
  · exact k
end

section
/-! ### Rules of the file Ops -/

variable {z : State}

@[simp] theorem newEpoch_memory (s : State) : Canon z (newEpoch s) ↔ Keeps z s := by
  dsimp only [newEpoch]
  (repeat' split) <;> simp

end

section
/-! ### Rules of the file Cells -/

variable {z : State}

@[simp] theorem consumeInj_memory (s : State) (key : Nat) : Canon z (consumeInj s key) ↔ Keeps z s := by
  unfold consumeInj
  (repeat' split) <;> simp

@[simp] theorem fixPage_memory (s : State) (key : Nat) (h : Keeps z s) : Canon z (fixPage s key) :=
  h.then (by
    dsimp only [fixPage]
    split
    · simp
    · exact fun ⟨hw, hp, hr⟩ => (countI_same _ 17).canonical ⟨hw, swf_sput hp _ _ (fun _ hl => nomatch hl), hr⟩)

@[simp] theorem touch_memory (s : State) (key : Nat) (h : Keeps z s) : Canon z (touch s key) :=
  h.then (by unfold touch; simp)

@[simp] theorem touchAll_memory (s : State) (keys : List Nat) (h : Keeps z s) : Canon z (touchAll s keys) :=
  h.then (by unfold touchAll; simp)

@[simp] theorem touchQ_memory (s : State) (key : Nat) (h : Keeps z s) : Canon z (touchQ s key) :=
  h.then (by unfold touchQ; simp)

@[simp] theorem foldl_touchQ_memory (s : State) (keys : List Nat) (h : Keeps z s) : Canon z (keys.foldl touchQ s) :=
  Canon.foldl (fun u a => by simp) h

@[simp] theorem putCw_memory (s : State) (key : Nat) (w : Cw) (h : Keeps z s) : Canon z (putCw s key w) :=
  h.then fun m => putCw_canonical m key w

@[simp] theorem putWord_memory (s : State) (key : Nat) (d : Word) (h : Keeps z s) : Canon z (putWord s key d) :=
  h.then (by unfold putWord; simp)

@[simp] theorem rmw_memory (s : State) (key : Nat) (mask val : Word) (h : Keeps z s) : Canon z (rmw s key mask val) :=
  h.then (by unfold rmw; split <;> simp)

@[simp] theorem carried_memory (s : State) (key : Nat) (h : Keeps z s) : Canon z (carried s key).2 :=
  h.then (by unfold carried; simp)

@[simp] theorem poisonWord_memory (s : State) (key : Nat) (h : Keeps z s) : Canon z (poisonWord s key) :=
  h.then (by unfold poisonWord; simp)

@[simp] theorem setBankState_memory (s : State) (b : Nat) (st : BitVec 4) : Canon z (setBankState s b st) ↔ Keeps z s := by
  unfold setBankState
  simp

@[simp] theorem swapSites_memory (s : State) (a b : Nat) : Canon z (swapSites s a b) ↔ Keeps z s := by
  unfold swapSites
  simp

@[simp] theorem setRow_memory (s : State) (site r : Nat) (x : TRow) (h : Keeps z s) : Canon z (setRow s site r x) :=
  h.then fun m => setRow_canonical m site r x

@[simp] theorem setEntryAt_memory (s : State) (w site site2 r h_ : Nat) (e : Entry) (h : Keeps z s) : Canon z (setEntryAt s w site site2 r h_ e) :=
  h.then (by unfold setEntryAt; simp)

@[simp] theorem setEntry_memory (s : State) (w b r h_ : Nat) (e : Entry) (h : Keeps z s) : Canon z (setEntry s w b r h_ e) :=
  h.then (by unfold setEntry; simp)

end

section
/-! ### Rules of the file TableOps -/

variable {z : State}

@[simp] theorem putSlotCw_memory (s : State) (b r h_ j : Nat) (c : Cw) (h : Keeps z s) : Canon z (putSlotCw s b r h_ j c) :=
  h.then (by unfold putSlotCw; simp)

@[simp] theorem putSlot_memory (s : State) (b r h_ : Nat) (res chk : Word) (h : Keeps z s) : Canon z (putSlot s b r h_ res chk) :=
  h.then (by unfold putSlot; simp)

@[simp] theorem clearLive_memory (s : State) (b r h_ : Nat) (h : Keeps z s) : Canon z (clearLive s b r h_) :=
  h.then (by unfold clearLive; simp)

@[simp] theorem carrySlot_memory (s : State) (b r h_ b2 r2 h2 : Nat) (h : Keeps z s) : Canon z (carrySlot s b r h_ b2 r2 h2) :=
  h.then (Canon.foldl_by id (fun u j => by simp) [0, 1] s)

@[simp] theorem copyEntry_memory (s : State) (t src dst r h_ : Nat) (h : Keeps z s) : Canon z (copyEntry s t src dst r h_) :=
  h.then (by unfold copyEntry; simp)

@[simp] theorem findInBank_memory (s : State) (t d j : Nat) (care val : BitVec 192) (tag : Nat) (h : Keeps z s) :
    Canon z (findInBank s t d j care val tag).2 :=
  h.then (by dsimp only [findInBank]; (repeat' split) <;> simp)

@[simp] theorem findInDir_memory (s : State) (t d : Nat) (care val : BitVec 192) (tag : Nat) (js : List Nat) (h : Keeps z s) :
    Canon z (findInDir s t d care val tag js).2 :=
  h.then (by
    clear h
    induction js generalizing s with
    | nil => simp [findInDir]
    | cons j js ih =>
      have found : Keeps s (findInBank s t d j care val tag).2 := by simp
      rw [findInDir]
      split <;> rename_i q <;> rw [q] at found
      · exact found
      · exact found.trans (ih _))

@[simp] theorem findEntry_memory (s : State) (t : Nat) (care val : BitVec 192) (tag : Nat) (ds : List Nat) (h : Keeps z s) :
    Canon z (findEntry s t care val tag ds).2 :=
  h.then (by
    clear h
    induction ds generalizing s with
    | nil => simp [findEntry]
    | cons d ds ih => exact Keeps.trans (by simp) (ih _))

@[simp] theorem clearEntry_memory (s : State) (w b r h_ : Nat) (h : Keeps z s) : Canon z (clearEntry s w b r h_) :=
  h.then (by unfold clearEntry; simp)

@[simp] theorem setG_memory (s : State) (w b r h_ : Nat) (g : BitVec 2) (h : Keeps z s) : Canon z (setG s w b r h_ g) :=
  h.then (by unfold setG; simp)

@[simp] theorem writeH_memory (s : State) (w b r h_ : Nat) (v : Bool) (h : Keeps z s) : Canon z (writeH s w b r h_ v) :=
  h.then (by unfold writeH; simp)

@[simp] theorem setSel_memory (s : State) (k : Nat) (v : Option (Nat × Bool)) : Canon z (setSel s k v) ↔ Keeps z s := by
  unfold setSel
  simp

@[simp] theorem armCopies_memory (s : State) (g : Nat) (ins : Bool) (cs : List (Nat × Nat × Nat)) (h : Keeps z s) :
    Canon z (armCopies s g ins cs).1 :=
  h.then (by
    clear h
    induction cs generalizing s with
    | nil => simp [armCopies]
    | cons c cs ih => exact Keeps.trans (by simp) (ih _))

@[simp] theorem writeCopies_memory (s : State) (t : Nat) (care val : BitVec 192) (tag : Nat) (res : Word) (g : GCopy → BitVec 2) (cs : List GCopy) (h : Keeps z s) :
    Canon z (writeCopies s t care val tag res g cs) :=
  h.then (by unfold writeCopies; simp (disch := simp))

@[simp] theorem issueCoal_memory (s : State) (key : Nat) (h : Keeps z s) : Canon z (issueCoal s key) :=
  h.then (by dsimp only [issueCoal]; (repeat' split) <;> simp (disch := simp))

@[simp] theorem issueRow_memory (s : State) (t row : Nat) (h : Keeps z s) : Canon z (issueRow s t row) :=
  h.then (by unfold issueRow; simp)

@[simp] theorem putField_memory (s : State) (t row lsb w v : Nat) (h : Keeps z s) : Canon z (putField s t row lsb w v) :=
  h.then (by unfold putField; simp)

@[simp] theorem linkPut_memory (s : State) (t row v : Nat) (h : Keeps z s) : Canon z (linkPut s t row v) :=
  h.then (by unfold linkPut; simp)

@[simp] theorem linkDec_memory (s : State) (t row : Nat) (h : Keeps z s) : Canon z (linkDec s t row) :=
  h.then (by dsimp only [linkDec]; (repeat' split) <;> simp)

@[simp] theorem finalCopy_memory (s : State) (w : Nat) (c : GCopy) (h : Keeps z s) : Canon z (finalCopy s w c) :=
  h.then (by unfold finalCopy; simp)

@[simp] theorem releaseSels_memory (s : State) (g : Nat) : Canon z (releaseSels s g) ↔ Keeps z s := by
  unfold releaseSels
  simp

@[simp] theorem carryH_memory (s : State) (w : Nat) (m : Nat × Nat) (h : Keeps z s) : Canon z (carryH s w m) :=
  h.then (by unfold carryH; simp)

@[simp] theorem basteDec_memory (s : State) (l : Nat) (h : Keeps z s) : Canon z (basteDec s l) :=
  h.then (by dsimp only [basteDec]; (repeat' split) <;> simp)

@[simp] theorem finishGate_memory (s : State) (g : Nat) (h : Keeps z s) : Canon z (finishGate s g) :=
  h.then (by
    unfold finishGate
    extract_lets x w late s1 s2 s3 s4 s5
    have moved : Keeps s s1 := Canon.foldl_by id (fun u m => by simp) _ s
    have copied : Keeps s1 s2 := Canon.foldl_by id (fun u m => by simp) _ s1
    have linked : Keeps s2 s3 := Canon.foldl_by id (fun u m => by simp) _ s2
    have basted : Keeps s3 s4 := Canon.foldl_by id (fun u m => by simp) _ s3
    have released : Keeps s4 s5 := by simp [s5]
    exact ((((moved.trans copied).trans linked).trans basted).trans released).trans (by simp))

@[simp] theorem moveCopy_memory (s : State) (w b src dst : Nat) (g : BitVec 2) (h : Keeps z s) : Canon z (moveCopy s w b src dst g) :=
  h.then (by unfold moveCopy; simp)

@[simp] theorem openMoveTo_memory (s : State) (t : Nat) (l : Loc) (m : Nat × Nat) (g1 : Nat) (h : Keeps z s) : Canon z (openMoveTo s t l m g1) :=
  h.then (by unfold openMoveTo; simp)

@[simp] theorem openMoveFrom_memory (s : State) (t : Nat) (l : Loc) (m : Nat × Nat) (g2 : Nat) (j : Word) (h : Keeps z s) :
    Canon z (openMoveFrom s t l m g2 j) :=
  h.then (by unfold openMoveFrom; simp)

@[simp] theorem settleGate_memory (s : State) (g : Nat) (h : Keeps z s) : Canon z (settleGate s g) :=
  h.then (by unfold settleGate; simp)

@[simp] theorem settleGates_memory (s : State) (h : Keeps z s) : Canon z (settleGates s) :=
  h.then (by unfold settleGates; simp)

theorem relocate_some_memory {s u : State} {e t : Nat} {l : Loc} {m : Nat × Nat} {b : Bool} (q : relocate s e t l m = some (u, b)) :
    Keeps s u := by
  unfold relocate at q
  split at q
  · cases q
  · split at q
    · cases q
    · next g1 _ =>
      dsimp only at q
      split at q
      · cases q
      · cases q
        exact Keeps.trans (s := openMoveTo (jCommit s [moveRec s t l m.1 m.2] false).2 t l m g1) (by simp) (by simp (disch := simp))

@[simp] theorem relocateAll_memory (e t : Nat) (ms : List (Loc × Nat × Nat)) (n : Nat) (s : State) (h : Keeps z s) :
    Canon z (relocateAll e t ms n s).1 :=
  h.then (by
    clear h
    fun_induction relocateAll e t ms n s with
    | case1 => exact Canon.refl _
    | case2 => exact Canon.refl _
    | case3 _ _ _ _ _ q ih => exact (relocate_some_memory q).trans ih
    | case4 _ _ _ _ _ q => exact relocate_some_memory q)

end

section
/-! ### Rules of the file Flags -/

variable {z : State}

@[simp] theorem repairWrite_memory (s : State) (e : Nat) (h : Keeps z s) : Canon z (repairWrite s e) :=
  h.then (by dsimp only [repairWrite]; (repeat' split) <;> simp)

@[simp] theorem serveRepairs_memory (s : State) (e : Nat) (h : Keeps z s) : Canon z (serveRepairs s e) :=
  h.then (by unfold serveRepairs; simp)

/-- A run that keeps the memories canonical does so with what ends or holds its command. -/
theorem runHeld_memory {s : State} {e : Nat} {c : TCmd} {n : Nat} {need : State → TCmd → List Nat} {f : State → TCmd → Ran}
    (hf : ∀ u, RanCanon u (f u c)) : Keeps s (runHeld s e c n need f) := by
  have here := hf s
  have settled : Keeps s (settleGates s) := by simp
  have again := hf (settleGates s)
  unfold runHeld
  cases x : f s c with
  | wait =>
    cases y : f (settleGates s) c with
    | wait => simp
    | stays t m =>
      rw [y] at again
      exact settled.trans (Keeps.trans again (by simp))
    | ends t r =>
      rw [y] at again
      exact settled.trans (Keeps.trans again (by simp))
  | stays t m =>
    rw [x] at here
    exact Keeps.trans here (by simp)
  | ends t r =>
    rw [x] at here
    exact Keeps.trans here (by simp)

theorem runHead_memory {s : State} {e opc : Nat} {need : State → TCmd → List Nat} {f : State → TCmd → Ran} (hf : ∀ u c, RanCanon u (f u c)) :
    Keeps s (runHead s e opc need f) := by
  have held (u : State) (c : TCmd) (n : Nat) : Canon u (runHeld u e c n need f) := runHeld_memory (fun v => hf v c)
  unfold runHead
  split
  · exact Keeps.refl s
  · next c _ =>
    extract_lets u x ns n
    have served : Keeps s u := by simp [u]
    refine served.trans ?_
    (repeat' split) <;> simp [held]

end

section
/-! ### Rules of the file Profiles -/

variable {z : State}

@[simp] theorem compTouch_memory (s : State) (c gen t row w : Nat) (h : Keeps z s) : Canon z (compTouch s c gen t row w) :=
  h.then (by unfold compTouch; simp)

@[simp] theorem entryTouch_memory (s : State) (eng gen t i : Nat) (h : Keeps z s) : Canon z (entryTouch s eng gen t i) :=
  h.then (by unfold entryTouch; simp)

@[simp] theorem lookOp_memory (s : State) (tk : Token) (c : Comp) (op : BitVec 128) (a b : Nat) (h : Keeps z s) : Canon z (lookOp s tk c op a b).2 :=
  h.then (by dsimp only [lookOp]; (repeat' split) <;> simp)

@[simp] theorem compStep_memory (tk : Token) (cs : Comp × State) (op : BitVec 128) (h : Keeps z cs.2) : Canon z (compStep tk cs op).2 :=
  h.then (by dsimp only [compStep]; (repeat' split) <;> simp)

@[simp] theorem compose_memory (s : State) (tk : Token) (h : Keeps z s) : Canon z (compose s tk).2 :=
  h.then (by unfold compose; simp)

end

section
/-! ### Rules of the file SearchOps -/

variable {z : State}

@[simp] theorem searchCycle_memory (s : State) (w b site site2 : Nat) (snap : BitVec 64) (key : BitVec 192) (mask : Option (Nat × Nat)) (h : Keeps z s) :
    Canon z (searchCycle s w b site site2 snap key mask).2 :=
  h.then (by unfold searchCycle; split <;> simp)

@[simp] theorem lookTouch_memory (s : State) (x : Seen) (h : Keeps z s) : Canon z (lookTouch s x) :=
  h.then (by unfold lookTouch; simp)

@[simp] theorem countDisag_memory (s : State) (b : Nat) : Canon z (countDisag s b) ↔ Keeps z s := by
  unfold countDisag
  simp

@[simp] theorem issueRepair_memory (s : State) (x : Seen) (dst : Nat) (scrub : Bool) : Canon z (issueRepair s x dst scrub) ↔ Keeps z s := by
  unfold issueRepair
  simp

@[simp] theorem resolveOne_memory (s : State) (t w : Nat) (snap : BitVec 64) (key : BitVec 192) (x : Seen) (h : Keeps z s) :
    Canon z (resolveOne s t w snap key x).2 :=
  h.then (by dsimp only [resolveOne]; (repeat' split) <;> simp)

theorem resolvePair_memory (s : State) (t w ba bb : Nat) (fa fb : Option Seen) (reprobe : State → Seen → Option Seen × State) (scrub : Bool)
    (hr : ∀ u x, Keeps u (reprobe u x).2) : Keeps s (resolvePair s t w ba bb fa fb reprobe scrub).2 := by
  dsimp only [resolvePair]
  have first : Keeps s (if scrub = true then s else (fa.toList ++ fb.toList).foldl lookTouch s) := by
    split
    · exact Keeps.refl s
    · exact Canon.foldl_by id (fun u x => by simp) _ s
  generalize (if scrub = true then s else (fa.toList ++ fb.toList).foldl lookTouch s) = u at first ⊢
  generalize hv : List.foldl _ (([] : List Seen), u) _ = v
  have again : Canon u v.2 := by
    rw [← hv]
    refine Canon.foldl_by Prod.snd (fun x a => (hr x.2 a).trans ?_) _ ([], u)
    dsimp only
    (repeat' split) <;> simp
  refine first.trans ?_
  (repeat' split) <;> simp [again]

@[simp] theorem searchBank_memory (s : State) (t w : Nat) (snap : BitVec 64) (key : BitVec 192) (k : ProbeBank) (h : Keeps z s) :
    Canon z (searchBank s t w snap key k).2.2 :=
  h.then (by dsimp only [searchBank]; (repeat' split) <;> simp (disch := simp))

@[simp] theorem searchStep_memory (s : State) (d : BitVec 128) (key : BitVec 192) (x : StepRun) (h : Keeps z s) : Canon z (searchStep s d key x).2 :=
  h.then (by unfold searchStep; simp)

@[simp] theorem resolveBank_memory (s : State) (t w : Nat) (snap : BitVec 64) (key : BitVec 192) (k : ProbeBank) (h : Keeps z s) :
    Canon z (resolveBank s t w snap key k).2 :=
  h.then (by
    dsimp only [resolveBank]
    split
    · split <;> simp
    · exact resolvePair_memory _ _ _ _ _ _ _ _ _ (fun u x => by simp))

@[simp] theorem resolveStep_memory (s : State) (d : BitVec 128) (key : BitVec 192) (x : StepRun) (h : Keeps z s) :
    Canon z (resolveStep s d key x).2 :=
  h.then (by unfold resolveStep; simp)

end

section
/-! ### Rules of the file SearchCmds -/

variable {z : State}

@[simp] theorem heatInc_memory (s : State) (i : Nat) (h : Keeps z s) : Canon z (heatInc s i) :=
  h.then (by unfold heatInc; simp)

@[simp] theorem heatSample_memory (s : State) (eng x : Nat) (h : Keeps z s) : Canon z (heatSample s eng x) :=
  h.then (by
    have counted : Canon s (heatInc (heatInc s (heatIndex 0 x)) (heatIndex 1 x)) := heatInc_memory _ _ (by simp)
    unfold heatSample
    simp [counted])

@[simp] theorem heatCount_memory (s : State) (tk : Token) (h : Keeps z s) : Canon z (heatCount s tk) :=
  h.then (by dsimp only [heatCount]; (repeat' split) <;> simp)

theorem startSearch_memory (s : State) (p tok : Nat) (tk : Token) : OptCanon s (startSearch s p tok tk) := by
  unfold startSearch
  extract_lets s0 owner
  have put : Keeps s s0 := by simp [s0]
  cases owner with
  | none => exact OptCanon.some_iff.2 (put.trans (by simp))
  | some r =>
    dsimp only
    split
    · exact OptCanon.some_iff.2 (put.trans (by simp))
    split
    · exact OptCanon.some_iff.2 (put.trans (by simp))
    · exact OptCanon.then put (OptCanon.of_same (by simp))

@[simp] theorem admitSearch_memory (s : State) (p : Nat) (h : Keeps z s) : Canon z (admitSearch s p) :=
  h.then (by
    have refl := Keeps.refl s
    dsimp only [admitSearch]
    split
    · exact refl
    refine Keeps.of_ite refl (Keeps.of_ite (by simp) (Keeps.of_ite refl ?_))
    split
    · simp (disch := simp)
    · exact Canon.getD (OptCanon.then (by simp) (startSearch_memory _ _ _ _)) refl)

/-- Routing on changes no memory. -/
theorem routeOn_memory (s : State) (tok i : Nat) : OptCanon s (routeOn s tok i) := OptCanon.of_same (by simp)

@[simp] theorem matchStep_memory (s : State) (tok i : Nat) (h : Keeps z s) : Canon z (matchStep s tok i) :=
  h.then (by
    have refl := Keeps.refl s
    dsimp only [matchStep]
    split
    · exact refl
    · exact Keeps.of_ite refl (Keeps.of_ite refl (Canon.getD (OptCanon.then (by simp) (routeOn_memory _ _ _)) refl)))

@[simp] theorem disagreement_memory (s : State) (tok i : Nat) (h : Keeps z s) : Canon z (disagreement s tok i) :=
  h.then (by
    have refl := Keeps.refl s
    dsimp only [disagreement]
    split
    · exact refl
    · exact Keeps.of_ite refl (Canon.getD (OptCanon.then (by simp) (routeOn_memory _ _ _)) refl))

@[simp] theorem indexStep_memory (s : State) (tok i : Nat) (h : Keeps z s) : Canon z (indexStep s tok i) :=
  h.then (by dsimp only [indexStep]; (repeat' split) <;> simp)

@[simp] theorem composed_memory (s : State) (tok : Nat) (tk : Token) (h : Keeps z s) : Canon z (composed s tok tk) :=
  h.then (by unfold composed; simp)

@[simp] theorem levelEnd_memory (s : State) (tok : Nat) (h : Keeps z s) : Canon z (levelEnd s tok) :=
  h.then (by dsimp only [levelEnd]; (repeat' split) <;> simp)

@[simp] theorem freeBank_memory (s : State) (b : Nat) (h : Keeps z s) : Canon z (freeBank s b) :=
  h.then fun ⟨hw, hp, hr⟩ => ⟨hw, hp, swf_sdrop hr (fun k => decide (k / 4096 = siteOf s b))⟩

@[simp] theorem replicaRelease_memory (s : State) (d : Nat) (h : Keeps z s) : Canon z (replicaRelease s d) :=
  h.then (by unfold replicaRelease; split <;> simp)

end

section
/-! ### Rules of the file EntryCmds -/

variable {z : State}

@[simp] theorem raiseBaste_memory (s : State) (l : List (Nat × Nat)) (h : Keeps z s) : Canon z (raiseBaste s l) :=
  h.then (by unfold raiseBaste; simp)

@[simp] theorem issueLinks_memory (s : State) (t : Nat) (rows : List Nat) (h : Keeps z s) : Canon z (issueLinks s t rows) :=
  h.then (by unfold issueLinks; simp)

@[simp] theorem ended_memory (s : State) (t : Nat) (st : Status) : RanCanon z (ended s t st) ↔ Keeps z s := by
  show Keeps z (if st = .busyRetry then countT s t 8 1 else s) ↔ Keeps z s
  simp

theorem foundAt_memory (s : State) (ls : List Loc) (tag : Nat) (x : Ran) (k : RanCanon z x) : RanCanon z (foundAt s ls tag x) := by
  dsimp only [foundAt]
  split <;> exact k

theorem countInsert_memory (t : Nat) (ds : List Nat) (x : Ran) (k : RanCanon z x) : RanCanon z (countInsert t ds x) := by
  unfold countInsert
  split
  · exact Keeps.then k (by simp)
  · exact k

/-- A run that is admitted keeps the memories as what follows does. -/
theorem admitFor_memory {s : State} {e t : Nat} {groups : List (List JRec)} {f : State → Ran} (hf : ∀ u, RanCanon u (f u)) :
    RanCanon s (admitFor s e t groups f) := by
  have admitted : Keeps s (jAdmit s groups).2 := by simp
  dsimp only [admitFor]
  split
  · exact RanCanon.then admitted (hf _)
  · split
    · exact (ended_memory _ _ _).2 admitted
    · trivial

@[simp] theorem refuseWord_memory (s : State) (t : Nat) (new : Option Nat) (st : Status) (h : Keeps z s) : RanCanon z (refuseWord s t new st) :=
  RanCanon.then h (by unfold refuseWord; simp)

@[simp] theorem linkInc_memory (s : State) (t : Nat) (old new : Option Nat) (h : Keeps z s) : Canon z (linkInc s t old new) :=
  h.then (by unfold linkInc; split <;> simp)

theorem afterMoves_memory {s : State} {e t : Nat} {l : List Plan} {f : State → Nat → Ran} (hf : ∀ u n, RanCanon u (f u n)) :
    RanCanon s (afterMoves s e t l f) := by
  have moved : Keeps s (relocateAll e t (planMoves l) 0 s).1 := by simp
  dsimp only [afterMoves]
  split
  · simp
  · split <;> rename_i q <;> rw [q] at moved
    · exact RanCanon.then moved (hf _ _)
    · trivial
    · exact moved

@[simp] theorem rewriteGated_memory (s : State) (e t : Nat) (care val : BitVec 192) (tag : Nat) (res : Word) (lm : List Loc) (l : List Plan)
    (old new : Option Nat) (recs : List JRec) (rsp : TRsp) (h : Keeps z s) :
    RanCanon z (rewriteGated s e t care val tag res lm l old new recs rsp) :=
  RanCanon.then h (by
    dsimp only [rewriteGated]
    split
    · simp
    · next g _ =>
      have armed : Canon s (armCopies (armCopies (linkInc s t old new) g true (copiesOf s t (l.map (·.loc)))).1 g false (copiesOf s t lm)).1 :=
        armCopies_memory _ _ _ _ (by simp)
      split
      · simp
      · simp [armed])

@[simp] theorem rewritePlain_memory (s : State) (e t : Nat) (res : Word) (ls : List Loc) (l0 : Loc) (old new : Option Nat) (recs : List JRec)
    (rsp : TRsp) (h : Keeps z s) : RanCanon z (rewritePlain s e t res ls l0 old new recs rsp) :=
  RanCanon.then h (admitFor_memory (fun u => by simp (disch := simp)))

theorem soundLinks_memory {s : State} {t : Nat} {rows : List Nat} {f : State → Ran} (hf : ∀ u, RanCanon u (f u)) :
    RanCanon s (soundLinks s t rows f) := by
  unfold soundLinks
  split
  · simp
  · exact hf s

theorem rewriteWord_memory {s : State} {t : Nat} {res : Word} {l0 : Loc} {f : State → Word → Option Nat → Option Nat → Ran}
    (hf : ∀ u w old new, RanCanon u (f u w old new)) : RanCanon s (rewriteWord s t res l0 f) := by
  have issued (rows : List Nat) : Keeps s (issueLinks (touchQ s (resKey s l0)) t rows) := by simp
  dsimp only [rewriteWord]
  split
  · exact (ended_memory _ _ _).2 (by simp)
  split
  · trivial
  split
  · exact refuseWord_memory _ _ _ _ (issued _)
  · exact RanCanon.then (issued _) (soundLinks_memory (fun u => hf u _ _ _))

@[simp] theorem rewrite_memory (s : State) (e t : Nat) (care val : BitVec 192) (tag : Nat) (res : Word) (ls : List Loc) (ex : Extra)
    (ins nochain : Bool) (h : Keeps z s) : RanCanon z (rewrite s e t care val tag res ls ex ins nochain) :=
  RanCanon.then h (by
    dsimp only [rewrite]
    split
    · simp
    · refine rewriteWord_memory (fun u w old new => ?_)
      split
      · split
        · simp
        · exact admitFor_memory (fun v => afterMoves_memory (fun x n => by simp))
      · simp)

@[simp] theorem overwrite_memory (s : State) (e t : Nat) (care val : BitVec 192) (tag : Nat) (res : Word) (ls : List Loc) (l0 : Loc)
    (h : Keeps z s) : RanCanon z (overwrite s e t care val tag res ls l0) :=
  RanCanon.then h (by
    dsimp only [overwrite]
    refine rewriteWord_memory (fun u w old new => ?_)
    split
    · split
      · simp
      · split
        · simp
        · exact admitFor_memory (fun v => by simp (disch := simp))
    · exact admitFor_memory (fun v => by simp (disch := simp)))

@[simp] theorem install_memory (s : State) (e t : Nat) (care val : BitVec 192) (tag : Nat) (res : Word) (ds : List Nat) (l : List Plan) (ex : Extra)
    (h : Keeps z s) : RanCanon z (install s e t care val tag res ds l ex) :=
  RanCanon.then h (by
    dsimp only [install]
    split
    · simp
    · refine admitFor_memory (fun u => afterMoves_memory (fun v n => ?_))
      have raised : Canon v (raiseBaste (linkInc v t none (linkRow s t res)) ex.pre) := raiseBaste_memory _ _ (by simp)
      split
      · split <;> simp (disch := simp [raised])
      · simp (disch := simp [raised]))

@[simp] theorem insertExisting_memory (s : State) (e t : Nat) (care val : BitVec 192) (tag : Nat) (res : Word) (replace nochain : Bool)
    (ds : List Nat) (ls : List Loc) (ex : Extra) (h : Keeps z s) :
    RanCanon z (insertExisting s e t care val tag res replace nochain ds ls ex) :=
  RanCanon.then h (by
    dsimp only [insertExisting]
    split
    · have run : RanCanon s (foundAt s ls tag (rewrite s e t care val tag res ls { ex with recs := ex.recs.take 1, pre := [] } true nochain)) :=
        foundAt_memory _ _ _ _ (by simp)
      split
      · next q =>
        rw [q] at run
        exact Keeps.then run (by simp)
      · exact run
    · exact foundAt_memory _ _ _ _ (by simp))

@[simp] theorem insertEntry_memory (s : State) (e t : Nat) (care val : BitVec 192) (tag : Nat) (res : Word) (replace nochain : Bool)
    (ex : Extra) (h : Keeps z s) : RanCanon z (insertEntry s e t care val tag res replace nochain ex) :=
  RanCanon.then h (by
    have found : Keeps s (findEntry (issueLinks s t (linkRow s t res).toList) t care val tag (dirsFor s t care val)).2 := by simp
    dsimp only [insertEntry]
    split <;> rename_i q <;> rw [q] at found
    · exact insertExisting_memory _ _ _ _ _ _ _ _ _ _ _ _ found
    · split
      · trivial
      · refine countInsert_memory _ _ _ ?_
        split
        · exact refuseWord_memory _ _ _ _ found
        · split
          · exact (ended_memory _ _ _).2 found
          · exact install_memory _ _ _ _ _ _ _ _ _ _ found)

@[simp] theorem remove_memory (s : State) (e t : Nat) (ls : List Loc) (dii : Bool) (c : TCmd) (ex : Extra) (h : Keeps z s) :
    RanCanon z (remove s e t ls dii c ex) :=
  RanCanon.then h (by
    unfold remove
    split
    · simp
    · extract_lets o u w cs falls v
      have touched : Keeps s u := by simp [u]
      refine RanCanon.then touched ?_
      split
      · simp
      · have issued : Keeps u v := by simp [v]
        refine RanCanon.then issued ?_
        dsimp only
        (repeat' split) <;> simp (disch := simp))

@[simp] theorem runInsert_memory (e : Nat) (s : State) (c : TCmd) (h : Keeps z s) : RanCanon z (runInsert e s c) :=
  RanCanon.then h (by unfold runInsert; split <;> simp)

@[simp] theorem runDelete_memory (dii : Bool) (e : Nat) (s : State) (c : TCmd) (h : Keeps z s) : RanCanon z (runDelete dii e s c) :=
  RanCanon.then h (by
    dsimp only [runDelete]
    split
    · simp
    · exact foundAt_memory _ _ _ _ (by simp))

@[simp] theorem writeByAddr_memory (s : State) (e : Nat) (c : TCmd) (h : Keeps z s) : RanCanon z (writeByAddr s e c) :=
  RanCanon.then h (by
    unfold writeByAddr
    extract_lets t w care val tag ds new u
    have issued : Canon s u := issueLinks_memory _ _ _ (by simp)
    cases locateBank s t (cAddr c / 4096) with
    | none => simp
    | some x =>
      refine RanCanon.of_ite (by simp) (RanCanon.of_ite (foundAt_memory _ _ _ _ (by simp)) (RanCanon.of_ite (by simp) (RanCanon.of_ite trivial ?_)))
      (repeat' split) <;> simp [issued])

@[simp] theorem runWrite_memory (e : Nat) (s : State) (c : TCmd) (h : Keeps z s) : RanCanon z (runWrite e s c) :=
  RanCanon.then h (by
    dsimp only [runWrite]
    split
    · simp
    split
    · exact foundAt_memory _ _ _ _ (by simp)
    · simp)

@[simp] theorem readEntry_memory (s : State) (t b : Nat) (l : Loc) (h : Keeps z s) : RanCanon z (readEntry s t b l) :=
  RanCanon.then h (by dsimp only [readEntry]; (repeat' split) <;> simp)

@[simp] theorem runRead_memory (s : State) (c : TCmd) (h : Keeps z s) : RanCanon z (runRead s c) :=
  RanCanon.then h (by
    have found : Keeps s (findEntry s (cTable c) (cMask s c) (cKey s c) (cPlen c) (dirsFor s (cTable c) (cMask s c) (cKey s c))).2 := by simp
    dsimp only [runRead]
    split
    · simp
    split
    · split <;> rename_i q <;> rw [q] at found
      · exact (ended_memory _ _ _).2 found
      · exact readEntry_memory _ _ _ _ found
    · split <;> simp)

@[simp] theorem runHsweep_memory (s : State) (c : TCmd) (h : Keeps z s) : RanCanon z (runHsweep s c) :=
  RanCanon.then h (by
    dsimp only [runHsweep]
    split
    · simp
    · exact Canon.foldl_by id (fun u x => Canon.foldl_by id (fun v k => by simp) _ u) _ s)

end

section
/-! ### Rules of the file IndexCmds -/

variable {z : State}

@[simp] theorem composerWrite_memory (s : State) (pre : List JRec) (t row : Nat) (ws : List (Nat × Word)) (reply : Option (Via × TRsp)) (h : Keeps z s) :
    Canon z (composerWrite s pre t row ws reply).2 :=
  h.then (by unfold composerWrite; simp)

@[simp] theorem readCounter_memory (s : State) (t r : Nat) (h : Keeps z s) : RanCanon z (readCounter s t r) :=
  RanCanon.then h (by dsimp only [readCounter]; split <;> simp)

@[simp] theorem runIread_memory (s : State) (c : TCmd) (h : Keeps z s) : RanCanon z (runIread s c) :=
  RanCanon.then h (by dsimp only [runIread]; (repeat' split) <;> simp)

@[simp] theorem mergeRow_memory (s : State) (t r : Nat) (ws : List (Nat × Word)) (h : Keeps z s) : Canon z (mergeRow s t r ws) :=
  h.then (by
    have merged (u : State) (w : Nat × Word) : Keeps u (match sget none u.sram.coal (rowKey u t r w.1) with
        | some c => { u with sram := { u.sram with coal := sput none u.sram.coal (rowKey u t r w.1) (some { c with mask := BitVec.allOnes 64, val := w.2 }) } }
        | none => u) := by
      split <;> simp
    exact issueRow_memory _ _ _ (Canon.foldl_by id merged ws s))

@[simp] theorem runIwrite_memory (s : State) (c : TCmd) (h : Keeps z s) : RanCanon z (runIwrite s c) :=
  RanCanon.then h (by dsimp only [runIwrite]; (repeat' split) <;> simp (disch := simp))

@[simp] theorem runIfield_memory (s : State) (c : TCmd) (h : Keeps z s) : RanCanon z (runIfield s c) :=
  RanCanon.then h (by dsimp only [runIfield]; (repeat' split) <;> simp)

@[simp] theorem runIcas_memory (s : State) (c : TCmd) (h : Keeps z s) : RanCanon z (runIcas s c) :=
  RanCanon.then h (by dsimp only [runIcas]; (repeat' split) <;> simp (disch := simp))

@[simp] theorem commitGeneration_memory (s : State) (h : Keeps z s) : Canon z (commitGeneration s) :=
  h.then (by
    unfold commitGeneration
    extract_lets ws cur _ _ u
    have taken : Keeps s u := fun ⟨hw, hp, hr⟩ => ⟨swf_sdrop hw _, hp, hr⟩
    refine taken.trans (Canon.foldl_by id (fun v w => ?_) ws u)
    dsimp only [id]
    split <;> simp)

end

section
/-! ### Rules of the file BankCmds -/

variable {z : State}

theorem rpWrite_memory {s : State} {e : Nat} {x : Repoint} {en : Entry} {old : Word} {r : Ran} (q : rpWrite s e x en old = some r) :
    RanCanon s r := by
  have found : Keeps s (findEntry (setRepoint s e none) (rpSpec x.cmd).table en.care en.val en.side.tag.toNat
      (dirsFor s (rpSpec x.cmd).table en.care en.val)).2 := by simp
  unfold rpWrite at q
  dsimp only at q
  split at q <;> rename_i p <;> cases q
  rw [p] at found
  exact rewrite_memory _ _ _ _ _ _ _ _ _ _ _ found

theorem rpAfter_memory {s : State} {e : Nat} {x : Repoint} {l : Loc} {en : Entry} {need : List Nat} {w : Option Ran}
    (hw : ∀ r, w = some r → RanCanon s r) : Keeps s (rpAfter s e x l en need w).1 := by
  dsimp only [rpAfter]
  split
  · simp
  · simp
  · exact Keeps.then (hw _ rfl) (by simp)
  · exact Keeps.then (hw _ rfl) (by simp)

@[simp] theorem rpVisit_memory (s : State) (e : Nat) (x : Repoint) (l : Loc) (en : Entry) (h : Keeps z s) : Canon z (rpVisit s e x l en).1 :=
  h.then (by
    have touched : Keeps s (touch s (resKey s l)) := by simp
    dsimp only [rpVisit]
    split
    · simp
    split
    · simp
    split
    · simp
    split
    · exact touched.trans (Keeps.trans (by simp) (rpAfter_memory fun r q => rpWrite_memory q))
    · exact touched.trans (rpAfter_memory fun r q => rpWrite_memory q))

@[simp] theorem rpRun_memory (e n : Nat) (s : State) (x : Repoint) (h : Keeps z s) : Canon z (rpRun e n s x) :=
  h.then (by
    clear h
    induction n generalizing s x with
    | zero => simp [rpRun]
    | succ n ih =>
      unfold rpRun
      split
      · simp
      · next l en _ =>
        have visited : Keeps s (rpVisit s e x l en).1 := by simp
        split <;> rename_i q <;> rw [q] at visited
        · exact visited.trans (by simp)
        · exact visited.trans (ih _ _)
        · exact visited.trans (by simp))

theorem rpStep_memory {s : State} {e opc budget : Nat} {check : State → TCmd → Option Status × State} {first : State → TCmd → List JRec}
    (hc : ∀ u c, Keeps u (check u c).2) : Keeps s (rpStep s e opc budget check first) := by
  have taken {u v : State} {c : TCmd} (q : rpTake u e c = some v) : Keeps u v := fun m =>
    (((rpTake_frame u e c (ps := [.update]) (by decide) (SameBut.refl _ u)).some_same v q)).canonical m
  dsimp only [rpStep]
  split
  · exact Keeps.refl s
  · next c _ =>
    generalize hu : (if c.issuer < 8 then serveRepairs s e else s) = u
    have served : Keeps s u := by
      rw [← hu]
      simp
    refine served.trans ?_
    split
    · exact Keeps.refl u
    split
    · simp
    · next q _ => exact (taken q).trans (by simp)
    · next v q _ =>
      have checked := hc v c
      refine (taken q).trans ?_
      split <;> rename_i p <;> rw [p] at checked
      · exact checked.trans (by simp)
      · refine checked.trans ?_
        (repeat' split) <;> simp

@[simp] theorem mirrorOn_memory (s : State) (c : Clone) (h : Keeps z s) : Canon z (mirrorOn s c) :=
  h.then (by unfold mirrorOn; simp)

@[simp] theorem startClone_memory (s : State) (e : Nat) (c : Option TCmd) (src dst : Nat) (copy : Bool) (h : Keeps z s) :
    Canon z (startClone s e c src dst copy) :=
  h.then (by unfold startClone; simp)

@[simp] theorem copyRows_memory (s : State) (a b lo hi : Nat) (h : Keeps z s) : Canon z (copyRows s a b lo hi) :=
  h.then fun ⟨hw, hp, hr⟩ => ⟨hw, hp, List.foldlRecOn (siteRows s a) _ (motive := fun m => swf TRow.blank none m = true) (swf_sdrop hr _) fun m hm x _ => by
    dsimp only
    split
    · exact swf_sput hm _ _ (fun _ hl => nomatch hl)
    · exact hm⟩

@[simp] theorem copySlots_memory (s : State) (t a b lo hi : Nat) (h : Keeps z s) : Canon z (copySlots s t a b lo hi) :=
  h.then (Canon.foldl_by id (fun u x => Canon.foldl_by id (fun v j => by simp) [0, 1] u) _ s)

@[simp] theorem advanceClone_memory (s : State) (e : Nat) (h : Keeps z s) : Canon z (advanceClone s e) :=
  h.then (by dsimp only [advanceClone]; (repeat' split) <;> simp (disch := simp))

@[simp] theorem runClone_memory (e : Nat) (s : State) (c : TCmd) (h : Keeps z s) : RanCanon z (runClone e s c) :=
  RanCanon.then h (by dsimp only [runClone]; (repeat' split) <;> simp (disch := simp))

@[simp] theorem dropMirror_memory (s : State) (dst : Nat) : Canon z (dropMirror s dst) ↔ Keeps z s := by
  unfold dropMirror
  simp

@[simp] theorem clearSite_memory (s : State) (site : Nat) (h : Keeps z s) : Canon z (clearSite s site) :=
  h.then fun ⟨hw, hp, hr⟩ => ⟨hw, hp, swf_sdrop hr (fun k => decide (k / 4096 = site))⟩

@[simp] theorem setBankTable_memory (s : State) (b : Nat) (t : Option Nat) : Canon z (setBankTable s b t) ↔ Keeps z s := by
  unfold setBankTable
  simp

@[simp] theorem carrySiteH_memory (s : State) (a b : Nat) (h : Keeps z s) : Canon z (carrySiteH s a b) :=
  h.then (by unfold carrySiteH; simp)

@[simp] theorem endClone_memory (s : State) (t src dst : Nat) (copy : Bool) : Canon z (endClone s t src dst copy) ↔ Keeps z s := by
  unfold endClone
  simp

@[simp] theorem leaveSite_memory (s : State) (src dst : Nat) (h : Keeps z s) : Canon z (leaveSite s src dst) :=
  h.then (by unfold leaveSite; simp)

@[simp] theorem cloneLeft_memory (s : State) (e : Nat) (c : Clone) (h : Keeps z s) : Canon z (cloneLeft s e c) :=
  h.then (by dsimp only [cloneLeft]; (repeat' split) <;> simp)

@[simp] theorem cloneComplete_memory (s : State) (e : Nat) (h : Keeps z s) : Canon z (cloneComplete s e) :=
  h.then (by
    have advanced : Keeps s (advanceClone s e) := by simp
    dsimp only [cloneComplete]
    split
    · exact Keeps.refl s
    · refine advanced.trans ?_
      (repeat' split) <;> simp (disch := simp))

@[simp] theorem retireBank_memory (s : State) (b mode : Nat) (st : BitVec 4) (h : Keeps z s) : Canon z (retireBank s b mode st) :=
  h.then (by unfold retireBank; simp (disch := simp))

@[simp] theorem runRetire_memory (s : State) (c : TCmd) (h : Keeps z s) : RanCanon z (runRetire s c) :=
  RanCanon.then h (by dsimp only [runRetire]; (repeat' split) <;> simp)

@[simp] theorem tryRecord_memory (st : Stream) (c : TCmd) (whole : Bool) (s : State) (h : Keeps z s) : RanCanon z (tryRecord st c whole s) :=
  RanCanon.then h (by dsimp only [tryRecord]; (repeat' split) <;> simp)

@[simp] theorem heldRecord_memory (s : State) (p i restarts : Nat) (st : Stream) (a : Slot) (c : TCmd) (whole : Bool) (h : Keeps z s) :
    Canon z (heldRecord s p i restarts st a c whole) :=
  h.then (by
    have tried (u : State) : RanCanon u (tryRecord st c whole u) := tryRecord_memory _ _ _ _ (Keeps.refl u)
    have here := tried s
    have settled : Keeps s (settleGates s) := by simp
    have again := tried (settleGates s)
    dsimp only [heldRecord]
    cases x : tryRecord st c whole s with
    | wait =>
      cases y : tryRecord st c whole (settleGates s) with
      | wait => simp
      | stays t m =>
        rw [y] at again
        exact settled.trans (Keeps.trans again (by simp))
      | ends t r =>
        rw [y] at again
        exact settled.trans (Keeps.trans again (by simp))
    | stays t m =>
      rw [x] at here
      exact Keeps.trans here (by simp)
    | ends t r =>
      rw [x] at here
      exact Keeps.trans here (by simp))

@[simp] theorem runRecord_memory (s : State) (p i : Nat) (st : Stream) (r : List Slot) (h : Keeps z s) : Canon z (runRecord s p i st r) :=
  h.then (by dsimp only [runRecord]; (repeat' split) <;> simp)

@[simp] theorem bulkRecord_memory (s : State) (p : Nat) (h : Keeps z s) : Canon z (bulkRecord s p) :=
  h.then (by dsimp only [bulkRecord]; (repeat' split) <;> simp)

@[simp] theorem dumpEntry_memory (s : State) (p k : Nat) (h : Keeps z s) : Canon z (dumpEntry s p k) :=
  h.then (by
    dsimp only [dumpEntry]
    split
    · simp
    split
    · split <;> simp
    · next l en _ =>
      split
      · simp
      · have read : RanCanon s (readEntry s (getStream s p k).table (primaryBank s l) l) := readEntry_memory _ _ _ _ (Keeps.refl s)
        split
        · next q =>
          rw [q] at read
          exact Keeps.trans read (by simp)
        · simp)

end

section
/-! ### Rules of the file Lifecycle -/

variable {z : State}

/-- A lifecycle command keeps the memories canonical when what follows its writes leaves them alone. -/
theorem lifeRun_memory {rows : State → TCmd → List (Nat × Nat)} {perm : State → TCmd → Bool} {f : State → TCmd → LifeOut} {s : State} {c : TCmd}
    (hf : ∀ u, LifeKeeps Part.besideMemory (f u c)) : RanCanon s (lifeRun rows perm f s c) := by
  have after {post : State → State} (hp : ∀ u, SameBut Part.besideMemory u (post u)) (u : State) : Keeps u (post u) := fun m => (hp u).canonical m
  unfold lifeRun
  extract_lets rs u v
  split
  · simp
  have issued : Keeps s u := by simp [u]
  have touched : Keeps u v := by simp [v]
  split
  · trivial
  refine RanCanon.then issued ?_
  split
  · simp
  refine RanCanon.then touched ?_
  split
  · simp
  · simp
  · next q =>
    have post := (congrArg (LifeKeeps Part.besideMemory) q).mp (hf _)
    dsimp only
    split
    · simp
    · exact Keeps.trans (by simp) (after post _)
  · next q =>
    have post := (congrArg (LifeKeeps Part.besideMemory) q).mp (hf _)
    dsimp only
    split
    · simp
    · exact Keeps.trans (by simp) (after post _)

theorem lifeHead_memory {s : State} {e opc : Nat} {rows : State → TCmd → List (Nat × Nat)} {perm : State → TCmd → Bool} {f : State → TCmd → LifeOut}
    (hf : ∀ u c, LifeKeeps Part.besideMemory (f u c)) : Keeps s (lifeHead s e opc rows perm f) :=
  runHead_memory (fun _ c => lifeRun_memory (fun u => hf u c))

@[simp] theorem retireBlock_memory (s : State) (pa : Nat) (h : Keeps z s) : Canon z (retireBlock s pa) :=
  h.then (by unfold retireBlock; simp)

@[simp] theorem retireGroup_memory (s : State) (g : Nat) (h : Keeps z s) : Canon z (retireGroup s g) :=
  h.then (by
    dsimp only [retireGroup]
    split
    · exact Keeps.refl s
    · exact jChange_memory (fun u => by simp) (Keeps.refl s))

theorem memberDouble_memory (s : State) (c : TCmd) (r : Ran) (k : RanCanon z r) : RanCanon z (memberDouble s c r) := by
  unfold memberDouble
  split
  · split
    · exact Keeps.then k (by simp)
    · exact k
  · exact k

theorem patchNoted_memory (s : State) (c : TCmd) (x : Ran) (k : RanCanon z x) : RanCanon z (patchNoted s c x) := by
  dsimp only [patchNoted]
  split
  · exact RanCanon.of_ite (Keeps.then k (by simp)) (RanCanon.of_ite (Keeps.then k (by simp)) k)
  · exact k

@[simp] theorem runOvlPut_memory (e : Nat) (s : State) (c : TCmd) (h : Keeps z s) : RanCanon z (runOvlPut e s c) :=
  RanCanon.then h (by
    unfold runOvlPut
    split
    · simp
    extract_lets blks u found tgt v
    have issued : Keeps s u := by simp [u]
    have touched : Keeps u v := by simp [v]
    refine RanCanon.then issued ?_
    split
    · trivial
    split
    · simp
    split
    · simp
    split
    · exact patchNoted_memory _ _ _ (by simp)
    · exact patchNoted_memory _ _ _ (insertEntry_memory _ _ _ _ _ _ _ _ _ _ touched))

@[simp] theorem runOvlDrop_memory (e : Nat) (s : State) (c : TCmd) (h : Keeps z s) : RanCanon z (runOvlDrop e s c) :=
  RanCanon.then h (by
    unfold runOvlDrop
    split
    · simp
    extract_lets blks u
    have issued : Keeps s u := by simp [u]
    refine RanCanon.then issued ?_
    dsimp only
    split
    · simp
    split
    · simp
    split
    · simp
    · exact foundAt_memory _ _ _ _ (remove_memory _ _ _ _ _ _ _ (by simp)))

@[simp] theorem logRepointCheck_memory (s : State) (c : TCmd) (h : Keeps z s) : Canon z (logRepointCheck s c).2 :=
  h.then (by unfold logRepointCheck; split <;> simp)

@[simp] theorem scanBinf_memory (s : State) (h : Keeps z s) : Canon z (scanBinf s) :=
  h.then (by unfold scanBinf; simp)

end

section
/-! ### Rules of the file Image -/

variable {z : State}

@[simp] theorem putBuffer_memory (s : State) (n f : Nat) (ws : List Word) (h : Keeps z s) : Canon z (putBuffer s n f ws) :=
  h.then (by unfold putBuffer; simp)

@[simp] theorem loadStruct_memory (s : State) (ss : List Sect) (h : Keeps z s) : Canon z (loadStruct s ss) :=
  h.then (by unfold loadStruct; simp (disch := simp))

end

section
/-! ### Rules of the file Store -/

variable {z : State}

@[simp] theorem reportFixed_memory (s : State) (keys : List Nat) (h : Keeps z s) : Canon z (reportFixed s keys) :=
  h.then (Canon.foldl_by id (fun u k => by dsimp only [id]; (repeat' split) <;> simp) keys s)

@[simp] theorem checkpointSegment_memory (s : State) (h : Keeps z s) : Canon z (checkpointSegment s) :=
  h.then (by
    have placed {u : State} {l : List (List (Nat × Nat))} {qs : List CkPage} (q : placePages s l = some (u, qs)) : Keeps s u :=
      fun m => (placePages_some q (List.Subset.refl _)).canonical m
    unfold checkpointSegment
    split
    · simp
    split
    · simp
    split
    · simp
    split
    · simp
    split
    · simp
    · next q => exact (placed q).trans (by simp))

end

section
/-! ### Rules of the file Restore -/

variable {z : State}

@[simp] theorem installAt_memory (s : State) (t half addr tag : Nat) (care val : BitVec 192) (res : Word) (h : Keeps z s) :
    Canon z (installAt s t half addr tag care val res) :=
  h.then (by unfold installAt; simp (disch := simp))

@[simp] theorem removeAt_memory (s : State) (t half addr : Nat) (h : Keeps z s) : Canon z (removeAt s t half addr) :=
  h.then (by unfold removeAt; simp)

@[simp] theorem rewriteSlot_memory (s : State) (n : Nat) (ws : List Word) (h : Keeps z s) : Canon z (rewriteSlot s n ws) :=
  h.then (by unfold rewriteSlot; simp)

@[simp] theorem liveProfiles_memory (s : State) (d : List Byte) (h : Keeps z s) : Canon z (liveProfiles s d) :=
  h.then (by unfold liveProfiles; simp)

@[simp] theorem liveBank_memory (s : State) (off : Nat) (d : List Byte) (h : Keeps z s) : Canon z (liveBank s off d) :=
  h.then (by unfold liveBank; simp)

@[simp] theorem applyLive_memory (s : State) (sec off : Nat) (d : List Byte) (h : Keeps z s) : Canon z (applyLive s sec off d) :=
  h.then (by unfold applyLive; split <;> simp)

@[simp] theorem applySects_memory (s : State) (ss : List Sect) (h : Keeps z s) : Canon z (applySects s ss) :=
  h.then (by unfold applySects; simp)

@[simp] theorem finishPackage_memory (s : State) (h : Keeps z s) : Canon z (finishPackage s) :=
  h.then (by unfold finishPackage; split <;> simp)

@[simp] theorem takeSite_memory (s : State) (b site : Nat) (h : Keeps z s) : Canon z (takeSite s b site) :=
  h.then (by
    unfold takeSite
    extract_lets old place u
    split
    · exact Keeps.refl s
    · exact fun ⟨hw, hp, _⟩ => ⟨hw, hp, swf_foldl_sput (swf_nil _ _) (fun e => place e.1) Prod.snd s.tcam.rows⟩)

@[simp] theorem applyRec_memory (s : State) (r : JRec) (h : Keeps z s) : Canon z (applyRec s r) :=
  h.then (by dsimp only [applyRec]; (repeat' split) <;> simp)

@[simp] theorem applyGroup_memory (s : State) (g : List JRec) (h : Keeps z s) : Canon z (applyGroup s g) :=
  h.then (by unfold applyGroup; simp (disch := simp))

@[simp] theorem replay_memory (s : State) (gs : List (Word × List JRec)) (h : Keeps z s) : Canon z (replay s gs) :=
  h.then (by unfold replay; simp)

@[simp] theorem rebuildComposers_memory (s : State) (h : Keeps z s) : Canon z (rebuildComposers s) :=
  h.then fun ⟨hw, hp, hr⟩ => ⟨swf_sdrop hw (fun x => decide (2 ^ 43 ≤ x ∧ x < 2 ^ 44)), hp, hr⟩

@[simp] theorem lifeRestore_memory (s : State) (h : Keeps z s) : Canon z (lifeRestore s) :=
  h.then (by unfold lifeRestore; simp)

@[simp] theorem loadMove_memory (t : Nat) (l : Loc) (s : State) (m : Nat × Nat) (h : Keeps z s) : Canon z (loadMove t l s m) :=
  h.then (by unfold loadMove; simp (disch := simp))

@[simp] theorem installShared_memory (s : State) (t tag : Nat) (care val : BitVec 192) (res : Word) (h : Keeps z s) :
    Canon z (installShared s t tag care val res) :=
  h.then (by
    dsimp only [installShared]
    split
    · exact Keeps.refl s
    · refine Canon.foldl_by id (fun u p => ?_) _ s
      have moved : Keeps u (p.moves.foldl (loadMove t p.loc) u) := Canon.foldl_by id (fun v m => by simp) _ u
      exact moved.trans (Canon.foldl_by id (fun v b => by simp) _ _))

@[simp] theorem loadEntry_memory (s : State) (t half addr tag : Nat) (care val : BitVec 192) (res : Word) (h : Keeps z s) :
    Canon z (loadEntry s t half addr tag care val res) :=
  h.then (by unfold loadEntry; split <;> simp)

@[simp] theorem loadWindows_memory (s : State) (rs : List ImgRec) (h : Keeps z s) : Canon z (loadWindows s rs) :=
  h.then (Canon.foldl_by id (fun u r => by dsimp only [id]; split <;> simp) rs s)

@[simp] theorem clearTables_memory (s : State) (h : Keeps z s) : Canon z (clearTables s) :=
  h.then fun ⟨hw, hp, _⟩ => ⟨swf_sdrop hw (fun k => decide (2 ^ 41 ≤ k ∧ k < 2 ^ 42)), hp, swf_nil _ _⟩

@[simp] theorem retireUnusable_memory (s : State) (h : Keeps z s) : Canon z (retireUnusable s) :=
  h.then (by unfold retireUnusable; simp)

@[simp] theorem loadInit_memory (s : State) (rs : List ImgRec) (h : Keeps z s) : Canon z (loadInit s rs) :=
  h.then (by
    refine retireUnusable_memory _ (Canon.foldl_by id (fun u r => ?_) rs s)
    dsimp only [id]
    split <;> simp)

@[simp] theorem writeRow_memory (s : State) (key : Nat) (x : TRow) (h : Keeps z s) : Canon z (writeRow s key x) :=
  h.then (by unfold writeRow; simp)

@[simp] theorem writeStored_memory (s : State) (key : Nat) (w : Cw) (h : Keeps z s) : Canon z (writeStored s key w) :=
  h.then (by unfold writeStored; split <;> simp)

@[simp] theorem writeStruct_memory (s : State) (c : Ckpt) (same : Bool) (h : Keeps z s) : Canon z (writeStruct s c same) :=
  h.then fun ⟨hw, hp, hr⟩ => by
    unfold writeStruct
    split
    · exact ⟨swf_smerge (swf_sdrop hw (fun k => decide (2 ^ 42 ≤ k ∧ k < 2 ^ 43))) c.profiles, hp, hr⟩
    · exact ⟨hw, hp, hr⟩

@[simp] theorem writeCkpt_memory (s : State) (c : Ckpt) (same : Bool) (h : Keeps z s) : Canon z (writeCkpt s c same) :=
  h.then (by
    unfold writeCkpt
    extract_lets u _ v w
    have taken : Keeps s u := by simp [u]
    have paged : Keeps u v := fun ⟨hw, hp, hr⟩ => ⟨hw, swf_smerge hp c.pages, hr⟩
    have stored : Keeps v w := Canon.foldl_by id (fun x e => by simp) c.words v
    exact ((taken.trans paged).trans stored).trans (Canon.foldl_by id (fun x e => by simp) c.rows w))

@[simp] theorem markAll_memory (s : State) (t obj : Nat) (keys : List Nat) (h : Keeps z s) : Canon z (markAll s t obj keys) :=
  h.then (by unfold markAll; simp)

@[simp] theorem markPoisoned_memory (s : State) (t obj key : Nat) (h : Keeps z s) : Canon z (markPoisoned s t obj key) :=
  h.then (by unfold markPoisoned; simp)

@[simp] theorem poisonAt_memory (s : State) (t a h_ : Nat) (h : Keeps z s) : Canon z (poisonAt s t a h_) :=
  h.then (by unfold poisonAt; simp)

@[simp] theorem holePoison_memory (gs : List (Word × List JRec)) (s : State) (e : JEntry) (h : Keeps z s) : Canon z (holePoison gs s e) :=
  h.then (by dsimp only [holePoison]; (repeat' split) <;> simp)

@[simp] theorem poisonPlace_memory (s : State) (key : Nat) (h : Keeps z s) : Canon z (poisonPlace s key) :=
  h.then (by dsimp only [poisonPlace]; (repeat' split) <;> simp)

@[simp] theorem poisonLost_memory (s : State) (c : Ckpt) (h : Keeps z s) : Canon z (poisonLost s c) :=
  h.then (by
    refine Canon.foldl_by id (fun u p => ?_) _ s
    refine Keeps.trans (s := event u [qFW] 0x4006 4 (p.num % 2 ^ 48)) (by simp) (Canon.foldl_by id (fun v x => ?_) p.spans _)
    dsimp only [id]
    split
    · exact Canon.foldl_by id (fun w i => by simp) _ v
    · simp)

@[simp] theorem fillCopies_memory (s0 s : State) (h : Keeps z s) : Canon z (fillCopies s0 s) :=
  h.then (Canon.foldl_by id (fun u t => Canon.foldl_by id (fun v x => Canon.foldl_by id (fun w c => Canon.foldl_by id (fun y i =>
    Keeps.trans (Canon.foldl_by id (fun a r => by simp) _ y) (Canon.foldl_by id (fun a e => by simp) _ _)) _ w) _ v) _ u) _ s)

@[simp] theorem restore_memory (s : State) (b : Superblock) (same : Bool) (wins inits : List ImgRec) (h : Keeps z s) :
    Canon z (restore s b same wins inits) :=
  h.then (by
    unfold restore
    extract_lets es _ cleared written poisoned all gs loaded holed last bytes _ noted rebuilt t _ timed holes durable
    have c1 : Keeps s cleared := by simp [cleared]
    have c2 : Keeps cleared written := by dsimp only [written]; split <;> simp
    have c3 : Keeps written poisoned := by dsimp only [poisoned]; split <;> simp
    have c4 : Keeps poisoned loaded := by simp (disch := simp) [loaded]
    have c5 : Keeps loaded holed := Canon.foldl_by id (fun u e => by simp) es loaded
    have c6 : Keeps holed durable := by simp (disch := simp) [durable, timed, rebuilt, noted]
    exact ((((c1.trans c2).trans c3).trans c4).trans c5).trans (c6.trans (by simp)))

@[simp] theorem firstBoot_memory (s : State) (wins inits : List ImgRec) (h : Keeps z s) : Canon z (firstBoot s wins inits) :=
  h.then (by
    unfold firstBoot
    extract_lets u v _ _ _ _ w
    have loaded : Keeps s u := by simp (disch := simp) [u]
    have rebuilt : Keeps u w := by simp [w, v]
    exact (loaded.trans rebuilt).trans (Canon.getD (OptCanon.of_same (by simp)) (Keeps.refl w)))

end

section
/-! ### Rules of the file Rebal -/

variable {z : State}

theorem writeRte_memory (s : State) (g r : Nat) : OptCanon s (writeRte s g r) := by
  have inserted (e : Nat) : RanCanon s (insertEntry s e tRTE rteCare (rteKey g) 26 (BitVec.ofNat 64 r) true false Extra.none) :=
    insertEntry_memory _ _ _ _ _ _ _ _ _ _ (Keeps.refl s)
  unfold writeRte
  dsimp only
  split <;> rename_i q <;> have run := (congrArg (RanCanon s) q).mp (inserted _)
  · simp
  · exact OptCanon.some_iff.2 (Keeps.trans run (by simp))
  · split
    · exact OptCanon.some_iff.2 run
    · simp
  · exact OptCanon.some_iff.2 run

theorem tryOwn_memory {s : State} {need : List Nat} {r : Ran} (k : RanCanon s r) : Keeps s (tryOwn s need r) := by
  unfold tryOwn
  split
  · exact Keeps.refl s
  split
  · exact Keeps.trans k (by simp)
  · exact Keeps.trans k (by simp)
  · exact Keeps.refl s

@[simp] theorem dropOverlay_memory (s : State) (x : Loc × Entry) (h : Keeps z s) : Canon z (dropOverlay s x) :=
  h.then (tryOwn_memory (runOvlDrop_memory _ _ _ (Keeps.refl s)))

@[simp] theorem releaseRow_memory (s : State) (l : Nat) (h : Keeps z s) : Canon z (releaseRow s l) :=
  h.then (by
    dsimp only [releaseRow]
    split
    · exact Keeps.refl s
    · exact tryOwn_memory (lifeRun_memory (fun u => doMapRelease_frame u _ (by decide))))

@[simp] theorem dropGranule_memory (s : State) (g : Nat) (h : Keeps z s) : Canon z (dropGranule s g) :=
  h.then (by unfold dropGranule; simp (disch := simp))

@[simp] theorem rebalAfter_memory (s : State) (rollback : Bool) (h : Keeps z s) : Canon z (rebalAfter s rollback) :=
  h.then (by dsimp only [rebalAfter]; (repeat' split) <;> simp)

end

section
/-! ### Rules of the file Boot -/

variable {z : State}

@[simp] theorem sramMaps_memory (s : State) (rs : List Word) (h : Keeps z s) : Canon z (sramMaps s rs) :=
  h.then (Canon.foldl_by id (fun u r => by dsimp only [id]; (repeat' split) <;> simp) rs s)

@[simp] theorem siteMaps_memory (s : State) (rs : List Word) (h : Keeps z s) : Canon z (siteMaps s rs) :=
  h.then (by unfold siteMaps; simp)

@[simp] theorem testsOver_memory (s : State) (h : Keeps z s) : Canon z (testsOver s) :=
  h.then (by unfold testsOver; simp)

@[simp] theorem bootStore_memory (s : State) (ss : List Sect) (img : List Byte) (h : Keeps z s) : Canon z (bootStore s ss img) :=
  h.then (by
    have started (u : State) : Keeps u (bootTimes (blowFuses (enterReady (rebalAfter (stepDone_ u 8) true)) img)) := by simp
    unfold bootStore
    extract_lets u wins inits go
    have replaced : Keeps s u := by simp [u]
    refine replaced.trans ?_
    split
    · simp
    split
    · next b _ =>
      have restored : Keeps u (restore (keptCounters u) b (sameImage u) wins inits) := by simp
      exact (restored.trans (by simp)).trans (started (testsOver _))
    · split
      · simp
      · exact Keeps.trans (by simp) (started _))

@[simp] theorem throughStep3_memory (s : State) (h : Keeps z s) : Canon z (throughStep3 s) :=
  h.then (by unfold throughStep3; simp (disch := simp))

@[simp] theorem clearH_memory (s : State) (h : Keeps z s) : Canon z (clearH s) :=
  h.then fun ⟨hw, hp, _⟩ => ⟨hw, hp, swf_foldl_sput (swf_nil _ _) Prod.fst
    (fun e => { e.2 with s0 := { e.2.s0 with h := false }, s1 := { e.2.s1 with h := false } }) s.tcam.rows⟩

@[simp] theorem closeGates_memory (s : State) (h : Keeps z s) : Canon z (closeGates s) :=
  h.then (by unfold closeGates; simp)

@[simp] theorem sitesLeft_memory (s : State) (h : Keeps z s) : Canon z (sitesLeft s) :=
  h.then (by
    refine Canon.foldl_by id (fun u e => ?_) _ s
    dsimp only [id]
    split
    · split <;> simp
    · simp)

@[simp] theorem enginesAfter_memory (s : State) (h : Keeps z s) : Canon z (enginesAfter s) :=
  h.then (by unfold enginesAfter; simp)

@[simp] theorem warmClear_memory (s : State) (h : Keeps z s) : Canon z (warmClear s) :=
  h.then (by unfold warmClear; simp)

@[simp] theorem clonesOn_memory (s : State) (h : Keeps z s) : Canon z (clonesOn s) :=
  h.then (by unfold clonesOn; simp)

@[simp] theorem reload_memory (s : State) (b : Superblock) (h : Keeps z s) : Canon z (reload s b) :=
  h.then (by
    have dropped : Keeps s { s with sram := { s.sram with words := s.sram.words.filter (fun e => isHeat s e.1) }, tcam := { s.tcam with rows := [], mirror := [] } } :=
      fun ⟨hw, hp, _⟩ => ⟨by simpa [sdrop] using swf_sdrop hw (fun k => !isHeat s k), hp, swf_nil _ _⟩
    unfold reload
    extract_lets img ss clk _ _ u v w t
    have loaded : Keeps s v := Keeps.trans (s := u) dropped (by simp [v])
    have restored : Keeps v t := by simp [t, w]
    exact (loaded.trans restored).trans (by simp))

@[simp] theorem rebuildDir_memory (s : State) (h : Keeps z s) : Canon z (rebuildDir s) :=
  h.then (by dsimp only [rebuildDir]; (repeat' split) <;> simp)

@[simp] theorem warmTables_memory (s : State) (h : Keeps z s) : Canon z (warmTables s) :=
  h.then (by unfold warmTables; split <;> simp)

@[simp] theorem warmStart_memory (s : State) (h : Keeps z s) : Canon z (warmStart s) :=
  h.then (by
    unfold warmStart
    extract_lets u v w
    have halted : Keeps s v := by simp (disch := simp) [u, v]
    have warmed : Keeps v (clearH (warmTables (warmClear v))) := by simp (disch := simp)
    exact (halted.trans warmed).trans (by simp [w]))

@[simp] theorem warmReset_memory (s : State) (crew : Bool) (h : Keeps z s) : Canon z (warmReset s crew) :=
  h.then (by unfold warmReset; simp)

end

section
/-! ### Rules of the file Save -/

variable {z : State}

@[simp] theorem heldReset_memory (s : State) (h : Keeps z s) : Canon z (heldReset s) :=
  h.then (by unfold heldReset; simp)

@[simp] theorem resetOf_memory (s : State) (h : Keeps z s) : Canon z (resetOf s) :=
  h.then (by unfold resetOf; simp)

@[simp] theorem pfailRise_memory (s : State) (vhok : Bool) (h : Keeps z s) : Canon z (pfailRise s vhok) :=
  h.then (by dsimp only [pfailRise]; (repeat' split) <;> simp)

end

section
/-! ### Rules of the file Replicas -/

variable {z : State}

@[simp] theorem poisonBank_memory (s : State) (t b : Nat) (h : Keeps z s) : Canon z (poisonBank s t b) :=
  h.then (by unfold poisonBank; simp)

@[simp] theorem loseBank_memory (s : State) (b : Nat) (h : Keeps z s) : Canon z (loseBank s b) :=
  h.then (by dsimp only [loseBank]; (repeat' split) <;> simp)

end

section
/-! ### Rules of the file ArbOps -/

variable {z : State}

@[simp] theorem refreshRow_memory (s : State) (a : Nat) (h : Keeps z s) : Canon z (refreshRow s a) :=
  h.then (by unfold refreshRow; simp)

@[simp] theorem decideArb_memory (s : State) (a : Nat) (q : ArbAsk) (h : Keeps z s) : Canon z (decideArb s a q) :=
  h.then (by dsimp only [decideArb]; (repeat' split) <;> simp)

@[simp] theorem issueRefresh_memory (s : State) (a : Nat) (h : Keeps z s) : Canon z (issueRefresh s a) :=
  h.then (by unfold issueRefresh; simp)

@[simp] theorem retestRetention_memory (s : State) (h : Keeps z s) : Canon z (retestRetention s) :=
  h.then (by unfold retestRetention; simp)

@[simp] theorem bandChanged_memory (s : State) (old : Nat) (h : Keeps z s) : Canon z (bandChanged s old) :=
  h.then (by unfold bandChanged; simp (disch := simp))

end

section
/-! ### Rules of the file Thermal -/

variable {z : State}

@[simp] theorem writeBand_memory (s : State) (b : Nat) (h : Keeps z s) : Canon z (writeBand s b) :=
  h.then (by unfold writeBand; simp)

@[simp] theorem goodReading_memory (s : State) (v : ℤ) (h : Keeps z s) : Canon z (goodReading s v) :=
  h.then (by dsimp only [goodReading]; (repeat' split) <;> simp)

@[simp] theorem faultyReading_memory (s : State) (detail : Nat) (h : Keeps z s) : Canon z (faultyReading s detail) :=
  h.then (by unfold faultyReading; simp)

theorem runningConv_memory {s u : State} (q : runningConv s = some u) : Keeps s u := fun m =>
  ((runningConv_frame s (ps := [.therm]) (by decide) (SameBut.refl _ s)).some_same _ q).canonical m

@[simp] theorem conversionDone_memory (s : State) (raw : BitVec 12) (h : Keeps z s) : Canon z (conversionDone s raw) :=
  h.then (by
    unfold conversionDone
    split
    · exact Keeps.refl s
    · next u q =>
      refine (runningConv_memory q).trans ?_
      extract_lets t v jump good s1 s2 s3 s4 s5
      have noted : Keeps u s2 := by simp [s2, s1]
      have tripped : Keeps s2 s3 := by simp [s3]
      have reported : Keeps s3 s4 := by simp [s4]
      have served : Keeps s4 s5 := by simp [s5]
      exact ((noted.trans tripped).trans (reported.trans served)).trans (by split <;> simp))

@[simp] theorem conversionTimeout_memory (s : State) (h : Keeps z s) : Canon z (conversionTimeout s) :=
  h.then (by
    dsimp only [conversionTimeout]
    split
    · exact Keeps.refl s
    · next q => exact (runningConv_memory q).trans (by simp (disch := simp)))

@[simp] theorem writeDcol_memory (s : State) (g : Nat) (h : Keeps z s) : Canon z (writeDcol s g) :=
  h.then (by unfold writeDcol; split <;> simp)

@[simp] theorem writeDcols_memory (s : State) (h : Keeps z s) : Canon z (writeDcols s) :=
  h.then (by unfold writeDcols; simp)

@[simp] theorem setMedia_memory (s : State) (g b : Nat) (v : ℤ) (h : Keeps z s) : Canon z (setMedia s g b v) :=
  h.then (by unfold setMedia; simp (disch := simp))

@[simp] theorem mediaStep_memory (s : State) (g : Nat) (v : ℤ) (floor : Nat) (h : Keeps z s) : Canon z (mediaStep s g v floor) :=
  h.then (by dsimp only [mediaStep]; (repeat' split) <;> simp)

@[simp] theorem tempEntry_memory (s : State) (p g : Nat) (v : ℤ) (h : Keeps z s) : Canon z (tempEntry s p g v) :=
  h.then (by unfold tempEntry; split <;> simp)

@[simp] theorem tempReport_memory (s : State) (p : Nat) (h : Keeps z s) : Canon z (tempReport s p) :=
  h.then (by unfold tempReport; split <;> simp)

@[simp] theorem staleGroup_memory (s : State) (g : Nat) (h : Keeps z s) : Canon z (staleGroup s g) :=
  h.then (by
    -- The kernel is not to run the sweep that the body matches on, so it is a variable (as in `staleGroup_frame`).
    generalize e : staleGroup = f
    delta staleGroup at e
    revert e
    generalize freshMax = fresh
    revert fresh
    refine id ?_
    rintro fresh rfl
    beta_reduce
    extract_lets p x u floor
    have noted : Keeps s u := by
      dsimp only [u]
      split
      · exact Keeps.refl s
      · simp
    have put (y : MGroup) : Keeps u (setGroup u g y) := by simp
    refine noted.trans ?_
    split
    · exact setMedia_memory _ _ _ _ (put _)
    · exact mediaStep_memory _ _ _ _ (put _))

end

section
/-! ### Rules of the file Integrity -/

variable {z : State}

@[simp] theorem startTest_memory (s : State) (w : Nat) (h : Keeps z s) : Canon z (startTest s w).1 :=
  h.then (by
    dsimp only [startTest]
    split
    · exact Keeps.refl s
    split
    · exact Keeps.refl s
    split
    · simp
    split
    · exact Keeps.refl s
    · next q => exact (startOp_memory q).trans (by simp))

@[simp] theorem startTests_memory (s : State) (h : Keeps z s) : Canon z (startTests s) :=
  h.then (by
    have started : Keeps s (s.integ.selfTest.foldl (fun (x : State × List Nat) w =>
        let (s, gone) := startTest x.1 w
        (s, if gone then x.2 else x.2 ++ [w])) (s, [])).1 := Canon.foldl_by Prod.fst (fun x w => by simp) _ (s, [])
    unfold startTests
    split
    · exact started
    · exact Keeps.refl s)

@[simp] theorem selfTestRotation_memory (s : State) (h : Keeps z s) : Canon z (selfTestRotation s) :=
  h.then (by dsimp only [selfTestRotation]; (repeat' split) <;> simp)

@[simp] theorem bankSelfTest_memory (s : State) (b : Nat) (result : BitVec 4) (h : Keeps z s) : Canon z (bankSelfTest s b result) :=
  h.then (by
    have cleared (retain : List (Nat × Nat)) (test : Sparse (BitVec 4)) : Keeps s { s with tcam := { s.tcam with
        test := test, retain := retain, rows := sdrop s.tcam.rows (fun k => decide (k / 4096 = siteOf s b)) } } :=
      fun ⟨hw, hp, hr⟩ => ⟨hw, hp, swf_sdrop hr (fun k => decide (k / 4096 = siteOf s b))⟩
    dsimp only [bankSelfTest]
    split
    · exact Keeps.refl s
    split
    · exact cleared _ _
    split
    · exact Keeps.refl s
    · exact (cleared (s.tcam.retain.filter (fun e => decide (e.1 ≠ siteOf s b))) (sput 0 s.tcam.test (siteOf s b) result)).trans (by simp))

@[simp] theorem selfTestDone_memory (s : State) (b : Nat) (h : Keeps z s) : Canon z (selfTestDone s b) :=
  h.then (by dsimp only [selfTestDone]; (repeat' split) <;> simp (disch := simp))

@[simp] theorem trackerReport_memory (s : State) (h : Keeps z s) : Canon z (trackerReport s) :=
  h.then (by dsimp only [trackerReport]; (repeat' split) <;> simp)

@[simp] theorem writeBackWord_memory (s : State) (key : Nat) (h : Keeps z s) : Canon z (writeBackWord s key) :=
  h.then (by unfold writeBackWord; simp)

@[simp] theorem scrubWord_memory (s : State) (key : Nat) (h : Keeps z s) : Canon z (scrubWord s key) :=
  h.then (by dsimp only [scrubWord]; (repeat' split) <;> simp)

@[simp] theorem writeBack_memory (s : State) (a : BitVec 28) (h : Keeps z s) : Canon z (writeBack s a) :=
  h.then (by unfold writeBack; split <;> simp)

@[simp] theorem spareCopy_memory (s : State) (key : Nat) (h : Keeps z s) : Canon z (spareCopy s key) :=
  h.then (by dsimp only [spareCopy]; (repeat' split) <;> simp)

@[simp] theorem spareRow_memory (s : State) (a : BitVec 28) (spare : Nat) (h : Keeps z s) : Canon z (spareRow s a spare) :=
  h.then (by unfold spareRow; simp)

@[simp] theorem spareColumn_memory (s : State) (m b spare : Nat) (h : Keeps z s) : Canon z (spareColumn s m b spare) :=
  h.then (by unfold spareColumn; simp)

@[simp] theorem rowSparing_memory (s : State) (a : BitVec 28) (h : Keeps z s) : Canon z (rowSparing s a) :=
  h.then (by
    dsimp only [rowSparing]
    split
    · simp
    generalize (_ || _) = spared
    split
    · simp
    split
    · exact autoWithin_memory (fun u => by simp) (Keeps.refl s)
    · simp)

@[simp] theorem columnSparing_memory (s : State) (a : BitVec 28) (b : Nat) (h : Keeps z s) : Canon z (columnSparing s a b) :=
  h.then (by
    dsimp only [columnSparing]
    split
    · simp
    split
    · exact autoWithin_memory (fun u => by simp) (Keeps.refl s)
    · simp)

@[simp] theorem scrubPair_memory (s : State) (t b r h_ : Nat) (h : Keeps z s) : Canon z (scrubPair s t b r h_) :=
  h.then (by
    dsimp only [scrubPair]
    generalize hp : resolvePair s t _ b _ _ _ _ true = x
    have resolved : Keeps s x.2 := by
      rw [← hp]
      exact resolvePair_memory _ _ _ _ _ _ _ _ _ (fun u y => by simp)
    refine resolved.trans ?_
    (repeat' split) <;> simp)

@[simp] theorem scrubEntry_memory (s : State) (t b r h_ : Nat) (h : Keeps z s) : Canon z (scrubEntry s t b r h_) :=
  h.then (by
    unfold scrubEntry
    extract_lets w e k u paired v
    have first : Keeps s u := by simp [u]
    have both : Keeps u v := by
      dsimp only [v]
      split <;> simp
    refine first.trans ?_
    split
    · refine both.trans ?_
      (repeat' split) <;> simp
    · split <;> simp)

@[simp] theorem scrubRowAt_memory (s : State) (b r : Nat) (h : Keeps z s) : Canon z (scrubRowAt s b r) :=
  h.then (by unfold scrubRowAt; split <;> simp)

@[simp] theorem bankScrub_memory (s : State) (e : Nat) (h : Keeps z s) : Canon z (bankScrub s e) :=
  h.then (by dsimp only [bankScrub]; (repeat' split) <;> simp)

@[simp] theorem sramScrub_memory (s : State) (e : Nat) (h : Keeps z s) : Canon z (sramScrub s e) :=
  h.then (by dsimp only [sramScrub]; (repeat' split) <;> simp)

@[simp] theorem rederiveIndex_memory (s : State) (t key : Nat) (unread : Bool) (h : Keeps z s) : Canon z (rederiveIndex s t key unread) :=
  h.then (by dsimp only [rederiveIndex]; (repeat' split) <;> simp)

@[simp] theorem putStored_memory (s : State) (t b r h_ : Nat) (x : Option Stored) (h : Keeps z s) : Canon z (putStored s t b r h_ x) :=
  h.then (by dsimp only [putStored]; (repeat' split) <;> simp (disch := simp))

@[simp] theorem rederiveDest_memory (s : State) (t src b r h_ : Nat) (h : Keeps z s) : Canon z (rederiveDest s t src b r h_) :=
  h.then (by dsimp only [rederiveDest]; (repeat' split) <;> simp)

@[simp] theorem rederiveEntry_memory (s : State) (b r h_ : Nat) (unread : Bool) (h : Keeps z s) : Canon z (rederiveEntry s b r h_ unread) :=
  h.then (by dsimp only [rederiveEntry]; (repeat' split) <;> simp)

@[simp] theorem rederiveProfile_memory (s : State) (key : Nat) (h : Keeps z s) : Canon z (rederiveProfile s key) :=
  h.then (by dsimp only [rederiveProfile]; (repeat' split) <;> simp)

@[simp] theorem rederiveWord_memory (s : State) (key : Nat) (unread : Bool) (h : Keeps z s) : Canon z (rederiveWord s key unread) :=
  h.then (by dsimp only [rederiveWord]; (repeat' split) <;> simp)

@[simp] theorem rederive_memory (s : State) (unread : Bool) (h : Keeps z s) : Canon z (rederive s unread) :=
  h.then (by
    dsimp only [rederive]
    split
    · exact Keeps.refl s
    · refine autoWithin_memory (fun u => ?_) (by simp)
      split <;> simp)

@[simp] theorem sramRegion_memory (s : State) (r : SramRegion) (h : Keeps z s) : Canon z (sramRegion s r) :=
  h.then (by dsimp only [sramRegion]; (repeat' split) <;> simp)

@[simp] theorem scanWord_memory (s : State) (a : BitVec 28) (h : Keeps z s) : Canon z (scanWord s a) :=
  h.then (by unfold scanWord; simp)

@[simp] theorem haltDump_memory (s : State) (p k : Nat) (h : Keeps z s) : Canon z (haltDump s p k) :=
  h.then (by dsimp only [haltDump]; (repeat' split) <;> simp (disch := simp))

@[simp] theorem haltCloneOf_memory (s : State) (e : Nat) (h : Keeps z s) : Canon z (haltCloneOf s e) :=
  h.then (by dsimp only [haltCloneOf]; (repeat' split) <;> simp)

@[simp] theorem haltClone_memory (s : State) (e row : Nat) (unread : Bool) (h : Keeps z s) : Canon z (haltClone s e row unread) :=
  h.then (by dsimp only [haltClone]; (repeat' split) <;> simp (disch := simp))

@[simp] theorem channelHalt_memory (s : State) (c : HaltCase) (h : Keeps z s) : Canon z (channelHalt s c) :=
  h.then (by unfold channelHalt; split <;> simp)

@[simp] theorem rawRead_memory (s : State) (h : Keeps z s) : Canon z (rawRead s).2 :=
  h.then (by unfold rawRead; simp)

@[simp] theorem rawWrite_memory (s : State) (h : Keeps z s) : Canon z (rawWrite s).2 :=
  h.then (by unfold rawWrite; split <;> simp)

@[simp] theorem injectAt_memory (s : State) (h : Keeps z s) : Canon z (injectAt s).2 :=
  h.then (by unfold injectAt; simp)

@[simp] theorem twrWrite_memory (s : State) (h : Keeps z s) : Canon z (twrWrite s).2 :=
  h.then (by unfold twrWrite; split <;> simp)

end

section
/-! ### Rules of the file Arbiters -/

variable {z : State}

@[simp] theorem cutCoal_memory (s : State) (a : Nat) (h : Keeps z s) : Canon z (cutCoal s a) :=
  h.then (by unfold cutCoal; split <;> simp)

@[simp] theorem cutRepair_memory (s : State) (a : Nat) (h : Keeps z s) : Canon z (cutRepair s a) :=
  h.then (by unfold cutRepair; simp)

@[simp] theorem cutUpdate_memory (s : State) (a : Nat) (h : Keeps z s) : Canon z (cutUpdate s a) :=
  h.then (by dsimp only [cutUpdate]; (repeat' split) <;> simp)

@[simp] theorem cutRefresh_memory (s : State) (a : Nat) (h : Keeps z s) : Canon z (cutRefresh s a) :=
  h.then (by unfold cutRefresh; simp)

@[simp] theorem cutClone_memory (s : State) (a : Nat) (h : Keeps z s) : Canon z (cutClone s a) :=
  h.then (by unfold cutClone; split <;> simp)

@[simp] theorem stallCutoff_memory (s : State) (a : Nat) (h : Keeps z s) : Canon z (stallCutoff s a) :=
  h.then (by dsimp only [stallCutoff]; (repeat' split) <;> simp)

end

section
/-! ### Rules of the file Crew -/

variable {z : State}

@[simp] theorem takeFwd_memory (s : State) (k : Nat) (h : Keeps z s) : Canon z (takeFwd s k) :=
  h.then (by dsimp only [takeFwd]; (repeat' split) <;> simp)

@[simp] theorem rebalWrite_memory (s : State) (h : Keeps z s) : Canon z (rebalWrite s) :=
  h.then (by
    unfold rebalWrite
    extract_lets c put
    have written (u : State) (g r : Nat) : Keeps u (put u g r) := by
      dsimp only [put]
      split
      · exact Keeps.refl u
      · exact Canon.getD (writeRte_memory _ _ _) (Keeps.refl u)
    exact (written s c.gran.toNat c.dst.toNat).trans (written _ c.part.toNat c.src.toNat))

@[simp] theorem rebalSwitchHere_memory (s : State) (h : Keeps z s) : Canon z (rebalSwitchHere s) :=
  h.then (by unfold rebalSwitchHere; simp)

@[simp] theorem rebalSwitched_memory (s : State) (h : Keeps z s) : Canon z (rebalSwitched s) :=
  h.then (by unfold rebalSwitched; simp)

@[simp] theorem rebalSwitch_memory (s : State) (h : Keeps z s) : Canon z (rebalSwitch s) :=
  rebalPhase_memory (fun u => by simp) h

@[simp] theorem rebalFinish_memory (s : State) (h : Keeps z s) : Canon z (rebalFinish s) :=
  h.then (by unfold rebalFinish; simp)

@[simp] theorem rebalAcked_memory (s : State) (r ph : Nat) (h : Keeps z s) : Canon z (rebalAcked s r ph) :=
  h.then (by dsimp only [rebalAcked]; (repeat' split) <;> simp)

@[simp] theorem rebalNoteIn_memory (s : State) (x : Slot) (h : Keeps z s) : Canon z (rebalNoteIn s x) :=
  h.then (by
    have refl := Keeps.refl s
    have told (u : State) : Keeps u (rebalEvent u) := by simp
    unfold rebalNoteIn
    extract_lets ph a b g h cur mine ack begin_
    have acked (u : State) : Keeps u (ack u) := by simp [ack]
    have begun (f : State → State) (hf : ∀ v, Keeps v (f v)) : Keeps s (begin_ s f) := rebalStep_memory hf refl
    have joined : Keeps s (begin_ s (fun s => ack (rebalEvent s))) := begun _ (fun v => (told v).trans (acked _))
    refine Keeps.of_ite refl (Keeps.of_ite (by simp) (Keeps.of_ite ?_ (Keeps.of_ite refl (Keeps.of_ite ?_ (Keeps.of_ite refl ?_)))))
    · refine Keeps.of_ite (by simp) (Keeps.of_ite (begun _ fun v => ?_) refl)
      have asked : Keeps v (if rank v = b then rebalEvent v else v) := Keeps.of_ite (told v) (Keeps.refl v)
      exact asked.trans (rebalSwitchHere_memory _ (Keeps.refl _))
    · exact Keeps.of_ite (Keeps.of_ite joined refl) joined
    · refine Keeps.of_ite (rebalPhase_memory (fun v => by simp) refl) (Keeps.of_ite ?_ (Keeps.of_ite (rebalPhase_memory (fun v => ?_) refl)
        (rebalPhase_memory acked refl)))
      · exact Keeps.of_ite (Keeps.of_ite (acked s) refl) (acked s)
      · exact Keeps.trans (by simp) (Keeps.of_ite (acked _) (Keeps.refl _)))

@[simp] theorem rebalReport_memory (p : Nat) (s : State) (l : List Byte) (h : Keeps z s) : Canon z (rebalReport p s l).2 :=
  h.then (by dsimp only [rebalReport]; (repeat' split) <;> simp)

@[simp] theorem runReport_memory (s : State) (w : Client) (h : Keeps z s) : Canon z (runReport s w) :=
  runReq_memory (fun u l => by simp) h

@[simp] theorem answerReports_memory (s : State) (h : Keeps z s) : Canon z (answerReports s) :=
  h.then (by unfold answerReports; simp)

@[simp] theorem rebalPoll_memory (s : State) (h : Keeps z s) : Canon z (rebalPoll s) :=
  h.then (by dsimp only [rebalPoll]; (repeat' split) <;> simp)

@[simp] theorem crewReset_memory (s : State) (h : Keeps z s) : Canon z (crewReset s) :=
  h.then (by unfold crewReset; simp)

@[simp] theorem startCrewReset_memory (s : State) (h : Keeps z s) : Canon z (startCrewReset s) :=
  h.then (by unfold startCrewReset; simp (disch := simp))

end

section
/-! ### Rules of the file RegWrite -/

variable {z : State}

@[simp] theorem writeThermal_memory (s : State) (who : Requester) (r : Nat) (v : Reg) (h : Keeps z s) : Canon z (writeThermal s who r v).2 :=
  h.then (by
    dsimp only [writeThermal]
    split
    · refine coreOnly_memory ?_ (Keeps.refl s)
      split <;> simp
    split
    · refine coreOnly_memory ?_ (Keeps.refl s)
      split
      · exact trigger_memory (fun u => by simp) (trigger_memory (fun u => by simp) (Keeps.refl s))
      · simp
    split
    · refine coreOnly_memory ?_ (Keeps.refl s)
      split <;> simp
    split
    · refine coreOnly_memory ?_ (Keeps.refl s)
      split <;> simp
    split <;> simp)

@[simp] theorem writeTest_memory (s : State) (who : Requester) (r : Nat) (v : Reg) (h : Keeps z s) : Canon z (writeTest s who r v).2 :=
  h.then (by
    have run {n : Nat} {f : State → Status × State} (q : etOp n = some f) (u : State) : Keeps u (f u).2 := by
      unfold etOp at q
      split at q <;> cases q <;> simp
    have put (x : Integ) : Keeps s { s with integ := x } := by simp
    unfold writeTest
    refine Keeps.of_ite_snd (put _) (Keeps.of_ite_snd ?_ ?_)
    · split
      · next q => exact etRun_memory (run q) (Keeps.refl s)
      · split
        · exact Keeps.refl s
        · exact put _
    · repeat' refine Keeps.of_ite_snd (put _) ?_
      exact Keeps.refl s)

@[simp] theorem writeIntegrity_memory (s : State) (who : Requester) (r : Nat) (v : Reg) (h : Keeps z s) : Canon z (writeIntegrity s who r v).2 :=
  h.then (by
    have tested {w : Wrote} (k : Keeps s w.2) : Keeps s (if etWriter s who then w else ((.locked, s) : Wrote)).2 := Keeps.of_ite_snd k (Keeps.refl s)
    have put (x : Integ) : Keeps s { s with integ := x } := by simp
    have mine {w : Wrote} (k : Keeps s w.2) : Keeps s (coreOnly who s w).2 := coreOnly_memory k (Keeps.refl s)
    unfold writeIntegrity
    refine Keeps.of_ite_snd (tested ?_) (Keeps.of_ite_snd (tested ?_) (Keeps.of_ite_snd (tested ?_)
      (Keeps.of_ite_snd (mine (put _)) (Keeps.of_ite_snd (mine (Keeps.of_ite_snd (put _) (Keeps.refl s)))
      (Keeps.of_ite_snd (mine (Keeps.of_ite_snd (put _) (Keeps.refl s))) (tested (Keeps.refl s)))))))
    · simp
    · simp
    · simp)

end

section
/-! ### Rules of the file WaitosInfo -/

variable {z : State}

@[simp] theorem migInfo_memory (s : State) (r : Nat) (h : Keeps z s) : Canon z (migInfo s r).2 :=
  h.then (by unfold migInfo; simp)

@[simp] theorem ctxRead_memory (s : State) (r : Nat) (h : Keeps z s) : Canon z (ctxRead s r).2 :=
  h.then (by unfold ctxRead; split <;> simp)

@[simp] theorem scrubPass_memory (s : State) (kind n : Nat) (h : Keeps z s) : Canon z (scrubPass s kind n) :=
  h.then (by unfold scrubPass; simp)

end

section
/-! ### Rules of the file WaitosMaint -/

variable {z : State}

@[simp] theorem toTesting_memory (s : State) (b : Nat) (h : Keeps z s) : Canon z (toTesting s b) := jChange_memory (fun u => by simp) h

@[simp] theorem bankTest_memory (s : State) (w : Client) (b : Nat) (h : Keeps z s) : Canon z (bankTest s w b).2 :=
  h.then (by
    dsimp only [bankTest]
    split
    · simp
    split
    · simp
    split
    · split
      · simp
      · exact startReply_memory (fun n u => by simp) (Keeps.refl s)
    split
    · exact startReply_memory (fun n u => by simp) (Keeps.refl s)
    · simp)

@[simp] theorem retireNow_memory (s : State) (h_ b : Nat) (h : Keeps z s) : Canon z (retireNow s h_ b) :=
  h.then (by unfold retireNow; split <;> simp)

@[simp] theorem waitosRetire_memory (s : State) (w : Client) (b : Nat) (h : Keeps z s) : Canon z (waitosRetire s w b).2 :=
  h.then (by
    dsimp only [waitosRetire]
    split
    · simp
    split
    · simp
    split
    · split
      · simp
      · exact startReply_memory (fun n u => by simp) (Keeps.refl s)
    split
    · exact startReply_memory (fun n u => by split <;> simp (disch := simp)) (Keeps.refl s)
    · simp)

@[simp] theorem cellSpare_memory (s : State) (w : Client) (a : BitVec 28) (column : Bool) (b : Nat) (h : Keeps z s) :
    Canon z (cellSpare s w a column b).2 :=
  h.then (by
    dsimp only [cellSpare]
    split
    · simp
    split
    · simp
    split
    · simp
    · exact doneWithin_memory (fun u => by simp) (Keeps.refl s))

@[simp] theorem writeReplica_memory (s : State) (h_ d : Nat) (dests : List Nat) (h : Keeps z s) : Canon z (writeReplica s h_ d dests) :=
  h.then (by dsimp only [writeReplica]; (repeat' split) <;> simp)

@[simp] theorem growSpan_memory (s : State) (d : Nat) (bs : List Nat) (k : Nat) (h : Keeps z s) : Canon z (growSpan s d bs k) :=
  jChange_memory (fun u => by simp) h

@[simp] theorem grow_memory (s : State) (w : Client) (t d : Nat) (h : Keeps z s) : Canon z (grow s w t d).2 :=
  h.then (by
    dsimp only [grow]
    split
    · simp
    split
    · simp
    split
    · simp
    · exact doneJournaled_memory (fun u => by simp) (Keeps.refl s))

@[simp] theorem autoGrow_memory (s : State) (t : Nat) (h : Keeps z s) : Canon z (autoGrow s t).2 :=
  h.then (by dsimp only [autoGrow]; (repeat' split) <;> simp)

@[simp] theorem readTable_memory (s : State) (t : Nat) (h : Keeps z s) : Canon z (readTable s t) :=
  h.then (by dsimp only [readTable]; (repeat' split) <;> simp)

@[simp] theorem countReading_memory (s : State) (h : Keeps z s) : Canon z (countReading s) :=
  h.then (by unfold countReading; simp (disch := simp))

end

section
/-! ### Rules of the file WaitosImage -/

variable {z : State}

@[simp] theorem timeAdvance_memory (s : State) (d : Nat) (h : Keeps z s) : Canon z (timeAdvance s d).2 :=
  h.then (by unfold timeAdvance; simp)

@[simp] theorem applyPackage_memory (s : State) (x : Session) (h_ : Nat) (h : Keeps z s) : Canon z (applyPackage s x h_) :=
  h.then (by unfold applyPackage; simp)

@[simp] theorem commitPackage_memory (s : State) (w : Client) (x : Session) (h : Keeps z s) : Canon z (commitPackage s w x).2 :=
  h.then (by
    dsimp only [commitPackage]
    split
    · simp
    split
    · simp
    split
    · simp
    split
    · simp
    · exact doneWithin_memory (fun u => by simp) (Keeps.refl s))

@[simp] theorem imgCommit_memory (s : State) (w : Client) (h : Keeps z s) : Canon z (imgCommit s w).2 :=
  h.then (by dsimp only [imgCommit]; (repeat' split) <;> simp)

@[simp] theorem retireDone_memory (s : State) (h_ : Nat) (x : Op) (h : Keeps z s) : Canon z (retireDone s h_ x) :=
  h.then (by dsimp only [retireDone]; (repeat' split) <;> simp)

@[simp] theorem opEnds_memory (s : State) (h_ : Nat) (st : BitVec 4) (progress : Word) (h : Keeps z s) : Canon z (opEnds s h_ st progress) :=
  h.then (by dsimp only [opEnds]; (repeat' split) <;> simp)

@[simp] theorem opDone_memory (s : State) (h_ : Nat) (st : BitVec 4) (progress : Word) (h : Keeps z s) : Canon z (opDone s h_ st progress) :=
  h.then (by dsimp only [opDone]; (repeat' split) <;> simp)

end

section
/-! ### Rules of the file Sideband -/

variable {z : State}

@[simp] theorem stroke_memory (s : State) (h : Keeps z s) : Canon z (stroke s) :=
  h.then (by unfold stroke; simp)

end

end Sys2Proof.Machine
end

section
/-! ### Resets -/

open Sys2Proof
namespace Sys2Proof.Machine

variable {z : State}

@[simp] theorem portReset_memory (s : State) (p trig reason : Nat) (h : Keeps z s) : Canon z (portReset s p trig reason) :=
  h.then (by
    dsimp only [portReset]
    exact Keeps.of_ite (Keeps.refl s) (by split <;> simp))

/-! ### Boot -/

@[simp] theorem protect_memory (s : State) (ss : List Sect) (h : Keeps z s) : Canon z (protect s ss) :=
  h.then (by
    unfold protect
    split <;> simp)

@[simp] theorem step7_memory (s : State) (ss : List Sect) (h : Keeps z s) : Canon z (step7 s ss) :=
  h.then (by
    have loaded : Keeps s (loadWindows (clearTables s) (sectRecs s ss 11)) := by simp
    exact loaded.trans (by unfold step7; simp))

@[simp] theorem throughStep7_memory (slot : Nat) (s : State) (img : List Byte) (h : Keeps z s) : Canon z (throughStep7 slot s img) :=
  h.then (by
    unfold throughStep7
    simp)

theorem tryImage_memory {s c : State} {slot : Nat} {readFail : Bool} {img : List Byte} (h : tryImage s slot readFail = .inr (c, img)) : Keeps s c := by
  have loaded : c = loadStruct s (sections (slotImage s slot)) := by
    dsimp only [tryImage] at h
    (repeat' split at h) <;> cases h <;> rfl
  rw [loaded]
  simp

/-- A choice of an image keeps the memories, whether it finds one or none. -/
theorem chooseImage_memory (s : State) (is : List Nat) :
    Keeps s (chooseImage s is).1 ∧ ∀ slot c img, (chooseImage s is).2 = some (slot, c, img) → Keeps s c := by
  induction is generalizing s with
  | nil => exact ⟨Keeps.refl s, fun _ _ _ h => nomatch h⟩
  | cons i is ih =>
    rw [chooseImage]
    split
    · next code _ =>
      have left : Keeps s (reject s i code) := by simp
      obtain ⟨hnone, hsome⟩ := ih (reject s i code)
      exact ⟨left.trans hnone, fun slot c img q => left.trans (hsome slot c img q)⟩
    · next q =>
      refine ⟨by simp, fun slot c img e => ?_⟩
      cases e
      exact (tryImage_memory q).trans (by simp)

@[simp] theorem bootFrom5_memory (s : State) (h : Keeps z s) : Canon z (bootFrom5 s) :=
  h.then (by
    have tried : Keeps s (tryImages s) := by simp
    obtain ⟨hnone, hsome⟩ := chooseImage_memory (tryImages s) (candidates (tryImages s))
    dsimp only [bootFrom5]
    split
    · next q =>
      rw [q] at hnone
      exact (tried.trans hnone).trans (by simp)
    · next slot c img q =>
      exact (tried.trans (hsome slot c img (by rw [q]))).trans (by simp))

/-- A cold boot starts from the reset values, whose memories are empty. -/
@[simp] theorem coldState_memory (s : State) (e : BootEnv) : Canon z (coldState s e) := fun _ => ⟨rfl, rfl, rfl⟩

@[simp] theorem bootFrom4_memory (s : State) (h : Keeps z s) : Canon z (bootFrom4 s) :=
  bootFrom5_memory (stepDone_ s 4) (h.trans (by simp))

@[simp] theorem coldBoot_memory (s : State) (e : BootEnv) : Canon z (coldBoot s e) := by
  have started : Keeps z (resetDebug (coldState s e)) := by simp
  have mapped : Keeps z (throughStep3 (resetDebug (coldState s e))) := started.trans (by simp)
  dsimp only [coldBoot]
  exact Keeps.of_ite (started.trans (by simp)) (Keeps.of_ite (mapped.trans (by simp))
    (Keeps.of_ite (mapped.trans (by simp)) (bootFrom4_memory _ mapped)))

@[simp] theorem powerUp_memory (s : State) (e : BootEnv) (h : Keeps z s) : Canon z (powerUp s e) :=
  h.then (by
    dsimp only [powerUp]
    exact Keeps.of_ite (Keeps.refl s) (Keeps.of_ite (by simp) (coldBoot_memory _ e)))

/-! ### The end of a save -/

@[simp] theorem powerBack_memory (s : State) (h : Keeps z s) : Canon z (powerBack s) :=
  h.then (Keeps.of_ite (coldBoot_memory s _) (Keeps.of_ite (Keeps.refl s) (Keeps.of_ite (resetOf_memory s (Keeps.refl s)) (Keeps.refl s))))

@[simp] theorem afterSave_memory (s : State) (h : Keeps z s) : Canon z (afterSave s) :=
  h.then (Keeps.of_ite (powerBack_memory s (Keeps.refl s)) (Keeps.of_ite (by simp) (Keeps.refl s)))

@[simp] theorem saveComplete_memory (s : State) (h : Keeps z s) : Canon z (saveComplete s) :=
  h.then (by
    unfold saveComplete
    extract_lets s1 s2
    have drained : Keeps s s1 := by simp [s1]
    have sealed_ : Keeps s1 s2 := by simp [s2]
    refine Keeps.of_ite (Keeps.refl s) (Keeps.of_ite (powerBack_memory s (Keeps.refl s)) (Keeps.of_ite drained (Keeps.of_ite (drained.trans sealed_) ?_)))
    split
    · exact drained.trans sealed_
    · next s3 q =>
      have written : Keeps s2 s3 := OptCanon.of_same (writeSuper_frame s2 _ (by simp) (SameBut.refl _ s2)) s3 q
      exact ((drained.trans sealed_).trans written).trans (by simp))

@[simp] theorem endHold_memory (s : State) (h : Keeps z s) : Canon z (endHold s) :=
  h.then (by
    unfold endHold
    extract_lets left s1 _ _ s2
    have stopped : Keeps s s1 := by simp [s1]
    have held : Keeps s s2 := stopped.trans (by simp [s2])
    exact Keeps.of_ite (Keeps.refl s) (Keeps.of_ite (powerBack_memory s2 held) held))

@[simp] theorem resetPin_memory (s : State) (high : Bool) (lowNs : Nat) (h : Keeps z s) : Canon z (resetPin s high lowNs) :=
  h.then (by
    have refl := Keeps.refl s
    have low : Keeps s (countP (heldReset { s with pins := { s.pins with rstN := false } }) 3 1) := by simp
    dsimp only [resetPin]
    refine Keeps.of_ite ?_ (Keeps.of_ite refl ?_)
    · split
      · exact bootFrom4_memory _ (by simp)
      · exact Keeps.of_ite (by simp) (by simp)
      · simp
    · split
      · exact Keeps.of_ite low (Keeps.of_ite (by simp) low)
      · simp
      · exact Keeps.of_ite (by simp) (by simp)
      · simp)

/-! ### Register writes -/

@[simp] theorem rwl_memory {who : Requester} {s t : State} (h : Keeps z s) (k : Keeps z t) : Canon z (rwl who s t).2 := by
  unfold rwl
  split <;> assumption

@[simp] theorem writeIdentity_memory (s : State) (r : Nat) (v : Reg) (h : Keeps z s) : Canon z (writeIdentity s r v).2 :=
  h.then (Keeps.of_ite (trigger_memory (fun u => bootFrom5_memory u (Keeps.refl u)) (Keeps.refl s)) (Keeps.refl s))

@[simp] theorem writeProtection_memory (s : State) (who : Requester) (r : Nat) (v : Reg) (h : Keeps z s) : Canon z (writeProtection s who r v).2 :=
  h.then (by
    have refl := Keeps.refl s
    have put (q : Prot) : Keeps s { s with prot := q } := by simp
    have locked (q : Prot) : Keeps s (rwl who s { s with prot := q }).2 := rwl_memory refl (put q)
    unfold writeProtection
    refine Keeps.of_ite_snd (Keeps.of_ite_snd (Keeps.of_ite_snd (put _) refl) (coreOnly_memory refl refl)) ?_
    exact Keeps.of_ite_snd (locked _) (Keeps.of_ite_snd (locked _) (Keeps.of_ite_snd (locked _) (Keeps.of_ite_snd (locked _) refl))))

@[simp] theorem writePort_memory (s : State) (who : Requester) (p r : Nat) (v : Reg) (h : Keeps z s) : Canon z (writePort s who p r v).2 :=
  h.then (by
    have refl := Keeps.refl s
    unfold writePort
    refine Keeps.of_ite_snd refl (Keeps.of_ite_snd ?_ (Keeps.of_ite_snd (rwl_memory refl (by simp)) refl))
    exact trigger_memory (fun u => portReset_memory u p 6 0 (Keeps.refl u)) (by simp))

@[simp] theorem writeCrew_memory (s : State) (who : Requester) (r : Nat) (v : Reg) (h : Keeps z s) : Canon z (writeCrew s who r v).2 :=
  h.then (by
    have refl := Keeps.refl s
    have reset : Keeps s (trigger v 0 startCrewReset s) := trigger_memory (fun u => startCrewReset_memory u (Keeps.refl u)) refl
    exact Keeps.of_ite_snd (by simp) (Keeps.of_ite_snd (coreOnly_memory reset refl) refl))

@[simp] theorem writeBlock_memory (s : State) (who : Requester) (off : Nat) (v : Reg) (h : Keeps z s) : Canon z (writeBlock s who off v).2 :=
  h.then (by
    unfold writeBlock
    simp)

@[simp] theorem regWrite_memory (s : State) (who : Requester) (off : Nat) (v : Reg) (h : Keeps z s) : Canon z (regWrite s who off v).2 :=
  h.then (by
    unfold regWrite
    refine Keeps.of_ite_snd (Keeps.refl s) (Keeps.of_ite_snd (Keeps.refl s) ?_)
    split
    · exact Keeps.refl s
    · simp)

@[simp] theorem writeWords_memory (who : Requester) (vs : List Reg) (off i : Nat) (s : State) (h : Keeps z s) : Canon z (writeWords who vs off i s).2 :=
  h.then (by
    clear h
    induction vs generalizing off i s with
    | nil => exact Keeps.refl s
    | cons v vs ih =>
      have wrote : Keeps s (regWrite s who off v).2 := by simp
      rw [writeWords]
      split <;> rename_i q <;> rw [q] at wrote
      · exact wrote.trans (ih _ _ _)
      · exact wrote)

@[simp] theorem mwrite_memory (s : State) (l : List Byte) (h : Keeps z s) : Canon z (mwrite s l).2 := writeWords_memory _ _ _ _ s h

@[simp] theorem tap_memory (s : State) (t : TapOp) (h : Keeps z s) : Canon z (tap s t) :=
  h.then (by
    cases t with
    | internalWrite off v => exact Keeps.of_ite (by simp) (Keeps.refl s)
    | internalRead off =>
      show Keeps s (if grantBit s 0 then setTap (regRead s .jtag off.toNat).2.2 4 ((regRead s .jtag off.toNat).1.setWidth 64) else s)
      exact Keeps.of_ite (by simp) (Keeps.refl s)
    | _ => simp [tap])

@[simp] theorem dbgGrant_memory (s : State) (l : List Byte) (h : Keeps z s) : Canon z (dbgGrant s l).2 :=
  h.then (by
    dsimp only [dbgGrant]
    exact Keeps.of_ite_snd (by simp) (Keeps.of_ite_snd (by simp) (by simp)))

end Sys2Proof.Machine
end

section
/-! ### Every command -/

open Sys2Proof
namespace Sys2Proof.Machine

theorem crewNote_memory {s u : State} {k op : Nat} {x : Slot} (q : crewNote s k op = some (x, u)) : Keeps s u :=
  fun m => (crewNote_some q (List.Subset.refl _)).canonical m

theorem execCrewReset_memory (k : Fin 3) (s : State) : OutCanon s (execCrewReset k s) := by
  refine OutCanon.next_iff.2 ?_
  split
  · next q => exact crewReset_memory _ (crewNote_memory q)
  · exact Keeps.refl s

theorem execRebal_memory (k : Fin 3) (s : State) : OutCanon s (execRebal k s) := by
  refine OutCanon.next_iff.2 ?_
  split
  · next q => exact Keeps.of_ite (rebalNoteIn_memory _ _ (crewNote_memory q)) (Keeps.refl s)
  · exact Keeps.refl s

theorem execRebalAck_memory (k : Fin 3) (s : State) : OutCanon s (execRebalAck k s) := by
  refine OutCanon.next_iff.2 ?_
  split
  · next q =>
    refine (crewNote_memory q).trans ?_
    dsimp only
    split
    · exact Keeps.of_ite (by simp) (by simp)
    · simp
  · exact Keeps.refl s

/-- One word of the heat array is halved, or written as 0 when it is bad (R207). -/
theorem execHeatHalving_memory (s : State) : OutCanon s (execHeatHalving s) := by
  refine OutCanon.next_iff.2 (Keeps.of_ite ?_ (Keeps.refl s))
  exact Canon.foldl (fun u e => Keeps.of_ite (by simp) (by simp)) (Keeps.refl s)

theorem execScrubNow_memory (w : Client) (s : State) : OutCanon s (execScrubNow w s) := by
  refine OutCanon.next_iff.2 (runReq_memory (fun u l => Keeps.of_ite_snd (Keeps.refl u) ?_) (Keeps.refl s))
  generalize (if natAt l 0 1 = 0 then _ else _ : Option Reply) = busy
  split
  · exact Keeps.refl u
  · exact doneWithin_memory (fun v => by simp) (Keeps.refl u)

theorem execSetlock_memory (who : Requester) (s : State) : OutCanon s (execSetlock who s) :=
  OutCanon.next_iff.2 (Keeps.of_ite (by simp) (Keeps.refl s))

theorem execDebugExpiry_memory (s : State) : OutCanon s (execDebugExpiry s) :=
  OutCanon.next_iff.2 (Keeps.of_ite (by simp) (Keeps.refl s))

theorem execRomScrub_memory (b : BadWord) (s : State) : OutCanon s (execRomScrub b s) := by
  refine OutCanon.next_iff.2 (Keeps.of_ite (Keeps.refl s) ?_)
  cases b with
  | dataSram r => exact sramRegion_memory _ r (by simp)
  | _ => simp

/-- Every command keeps the memories canonical: by its rule where it may touch one, and else by its frame. -/
theorem exec_memory (c : Instr) (s : State) : OutCanon s (exec c s) := by
  cases c with
  | crewReset k => exact execCrewReset_memory k s
  | rebal k => exact execRebal_memory k s
  | rebalAck k => exact execRebalAck_memory k s
  | heatHalving => exact execHeatHalving_memory s
  | scrubNow w => exact execScrubNow_memory w s
  | setlock who => exact execSetlock_memory who s
  | debugExpiry => exact execDebugExpiry_memory s
  | romScrub b => exact execRomScrub_memory b s
  | ctxWrite w => exact OutCanon.next_iff.2 (runReq_memory (fun u l => ranReply_memory (by simp)) (Keeps.refl s))
  | ctxCas w => exact OutCanon.next_iff.2 (runReq_memory (fun u l => ranReply_memory (by simp)) (Keeps.refl s))
  | memberFail e => exact OutCanon.next_iff.2 (runHead_memory fun u c => memberDouble_memory u c _ (lifeRun_memory fun v => by simp))
  | learnNote _ | bulkOpen _ | bulkClose _ => exact OutCanon.next_iff.2 (runHead_memory fun u c => RanCanon.of_same (by simp))
  | mwrite w => exact OutCanon.next_iff.2 (runReq_memory (fun u l => mwrite_memory u l (Keeps.refl u)) (Keeps.refl s))
  | portResetCommand w => exact OutCanon.next_iff.2 (runReq_memory (fun u l => portReset_memory u _ 6 0 (Keeps.refl u)) (Keeps.refl s))
  | warmResetCommand w => exact OutCanon.next_iff.2 (runReq_memory (fun u _ => answerThen_memory (fun v => warmReset_memory v false (Keeps.refl v)) (Keeps.refl u)) (Keeps.refl s))
  | crewResetCommand w => exact OutCanon.next_iff.2 (runReq_memory (fun u _ => answerThen_memory (fun v => startCrewReset_memory v (Keeps.refl v)) (Keeps.refl u)) (Keeps.refl s))
  | dbgGrant w => exact OutCanon.next_iff.2 (runReq_memory (fun u l => dbgGrant_memory u l (Keeps.refl u)) (Keeps.refl s))
  | dataSramTrap r => exact OutCanon.next_iff.2 (Keeps.of_ite (sramRegion_memory _ r (by simp)) (Keeps.refl s))
  | insert _ | delete _ | deleteIfIdle _ | write _ | read _ | hsweep _ | iread _ | iwrite _ | ifield _ | icas _ | bankClone _ | bankRetire _
  | ovlPut _ | ovlDrop _ =>
    exact OutCanon.next_iff.2 (runHead_memory fun u c => by simp)
  | mapBind _ | mapRelease _ | mapPoison _ | heatSet _ | migBegin _ | migCursor _ | migCopied _ | mapSwitch _ | migAbort _ | logOpen _
  | logClose _ | logFree _ | conditionBegin _ | conditionDone _ | refreshDone _ | rebuildAdvance _ =>
    exact OutCanon.next_iff.2 (lifeHead_memory fun u c => by simp)
  | repoint _ _ | logRepoint _ _ => exact OutCanon.next_iff.2 (rpStep_memory fun u c => by simp)
  | srch _ | matchStep _ _ | repairWrite _ | indexStep _ _ | levelEnd _ | replicaRelease _ | gateDrained _ | coalescerIssue _
  | composerGenerationCommit | cloneComplete _ | bulkRecord _ | dumpEntry _ _ | conditionQueueScan | refreshScan | wearBinUpdate
  | checkpointSegment | arbiterDecision _ _ | refreshGroup _ | epoch | refreshGuard | bandWrite _ _ | conversionDone _ | conversionTimeout
  | bandConfirm | temp _ | mediaStaleCheck | selfTestRotation | disagreementResolution _ _ | bankSelfTest _ _ | selfTestDone _ | trackerReport
  | writeBack _ | rowSparing _ | columnSparing _ _ | bankScrub _ | sramScrub _ | rederive | channelHalt _ | rawrd _ | rawwr _ | inject _ | twr _
  | disarm _ | stallCutoff _ | fwd _ | rebalReport _ | linksPeriod | migInfo _ | ctxRead _ | bankTest _ | waitosBankRetire _ | cellSpare _
  | grow _ | markerCountReading | timeAdvance _ | imgCommit _ | opDone _ _ _ | stroke | powerUp _ | rstN _ _ | saveComplete | holdEnd
  | vholdFloor | pfailRise _ | autowarm | resetReq _ | hello _ | retrainLimit _ | linkReset _ | preset _ _ | crewrst _ | retry _ _
  | registerWrite _ _ _ | tapInstruction _ => exact OutCanon.next_iff.2 (by simp)
  | _ => exact OutCanon.of_same (by simp [exec])

end Sys2Proof.Machine

/-- Settles O4: a step is a tick of the timebase, or a command on the state with the rest of the queue, and both keep the memories canonical. -/
theorem stepsKeepMemoryCanonical : Obligations.StepsKeepMemoryCanonical := by
  unfold Obligations.StepsKeepMemoryCanonical
  intro s t m e
  cases q : s.pending with
  | nil =>
    rw [Machine.step_empty q] at e
    cases e
    exact (Machine.tick_same s).canonical m
  | cons c cs =>
    rw [Machine.step, q] at e
    exact Machine.exec_memory c _ t e m

end

section
open Sys2Proof Sys2Proof.Machine
namespace Sys2Proof.Machine

/-! ## An INDEX step (R108, R109, R112, R233) -/

theorem stepAt_setStep_self {tk : Token} {i : Nat} (x : StepRun) (h : i < tk.steps.length) : stepAt (setStep tk i x) i = x := by
  rw [stepAt, setStep, getElem?_modAt, List.getElem?_eq_getElem h, Option.map_some, Option.getD_some]

/-- A step of a token that has just been written stands there as it was written. -/
theorem stepIs_setStep {s : State} {tok i : Nat} {tk : Token} {x : StepRun} {P : Token → StepRun → Prop} (rs : List Resv)
    (hi : i < tk.steps.length) (h : P { setStep tk i x with resv := rs } x) :
    StepIs (setTok s tok (some { setStep tk i x with resv := rs })) tok i P := by
  have step : stepAt { setStep tk i x with resv := rs } i = x := stepAt_setStep_self x hi
  exact ⟨_, getTok_setTok_self .., by rwa [step]⟩

/-- Step i of a running token is an INDEX step, of descriptor d, that stands issued; alt says whether its alternate condition holds, and
ref, row and tb are the row reference, the row and the table that it then has (R108). -/
structure IndexIssued (s : State) (tok i : Nat) (tk : Token) (d : BitVec 128) (alt : Bool) (ref : BitVec 17) (tb row : Nat) : Prop where
  token : getTok s tok = some tk
  running : tk.ph = .running
  issued : (stepAt tk i).ph = .issued
  desc : d = tokDesc s tk i
  kind : sKind d = 1
  cond : alt = (decide (frReg (sCond d) ≠ 31) && condHolds tk d)
  reference : ref = if alt then sArow d else sRow d
  table : tb = if alt then sAtable d else sTable d
  number : row = frVal (stepReg tk) ref

section
variable {s : State} {tok i : Nat} {tk : Token} {d : BitVec 128} {alt : Bool} {ref : BitVec 17} {tb row : Nat}

/-- Such a step ends: beyond its table, by an allocation, or by the read of its row. -/
theorem IndexIssued.outcome (q : IndexIssued s tok i tk d alt ref tb row) : indexStep s tok i =
    if tCap s tb ≤ row then
      setTok (if fromOutcome ref then event s [qFW] 0x2009 (tk.profile + 256 * tb) row else s) tok
        (some (setStep tk i { stepAt tk i with ph := .ended, fail := some (if fromOutcome ref then .internal else .malformed) }))
    else if tKind s tb = 4 then
      setTok (allocate s tk d row alt (stepAt tk i)).2.2 tok
        (some { setStep tk i (allocate s tk d row alt (stepAt tk i)).1 with resv := tk.resv ++ (allocate s tk d row alt (stepAt tk i)).2.1 })
    else if rowBad s tb row then
      setTok ((rowKeys s tb row).foldl touchQ s) tok (some (setStep tk i { stepAt tk i with ph := .ended, fail := some .poison }))
    else setTok (touchAll s (rowKeys s tb row)) tok (some (setStep tk i (indexWords s tb row (stepAt tk i)))) := by
  obtain ⟨token, running, issued, rfl, kind, rfl, rfl, rfl, rfl⟩ := q
  simp only [indexStep, token]
  exact if_neg (by simp [running, issued, kind])

theorem IndexIssued.allocates (q : IndexIssued s tok i tk d alt ref tb row) (hr : row < tCap s tb) (hk : tKind s tb = 4) {x : StepRun}
    {rs : List Resv} {u : State} (ha : allocate s tk d row alt (stepAt tk i) = (x, rs, u)) :
    indexStep s tok i = setTok u tok (some { setStep tk i x with resv := tk.resv ++ rs }) := by
  have run := q.outcome
  rwa [if_neg (Nat.not_le.2 hr), if_pos hk, ha] at run

end

section
variable {s : State} {tk : Token} {d : BitVec 128} {list : Nat} {alt : Bool} {x : StepRun}

/-- List 17 of an alternate carries the block of the step that its condition names (R112). -/
theorem allocate_carries (h : list = 17 ∧ alt = true) :
    allocate s tk d list alt x = ({ x with ph := .ended, o0 := (stepAt tk (frReg (sCond d) / 4)).o0 }, [], s) := if_pos h

theorem allocate_full (h : ¬(list = 17 ∧ alt = true)) (hf : 1024 ≤ (sget [] s.life.inhand tk.eng).length + reserving s tk.eng) :
    allocate s tk d list alt x = ({ x with ph := .ended, fail := some .malformed }, [], event s [tk.eng] 0x1007 tk.eng 0) := by
  rw [allocate, if_neg h, if_pos hf]

theorem allocate_takes (h : ¬(list = 17 ∧ alt = true)) (hf : (sget [] s.life.inhand tk.eng).length + reserving s tk.eng < 1024)
    {pa : Nat} {rest : List Nat} (hl : sget [] s.life.lists list = pa :: rest) :
    allocate s tk d list alt x = ({ x with ph := .ended, hit := true, o0 := bput 64 0 pa ||| bput 64 24 list ||| bput 64 63 1 }, [⟨list, pa⟩],
      { s with life := { s.life with lists := sput [] s.life.lists list rest } }) := by
  rw [allocate, if_neg h, if_neg (Nat.not_le.2 hf), hl]

theorem allocate_empty (h : ¬(list = 17 ∧ alt = true)) (hf : (sget [] s.life.inhand tk.eng).length + reserving s tk.eng < 1024)
    (hl : sget [] s.life.lists list = []) : allocate s tk d list alt x = ({ x with ph := .ended }, [], s) := by
  rw [allocate, if_neg h, if_neg (Nat.not_le.2 hf), hl]

end

/-! ## The end of a level (R105, R113, R122, R123, R341) -/

theorem heatCount_same (s : State) (tk : Token) : SameBut [.sram, .search, .integ, .events, .mgmt, .free] s (heatCount s tk) := by simp

/-- The heat sampler leaves every token as it is (R127). -/
theorem getTok_heatCount (s : State) (tk : Token) (n : Nat) : getTok (heatCount s tk) n = getTok s n := by
  have sampled (u : State) (eng x : Nat) : (heatSample u eng x).search = u.search :=
    ((heatSample_frame u eng x (List.Subset.refl _)).2 (SameBut.refl _ u)).search
  unfold heatCount
  dsimp only
  split
  · split
    · rw [getTok_congr (sampled ..)]; rfl
    · rfl
  · rfl

/-- Whether the journal takes a group is read off the journal alone (R33, R433, R439). -/
theorem jAdmit_congr {s t : State} (h : t.journal = s.journal) (gs : List (List JRec)) : (jAdmit t gs).1 = (jAdmit s gs).1 := by
  unfold jAdmit jFits
  rw [h]
  (repeat' split) <;> rfl

/-- The steps of level n of a token. -/
def levelSteps (s : State) (tk : Token) (n : Nat) : List Nat :=
  (List.range tk.steps.length).filter (fun i => decide (sKind (tokDesc s tk i) ≠ 0) && decide (sLevel (tokDesc s tk i) = n))

theorem levelSteps_isEmpty (s : State) (tk : Token) (n : Nat) : (levelSteps s tk n).isEmpty =
    !(List.range tk.steps.length).any (fun i => decide (sKind (tokDesc s tk i) ≠ 0) && decide (sLevel (tokDesc s tk i) = n)) := by
  rw [levelSteps, Bool.eq_iff_iff]
  simp

/-- A running token whose level has ended: xs are the level's steps (R105). -/
structure LevelEnded (s : State) (tok : Nat) (tk : Token) (xs : List StepRun) : Prop where
  token : getTok s tok = some tk
  running : tk.ph = .running
  steps : xs = (levelSteps s tk tk.level).map (stepAt tk)
  ended : xs.any (fun x => x.ph ≠ .ended) = false

theorem levelEnd_waits {s : State} {tok : Nat} {tk : Token} (h : getTok s tok = some tk)
    (hx : ((levelSteps s tk tk.level).map (stepAt tk)).any (fun x => x.ph ≠ .ended) = true) : levelEnd s tok = s := by
  simp only [levelEnd, h]
  exact if_pos (.inr hx)

/-- The token of a search that a failure ends: words of zero, and nothing reserved (R122, R123). -/
def failedToken (tk : Token) (st : Status) : Token := { ({ tk with hits := hitMask tk }).endWith st with resv := [] }

section
variable {s : State} {tok : Nat} {tk : Token} {xs : List StepRun}

theorem LevelEnded.outcome (q : LevelEnded s tok tk xs) : levelEnd s tok =
    if isProbed tk then probedDone s tok tk
    else (levelFail xs).elim
      (if (levelSteps s tk (tk.level + 1)).isEmpty then heatCount (composed s tok tk) tk else issueLevel s tok (tk.level + 1))
      (fun st => heatCount (setTok (returnResv s tk.resv) tok (some (failedToken tk st))) tk) := by
  obtain ⟨token, running, rfl, ended⟩ := q
  have past : ¬(tk.ph ≠ .running ∨ ((levelSteps s tk tk.level).map (stepAt tk)).any (fun x => x.ph ≠ .ended) = true) :=
    not_or.2 ⟨not_not.2 running, ne_true_of_eq_false ended⟩
  simp only [levelEnd, token]
  refine (if_neg past).trans (if_congr Iff.rfl rfl ?_)
  rw [← levelSteps]
  cases levelFail ((levelSteps s tk tk.level).map (stepAt tk)) <;> rfl

theorem LevelEnded.composes (q : LevelEnded s tok tk xs) (hp : isProbed tk = false) (hf : levelFail xs = none)
    (hm : (levelSteps s tk (tk.level + 1)).isEmpty = true) : levelEnd s tok = heatCount (composed s tok tk) tk := by
  rw [q.outcome, if_neg (ne_true_of_eq_false hp), hf, Option.elim_none, if_pos hm]

end

theorem probedDone_eq (s : State) (tok : Nat) (tk : Token) :
    probedDone s tok tk = setTok s tok (some { tk with ph := .resolved, st := (stepAt tk 0).fail.getD (if (stepAt tk 0).hit then .ok else .miss) }) := by
  unfold probedDone
  dsimp only
  cases (stepAt tk 0).fail <;> rfl

/-! ## The composer's result (R113, R122) -/

/-- The records of the allocations that a search has reserved (R113). -/
def resvRecs (tk : Token) : List JRec := tk.resv.map (fun r => JRec.alloc r.list r.block tk.eng)

section
variable {s : State} {tok : Nat} {tk : Token}

theorem compose_same (s : State) (tk : Token) : SameBut [.sram, .integ, .events, .mgmt, .free] s (compose s tk).2 := by simp

theorem composed_poison (h : (compose s tk).1.bad = true) :
    composed s tok tk = setTok (returnResv (compose s tk).2 tk.resv) tok (some (failedToken tk .poison)) :=
  if_pos h

theorem composed_refused (h : (compose s tk).1.bad = false) (hr : tk.resv ≠ []) (hj : (jAdmit s [resvRecs tk]).1 = false) :
    composed s tok tk = setTok (returnResv (jAdmit (compose s tk).2 [resvRecs tk]).2 tk.resv) tok (some (failedToken tk .busyRetry)) := by
  rw [← jAdmit_congr (compose_same s tk).journal] at hj
  unfold resvRecs at hj
  simp only [composed, h, List.isEmpty_eq_false_iff.2 hr, hj, Bool.false_eq_true, if_false, Bool.not_false, if_true]
  rfl

/-- The blocks that a search has reserved are its port's, and their group has entered the journal (R113, R233). -/
structure ResvCommitted (s u : State) (tk : Token) : Prop where
  inhand : sget [] u.life.inhand tk.eng = sget [] s.life.inhand tk.eng ++ tk.resv.map (fun r => (r.block, r.list))
  entered : u.journal.last = s.journal.last + 1

theorem commitResv_committed (s : State) (hr : tk.resv ≠ []) : ResvCommitted s (commitResv s tk.eng tk.resv) tk :=
  ⟨sget_sput_self (by simp [hr]) .., rfl⟩

theorem ResvCommitted.exhausted {u : State} (k : ResvCommitted s u tk) : ResvCommitted s (Machine.exhausted u) tk := by
  have told := event_same { (count u (0x042000 + 8 * 9) 1) with life := { u.life with advisory := true } } [0, 1, 2, 3, 4, 5, 6, 7, qFW] 0xE00A 0 0
  exact ⟨(congrArg (fun l => sget [] l.inhand tk.eng) told.life).trans k.inhand, (congrArg Journal.last told.journal).trans k.entered⟩

/-- The token of a search that its composer resolves, whose third word takes the advisory's bit or not (R116, R124). -/
def resolvedToken (tk : Token) (c : Comp) (w2 : Word) : Token :=
  { tk with hits := hitMask tk, ph := .resolved, st := c.st, w0 := c.w0, w1 := c.w1, w2 := w2, resv := [] }

/-- A search whose composer does not fail, and whose allocations the journal takes, resolves as the composer says (R113, R122). -/
theorem composed_resolves (h : (compose s tk).1.bad = false) (hr : tk.resv = [] ∨ (jAdmit s [resvRecs tk]).1 = true) :
    ∃ u w2, composed s tok tk = setTok u tok (some (resolvedToken tk (compose s tk).1 w2)) ∧
      (tk.resv ≠ [] → ResvCommitted s u tk) := by
  have same := compose_same s tk
  by_cases free : tk.resv = []
  · simp only [composed, h, free, List.isEmpty_nil, Bool.false_eq_true, if_false, if_true, Bool.not_true]
    exact ⟨_, _, rfl, fun held => absurd rfl held⟩
  · have admitted : jAdmit (compose s tk).2 [resvRecs tk] = (true, (compose s tk).2) :=
      jAdmit_admits ((jAdmit_congr same.journal _).trans (hr.resolve_left free))
    have committed : ResvCommitted s (commitResv (compose s tk).2 tk.eng tk.resv) tk := by
      obtain ⟨inhand, entered⟩ := commitResv_committed (compose s tk).2 free
      rw [same.life] at inhand
      rw [same.journal] at entered
      exact ⟨inhand, entered⟩
    unfold resvRecs at admitted
    simp only [composed, h, List.isEmpty_eq_false_iff.2 free, admitted, Bool.false_eq_true, if_false, Bool.not_true]
    refine ⟨_, _, rfl, fun _ => ?_⟩
    split
    · exact committed.exhausted
    · exact committed

end

end Sys2Proof.Machine

/-- Settles O15: an issued INDEX step through what its row or its list gives, and the end of a level through its steps and the composer. -/
theorem stepsAndLevelsGoOn : Obligations.StepsAndLevelsGoOn := by
  unfold Obligations.StepsAndLevelsGoOn
  constructor
  · intro tok i s tk d alt tb row h hph hi hx hd hk halt htb hrow
    have q : IndexIssued s tok i tk d alt (if alt then sArow d else sRow d) tb row := ⟨h, hph, hx, hd, hk, halt, rfl, htb, hrow⟩
    refine ⟨fun hr hk hb => ?_, fun hr hk hb => ?_, fun hr => ?_, fun hr hk h17 ha => ?_, fun hr hk hc hf => ?_,
      fun pa rest hr hk hc hf hl hwf => ?_, fun hr hk hc hf hl hmiss => ?_⟩
    · have run := q.outcome
      rw [if_neg (Nat.not_le.2 hr), if_neg hk, if_neg (ne_true_of_eq_false hb)] at run
      exact ⟨_, congrArg Host.Outcome.next run, by simp, stepIs_setStep tk.resv hi ⟨rfl, rfl, rfl, rfl, rfl, rfl⟩⟩
    · have run := q.outcome
      rw [if_neg (Nat.not_le.2 hr), if_neg hk, if_pos hb] at run
      exact ⟨_, congrArg Host.Outcome.next run, stepIs_setStep tk.resv hi ⟨rfl, rfl⟩⟩
    · exact ⟨_, congrArg Host.Outcome.next (q.outcome.trans (if_pos hr)), stepIs_setStep tk.resv hi ⟨rfl, rfl⟩⟩
    · exact ⟨_, congrArg Host.Outcome.next (q.allocates hr hk (allocate_carries ⟨h17, ha⟩)), by simp, stepIs_setStep _ hi ⟨rfl, rfl, List.append_nil _⟩⟩
    · exact ⟨_, congrArg Host.Outcome.next (q.allocates hr hk (allocate_full hc hf)), stepIs_setStep _ hi ⟨rfl, rfl⟩⟩
    · refine ⟨_, congrArg Host.Outcome.next (q.allocates hr hk (allocate_takes hc hf hl)), ?_, by simp, stepIs_setStep _ hi ⟨rfl, rfl, rfl⟩⟩
      exact (sget_sput hwf row rest row).trans (if_pos rfl)
    · exact ⟨_, congrArg Host.Outcome.next (q.allocates hr hk (allocate_empty hc hf hl)), by simp, stepIs_setStep _ hi ⟨rfl, hmiss, List.append_nil _⟩⟩
  · intro tok s tk xs more h hph hxs hmore
    have next : (levelSteps s tk (tk.level + 1)).isEmpty = !more := hmore ▸ levelSteps_isEmpty s tk (tk.level + 1)
    refine ⟨fun hw => ?_, fun he hp => ?_, fun st he hp hf => ?_, fun he hp hf hm => ?_, fun he hp hf hm hb => ?_,
      fun he hp hf hm hb hr hj => ?_, fun he hp hf hm hb hr => ?_⟩
    · subst hxs
      exact congrArg Host.Outcome.next (levelEnd_waits h hw)
    · have run := (LevelEnded.mk h hph hxs he).outcome
      rw [if_pos hp, probedDone_eq] at run
      exact ⟨_, congrArg Host.Outcome.next run, by simp, _, getTok_setTok_self .., rfl, rfl⟩
    · have run := (LevelEnded.mk h hph hxs he).outcome
      rw [if_neg (ne_true_of_eq_false hp), hf, Option.elim_some] at run
      exact ⟨_, congrArg Host.Outcome.next run, by simp, ⟨_, (getTok_heatCount ..).trans (getTok_setTok_self ..), rfl, rfl, rfl, rfl, rfl, rfl⟩,
        (heatCount_same ..).life⟩
    · have run := (LevelEnded.mk h hph hxs he).outcome
      rw [if_neg (ne_true_of_eq_false hp), hf, Option.elim_none, next, hm] at run
      exact congrArg Host.Outcome.next run
    · have run := (LevelEnded.mk h hph hxs he).composes hp hf (by rw [next, hm]; rfl)
      rw [composed_poison hb] at run
      exact ⟨_, congrArg Host.Outcome.next run, _, (getTok_heatCount ..).trans (getTok_setTok_self ..), rfl, rfl, rfl, rfl, rfl, rfl⟩
    · have run := (LevelEnded.mk h hph hxs he).composes hp hf (by rw [next, hm]; rfl)
      rw [composed_refused hb hr hj] at run
      exact ⟨_, congrArg Host.Outcome.next run, _, (getTok_heatCount ..).trans (getTok_setTok_self ..), rfl, rfl, rfl, rfl, rfl, rfl⟩
    · have run := (LevelEnded.mk h hph hxs he).composes hp hf (by rw [next, hm]; rfl)
      obtain ⟨u, w2, out, committed⟩ := composed_resolves (tok := tok) hb hr
      rw [out] at run
      have sampled := heatCount_same (setTok u tok (some (resolvedToken tk (compose s tk).1 w2))) tk
      refine ⟨_, congrArg Host.Outcome.next run, ⟨_, (getTok_heatCount ..).trans (getTok_setTok_self ..), rfl, rfl, rfl, rfl, rfl, rfl⟩, fun held => ?_⟩
      obtain ⟨inhand, entered⟩ := committed held
      exact ⟨(congrArg (fun l => sget [] l.inhand tk.eng) sampled.life).trans inhand, (congrArg Journal.last sampled.journal).trans entered⟩

end

section
open Sys2Proof Sys2Proof.Machine
namespace Sys2Proof.Machine

/-! ## The engines' records
What an operation of the tables leaves of the engines' queues, reservations and clones: all of it. -/

/-- t has the engines of s. -/
def EngKept (s t : State) : Prop := t.update.eng = s.update.eng

section
variable {s t u : State}

theorem EngKept.refl (s : State) : EngKept s s := rfl

theorem EngKept.trans (h : EngKept s t) (k : EngKept t u) : EngKept s u := Eq.trans k h

theorem EngKept.getEng (h : EngKept s t) (e : Nat) : getEng t e = getEng s e := congrArg (sget Engine.reset · e) h

theorem SameBut.eng {ps : List Part} (h : SameBut ps s t) (hp : Part.update ∉ ps := by decide) : EngKept s t :=
  congrArg Update.eng (h.update hp)

theorem EngKept.foldl {α : Type} {g : State → α → State} (h : ∀ s a, EngKept s (g s a)) (l : List α) (s : State) :
    EngKept s (l.foldl g s) := by
  induction l generalizing s with
  | nil => exact .refl s
  | cons a l ih => exact (h s a).trans (ih _)

end

/-- An answer leaves on its port, in its register set or on its stream. -/
theorem answer_eng (s : State) (v : Via) (r : TRsp) : EngKept s (answer s v r) := by
  cases v with
  | port p inc =>
    have frame : SameBut [.ports, .tally, .events, .mgmt, .free] s (answer s (.port p inc) r) := by simp [answer]
    exact frame.eng
  | regset n =>
    dsimp only [answer]
    split <;> rfl
  | bulk p k seq =>
    dsimp only [answer, bulkAnswer]
    split
    · split <;> rfl
    · exact EngKept.trans rfl (send_same ..).eng
  | none => rfl

theorem issueCoal_eng (s : State) (key : Nat) : EngKept s (issueCoal s key) := by
  dsimp only [issueCoal]
  split
  · rfl
  · split
    · exact (SameBut.eng (ps := [.sram, .integ, .events, .mgmt, .free]) (by simp)).trans (.foldl (fun u a => answer_eng u ..) _ _)
    · split
      · exact (SameBut.eng (ps := [.sram, .integ, .events, .mgmt, .free]) (by simp)).trans
          (.foldl (fun u a => (SameBut.eng (jCommit_same u ..)).trans (answer_eng ..)) _ _)
      · exact (SameBut.eng (ps := [.sram, .mgmt]) (by simp)).trans
          (.foldl (fun u a => (SameBut.eng (countT_same u ..)).trans (answer_eng ..)) _ _)

theorem issueRow_eng (s : State) (t row : Nat) : EngKept s (issueRow s t row) := .foldl issueCoal_eng _ s

theorem issueLinks_eng (s : State) (t : Nat) (rows : List Nat) : EngKept s (issueLinks s t rows) := .foldl (fun u r => issueRow_eng u _ r) _ s

theorem linkDec_eng (s : State) (t row : Nat) : EngKept s (linkDec s t row) := by
  refine (issueRow_eng s (lkTable (tLink s t)) row).trans ?_
  dsimp only [linkDec]
  exact SameBut.eng (ps := [.sram, .integ, .events, .mgmt, .free]) (by simp)

theorem basteDec_eng (s : State) (l : Nat) : EngKept s (basteDec s l) := by
  refine (issueRow_eng s tBMAP l).trans ?_
  dsimp only [basteDec]
  exact SameBut.eng (ps := [.sram, .integ, .events, .mgmt, .free]) (by simp)

theorem drainAnswer_eng (s : State) (x : Gate) (late : Bool) : EngKept s (drainAnswer s x late) := by
  dsimp only [drainAnswer]
  split
  · split
    · exact (SameBut.eng (countT_same ..)).trans (answer_eng ..)
    · exact answer_eng ..
  · rfl

theorem finishGate_eng (s : State) (g : Nat) : EngKept s (finishGate s g) := by
  unfold finishGate
  extract_lets x w late s1 s2 s3 s4 s5
  have carried : EngKept s s1 := .foldl (fun u m => (carryH_same u ..).eng) _ _
  have finalised : EngKept s1 s2 := .foldl (fun u c => (finalCopy_same u ..).eng) _ _
  have lowered : EngKept s2 s3 := .foldl (fun u r => linkDec_eng u ..) _ _
  have basted : EngKept s3 s4 := .foldl (fun u r => basteDec_eng u ..) _ _
  have freed : EngKept s4 (jApplied s5 x.jsn) := SameBut.eng (ps := [.tcam, .marker, .journal]) (by simp [s5])
  exact carried.trans (finalised.trans (lowered.trans (basted.trans (freed.trans (drainAnswer_eng ..)))))

theorem settleGate_eng (s : State) (g : Nat) : EngKept s (settleGate s g) := by
  unfold settleGate
  split
  · exact finishGate_eng s g
  · rfl

theorem relocate_eng {s u : State} {e t : Nat} {l : Loc} {m : Nat × Nat} {b : Bool} (h : relocate s e t l m = some (u, b)) : EngKept s u := by
  unfold relocate at h
  split at h
  · cases h
  · split at h
    · cases h
    · dsimp only at h
      split at h
      · cases h
      · cases h
        refine EngKept.trans ?_ ((settleGate_eng ..).trans (settleGate_eng ..))
        exact SameBut.eng (ps := [.tcam, .marker, .sram, .journal, .integ, .events, .mgmt, .free]) (by simp)

theorem relocateAll_eng (e t : Nat) (ms : List (Loc × Nat × Nat)) (n : Nat) (s : State) : EngKept s (relocateAll e t ms n s).1 := by
  fun_induction relocateAll e t ms n s with
  | case1 => rfl
  | case2 => rfl
  | case3 _ _ _ _ _ q ih => exact (relocate_eng q).trans ih
  | case4 _ _ _ _ _ q => exact relocate_eng q

/-! ## The command at the head of its engine's queue (R34, R89, R158, R312, R321) -/

section
variable {s t : State} {e opc : Nat} {need : State → TCmd → List Nat} {c : TCmd} {f : State → TCmd → Ran}

theorem headCmd_opc (h : headCmd s e opc = some c) : cOpc c = opc := by
  unfold headCmd at h
  split at h
  · split at h
    · cases h
      assumption
    · cases h
  · cases h

/-- With no repair before it, no other record begun, no frozen bank and its reservations free, the command runs. -/
theorem AtHead.runs (h : AtHead s e opc need c) (f : State → TCmd → Ran) : ∃ n, runHead s e opc need f = runHeld s e c n need f := by
  have served : (if c.issuer < 8 then serveRepairs s e else s) = s := by
    split
    · next p => rw [serveRepairs, h.repaired p]; rfl
    · rfl
  rw [runHead, h.head]
  dsimp only
  rw [served, h.alone, h.thawed]
  by_cases idle : s.update.eng.all (fun x => x.2.held.isEmpty) = true
  · exact ⟨0, by rw [if_neg nofun, if_neg nofun, if_pos idle]⟩
  · obtain ⟨starts, free⟩ := h.may.resolve_left idle
    refine ⟨if mustRestart (getEng s e) (need s c) then (getEng s e).restarts + 1 else (getEng s e).restarts, ?_⟩
    have below : ¬ 4 ≤ (if mustRestart (getEng s e) (need s c) then (getEng s e).restarts + 1 else (getEng s e).restarts) := by
      split at starts <;> simp_all
      omega
    rw [if_neg nofun, if_neg nofun, if_neg idle, if_neg below, if_neg (by simp [free])]

theorem AtHead.finishes (h : AtHead s e opc need c) {r : Option TRsp} (hf : f s c = .ends t r) :
    runHead s e opc need f = finishHead t e c (getEng t e).moves r := by
  obtain ⟨n, run⟩ := h.runs f
  rw [run, runHeld, hf]

/-- A command that ends with an answer is done. -/
theorem AtHead.ends (h : AtHead s e opc need c) {r : TRsp} (hf : f s c = .ends t (some r)) (k : EngKept s t) :
    runHead s e opc need f = done t e c (if 0x40 ≤ opc then 1 else 0) r := by
  have moved : (getEng t e).moves = 0 := (congrArg Engine.moves (k.getEng e)).trans h.unmoved
  rw [h.finishes hf, moved, finishHead, headCmd_opc h.head, done]
  simp

/-- An entry or index command that ends with an answer is done. -/
theorem AtHead.answers (h : AtHead s e opc need c) {r : TRsp} (hf : f s c = .ends t (some r)) (k : EngKept s t) (ho : opc < 0x40 := by decide) :
    (.next (runHead s e opc need f) : Host.Outcome State Fault Refusal) = .next (done t e c 0 r) := by
  rw [h.ends hf k, if_neg (Nat.not_le.2 ho)]

/-- A command whose answer comes later leaves its queue. -/
theorem AtHead.leaves (h : AtHead s e opc need c) (hf : f s c = .ends t none) :
    runHead s e opc need f = trace (popQueue t e) (if 0x40 ≤ opc then 1 else 0) := by
  rw [h.finishes hf, finishHead, headCmd_opc h.head]

theorem AtHead.departs (h : AtHead s e opc need c) (hf : f s c = .ends t none) (ho : opc < 0x40 := by decide) :
    (.next (runHead s e opc need f) : Host.Outcome State Fault Refusal) = .next (trace (popQueue t e) 0) := by
  rw [h.leaves hf, if_neg (Nat.not_le.2 ho)]

end

theorem jCommit_last (s : State) (rs : List JRec) (applied : Bool) : (jCommit s rs applied).2.journal.last = s.journal.last + 1 := rfl

/-- What the end of a command changes: its engine, the way it is answered, and what is counted and traced. -/
theorem done_same (s : State) (e : Nat) (c : TCmd) (src : Nat) (r : TRsp) :
    SameBut [.update, .ports, .tally, .events, .mgmt, .free] s (done s e c src r) := by
  unfold done
  simp

theorem journal_of_done {s t : State} {e : Nat} {c : TCmd} {src : Nat} {r : TRsp}
    (h : (.next t : Host.Outcome State Fault Refusal) = .next (done s e c src r)) : t.journal = s.journal :=
  (congrArg State.journal (Host.Outcome.next.inj h)).trans (done_same ..).journal

end Sys2Proof.Machine
end

section
open Sys2Proof Sys2Proof.Machine
namespace Sys2Proof.Machine

/-! ## Refused commands (R148, R228) -/

section
variable {s : State} {e opc : Nat} {c : TCmd} {rows : State → TCmd → List (Nat × Nat)} {perm : State → TCmd → Bool} {f : State → TCmd → LifeOut}
  {st : Status}

/-- A lifecycle command that rule 1 or 2 refuses ends with that status. -/
theorem lifeRun_refused (h : lifeRefusal s c (rows s c) (perm s c) = some st) : lifeRun rows perm f s c = .ends s (some (TRsp.of st)) := by
  unfold lifeRefusal at h
  dsimp only [lifeRun]
  rw [h]

theorem lifeRefusal_cases {rs : List (Nat × Nat)} {ok : Bool} (h : lifeRefusal s c rs ok = some st) : st = .malformed ∨ st = .notOwner := by
  simp only [lifeRefusal, firstStatus] at h
  split at h
  · exact .inl (Option.some.inj h).symm
  · split at h
    · exact .inr (Option.some.inj h).symm
    · cases h

theorem lifeHead_refused (head : AtHead s e opc (lifeNeed rows) c) (h : lifeRefusal s c (rows s c) (perm s c) = some st)
    (ho : 0x40 ≤ opc := by decide) :
    (.next (lifeHead s e opc rows perm f) : Host.Outcome State Fault Refusal) = .next (done s e c 1 (TRsp.of st)) := by
  rw [lifeHead, head.ends (lifeRun_refused h) (.refl s), if_pos ho]

/-- Neither status of rules 1 and 2 is the one that a second member's failure is told by (R250). -/
theorem memberDouble_refused (h : lifeRefusal s c (rows s c) (perm s c) = some st) :
    memberDouble s c (lifeRun rows perm f s c) = .ends s (some (TRsp.of st)) := by
  have other : (TRsp.of st).st ≠ .noRoom := by
    rcases lifeRefusal_cases h with rfl | rfl <;> decide
  rw [lifeRun_refused h, memberDouble, if_neg fun both => other both.1]

end

end Sys2Proof.Machine

/-- Settles O16: each command's run takes its refusal first, and ends with the state as it was. -/
theorem refusedCommandsAnswerTheirStatus : Obligations.RefusedCommandsAnswerTheirStatus := by
  unfold Obligations.RefusedCommandsAnswerTheirStatus
  refine ⟨fun e s c st => ⟨fun h r => ?_, fun h r => ?_, fun h r => ?_, fun h r => ?_, fun h r => ?_, fun h r => ?_⟩,
    fun e s c st => ⟨fun h r => ?_, fun h r => ?_, fun h r => ?_, fun h r => ?_⟩, fun e s c st => ?_⟩
  · exact h.answers (by rw [runInsert, r]) (.refl s)
  · exact h.answers (by rw [runDelete, r]) (.refl s)
  · exact h.answers (by rw [runDelete, r]) (.refl s)
  · exact h.answers (by rw [runWrite, r]) (.refl s)
  · exact h.answers (by rw [runRead, r]) (.refl s)
  · exact h.answers (by rw [runHsweep, r]) (.refl s)
  · exact h.answers (by rw [runIread, r]) (.refl s)
  · exact h.answers (by rw [runIwrite, r]) (.refl s)
  · exact h.answers (by rw [runIfield, r]) (.refl s)
  · exact h.answers (by rw [runIcas, r]) (.refl s)
  · refine ⟨fun h r => lifeHead_refused h r, fun h r => lifeHead_refused h r, fun h r => lifeHead_refused h r,
      fun h r => lifeHead_refused h r, fun h r => lifeHead_refused h r, fun h r => lifeHead_refused h r,
      fun h r => lifeHead_refused h r, fun h r => lifeHead_refused h r, fun h r => lifeHead_refused h r,
      fun h r => lifeHead_refused h r, fun h r => lifeHead_refused h r, fun h r => lifeHead_refused h r,
      fun h r => lifeHead_refused h r, fun h r => ?_, fun h r => lifeHead_refused h r,
      fun h r => lifeHead_refused h r, fun h r => lifeHead_refused h r⟩
    exact congrArg Host.Outcome.next (h.ends (memberDouble_refused r) (.refl s))
end

section
open Sys2Proof Sys2Proof.Machine
namespace Sys2Proof.Machine

/-! ## A word that two coalescer entries wait for
The coalescers list one word twice, which no command of the model brings about. The issue of the word's entry takes the first of the two,
so that the second still stands when the count of the linked row falls, and is issued then, under a JSN of its own. -/

/-- The word of the linked row that holds its count: row 0 of table 5. -/
def countPlace : Nat := kIndex 5 0

/-- A command on table 0's entry with no trit cared for and TAG 0, by key, with the result word 1, which counts in no row. -/
def onOpenEntry (o : Nat) : TCmd where
  issuer := 0
  via := .none
  s0 := mkSlot [(4, 1), (8, o), (40, 0xFFFFFF)]
  s1 := mkSlot [(64, 1)]
  s2 := 0

/-- Table 0 holds that entry in slot 0 of bank 0; its result word is 0, which counts in row 0 of table 5, once. Two coalescer entries
wait for the row's word, the second with one write. The command c stands at engine 0. -/
def twiceWaited (c : TCmd) : State :=
  { State.reset with
    str := { Struct.reset with tables := [(0, mkSlot [(5, 1), (8, 1), (160, 1), (184, 5)]), (5, mkSlot [(5, 2), (64, 1), (96, 64)])] }
    prot := { Prot.reset with ownmap := 0 }
    tcam := { Tcam.reset with rows := [(0, { TRow.blank with s0 := { Side.zero with v := true } })] }
    marker := { Marker.reset with dirA := [(0, 32)] }
    sram := { Sram.reset with
      words := [(countPlace, secEnc 1)]
      coal := [(countPlace, some ⟨0, 0, []⟩), (countPlace, some ⟨0, 0, [(.none, TRsp.of .ok)]⟩)] }
    update := { Update.reset with eng := [(0, { Engine.reset with queue := [c] })] } }

/-- What the exact probe leaves, and the issue of the entry's link row after the read of its result word. -/
def twiceFound (c : TCmd) : List Loc × State :=
  findEntry (twiceWaited c) (cTable c) (cMask (twiceWaited c) c) (cKey (twiceWaited c) c) (cPlen c)
    (dirsFor (twiceWaited c) (cTable c) (cMask (twiceWaited c) c) (cKey (twiceWaited c) c))

/-- The first of the two entries is issued once the old result word has been read. -/
def twiceIssued (c : TCmd) : State :=
  issueLinks (touchQ (twiceFound c).2 (resKey (twiceFound c).2 ⟨0, 0, 0, 0⟩)) 0 [0]

theorem twiceFound_entry {o : Nat} (ho : o = 2 ∨ o = 4) :
    twiceFound (onOpenEntry o) = (⟨0, 0, 0, 0⟩ :: [], (twiceFound (onOpenEntry o)).2) := by
  refine Prod.ext ?_ rfl
  rcases ho with rfl | rfl <;> decide +kernel

theorem twiceWaited_atHead {o : Nat} (ho : o = 2 ∨ o = 4) : AtHead (twiceWaited (onOpenEntry o)) 0 o entryNeed (onOpenEntry o) := by
  rcases ho with rfl | rfl
  · exact ⟨by decide +kernel, fun _ => rfl, rfl, .inl rfl, rfl, rfl⟩
  · exact ⟨by decide +kernel, fun _ => rfl, rfl, .inl rfl, rfl, rfl⟩

end Sys2Proof.Machine

/-- Refutes O18: where the coalescers list the word of the linked row's count twice, the count's fall issues the second entry, and the
journal's last JSN is not the delete record's. -/
theorem not_deletesRemoveEntries : ¬ Obligations.DeletesRemoveEntries := by
  unfold Obligations.DeletesRemoveEntries
  rintro ⟨delete, -⟩
  have answers := (delete 0 _ (twiceFound (onOpenEntry 2)).2 (twiceIssued (onOpenEntry 2)) (onOpenEntry 2) ⟨0, 0, 0, 0⟩ []
    (twiceWaited_atHead (.inl rfl)) (by decide +kernel) (twiceFound_entry (.inl rfl)) (by decide +kernel) rfl (by decide +kernel)
    (by decide +kernel)).2
  obtain ⟨s3, r, run, -, -, -, -, entered, -⟩ := answers (by decide +kernel) (fun gated => absurd gated (by decide +kernel)) (by decide +kernel)
  have left := journal_of_done (t := runHead (twiceWaited (onOpenEntry 2)) 0 2 entryNeed (runDelete false 0)) run
  exact absurd ((congrArg Journal.last left).trans entered) (by decide +kernel)

/-- Refutes O19: where the coalescers list the word of the linked row's count twice, the count's fall issues the second entry, and the
journal's last JSN is not that of the rewrite. -/
theorem not_writeReadAndSweep : ¬ Obligations.WriteReadAndSweep := by
  unfold Obligations.WriteReadAndSweep
  rintro ⟨write, -⟩
  obtain ⟨s3, r, run, -, -, -, -, -, -, entered, -⟩ := write 0 _ (twiceFound (onOpenEntry 4)).2 (twiceIssued (onOpenEntry 4)) (onOpenEntry 4)
    ⟨0, 0, 0, 0⟩ [] (twiceWaited_atHead (.inr rfl)) (by decide +kernel) (by decide +kernel) (twiceFound_entry (.inr rfl)) (by decide +kernel)
    rfl (by decide +kernel) (by decide +kernel) (by decide +kernel) (by decide +kernel) (by decide +kernel)
  have left := journal_of_done (t := runHead (twiceWaited (onOpenEntry 4)) 0 4 entryNeed (runWrite 0)) run
  exact absurd ((congrArg Journal.last left).trans entered) (by decide +kernel)
end

section
open Sys2Proof Sys2Proof.Machine
namespace Sys2Proof.Machine

/-! ## Words of the memory (R32, R390, R391)
A write of one word leaves every other as it read: the page fill gives the words of an empty page the zero that they read as before.
Only the words have to be canonical for this; the pages need not be. -/

section
variable {s : State} {key k : Nat}

theorem inPool_page (h : pageOf k = pageOf key) : inPool k = inPool key := by
  simp only [pageOf] at h
  simp only [inPool]
  congr 1
  exact propext ⟨fun _ => by omega, fun _ => by omega⟩

theorem tableOfPlace_page (h : pageOf k = pageOf key) : tableOfPlace k = tableOfPlace key := by
  simp only [pageOf] at h
  unfold tableOfPlace
  have near : (2 ^ 40 ≤ k ∧ k < 2 ^ 41) ↔ (2 ^ 40 ≤ key ∧ key < 2 ^ 41) := by omega
  have table : (k - 2 ^ 40) / 2 ^ 34 = (key - 2 ^ 40) / 2 ^ 34 := by omega
  rw [table]
  exact if_congr near rfl rfl

/-- The words of a page are valid together. -/
theorem pageValid_page (h : pageOf k = pageOf key) : pageValid s k = pageValid s key := by
  rw [pageValid, pageValid, inPool_page h, tableOfPlace_page h, h]

theorem pageBit_pageFill_self (hv : ¬ pageValid s key = true) : pageBit (pageFill s key) (pageOf key) = true := by
  rw [pageFill, if_neg hv, pageBit]
  dsimp only
  rw [sget_sput_self (by decide)]
  decide

theorem pageValid_pageFill_self : pageValid (pageFill s key) key = true := by
  by_cases hv : pageValid s key = true
  · rwa [pageFill, if_pos hv]
  · rw [pageValid, pageBit_pageFill_self hv]
    split <;> rfl

theorem pageValid_pageFill_other (h : pageOf k ≠ pageOf key) : pageValid (pageFill s key) k = pageValid s k := by
  unfold pageFill
  split
  · rfl
  · unfold pageValid pageBit
    dsimp only
    rw [sget_sput_other (by decide) _ h]
    rfl

theorem sget_sdrop_of {α : Type} {d : α} {m : Sparse α} {p : Nat → Bool} {i : Nat} (h : p i = true) : sget d (sdrop m p) i = d := by
  induction m with
  | nil => rfl
  | cons e m ih =>
    unfold sdrop at ih ⊢
    rw [List.filter_cons]
    split
    · next keep =>
      rw [sget_cons, if_neg (by rintro rfl; simp [h] at keep), ih]
    · exact ih

theorem sget_sdrop_of_not {α : Type} {d : α} {m : Sparse α} {p : Nat → Bool} {i : Nat} (h : p i = false) : sget d (sdrop m p) i = sget d m i := by
  induction m with
  | nil => rfl
  | cons e m ih =>
    unfold sdrop at ih ⊢
    rw [List.filter_cons]
    split
    · rw [sget_cons, sget_cons, ih]
    · next drop =>
      rw [sget_cons, if_neg (by rintro rfl; simp [h] at drop), ih]

/-- The page fill changes what no word reads as. -/
theorem cell_pageFill : cell (pageFill s key) k = cell s k := by
  by_cases hv : pageValid s key = true
  · rw [pageFill, if_pos hv]
  · by_cases hk : pageOf k = pageOf key
    · have empty : ¬ pageValid s k = true := by rwa [pageValid_page hk]
      have filled : pageValid (pageFill s key) k = true := by rw [pageValid_page hk, pageValid_pageFill_self]
      rw [cell, cell, if_pos filled, if_neg empty, pageFill, if_neg hv]
      exact sget_sdrop_of (p := fun k => decide (k / 512 = pageOf key)) (decide_eq_true hk)
    · rw [cell, cell, pageValid_pageFill_other hk, pageFill, if_neg hv]
      dsimp only
      rw [sget_sdrop_of_not (p := fun k => decide (k / 512 = pageOf key)) (decide_eq_false hk)]

theorem swf_pageFill (hw : swf (⟨0, 0⟩ : Cw) none s.sram.words = true) (key : Nat) : swf (⟨0, 0⟩ : Cw) none (pageFill s key).sram.words = true := by
  unfold pageFill
  split
  · exact hw
  · exact swf_sdrop hw (fun k => decide (k / 512 = pageOf key))

theorem swf_putCw (hw : swf (⟨0, 0⟩ : Cw) none s.sram.words = true) (key : Nat) (w : Cw) : swf (⟨0, 0⟩ : Cw) none (putCw s key w).sram.words = true :=
  swf_sput (swf_pageFill hw key) _ _ nofun

/-- A write of one word is read back at its place, and nowhere else. -/
theorem cell_putCw (hw : swf (⟨0, 0⟩ : Cw) none s.sram.words = true) (w : Cw) : cell (putCw s key w) k = if k = key then w else cell s k := by
  have valid : pageValid (putCw s key w) k = pageValid (pageFill s key) k := rfl
  have words : sget ⟨0, 0⟩ (putCw s key w).sram.words k = if k = key then w else sget ⟨0, 0⟩ (pageFill s key).sram.words k :=
    sget_sput (swf_pageFill hw key) key w k
  rw [cell, valid, words]
  by_cases h : k = key
  · rw [if_pos h, if_pos h, h, pageValid_pageFill_self, if_pos rfl]
  · rw [if_neg h, if_neg h, ← cell_pageFill (key := key), cell]

end

/-! ## Result slots (R163, R164) -/

/-- The two words of a result slot are two places. -/
theorem kSlot_ne (b r h : Nat) : kSlot b r h 0 ≠ kSlot b r h 1 := by simp [kSlot]

/-- An unmirrored bank's result slot takes its two words, and no other word changes. -/
theorem cell_putSlot {s : State} {b : Nat} (hm : mirrorsOf s b = []) (hw : swf (⟨0, 0⟩ : Cw) none s.sram.words = true) (r h : Nat) (res chk : Word) :
    cell (putSlot s b r h res chk) (kSlot b r h 0) = secEnc res ∧ cell (putSlot s b r h res chk) (kSlot b r h 1) = secEnc chk := by
  have first : putSlotCw s b r h 0 (secEnc res) = putCw s (kSlot b r h 0) (secEnc res) := by rw [putSlotCw, hm, List.foldl_nil]
  have still : mirrorsOf (putCw s (kSlot b r h 0) (secEnc res)) b = [] := by
    rw [← hm, mirrorsOf, mirrorsOf, (putCw_same ..).tcam]
  have both : putSlot s b r h res chk = putCw (putCw s (kSlot b r h 0) (secEnc res)) (kSlot b r h 1) (secEnc chk) := by
    rw [putSlot, first, putSlotCw, still, List.foldl_nil]
  rw [both]
  constructor
  · rw [cell_putCw (swf_putCw hw ..), if_neg (kSlot_ne b r h), cell_putCw hw, if_pos rfl]
  · rw [cell_putCw (swf_putCw hw ..), if_pos rfl]

/-! ## Entries of narrow tables (R54, R55)
An entry of 48 or 96 trits, cut to its table's width, stands in one row and is read back from it. -/

/-- The trits of x reach no further than n bits. -/
def Within (n : Nat) (x : BitVec 192) : Prop := ∀ i, n ≤ i → x.getLsbD i = false

theorem within_ones192 (n : Nat) : Within n (ones192 n) := by
  intro i hi
  rw [ones192, BitVec.getLsbD_ofNat, Nat.testBit_two_pow_sub_one]
  simp
  omega

theorem within_cutKey (s : State) (t : Nat) (k : BitVec 192) : Within (widthBits (tWidth s t)) (cutKey s t k) := by
  intro i hi
  rw [cutKey, BitVec.getLsbD_and, within_ones192 _ i hi, Bool.and_false]

theorem Within.and_right {n : Nat} {y : BitVec 192} (h : Within n y) (x : BitVec 192) : Within n (x &&& y) := by
  intro i hi
  rw [BitVec.getLsbD_and, h i hi, Bool.and_false]

/-- The half of a 48-trit row that an entry is put in reads back as the entry. -/
theorem half_low {x : BitVec 192} (h : Within 48 x) (y : BitVec 48) : (bf 0 48 (y ++ bf 0 48 x)).setWidth 192 = x := by
  refine BitVec.eq_of_getLsbD_eq fun i hi => ?_
  rw [BitVec.getLsbD_setWidth, BitVec.getLsbD_extractLsb', BitVec.getLsbD_append]
  by_cases low : i < 48
  · simp [low, hi]
  · simp [low, h i (by omega)]

theorem half_high {x : BitVec 192} (h : Within 48 x) (y : BitVec 48) : (bf 48 48 (bf 0 48 x ++ y)).setWidth 192 = x := by
  refine BitVec.eq_of_getLsbD_eq fun i hi => ?_
  rw [BitVec.getLsbD_setWidth, BitVec.getLsbD_extractLsb', BitVec.getLsbD_append]
  by_cases low : i < 48
  · simp [low, hi]
  · simp [low, h i (by omega)]

theorem row_whole {x : BitVec 192} (h : Within 96 x) : (bf 0 96 x).setWidth 192 = x := by
  refine BitVec.eq_of_getLsbD_eq fun i hi => ?_
  by_cases low : i < 96
  · simp [low, hi]
  · simp [low, h i (by omega)]

/-- An entry of at most 96 trits reads nothing of the twin's row. -/
theorem rowEntry_narrow {w : Nat} (hw : w < 2) (x y : TRow) (h : Nat) : rowEntry w x y h = rowEntry w x x h := by
  obtain rfl | rfl : w = 0 ∨ w = 1 := by omega
  · unfold rowEntry
    rw [if_pos rfl, if_pos rfl]
  · unfold rowEntry
    rw [if_neg (by decide), if_pos rfl, if_neg (by decide), if_pos rfl]

/-- An entry of at most 96 trits is read back from the row that it is put in. -/
theorem rowEntry_rowWith {w : Nat} (hw : w < 2) {e : Entry} (hc : Within (widthBits w) e.care) (hv : Within (widthBits w) e.val)
    (x : TRow) (h : Nat) : rowEntry w (rowWith w h true x e) (rowWith w h true x e) h = e := by
  obtain rfl | rfl : w = 0 ∨ w = 1 := by omega
  · unfold rowEntry rowWith
    rw [if_pos rfl, if_pos rfl]
    split
    · exact congrArg₂ (Entry.mk · · e.side) (half_low hc _) (half_low hv _)
    · exact congrArg₂ (Entry.mk · · e.side) (half_high hc _) (half_high hv _)
  · unfold rowEntry rowWith
    exact congrArg₂ (Entry.mk · · e.side) (row_whole hc) (row_whole hv)

section
variable {s : State} {b w r h : Nat} {e : Entry}

/-- An unmirrored bank's entry is written in one row of its own site. -/
theorem setEntry_narrow (hm : mirrorsOf s b = []) (hw : w < 2) (r h : Nat) (e : Entry) :
    setEntry s w b r h e = setRow s (siteOf s b) r (rowWith w h true (getRow s (siteOf s b) r) e) := by
  rw [setEntry, hm, List.foldl_nil, setEntryAt, if_neg (by omega)]

theorem getEntry_setEntry (hm : mirrorsOf s b = []) (hw : w < 2) (hs : swf TRow.blank none s.tcam.rows = true)
    (hc : Within (widthBits w) e.care) (hv : Within (widthBits w) e.val) : getEntry (setEntry s w b r h e) w b r h = e := by
  rw [setEntry_narrow hm hw]
  have row : getRow (setRow s (siteOf s b) r (rowWith w h true (getRow s (siteOf s b) r) e)) (siteOf s b) r =
    rowWith w h true (getRow s (siteOf s b) r) e := (sget_sput hs ..).trans (if_pos rfl)
  rw [getEntry, entryAt, rowEntry_narrow hw]
  have at_site : siteOf (setRow s (siteOf s b) r (rowWith w h true (getRow s (siteOf s b) r) e)) b = siteOf s b := rfl
  rw [at_site, row, rowEntry_rowWith hw hc hv]

theorem getRow_setEntry (hm : mirrorsOf s b = []) (hw : w < 2) (hs : swf TRow.blank none s.tcam.rows = true) {site q : Nat}
    (h' : site * 4096 + q ≠ siteOf s b * 4096 + r) : getRow (setEntry s w b r h e) site q = getRow s site q := by
  rw [setEntry_narrow hm hw]
  exact (sget_sput hs ..).trans (if_neg h')

end

end Sys2Proof.Machine
end

section
open Sys2Proof Sys2Proof.Machine
namespace Sys2Proof.Machine

/-! ## The directory (R67 to R74)
No change of entries, and no gate, touches the directory or the bank list. -/

/-- t has the directory and the bank list of s. -/
structure DirKept (s t : State) : Prop where
  dir : t.marker.dirA = s.marker.dirA
  list : t.marker.list = s.marker.list

section
variable {s t u : State}

theorem DirKept.refl (s : State) : DirKept s s := ⟨rfl, rfl⟩

theorem DirKept.trans (h : DirKept s t) (k : DirKept t u) : DirKept s u := ⟨k.dir.trans h.dir, k.list.trans h.list⟩

theorem SameBut.dirs {ps : List Part} (h : SameBut ps s t) (hp : Part.marker ∉ ps := by decide) : DirKept s t :=
  ⟨congrArg Marker.dirA (h.marker hp), congrArg Marker.list (h.marker hp)⟩

theorem DirKept.primaryBank (h : DirKept s t) (l : Loc) : primaryBank t l = primaryBank s l := by
  simp only [Machine.primaryBank, listAt, dirEntry, h.dir, h.list]

theorem DirKept.locAddr (h : DirKept s t) (l : Loc) : locAddr t l = locAddr s l := by rw [Machine.locAddr, h.primaryBank, Machine.locAddr]

end

theorem openGate_dirs (s : State) (g : Nat) (x : Gate) : DirKept s (openGate s g x) := by
  dsimp only [openGate]
  split <;> exact ⟨rfl, rfl⟩

theorem openMoveTo_dirs (s : State) (t : Nat) (l : Loc) (m : Nat × Nat) (g : Nat) : DirKept s (openMoveTo s t l m g) := by
  dsimp only [openMoveTo]
  exact (SameBut.dirs (ps := [.tcam, .sram, .integ, .events, .mgmt, .free]) (by simp)).trans (openGate_dirs ..)

theorem openMoveFrom_dirs (s : State) (t : Nat) (l : Loc) (m : Nat × Nat) (g : Nat) (j : Word) : DirKept s (openMoveFrom s t l m g j) := by
  dsimp only [openMoveFrom]
  exact (SameBut.dirs (ps := [.tcam]) (by simp)).trans (openGate_dirs ..)

theorem finishGate_dirs (s : State) (g : Nat) : DirKept s (finishGate s g) := by
  unfold finishGate
  extract_lets x w late s1 s2 s3 s4 s5
  have copied : DirKept s s3 :=
    SameBut.dirs (ps := [.tcam, .sram, .update, .ports, .tally, .journal, .integ, .events, .mgmt, .free]) (by simp [s3, s2, s1])
  have lowered : DirKept s3 (releaseSels s4 g) :=
    SameBut.dirs (ps := [.tcam, .sram, .update, .ports, .tally, .journal, .integ, .events, .mgmt, .free]) (by simp [s4])
  have answered : DirKept s5 (drainAnswer (jApplied s5 x.jsn) x late) :=
    SameBut.dirs (ps := [.update, .ports, .tally, .journal, .events, .mgmt, .free]) (by simp)
  have freed : DirKept (releaseSels s4 g) s5 := ⟨rfl, rfl⟩
  exact (copied.trans lowered).trans (freed.trans answered)

theorem settleGate_dirs (s : State) (g : Nat) : DirKept s (settleGate s g) := by
  unfold settleGate
  split
  · exact finishGate_dirs s g
  · exact .refl s

theorem relocate_dirs {s u : State} {e t : Nat} {l : Loc} {m : Nat × Nat} {b : Bool} (h : relocate s e t l m = some (u, b)) : DirKept s u := by
  unfold relocate at h
  split at h
  · cases h
  · split at h
    · cases h
    · dsimp only at h
      split at h
      · cases h
      · cases h
        exact (((jCommit_same ..).dirs.trans (openMoveTo_dirs ..)).trans ((openMoveFrom_dirs ..).trans (countT_same ..).dirs)).trans
          ((settleGate_dirs ..).trans (settleGate_dirs ..))

theorem relocateAll_dirs (e t : Nat) (ms : List (Loc × Nat × Nat)) (n : Nat) (s : State) : DirKept s (relocateAll e t ms n s).1 := by
  fun_induction relocateAll e t ms n s with
  | case1 => exact .refl _
  | case2 => exact .refl _
  | case3 _ _ _ _ _ q ih => exact (relocate_dirs q).trans ih
  | case4 _ _ _ _ _ q => exact relocate_dirs q

/-! ## An entry is installed (R154, R157, R160, R162) -/

/-- The answer of an INSERT that installed its entry by the placements ps, after n moves, under the JSN j (R146). -/
def installAnswer (s : State) (ps : List Plan) (n : Nat) (j : Word) : TRsp :=
  let rsp : TRsp := { TRsp.of .ok with chain := decide (0 < n), moves := BitVec.ofNat 5 n, jsn := j }
  ps.head?.elim rsp (fun p => rsp.withLoc s p.loc)

theorem installAnswer_fields (s : State) (ps : List Plan) (n : Nat) (j : Word) :
    (installAnswer s ps n j).st = .ok ∧ (installAnswer s ps n j).existed = false ∧ (installAnswer s ps n j).moves = BitVec.ofNat 5 n ∧
    (installAnswer s ps n j).chain = decide (0 < n) ∧ (installAnswer s ps n j).jsn = j := by
  cases ps <;> exact ⟨rfl, rfl, rfl, rfl, rfl⟩

section
variable {s s3 : State} {e t tag n : Nat} {care val : BitVec 192} {res : Word} {ds : List Nat} {ps : List Plan}

/-- The records of an installation: the entry at each of its places, and the rise of the count of its linked row. -/
def installRecs (s : State) (t : Nat) (care val : BitVec 192) (tag : Nat) (res : Word) (ps : List Plan) : List JRec :=
  ps.map (fun p => entryRec s t p.loc care val tag res) ++ linkIncRec s t none (linkRow s t res)

theorem freeGate_congr {s u : State} (hm : u.marker = s.marker) (hs : u.search = s.search) (e : Nat) : freeGate u e = freeGate s e := by
  simp only [freeGate, getGate, gateUnseen, hm, hs]

/-- The model writes the answer's address last, from the first placement where there is one. -/
theorem installAnswer_eq (s : State) (ps : List Plan) (n : Nat) (j : Word) :
    { (match ps with
        | p :: _ => { TRsp.of .ok with chain := decide (0 < n), moves := BitVec.ofNat 5 n }.withLoc s p.loc
        | [] => { TRsp.of .ok with chain := decide (0 < n), moves := BitVec.ofNat 5 n }) with jsn := j } = installAnswer s ps n j := by
  cases ps with
  | nil => rfl
  | cons p q => rfl

/-- The answer names the place of the first placement, whichever state between the moves and the commit it is read in. -/
theorem installAnswer_congr {u : State} (h : DirKept s u) (ps : List Plan) (n : Nat) (j : Word) : installAnswer u ps n j = installAnswer s ps n j := by
  cases ps with
  | nil => unfold installAnswer; simp only [List.head?_nil, Option.elim_none]
  | cons p q =>
    unfold installAnswer
    have same : locAddr u p.loc = locAddr s p.loc := h.locAddr p.loc
    simp only [List.head?_cons, Option.elim_some, TRsp.withLoc, same]

/-- The moves made and drained, an entry is written at its placements and committed: under a gate, or at the write cycle. -/
theorem install_ends (ready : isGated s t ds = true → canGate s e 1 ((copiesOf s t (ps.map (·.loc))).map (·.1)) = true ∧ (freeGate s3 e).isSome = true)
    (room : (jAdmit s (moveGroups s t (planMoves ps) ++ [installRecs s t care val tag res ps])).1 = true)
    (sound : (planMoves ps).findSome? (moveBad s t) = none) (moved : relocateAll e t (planMoves ps) 0 s = (s3, n, true)) :
    ∃ s2, install s e t care val tag res ds ps Extra.none = .ends s2 (some (installAnswer s ps n s2.journal.last)) ∧
      s2.journal.last = s3.journal.last + 1 ∧ EngKept s3 s2 := by
  have fits : ∀ f, admitFor s e t (moveGroups s t (planMoves ps) ++ [installRecs s t care val tag res ps]) f = f s := by
    intro f
    rw [admitFor, jAdmit_admits room]
    rfl
  have after : ∀ f, afterMoves s e t ps f = f s3 n := by
    intro f
    rw [afterMoves, sound, moved]
  have counted : SameBut [.sram, .integ, .events, .mgmt, .free] s3 (linkInc s3 t none (linkRow s t res)) := by
    unfold linkInc
    split
    · split
      · exact linkPut_same ..
      · exact .refl ..
    · exact .refl ..
  have dirs : DirKept s (linkInc s3 t none (linkRow s t res)) := by
    have through := relocateAll_dirs e t (planMoves ps) 0 s
    rw [moved] at through
    exact through.trans counted.dirs
  have known : ∀ j, installAnswer (linkInc s3 t none (linkRow s t res)) ps n j = installAnswer s ps n j := installAnswer_congr dirs ps n
  unfold install
  extract_lets new recs gated
  have : recs = installRecs s t care val tag res ps := rfl
  by_cases shut : isGated s t ds = true
  · obtain ⟨can, free⟩ := ready shut
    rw [if_neg (by simp [can]), this, fits, after]
    extract_lets u cs rsp rsp'
    rw [← freeGate_congr (u := u) counted.marker counted.search] at free
    obtain ⟨g, free⟩ := Option.isSome_iff_exists.1 free
    rw [if_pos shut, free]
    dsimp only
    have answered : ∀ j, { rsp' with jsn := j } = installAnswer s ps n j := fun j => (installAnswer_eq u ps n j).trans (known j)
    rw [answered]
    generalize hw : writeCopies (armCopies u g true cs).1 t care val tag res gCode (armCopies u g true cs).2 = w
    have written : SameBut [.tcam, .sram] u w := by simp [← hw]
    refine ⟨_, congrArg (Ran.ends _ ∘ some ∘ installAnswer s ps n) ?_, ?_, ?_⟩
    · have named : (jCommit w (installRecs s t care val tag res ps) false).1 = (jCommit w (installRecs s t care val tag res ps) false).2.journal.last := rfl
      exact named.trans (congrArg Journal.last (openGate_same ..).journal).symm
    · rw [(openGate_same ..).journal]
      exact congrArg (Journal.last · + 1) (written.journal.trans counted.journal)
    · exact counted.eng.trans (written.eng.trans ((jCommit_same ..).eng.trans (openGate_same ..).eng))
  · rw [if_neg (by simp [gated, shut]), this, fits, after]
    extract_lets u cs rsp rsp'
    rw [if_neg shut]
    have answered : ∀ j, { rsp' with jsn := j } = installAnswer s ps n j := fun j => (installAnswer_eq u ps n j).trans (known j)
    dsimp only
    rw [answered]
    have written : SameBut [.tcam, .sram] (jCommit u (installRecs s t care val tag res ps) true).2
      (writeCopies (jCommit u (installRecs s t care val tag res ps) true).2 t care val tag res (fun _ => 0) (plainCopies cs)) := by simp
    refine ⟨_, congrArg (Ran.ends _ ∘ some ∘ installAnswer s ps n) ?_, ?_, ?_⟩
    · exact (congrArg Journal.last written.journal).symm
    · rw [written.journal]
      exact congrArg (Journal.last · + 1) counted.journal
    · exact counted.eng.trans ((jCommit_same ..).eng.trans written.eng)
end
end Sys2Proof.Machine
end

section
open Sys2Proof Sys2Proof.Machine
namespace Sys2Proof.Machine

/-! ## An entry is installed on a table without copies, links or gates (R154, R55, R57)
Such an installation is one record and one write of the entry and of its result slot. -/

/-- No exact probe finds the entry, and the plan pl places it, without a move, in the one partition d of a narrow table that has neither
links nor gates, in a bank without copies. -/
structure PlainInsert (s : State) (t : Nat) (care val : BitVec 192) (tag : Nat) (res : Word) (nochain : Bool) (d : Nat) (pl : Plan) : Prop where
  narrow : tWidth s t < 2
  unlinked : tLink s t = 0
  settled : rpBlocks s t res = false
  part : dirsFor s t care val = [d]
  ungated : isGated s t [d] = false
  absent : findEntry s t care val tag [d] = ([], s)
  planned : planOne s t tag nochain d = some pl
  unmoved : pl.moves = []
  own : pl.loc.d = d
  unmirrored : mirrorsOf s (primaryBank s pl.loc) = []
  single : copyBanks s t d pl.loc.j = [primaryBank s pl.loc]
  room : (jAdmit s [[entryRec s t pl.loc care val tag res]]).1 = true

/-- What the installation leaves: the entry and its result slot under the next JSN, and everything else as it was. -/
structure PlainInstalled (s u : State) (t : Nat) (care val : BitVec 192) (tag : Nat) (res : Word) (l : Loc) : Prop where
  frame : SameBut [.tcam, .sram, .journal, .mgmt] s u
  next : u.journal.last = s.journal.last + 1
  entry : getEntry u (tWidth s t) (primaryBank s l) l.r l.h = mkEntry care val (BitVec.ofNat 7 tag) true 0
  rows : ∀ site r, site * 4096 + r ≠ siteOf s (primaryBank s l) * 4096 + l.r → getRow u site r = getRow s site r
  slot : swf (⟨0, 0⟩ : Cw) none s.sram.words = true →
    cell u (kSlot (primaryBank s l) l.r l.h 0) = secEnc res ∧ cell u (kSlot (primaryBank s l) l.r l.h 1) = secEnc (mkCheck s t care val tag)

section
variable {s : State} {e t tag d : Nat} {care val : BitVec 192} {res : Word} {replace nochain : Bool} {pl : Plan}

/-- Without links no result word counts in a row. -/
theorem linkRow_unlinked (h : tLink s t = 0) (res : Word) : linkRow s t res = none := by
  unfold linkRow
  rw [if_pos h]

theorem mirrorsOf_congr {u : State} (h : u.tcam = s.tcam) (b : Nat) : mirrorsOf u b = mirrorsOf s b := by rw [mirrorsOf, mirrorsOf, h]

theorem tWidth_congr {u : State} (h : u.str = s.str) (t : Nat) : tWidth u t = tWidth s t := by rw [tWidth, tWidth, desc, desc, h]

theorem mkCheck_congr {u : State} (h : u.str = s.str) (t : Nat) (care val : BitVec 192) (tag : Nat) :
    mkCheck u t care val tag = mkCheck s t care val tag := by
  rw [mkCheck, mkCheck, tWidth_congr h, tOrigin, tOrigin, desc, desc, h]

theorem cell_congr {u : State} (h : u.sram = s.sram) (hs : u.str = s.str) : cell u = cell s := by
  funext k
  rw [cell, cell, pageValid_congr h hs, h]

theorem getEntry_congr {u : State} (h : u.tcam = s.tcam) (w b r e : Nat) : getEntry u w b r e = getEntry s w b r e := by
  simp only [getEntry, entryAt, getRow, siteOf, h]

theorem getRow_congr {u : State} (h : u.tcam = s.tcam) (site r : Nat) : getRow u site r = getRow s site r := by rw [getRow, getRow, h]

/-- What is counted of an installation is no part of it. -/
theorem PlainInstalled.congr {u v : State} {t : Nat} {care val : BitVec 192} {tag : Nat} {res : Word} {l : Loc}
    (h : PlainInstalled s u t care val tag res l) (k : SameBut [.mgmt] u v) : PlainInstalled s v t care val tag res l where
  frame := h.frame.trans (k.mono (by decide))
  next := by rw [k.journal, h.next]
  entry := by rw [getEntry_congr k.tcam, h.entry]
  rows := fun site r other => (getRow_congr k.tcam site r).trans (h.rows site r other)
  slot := by rw [cell_congr k.sram k.str]; exact h.slot

/-- One copy takes the entry and its result slot. -/
theorem writeCopies_one (s : State) (t b r h : Nat) (care val : BitVec 192) (tag : Nat) (res : Word) :
    writeCopies s t care val tag res (fun _ => 0) (plainCopies [(b, r, h)]) =
      setEntry (putSlot s b r h res (mkCheck s t care val tag)) (tWidth s t) b r h (mkEntry care val (BitVec.ofNat 7 tag) true 0) := rfl

/-- The write of one entry and its result slot, in an unmirrored bank of a narrow table, after the commit of its record. -/
theorem plainInstalled_write {l : Loc} (hw : tWidth s t < 2) (hm : mirrorsOf s (primaryBank s l) = [])
    (hr : swf TRow.blank none s.tcam.rows = true) (hc : Within (widthBits (tWidth s t)) care) (rs : List JRec) :
    PlainInstalled s (writeCopies (jCommit s rs true).2 t care val tag res (fun _ => 0) (plainCopies [(primaryBank s l, l.r, l.h)]))
      t care val tag res l := by
  have committed := jCommit_same s rs true
  generalize hu : (jCommit s rs true).2 = u at committed
  have last : u.journal.last = s.journal.last + 1 := hu ▸ rfl
  rw [writeCopies_one, mkCheck_congr committed.str, tWidth_congr committed.str]
  have slot := putSlot_same u (primaryBank s l) l.r l.h res (mkCheck s t care val tag)
  have kept : (putSlot u (primaryBank s l) l.r l.h res (mkCheck s t care val tag)).tcam = s.tcam := slot.tcam.trans committed.tcam
  have bare : mirrorsOf (putSlot u (primaryBank s l) l.r l.h res (mkCheck s t care val tag)) (primaryBank s l) = [] :=
    (mirrorsOf_congr kept _).trans hm
  have written := setEntry_same (putSlot u (primaryBank s l) l.r l.h res (mkCheck s t care val tag)) (tWidth s t) (primaryBank s l) l.r l.h
    (mkEntry care val (BitVec.ofNat 7 tag) true 0)
  refine ⟨((committed.mono (by decide)).trans ((slot.mono (by decide)).trans (written.mono (by decide)))), ?_, ?_, ?_, ?_⟩
  · rw [written.journal, slot.journal, last]
  · exact getEntry_setEntry bare hw (kept ▸ hr) hc (hc.and_right val)
  · intro site q other
    rw [getRow_setEntry bare hw (kept ▸ hr) (by rwa [siteOf_congr (congrArg Tcam.site kept)]), getRow_congr kept]
  · intro words
    have cells := cell_putSlot (s := u) (b := primaryBank s l) ((mirrorsOf_congr committed.tcam _).trans hm) (by rwa [committed.sram]) l.r l.h res
      (mkCheck s t care val tag)
    rwa [cell_congr written.sram written.str]

theorem PlainInsert.ends (h : PlainInsert s t care val tag res nochain d pl) (hr : swf TRow.blank none s.tcam.rows = true)
    (hc : Within (widthBits (tWidth s t)) care) :
    ∃ u r, insertEntry s e t care val tag res replace nochain Extra.none = .ends u (some r) ∧ PlainInstalled s u t care val tag res pl.loc ∧
      r.st = .ok ∧ r.jsn = s.journal.last + 1 := by
  have unlinked := linkRow_unlinked h.unlinked res
  have places : copiesOf s t ([pl].map (·.loc)) = [(primaryBank s pl.loc, pl.loc.r, pl.loc.h)] := by
    simp [copiesOf, h.own, h.single]
  have still : planMoves [pl] = [] := by simp [planMoves, h.unmoved]
  have fits : ∀ f, admitFor s e t [[entryRec s t pl.loc care val tag res]] f = f s := by
    intro f
    rw [admitFor, jAdmit_admits h.room]
    rfl
  have installs : install s e t care val tag res [d] [pl] Extra.none =
      .ends (writeCopies (jCommit s [entryRec s t pl.loc care val tag res] true).2 t care val tag res (fun _ => 0)
        (plainCopies [(primaryBank s pl.loc, pl.loc.r, pl.loc.h)])) (some (installAnswer s [pl] 0 (s.journal.last + 1))) := by
    unfold install
    extract_lets new recs gated
    have entered : recs = [entryRec s t pl.loc care val tag res] := by
      simp only [recs, show new = none from unlinked]
      rfl
    rw [show gated = false from h.ungated, if_neg nofun, still, moveGroups, List.map_nil, List.nil_append, entered, fits, afterMoves, still]
    dsimp only [List.findSome?_nil, relocateAll]
    rw [show linkInc s t none new = s by rw [show new = none from unlinked]; rfl, show raiseBaste s Extra.none.pre = s from rfl, places, if_neg nofun]
    rfl
  have inserts : insertEntry s e t care val tag res replace nochain Extra.none =
      countInsert t [d] (install s e t care val tag res [d] [pl] Extra.none) := by
    unfold insertEntry
    extract_lets ds new
    rw [show ds = [d] from h.part, show new = none from unlinked]
    rw [show issueLinks s t (none : Option Nat).toList = s from rfl, h.absent]
    dsimp only
    rw [if_neg (by simp [rowsHeld, Extra.none]), wordRefusal, if_neg (by simp [h.settled])]
    dsimp only
    rw [List.isEmpty_cons, if_neg nofun, planAll, planAll, h.planned]
  have installed := plainInstalled_write (val := val) (tag := tag) (res := res) (l := pl.loc) h.narrow h.unmirrored hr hc [entryRec s t pl.loc care val tag res]
  have counted := countT_same (writeCopies (jCommit s [entryRec s t pl.loc care val tag res] true).2 t care val tag res (fun _ => 0)
    (plainCopies [(primaryBank s pl.loc, pl.loc.r, pl.loc.h)])) t 0 1
  exact ⟨_, _, (inserts.trans (congrArg (countInsert t [d]) installs)), installed.congr counted, rfl, rfl⟩
end

end Sys2Proof.Machine
end

section
open Sys2Proof Sys2Proof.Machine
namespace Sys2Proof.Machine

section
variable {s s1 s3 : State} {e : Fin 8} {c : TCmd} {ps : List Plan} {n : Nat}

/-- An INSERT that no rule refuses is the insertion of its entry. -/
theorem runInsert_admitted (h : entryRefusal s c (formBad s c) [] true = none) (e : Nat) :
    runInsert e s c = insertEntry s e (cTable c) (cMask s c) (cKey s c) (cPlen c) (cRes c) (cReplace c) (cNochain c) Extra.none := by
  rw [runInsert, h]

/-- An insertion after the issue of its linked row's coalescer entries and an exact probe. -/
theorem probed_eng {t : Nat} {rows : List Nat} {care val : BitVec 192} {tag : Nat} {ds : List Nat} {ls : List Loc}
    (h : findEntry (issueLinks s t rows) t care val tag ds = (ls, s1)) : EngKept s s1 := by
  have probe := findEntry_same (issueLinks s t rows) t care val tag ds
  rw [h] at probe
  exact (issueLinks_eng s t rows).trans probe.eng

/-- An entry that no exact probe finds, whose word no rule refuses, is installed at its plans. -/
theorem insertEntry_installs {t tag : Nat} {care val : BitVec 192} {res : Word} {replace nochain : Bool}
    (hd : dirsFor s t care val ≠ []) (hf : findEntry (issueLinks s t (linkRow s t res).toList) t care val tag (dirsFor s t care val) = ([], s1))
    (hh : rowsHeld s1 (linkRow s t res).toList [] = false) (hw : wordRefusal s1 t none (linkRow s t res) res = none)
    (hp : planAll s1 t tag nochain (dirsFor s t care val) = some ps) (e : Nat) :
    insertEntry s e t care val tag res replace nochain Extra.none =
      countInsert t (dirsFor s t care val) (install s1 e t care val tag res (dirsFor s t care val) ps Extra.none) := by
  unfold insertEntry
  extract_lets ds new
  rw [hf]
  dsimp only
  rw [show Extra.none.pre.map (·.1) = [] from rfl, hh, if_neg nofun, hw]
  dsimp only
  rw [if_neg (by simpa using hd), hp]

/-- An entry that the exact probe finds is not installed again. -/
theorem insertEntry_finds {t tag : Nat} {care val : BitVec 192} {res : Word} {replace nochain : Bool} {l : Loc} {ls : List Loc}
    (hf : findEntry (issueLinks s t (linkRow s t res).toList) t care val tag (dirsFor s t care val) = (l :: ls, s1)) (e : Nat) :
    insertEntry s e t care val tag res replace nochain Extra.none =
      insertExisting s1 e t care val tag res replace nochain (dirsFor s t care val) (l :: ls) Extra.none := by
  unfold insertEntry
  extract_lets ds new
  rw [hf]

theorem countInsert_ok {t : Nat} {ds : List Nat} {u : State} {r : TRsp} (h : r.st = .ok) :
    countInsert t ds (.ends u (some r)) = .ends (countT u t 0 1) (some r) := by
  rw [countInsert, countOf, if_pos h]

theorem cMask_within (s : State) (c : TCmd) : Within (widthBits (tWidth s (cTable c))) (cMask s c) := within_cutKey s (cTable c) _

end

end Sys2Proof.Machine

/-- Settles O17: the installation under its plans, the one write of a plain table, and the entry that the exact probe finds. -/
theorem insertInstallsOrFinds : Obligations.InsertInstallsOrFinds := by
  unfold Obligations.InsertInstallsOrFinds
  refine ⟨?installs, ?plain, ?finds⟩
  case installs =>
    intro e s s1 s3 c ps n head admitted parts probe unheld word planned ready room sound moved
    obtain ⟨s2, run, last, kept⟩ := install_ends ready room sound moved
    have ends : runInsert e.val s c = .ends (countT s2 (cTable c) 0 1) (some (installAnswer s1 ps n s2.journal.last)) := by
      rw [runInsert_admitted admitted, insertEntry_installs parts probe unheld word planned, run, countInsert_ok (installAnswer_fields ..).1]
    have relocated : EngKept s1 s3 := by
      have through := relocateAll_eng e.val (cTable c) (planMoves ps) 0 s1
      rwa [moved] at through
    obtain ⟨ok, fresh, moves, chain, jsn⟩ := installAnswer_fields s1 ps n s2.journal.last
    refine ⟨countT s2 (cTable c) 0 1, _, head.answers ends (((probed_eng probe).trans relocated).trans (kept.trans (countT_same ..).eng)),
      ok, fresh, moves, chain, ?_, jsn, last⟩
    rintro p q rfl
    exact ⟨rfl, rfl⟩
  case plain =>
    intro e s c d p head admitted narrow unlinked settled part ungated absent planned unmoved unmirrored single own room rows words
    have plain : PlainInsert s (cTable c) (cMask s c) (cKey s c) (cPlen c) (cRes c) (cNochain c) d p :=
      ⟨narrow, unlinked, settled, part, ungated, absent, planned, unmoved, own, unmirrored, single, room⟩
    obtain ⟨u, r, run, installed, -⟩ := plain.ends (e := e.val) (replace := cReplace c) rows (cMask_within s c)
    have finished := head.answers ((runInsert_admitted admitted e.val).trans run) installed.frame.eng
    have left := done_same u e.val c 0 r
    refine ⟨_, finished, ?_, ?_, ?_, ?_, fun site r other => ?_⟩
    · rw [getEntry_congr left.tcam, installed.entry]
    · rw [cell_congr left.sram left.str, (installed.slot words).1]
    · rw [cell_congr left.sram left.str, (installed.slot words).2]
    · rw [left.journal, installed.next]
    · rw [getRow_congr left.tcam, installed.rows site r other]
  case finds =>
    intro e s s1 c l ls head admitted keep probe
    have ends : runInsert e.val s c = .ends (countT s1 (cTable c) 1 1) (some { TRsp.of .ok with
        existed := true, addr := BitVec.ofNat 24 (locAddr s1 l), half := decide (l.h = 1), tag := BitVec.ofNat 7 (cPlen c) }) := by
      rw [runInsert_admitted admitted, insertEntry_finds probe, keep]
      rfl
    exact head.answers ends ((probed_eng probe).trans (countT_same ..).eng)
end

section
open Sys2Proof Sys2Proof.Machine
namespace Sys2Proof.Machine

/-! ## Rows of index tables (R173 to R176)
A row is its words, at places one after another; a write of the row is a write of each. -/

section
variable {s u : State} {t r : Nat}

theorem rowWords_congr (h : u.str = s.str) (t : Nat) : rowWords u t = rowWords s t := by rw [rowWords, rowWords, tRowW, tRowW, desc, desc, h]

theorem rowKey_congr (h : u.str = s.str) (t r j : Nat) : rowKey u t r j = rowKey s t r j := by rw [rowKey, rowKey, rowWords_congr h]

theorem rowKey_injective {i j : Nat} (h : rowKey s t r i = rowKey s t r j) : i = j := by
  simp only [rowKey, kIndex] at h
  omega

/-- Each word of ws is written at its place in row r of table t. -/
def putRow (s : State) (t r : Nat) (ws : List (Nat × Word)) : State := ws.foldl (fun s w => putWord s (rowKey s t r w.1) w.2) s

theorem putRow_same (s : State) (t r : Nat) (ws : List (Nat × Word)) : SameBut [.sram] s (putRow s t r ws) :=
  SameBut.foldl (fun u _ => putWord_same u ..) ws s

theorem cell_putRow_other {k : Nat} (hw : swf (⟨0, 0⟩ : Cw) none s.sram.words = true) {ws : List (Nat × Word)}
    (h : ∀ w ∈ ws, k ≠ rowKey s t r w.1) : cell (putRow s t r ws) k = cell s k := by
  induction ws generalizing s with
  | nil => rfl
  | cons w ws ih =>
    have key : ∀ j, rowKey (putWord s (rowKey s t r w.1) w.2) t r j = rowKey s t r j := rowKey_congr (putWord_same ..).str t r
    refine (ih (s := putWord s (rowKey s t r w.1) w.2) (swf_putCw hw ..) fun x hx => ?_).trans ?_
    · rw [key]
      exact h x (.tail _ hx)
    · exact (cell_putCw hw _).trans (if_neg (h w (.head _)))

/-- Every word that a write of a row names is read back. -/
theorem cell_putRow (hw : swf (⟨0, 0⟩ : Cw) none s.sram.words = true) {ws : List (Nat × Word)} (hn : (ws.map (·.1)).Nodup)
    {w : Nat × Word} (h : w ∈ ws) : cell (putRow s t r ws) (rowKey s t r w.1) = secEnc w.2 := by
  induction ws generalizing s with
  | nil => cases h
  | cons x ws ih =>
    obtain ⟨fresh, rest⟩ := List.nodup_cons.1 hn
    have key : ∀ j, rowKey (putWord s (rowKey s t r x.1) x.2) t r j = rowKey s t r j := rowKey_congr (putWord_same ..).str t r
    rcases List.mem_cons.1 h with rfl | later
    · refine (cell_putRow_other (s := putWord s (rowKey s t r w.1) w.2) (swf_putCw hw ..) fun y hy => ?_).trans ((cell_putCw hw _).trans (if_pos rfl))
      rw [key]
      intro same
      exact fresh (List.mem_map.2 ⟨y, hy, (rowKey_injective same).symm⟩)
    · rw [← key]
      exact ih (s := putWord s (rowKey s t r x.1) x.2) (swf_putCw hw ..) rest later

end

/-! ## Reads and issues leave the words canonical -/

/-- What two memories share when only their page bits or the armed injection differ. -/
structure ReadOnly (s u : State) : Prop where
  words : u.sram.words = s.sram.words
  coal : u.sram.coal = s.sram.coal

theorem ReadOnly.trans {s u v : State} (h : ReadOnly s u) (k : ReadOnly u v) : ReadOnly s v := ⟨k.words.trans h.words, k.coal.trans h.coal⟩

theorem SameBut.readOnly {ps : List Part} {s u : State} (h : SameBut ps s u) (hp : Part.sram ∉ ps := by decide) : ReadOnly s u :=
  ⟨congrArg Sram.words (h.sram hp), congrArg Sram.coal (h.sram hp)⟩

theorem consumeInj_readOnly (s : State) (key : Nat) : ReadOnly s (consumeInj s key) := by
  unfold consumeInj
  split
  · split <;> exact ⟨rfl, rfl⟩
  · exact ⟨rfl, rfl⟩

theorem fixPage_readOnly (s : State) (key : Nat) : ReadOnly s (fixPage s key) := by
  unfold fixPage
  extract_lets v
  by_cases whole : (!inPool key || v == 0 || v == 7) = true
  · rw [if_pos whole]
    exact ⟨rfl, rfl⟩
  · rw [if_neg whole]
    exact ⟨rfl, rfl⟩

/-- A read changes no word and no coalescer entry. -/
theorem touch_readOnly (s : State) (key : Nat) : ReadOnly s (touch s key) := by
  refine ((consumeInj_readOnly s key).trans (fixPage_readOnly _ key)).trans ?_
  unfold touch
  extract_lets r v
  refine SameBut.readOnly (ps := [.integ, .events, .mgmt, .free]) ?_
  split
  · simp [v]
  · split
    · exact .refl ..
    · simp [v]

theorem touch_words (s : State) (key : Nat) : (touch s key).sram.words = s.sram.words := (touch_readOnly s key).words

theorem touchQ_words (s : State) (key : Nat) : (touchQ s key).sram.words = s.sram.words := by
  unfold touchQ
  extract_lets b u
  have same : SameBut [.integ, .mgmt] u (if b = true then queueBad u (.word key) else u) := by
    split
    · exact queueBad_same ..
    · exact .refl ..
  rw [same.sram]
  exact touch_words s key

/-- The commands that wait for one word commit it one after another, each under its own JSN, and are answered (R386). -/
def commitWaits (s : State) (rec_ : JRec) (ws : List (Via × TRsp)) : State :=
  ws.foldl (fun s a => answer (jCommit s [rec_] true).2 a.1 { a.2 with jsn := (jCommit s [rec_] true).1 }) s

theorem commitWaits_same (s : State) (rec_ : JRec) (ws : List (Via × TRsp)) :
    SameBut [.update, .ports, .tally, .journal, .events, .mgmt, .free] s (commitWaits s rec_ ws) :=
  SameBut.foldl (fun u a => by simp) ws s

theorem commitWaits_last (s : State) (rec_ : JRec) (ws : List (Via × TRsp)) :
    (commitWaits s rec_ ws).journal.last = s.journal.last + BitVec.ofNat 64 ws.length := by
  induction ws generalizing s with
  | nil => exact (BitVec.add_zero _).symm
  | cons a ws ih =>
    refine (ih _).trans ?_
    rw [(answer_same ..).journal, List.length_cons, Nat.add_comm ws.length, BitVec.ofNat_add, ← BitVec.add_assoc]
    rfl

theorem swf_issueCoal {s : State} (hw : swf (⟨0, 0⟩ : Cw) none s.sram.words = true) (key : Nat) :
    swf (⟨0, 0⟩ : Cw) none (issueCoal s key).sram.words = true := by
  unfold issueCoal
  split
  · exact hw
  · next c _ =>
    extract_lets sram u t w row old v rec_ gs
    have begun : swf (⟨0, 0⟩ : Cw) none u.sram.words = true := hw
    have answered : ∀ z : State, SameBut [.update, .ports, .tally, .journal, .events, .mgmt, .free] u z ∨
        SameBut [.update, .ports, .tally, .journal, .events, .mgmt, .free] (touchQ u key) z →
        swf (⟨0, 0⟩ : Cw) none z.sram.words = true := by
      rintro z (h | h)
      · rw [h.sram]
        exact begun
      · rw [h.sram, touchQ_words]
        exact begun
    split
    · exact answered _ (.inr (by simp))
    · generalize hj : jAdmit u gs = y
      have admitted := jAdmit_same u gs
      rw [hj] at admitted
      obtain ⟨ok, z⟩ := y
      cases ok with
      | true =>
        have written : swf (⟨0, 0⟩ : Cw) none (putWord (if c.mask = BitVec.allOnes 64 then z else touch z key) key v).sram.words = true := by
          refine swf_putCw ?_ key (secEnc v)
          split
          · rw [admitted.sram]
            exact begun
          · rw [touch_words, admitted.sram]
            exact begun
        rw [← (commitWaits_same (putWord (if c.mask = BitVec.allOnes 64 then z else touch z key) key v) rec_ c.waits).sram] at written
        exact written
      | false => exact answered _ (.inl (by simpa using admitted.mono (by decide)))

theorem swf_issueRow {s : State} (hw : swf (⟨0, 0⟩ : Cw) none s.sram.words = true) (t r : Nat) :
    swf (⟨0, 0⟩ : Cw) none (issueRow s t r).sram.words = true := by
  unfold issueRow
  induction rowKeys s t r generalizing s with
  | nil => exact hw
  | cons k ks ih => exact ih (swf_issueCoal hw k)

/-! ## Whole-row writes (R173, R386) -/

section
variable {s : State} {t r : Nat} {ws : List (Nat × Word)}

theorem issueCoal_idle {key : Nat} (h : sget none s.sram.coal key = none) : issueCoal s key = s := by rw [issueCoal, h]

theorem issueRow_idle (h : ∀ k ∈ rowKeys s t r, sget none s.sram.coal k = none) : issueRow s t r = s := by
  unfold issueRow
  revert h
  generalize rowKeys s t r = ks
  intro h
  induction ks with
  | nil => rfl
  | cons k ks ih => rw [List.foldl_cons, issueCoal_idle (h k (.head _)), ih fun x hx => h x (.tail _ hx)]

/-- The entries of the row's words take the words as they are to be written. -/
def widenRow (s : State) (t r : Nat) (ws : List (Nat × Word)) : State :=
  ws.foldl (fun s w => match sget none s.sram.coal (rowKey s t r w.1) with
    | some c => { s with sram := { s.sram with coal := sput none s.sram.coal (rowKey s t r w.1) (some { c with mask := BitVec.allOnes 64, val := w.2 }) } }
    | none => s) s

theorem mergeRow_eq (s : State) (t r : Nat) (ws : List (Nat × Word)) : mergeRow s t r ws = issueRow (widenRow s t r ws) t r := rfl

theorem widenRow_words (s : State) (t r : Nat) (ws : List (Nat × Word)) : (widenRow s t r ws).sram.words = s.sram.words := by
  induction ws generalizing s with
  | nil => rfl
  | cons w ws ih =>
    refine (ih _).trans ?_
    beta_reduce
    split <;> rfl

theorem swf_mergeRow (hw : swf (⟨0, 0⟩ : Cw) none s.sram.words = true) (t r : Nat) (ws : List (Nat × Word)) :
    swf (⟨0, 0⟩ : Cw) none (mergeRow s t r ws).sram.words = true := by
  rw [mergeRow_eq]
  exact swf_issueRow (by rwa [widenRow_words]) t r

/-- Where no narrower write waits there is nothing to merge. -/
theorem mergeRow_idle (hk : ∀ w ∈ ws, w.1 < rowWords s t) (h : ∀ k ∈ rowKeys s t r, sget none s.sram.coal k = none) :
    mergeRow s t r ws = s := by
  have narrow : widenRow s t r ws = s := by
    unfold widenRow
    induction ws with
    | nil => rfl
    | cons w ws ih =>
      have idle : sget none s.sram.coal (rowKey s t r w.1) = none :=
        h _ (List.mem_map.2 ⟨w.1, List.mem_range.2 (hk w (.head _)), rfl⟩)
      rw [List.foldl_cons, idle]
      exact ih fun x hx => hk x (.tail _ hx)
  rw [mergeRow_eq, narrow, issueRow_idle h]

/-- A write of a composer's table commits under the next JSN and waits for a generation, word by word (R120). -/
theorem composerWrite_waits (s : State) (t r : Nat) (ws : List (Nat × Word)) (reply : Option (Via × TRsp)) :
    (composerWrite s [] t r ws reply).2.journal.last = s.journal.last + 1 ∧
    (composerWrite s [] t r ws reply).2.search.cur = s.search.cur ∧
    (composerWrite s [] t r ws reply).2.search.waiting.length = s.search.waiting.length + ws.length := by
  unfold composerWrite
  have committed := jCommit_same s ([] ++ ws.map (fun w => JRec.iword t w.1 r w.2)) true
  generalize hu : (jCommit s ([] ++ ws.map (fun w => JRec.iword t w.1 r w.2)) true) = u at committed ⊢
  obtain ⟨j, u⟩ := u
  have last : u.journal.last = s.journal.last + 1 := congrArg (·.2.journal.last) hu.symm
  have written := putRow_same u t r ws
  refine ⟨(congrArg Journal.last written.journal).trans last, ?_, ?_⟩
  · exact (congrArg Search.cur written.search).trans (congrArg Search.cur committed.search)
  · refine (List.length_append ..).trans ?_
    rw [List.length_map, List.length_zipIdx]
    exact congrArg (·.waiting.length + ws.length) (written.search.trans committed.search)

end

end Sys2Proof.Machine
end

section
open Sys2Proof Sys2Proof.Machine
namespace Sys2Proof.Machine

/-! ## Index commands (R173, R174, R176) -/

section
variable {s : State} {c : TCmd}

/-- The rest of a wide row, as it stands in the continuation slot above byte 8. -/
theorem rest_slot (v : BitVec 256) : bf 64 192 (((bf 64 192 v).setWidth 256) <<< 64) = bf 64 192 v := by
  refine BitVec.eq_of_getLsbD_eq fun i hi => ?_
  simp [hi, show 64 + i < 256 by omega]

/-- A row that reads well is answered, its low word in the answer and the rest of a wide row in a continuation slot. -/
theorem runIread_row (h : indexRefusal s c false [qFW, qSB] false = none) (hk : tKind s (cTable c) = 2) (hb : rowBad s (cTable c) (cRow c) = false) :
    runIread s c = .ends (touchAll s (rowKeys s (cTable c) (cRow c))) (some { TRsp.of .ok with
      addr := BitVec.ofNat 24 (cRow c), res := bf 0 64 (rowVal s (cTable c) (cRow c)),
      cont := if 64 < tRowW s (cTable c) then [((bf 64 192 (rowVal s (cTable c) (cRow c))).setWidth 256) <<< 64] else [] }) := by
  unfold runIread
  rw [h]
  dsimp only
  rw [if_neg (by omega), if_neg (by omega), hb, if_neg nofun]

theorem runIread_bad (h : indexRefusal s c false [qFW, qSB] false = none) (hk : tKind s (cTable c) = 2) (hb : rowBad s (cTable c) (cRow c) = true) :
    runIread s c = .ends ((rowKeys s (cTable c) (cRow c)).foldl touchQ s) (some (TRsp.of .poison)) := by
  unfold runIread
  rw [h]
  dsimp only
  rw [if_neg (by omega), if_neg (by omega), hb, if_pos rfl]
  rfl

theorem runIread_counter (h : indexRefusal s c false [qFW, qSB] false = none) (hk : tKind s (cTable c) = 3) :
    runIread s c = readCounter s (cTable c) (cRow c) := by
  unfold runIread
  rw [h]
  dsimp only
  rw [if_pos hk]

theorem runIread_allocator (h : indexRefusal s c false [qFW, qSB] false = none) (hk : tKind s (cTable c) = 4) :
    runIread s c = .ends (fresh s).2 (some { TRsp.of .ok with addr := BitVec.ofNat 24 (cRow c), res := (fresh s).1 }) := by
  unfold runIread
  rw [h]
  dsimp only
  rw [if_neg (by omega), if_pos hk]

/-- The words that an IWRITE writes: the row data, word by word. -/
def wordsOf (s : State) (t : Nat) (v : BitVec 256) : List (Nat × Word) := (List.range (rowWords s t)).map (fun j => (j, bf (64 * j) 64 v))

/-- The row data cut to the row's width. -/
def rowCut (s : State) (c : TCmd) : BitVec 256 := cRowData c &&& BitVec.ofNat 256 (2 ^ tRowW s (cTable c) - 1)

/-- The records of an IWRITE. -/
def iwriteRecs (s : State) (c : TCmd) : List JRec := (wordsOf s (cTable c) (rowCut s c)).map (fun w => JRec.iword (cTable c) w.1 (cRow c) w.2)

/-- What an IWRITE leaves once the waiting writes of its words are merged and issued. -/
def iwritten (s : State) (c : TCmd) : State :=
  putRow (jCommit (mergeRow s (cTable c) (cRow c) (wordsOf s (cTable c) (rowCut s c))) (iwriteRecs s c) true).2 (cTable c) (cRow c)
    (wordsOf s (cTable c) (rowCut s c))

/-- An IWRITE that its journal admits, on a table that is no composer's. -/
theorem runIwrite_row (h : indexRefusal s c false [] true = none) (hh : (rowsHeld s [cRow c] [] && decide (cTable c = tBINF)) = false)
    (room : (jAdmit s (coalGroups s (cTable c) (cRow c) (wordsOf s (cTable c) (rowCut s c)) ++ [iwriteRecs s c])).1 = true)
    (hc : tComposer s (cTable c) = false) (hf : (rowKeys s (cTable c) (cRow c)).any (coalFull s) = false) :
    runIwrite s c = .ends (iwritten s c) (some { TRsp.of .ok with
      addr := BitVec.ofNat 24 (cRow c), jsn := (mergeRow s (cTable c) (cRow c) (wordsOf s (cTable c) (rowCut s c))).journal.last + 1 }) := by
  unfold runIwrite
  rw [h]
  extract_lets t r v ws recs
  have admits : jAdmit s (coalGroups s t r ws ++ [recs]) = (true, s) := jAdmit_admits room
  rw [hh, show tComposer s t = false from hc, show (rowKeys s t r).any (coalFull s) = false from hf, if_neg (by decide), admits]
  dsimp only
  rw [if_neg (by decide), if_neg (by simpa using hc)]
  rfl

theorem runIwrite_composer (h : indexRefusal s c false [] true = none) (hh : (rowsHeld s [cRow c] [] && decide (cTable c = tBINF)) = false)
    (room : (jAdmit s (coalGroups s (cTable c) (cRow c) (wordsOf s (cTable c) (rowCut s c)) ++ [iwriteRecs s c])).1 = true)
    (hc : tComposer s (cTable c) = true) :
    ∃ reply, runIwrite s c = .ends (composerWrite s [] (cTable c) (cRow c) (wordsOf s (cTable c) (rowCut s c)) reply).2 none := by
  unfold runIwrite
  rw [h]
  extract_lets t r v ws recs
  have admits : jAdmit s (coalGroups s t r ws ++ [recs]) = (true, s) := jAdmit_admits room
  rw [hh, show tComposer s t = true from hc, if_neg (by simp), admits]
  dsimp only
  rw [if_neg (by decide), if_pos (by simpa using hc)]
  exact ⟨_, rfl⟩

theorem mergeRow_str (s : State) (t r : Nat) (ws : List (Nat × Word)) : (mergeRow s t r ws).str = s.str :=
  SameBut.str (ps := [.sram, .update, .ports, .tally, .journal, .integ, .events, .mgmt, .free]) (by simp)

theorem wordsOf_length (s : State) (t : Nat) (v : BitVec 256) : (wordsOf s t v).length = rowWords s t := by
  rw [wordsOf, List.length_map, List.length_range]

theorem wordsOf_fst (s : State) (t : Nat) (v : BitVec 256) : (wordsOf s t v).map (·.1) = List.range (rowWords s t) := by
  rw [wordsOf, List.map_map]
  exact List.map_id _

theorem mem_wordsOf {t j : Nat} {v : BitVec 256} (hj : j < rowWords s t) : (j, bf (64 * j) 64 v) ∈ wordsOf s t v :=
  List.mem_map.2 ⟨j, List.mem_range.2 hj, rfl⟩

theorem lt_of_mem_wordsOf {t : Nat} {v : BitVec 256} {w : Nat × Word} (h : w ∈ wordsOf s t v) : w.1 < rowWords s t := by
  obtain ⟨j, hj, rfl⟩ := List.mem_map.1 h
  exact List.mem_range.1 hj

/-- Every word of the row takes its part of the row data. -/
theorem cell_iwritten (hw : swf (⟨0, 0⟩ : Cw) none s.sram.words = true) {j : Nat} (hj : j < rowWords s (cTable c)) :
    cell (iwritten s c) (rowKey s (cTable c) (cRow c) j) = secEnc (bf (64 * j) 64 (rowCut s c)) := by
  have merged := swf_mergeRow hw (cTable c) (cRow c) (wordsOf s (cTable c) (rowCut s c))
  rw [← rowKey_congr (mergeRow_str s (cTable c) (cRow c) (wordsOf s (cTable c) (rowCut s c)))]
  have distinct : ((wordsOf s (cTable c) (rowCut s c)).map (·.1)).Nodup := by
    rw [wordsOf_fst]
    exact List.nodup_range
  unfold iwritten
  generalize mergeRow s (cTable c) (cRow c) (wordsOf s (cTable c) (rowCut s c)) = m at merged ⊢
  have key : rowKey m = rowKey (jCommit m (iwriteRecs s c) true).2 := rfl
  have written := cell_putRow (s := (jCommit m (iwriteRecs s c) true).2) (t := cTable c) (r := cRow c) merged distinct (mem_wordsOf hj)
  rw [key]
  exact written

theorem iwritten_last (s : State) (c : TCmd) : (iwritten s c).journal.last =
    (mergeRow s (cTable c) (cRow c) (wordsOf s (cTable c) (rowCut s c))).journal.last + 1 := by
  rw [iwritten, (putRow_same ..).journal, jCommit_last]

theorem widenRow_eng (s : State) (t r : Nat) (ws : List (Nat × Word)) : EngKept s (widenRow s t r ws) := by
  refine .foldl (fun u w => ?_) ws s
  split <;> rfl

theorem iwritten_eng (s : State) (c : TCmd) : EngKept s (iwritten s c) :=
  ((widenRow_eng ..).trans (issueRow_eng ..)).trans ((jCommit_same ..).eng.trans (putRow_same ..).eng)

/-- Where no narrower write waits, no other word changes. -/
theorem cell_iwritten_other (hw : swf (⟨0, 0⟩ : Cw) none s.sram.words = true) (hn : ∀ k ∈ rowKeys s (cTable c) (cRow c), sget none s.sram.coal k = none)
    {k : Nat} (hk : k ∉ rowKeys s (cTable c) (cRow c)) : cell (iwritten s c) k = cell s k := by
  rw [iwritten, mergeRow_idle (fun w hw => lt_of_mem_wordsOf hw) hn]
  refine cell_putRow_other (s := (jCommit s (iwriteRecs s c) true).2) hw fun w hx same => hk ?_
  exact List.mem_map.2 ⟨w.1, List.mem_range.2 (lt_of_mem_wordsOf hx), same.symm⟩

section
variable (h : indexRefusal s c (!fieldOk s c) [] true = none) (hn : ∀ k ∈ rowKeys s (cTable c) (cRow c), sget none s.sram.coal k = none)
  (hb : (peek s (rowKey s (cTable c) (cRow c) (cLsb c / 64))).bad = false) (hh : (rowsHeld s [cRow c] [] && decide (cTable c = tBINF)) = false)
include h hn hb hh

/-- An ICAS whose field does not hold the expected value. -/
theorem runIcas_stale (hv : fieldOf s (cTable c) (cRow c) (cLsb c) (cWid c) ≠ (cVal c).toNat % 2 ^ cWid c) :
    runIcas s c = .ends (touch s (rowKey s (cTable c) (cRow c) (cLsb c / 64))) (some { TRsp.of .staleVersion with
      addr := BitVec.ofNat 24 (cRow c), res := BitVec.ofNat 64 (fieldOf s (cTable c) (cRow c) (cLsb c) (cWid c)) }) := by
  unfold runIcas
  rw [h]
  dsimp only
  rw [issueRow_idle hn, hb, if_neg nofun, hh, if_neg nofun, if_pos hv]

section
variable (hv : fieldOf s (cTable c) (cRow c) (cLsb c) (cWid c) = (cVal c).toNat % 2 ^ cWid c)
  (room : (jAdmit s [[JRec.iword (cTable c) (cLsb c / 64) (cRow c) (fieldWord s (cTable c) (cRow c) (cLsb c) (cWid c) (cNew c).toNat)]]).1 = true)
include hv room

theorem runIcas_swaps (hc : tComposer s (cTable c) = false) :
    runIcas s c = .ends
      (putWord (touch (jCommit s [JRec.iword (cTable c) (cLsb c / 64) (cRow c) (fieldWord s (cTable c) (cRow c) (cLsb c) (cWid c) (cNew c).toNat)] true).2
        (rowKey s (cTable c) (cRow c) (cLsb c / 64))) (rowKey s (cTable c) (cRow c) (cLsb c / 64))
        (fieldWord s (cTable c) (cRow c) (cLsb c) (cWid c) (cNew c).toNat))
      (some { TRsp.of .ok with
        addr := BitVec.ofNat 24 (cRow c), jsn := s.journal.last + 1, res := BitVec.ofNat 64 (fieldOf s (cTable c) (cRow c) (cLsb c) (cWid c)) }) := by
  unfold runIcas
  rw [h]
  dsimp only
  rw [issueRow_idle hn, hb, if_neg nofun, hh, if_neg nofun, if_neg (not_not.2 hv), jAdmit_admits room]
  dsimp only
  rw [if_neg (by decide), hc, if_neg nofun]
  rfl

theorem runIcas_composer (hc : tComposer s (cTable c) = true) :
    ∃ reply, runIcas s c = .ends (composerWrite s [] (cTable c) (cRow c)
      [(cLsb c / 64, fieldWord s (cTable c) (cRow c) (cLsb c) (cWid c) (cNew c).toNat)] reply).2 none := by
  unfold runIcas
  rw [h]
  dsimp only
  rw [issueRow_idle hn, hb, if_neg nofun, hh, if_neg nofun, if_neg (not_not.2 hv), jAdmit_admits room]
  dsimp only
  rw [if_neg (by decide), hc, if_pos rfl]
  exact ⟨_, rfl⟩

end
end

end
end Sys2Proof.Machine

/-- Settles O20: each command by its run, and the words that a run leaves by the write of a row. -/
theorem indexRowsReadWriteAndCompare : Obligations.IndexRowsReadWriteAndCompare := by
  unfold Obligations.IndexRowsReadWriteAndCompare
  refine ⟨fun e s c head admitted => ⟨fun kind good => ?_, fun kind bad => ?_, fun k kind hk good => ?_, fun kind => ?_⟩, ?_, ?_⟩
  · have read := touchAll_same s (rowKeys s (cTable c) (cRow c))
    exact ⟨_, _, head.answers (runIread_row admitted kind good) read.eng, rfl, rfl, fun narrow => if_neg (by omega),
      fun wide => ⟨_, if_pos wide, rest_slot _⟩, read⟩
  · exact head.answers (runIread_bad admitted kind bad) (SameBut.eng (ps := [.sram, .integ, .events, .mgmt, .free]) (by simp))
  · subst hk
    have read := touch_same s (kIndex (cTable c) (cRow c / (64 / max 1 (tRowW s (cTable c)))))
    have ends := (runIread_counter admitted kind).trans (by rw [readCounter, good, if_neg nofun])
    exact ⟨_, _, head.answers ends read.eng, rfl, rfl, read⟩
  · exact ⟨_, _, head.answers (runIread_allocator admitted kind) rfl, rfl, fresh_same s⟩
  · intro e s c v ws head admitted unheld hv hws room words
    subst hv hws
    refine ⟨fun plain spare => ?_, fun composer => ?_⟩
    · have run := head.answers (runIwrite_row admitted unheld room plain spare) (iwritten_eng s c)
      refine ⟨⟨_, _, run, rfl, (iwritten_last s c).symm, fun j hj => cell_iwritten words hj⟩, fun idle => ⟨_, _, run, rfl, ?_, ?_, fun k hk => cell_iwritten_other words idle hk⟩⟩
      · exact congrArg (·.journal.last + 1) (mergeRow_idle (fun w hw => lt_of_mem_wordsOf hw) idle)
      · rw [iwritten_last, mergeRow_idle (fun w hw => lt_of_mem_wordsOf hw) idle]
    · obtain ⟨reply, run⟩ := runIwrite_composer admitted unheld room composer
      obtain ⟨last, cur, waiting⟩ := composerWrite_waits s (cTable c) (cRow c) (wordsOf s (cTable c) (rowCut s c)) reply
      exact ⟨_, head.departs run, last, cur, waiting.trans (by rw [wordsOf_length])⟩
  · intro e s c head admitted idle good unheld
    refine ⟨fun other => ?_, fun equal room words => ⟨fun plain => ?_, fun composer => ?_⟩⟩
    · have read := touch_same s (rowKey s (cTable c) (cRow c) (cLsb c / 64))
      exact ⟨_, _, head.answers (runIcas_stale admitted idle good unheld other) read.eng, rfl, rfl, touch_words .., read.journal⟩
    · generalize hu : (jCommit s [JRec.iword (cTable c) (cLsb c / 64) (cRow c) (fieldWord s (cTable c) (cRow c) (cLsb c) (cWid c) (cNew c).toNat)] true).2 = u
      have run := runIcas_swaps admitted idle good unheld equal room plain
      have committed : SameBut [.journal, .mgmt] s u := hu ▸ jCommit_same ..
      rw [hu] at run
      refine ⟨_, _, head.answers run (committed.eng.trans ((touch_same ..).eng.trans (putWord_same ..).eng)), rfl, rfl, rfl, ?_⟩
      exact (cell_putCw (by rwa [touch_words, committed.sram]) _).trans (if_pos rfl)
    · obtain ⟨reply, run⟩ := runIcas_composer admitted idle good unheld equal room composer
      obtain ⟨last, -, waiting⟩ := composerWrite_waits s (cTable c) (cRow c)
        [(cLsb c / 64, fieldWord s (cTable c) (cRow c) (cLsb c) (cWid c) (cNew c).toNat)] reply
      exact ⟨_, head.departs run, last, waiting⟩
end

section
open Sys2Proof Sys2Proof.Machine
namespace Sys2Proof.Machine

/-! ## Fields (R175, R386) -/

section
variable {lo w v : Nat}

/-- A field within a word is read back as the value's low bits. -/
theorem bn_of_field {x : Word} (hx : ∀ i, lo ≤ i → i < lo + w → bit i x = v.testBit (i - lo)) : bn lo w x = v % 2 ^ w := by
  refine Nat.eq_of_testBit_eq fun i => ?_
  rw [Nat.testBit_mod_two_pow, bn, BitVec.testBit_toNat, BitVec.getLsbD_extractLsb']
  by_cases hi : i < w
  · have h := hx (lo + i) (by omega) (by omega)
    rw [bit, Nat.add_sub_cancel_left] at h
    rw [h]
  · simp [hi]

/-- A field's mask, and its value alone. -/
theorem bit_fieldMask (c : TCmd) {i : Nat} (hi : i < 64) : bit i (fieldMask c) = decide (cLsb c % 64 ≤ i ∧ i < cLsb c % 64 + cWid c) := by
  rw [fieldMask, bit_bset_field _ hi]
  split
  · next h => simp [h, Nat.testBit_two_pow_sub_one]; omega
  · next h => simp [h, bit]

theorem bit_fieldValue (c : TCmd) {i : Nat} (hi : i < 64) : bit i (bset (cLsb c % 64) (cWid c) (0 : Word) (cVal c).toNat) =
    (decide (cLsb c % 64 ≤ i ∧ i < cLsb c % 64 + cWid c) && (cVal c).toNat.testBit (i - cLsb c % 64)) := by
  rw [bit_bset_field _ hi]
  split
  · next h => simp [h]
  · next h => simp [h, bit]

/-- What a merged entry holds: the field's bits of the later write, and every other bit of the earlier ones. -/
def mergedVal (c : TCmd) (x : Word) : Word := (x &&& ~~~ fieldMask c) ||| bset (cLsb c % 64) (cWid c) (0 : Word) (cVal c).toNat

theorem bit_mergedVal (c : TCmd) (x : Word) {i : Nat} (hi : i < 64) :
    bit i (mergedVal c x) = if cLsb c % 64 ≤ i ∧ i < cLsb c % 64 + cWid c then (cVal c).toNat.testBit (i - cLsb c % 64) else bit i x := by
  have split : bit i (mergedVal c x) = ((bit i x && !bit i (fieldMask c)) || bit i (bset (cLsb c % 64) (cWid c) (0 : Word) (cVal c).toNat)) := by
    simp [bit, mergedVal, hi]
  rw [split, bit_fieldMask c hi, bit_fieldValue c hi]
  by_cases field : cLsb c % 64 ≤ i ∧ i < cLsb c % 64 + cWid c
  · rw [if_pos field, decide_eq_true field]
    simp
  · rw [if_neg field, decide_eq_false field]
    simp

theorem mergedVal_outside (c : TCmd) (x : Word) : mergedVal c x &&& ~~~ fieldMask c = x &&& ~~~ fieldMask c := by
  refine BitVec.eq_of_getLsbD_eq fun i hi => ?_
  have merged := bit_mergedVal c x hi
  have mask := bit_fieldMask c hi
  simp only [bit] at merged mask
  rw [BitVec.getLsbD_and, BitVec.getLsbD_and, BitVec.getLsbD_not, merged, mask]
  by_cases field : cLsb c % 64 ≤ i ∧ i < cLsb c % 64 + cWid c
  · rw [decide_eq_true field]
    simp
  · rw [if_neg field]

theorem mergedVal_field {c : TCmd} (h : cLsb c % 64 + cWid c ≤ 64) (x : Word) : bn (cLsb c % 64) (cWid c) (mergedVal c x) = (cVal c).toNat % 2 ^ cWid c :=
  bn_of_field fun i hl hu => (bit_mergedVal c x (by omega)).trans (if_pos ⟨hl, hu⟩)

end

section
variable {s : State} {c : TCmd}

theorem field_of_admitted {mayIssue : List Nat} {writes : Bool} (h : indexRefusal s c (!fieldOk s c) mayIssue writes = none) :
    fieldOk s c = true := by
  simp only [indexRefusal, firstStatus] at h
  split at h
  · cases h
  · next ok =>
    by_contra bad
    exact ok (by simp [bad])

/-- A field lies within one word of its row. -/
theorem fieldOk_within (h : fieldOk s c = true) : cLsb c % 64 + cWid c ≤ 64 := by
  obtain ⟨-, one⟩ := of_decide_eq_true h
  have wide : 0 < cWid c := Nat.succ_pos _
  omega

/-- The coalescer entry of the field's word, or a new one. -/
def fieldCoal (s : State) (c : TCmd) : Coal := (sget none s.sram.coal (rowKey s (cTable c) (cRow c) (cLsb c / 64))).getD ⟨0, 0, []⟩

/-- The entry once an IFIELD has merged into it. -/
def fieldMerged (s : State) (c : TCmd) : Coal where
  mask := (fieldCoal s c).mask ||| fieldMask c
  val := mergedVal c (fieldCoal s c).val
  waits := (fieldCoal s c).waits ++ [(c.via, fill c { TRsp.of .ok with addr := BitVec.ofNat 24 (cRow c) })]

section
variable (h : indexRefusal s c (!fieldOk s c) [] true = none) (hb : (peek s (rowKey s (cTable c) (cRow c) (cLsb c / 64))).bad = false)
include h hb

theorem runIfield_merges (hc : tComposer s (cTable c) = false) (hf : coalFull s (rowKey s (cTable c) (cRow c) (cLsb c / 64)) = false) :
    runIfield s c = .ends { s with sram := { s.sram with
      coal := sput none s.sram.coal (rowKey s (cTable c) (cRow c) (cLsb c / 64)) (some (fieldMerged s c)) } } none := by
  unfold runIfield
  rw [h]
  dsimp only
  rw [hb, if_neg nofun, hc, if_neg nofun, hf, if_neg nofun]
  rfl

theorem runIfield_composer (hc : tComposer s (cTable c) = true)
    (room : (jAdmit s [[JRec.iword (cTable c) (cLsb c / 64) (cRow c) (fieldWord s (cTable c) (cRow c) (cLsb c) (cWid c) (cVal c).toNat)]]).1 = true) :
    ∃ reply, runIfield s c = .ends (composerWrite s [] (cTable c) (cRow c)
      [(cLsb c / 64, fieldWord s (cTable c) (cRow c) (cLsb c) (cWid c) (cVal c).toNat)] reply).2 none := by
  unfold runIfield
  rw [h]
  dsimp only
  rw [hb, if_neg nofun, hc, if_pos rfl, jAdmit_admits room]
  dsimp only
  rw [if_neg (by decide)]
  exact ⟨_, rfl⟩

end
end

/-! ## The issue of a coalescer entry (R386) -/

section
variable {s : State} {key : Nat} {c : Coal}

theorem putWord_coal (s : State) (key : Nat) (d : Word) : (putWord s key d).sram.coal = s.sram.coal := by
  have filled : (pageFill s key).sram.coal = s.sram.coal := by
    unfold pageFill
    split <;> rfl
  exact filled

/-- The word that the issue of the entry c writes. -/
def issuedWord (s : State) (key : Nat) (c : Coal) : Word := ((peek s key).data &&& ~~~ c.mask) ||| (c.val &&& c.mask)

/-- The record of that write. -/
def issuedRec (s : State) (key : Nat) (c : Coal) : JRec :=
  JRec.iword ((tableOfPlace key).getD 0) ((key - kIndex ((tableOfPlace key).getD 0) 0) % rowWords s ((tableOfPlace key).getD 0))
    ((key - kIndex ((tableOfPlace key).getD 0) 0) / rowWords s ((tableOfPlace key).getD 0)) (issuedWord s key c)

/-- The memory without the entry of one word. -/
def withoutCoal (s : State) (key : Nat) : State := { s with sram := { s.sram with coal := sput none s.sram.coal key none } }

/-- An entry whose word reads well and whose groups the journal admits is written, and its commands commit and are answered. -/
theorem issueCoal_writes (hc : sget none s.sram.coal key = some c) (hb : (peek s key).bad = false)
    (room : (jAdmit s (c.waits.map (fun _ => [issuedRec s key c]))).1 = true) :
    issueCoal s key = commitWaits (putWord (if c.mask = BitVec.allOnes 64 then withoutCoal s key else touch (withoutCoal s key) key) key
      (issuedWord s key c)) (issuedRec s key c) c.waits := by
  have admits : jAdmit (withoutCoal s key) (c.waits.map (fun _ => [issuedRec s key c])) = (true, withoutCoal s key) :=
    jAdmit_admits ((jAdmit_congr (s := s) (t := withoutCoal s key) rfl _).trans room)
  unfold issueCoal
  split
  · next absent => cases hc.symm.trans absent
  · next x found =>
    cases hc.symm.trans found
    extract_lets sram u t w row old v rec_ gs
    have reads : old.bad = false := hb
    rw [reads, Bool.false_and, if_neg nofun, show jAdmit u gs = (true, u) from admits]
    rfl

/-- Before its commands commit, the word stands written and its entry is gone. -/
theorem issued_word (hw : swf (⟨0, 0⟩ : Cw) none s.sram.words = true) (hq : swf none none s.sram.coal = true) (whole : Prop) [Decidable whole] (v : Word) :
    let u := putWord (if whole then withoutCoal s key else touch (withoutCoal s key) key) key v
    sget none u.sram.coal key = none ∧ cell u key = secEnc v ∧ u.journal = s.journal := by
  have read : ReadOnly (withoutCoal s key) (if whole then withoutCoal s key else touch (withoutCoal s key) key) := by
    split
    · exact ⟨rfl, rfl⟩
    · exact touch_readOnly ..
  have entered : (if whole then withoutCoal s key else touch (withoutCoal s key) key).journal = s.journal := by
    split
    · rfl
    · exact (touch_same ..).journal
  refine ⟨?_, ?_, (putWord_same ..).journal.trans entered⟩
  · rw [putWord_coal, read.coal]
    exact (sget_sput hq ..).trans (if_pos rfl)
  · exact (cell_putCw (by rw [read.words]; exact hw) _).trans (if_pos rfl)

end

/-! ## Generations of a composer's tables (R120, R121) -/

/-- A generation's commit takes the waiting writes, and answers them. -/
theorem commitGeneration_takes (s : State) :
    SameBut [.sram, .search, .update, .ports, .tally, .events, .mgmt, .free] s (commitGeneration s) ∧
    (commitGeneration s).search = { s.search with
      prev := s.search.cur, cur := s.search.waiting.foldl (fun m w => sput 0 m w.key w.val) s.search.cur, gen := s.search.gen + 1, waiting := [] } := by
  unfold commitGeneration
  extract_lets ws cur sram search u
  have begun : SameBut [.sram, .search] s u := by simp [u]
  have answered : SameBut [.update, .ports, .tally, .events, .mgmt, .free] u
      (ws.foldl (fun s w => match w.reply with | some (v, r) => answer s v r | none => s) u) := by
    refine SameBut.foldl (fun z w => ?_) ws u
    split
    · exact answer_same ..
    · exact .refl ..
  exact ⟨(begun.mono (by decide)).trans (answered.mono (by decide)), answered.search⟩

/-! ## Learn notes (R184) -/

section
variable {s : State} {c : TCmd}

/-- The reports of a line that are counted so far. -/
def learned (s : State) (line : Nat) : Nat := ((s.update.learn.find? (fun x => x.1 == line)).map (·.2)).getD 0

/-- The counts with the line's count set, the line first. -/
def relearned (s : State) (line v : Nat) : State :=
  { s with update := { s.update with learn := ((line, v) :: s.update.learn.filter (fun x => x.1 ≠ line)).take 16384 } }

theorem learn_raises {line p : Nat} (h : learned s line + 1 < 4) : learn s p line = relearned s line (learned s line + 1) := by
  unfold learn
  extract_lets n rest v update u
  have few : ¬ n ≥ 4 := Nat.not_le.2 h
  rw [if_neg few]
  simp only [u, v, if_neg few]
  rfl

theorem learn_recurs {line p : Nat} (h : 4 ≤ learned s line + 1) : learn s p line = event (relearned s line 0) [p] 0x2005 line 4 := by
  unfold learn
  extract_lets n rest v update u
  have many : n ≥ 4 := h
  rw [if_pos many]
  simp only [u, v, if_pos many]
  rfl

theorem relearned_head (s : State) (line v : Nat) : (relearned s line v).update.learn.head? = some (line, v) := rfl

theorem relearned_same (s : State) (line v : Nat) : SameBut [.update] s (relearned s line v) := by simp [relearned]

theorem runLearn_core (hc : cCont c = 0) (hi : c.issuer < 8) (hk : bn 64 8 c.s0 = 1) :
    runLearn s c = .ends (if coresServe s then learn s c.issuer (bn 128 48 c.s0) else s) (some (TRsp.of .ok)) := by
  have few : ¬ 8 ≤ c.issuer := by omega
  simp [runLearn, firstStatus, hc, hk, few]

theorem runLearn_raises (hc : cCont c = 0) (hi : c.issuer < 8) (hk : bn 64 8 c.s0 = 1) (hs : coresServe s = true)
    (hn : learned s (bn 128 48 c.s0) + 1 < 4) :
    runLearn s c = .ends (relearned s (bn 128 48 c.s0) (learned s (bn 128 48 c.s0) + 1)) (some (TRsp.of .ok)) := by
  rw [runLearn_core hc hi hk, hs, if_pos rfl, learn_raises hn]

theorem runLearn_recurs (hc : cCont c = 0) (hi : c.issuer < 8) (hk : bn 64 8 c.s0 = 1) (hs : coresServe s = true)
    (hn : 4 ≤ learned s (bn 128 48 c.s0) + 1) :
    runLearn s c = .ends (event (relearned s (bn 128 48 c.s0) 0) [c.issuer] 0x2005 (bn 128 48 c.s0) 4) (some (TRsp.of .ok)) := by
  rw [runLearn_core hc hi hk, hs, if_pos rfl, learn_recurs hn]

theorem runLearn_note (hc : cCont c = 0) (hi : c.issuer < 8) (hk : bn 64 8 c.s0 = 2) :
    runLearn s c = .ends (trace s 5) (some (TRsp.of .ok)) := by
  have few : ¬ 8 ≤ c.issuer := by omega
  simp [runLearn, firstStatus, hc, hk, few]

theorem runLearn_malformed (h1 : bn 64 8 c.s0 ≠ 1) (h2 : bn 64 8 c.s0 ≠ 2) : runLearn s c = .ends s (some (TRsp.of .malformed)) := by
  simp [runLearn, firstStatus, h1, h2]

theorem runLearn_notOwner (hc : cCont c = 0) (hi : 8 ≤ c.issuer) (hk : bn 64 8 c.s0 = 1 ∨ bn 64 8 c.s0 = 2) :
    runLearn s c = .ends s (some (TRsp.of .notOwner)) := by
  have kind : ¬ (bn 64 8 c.s0 ≠ 1 ∧ bn 64 8 c.s0 ≠ 2) := by omega
  simp [runLearn, firstStatus, hc, hi, kind]

end

end Sys2Proof.Machine

/-- Settles O21: a field by the bits of its merged entry, the issue by its write and its commits, and a note by its count. -/
theorem fieldsGenerationsAndNotes : Obligations.FieldsGenerationsAndNotes := by
  unfold Obligations.FieldsGenerationsAndNotes
  refine ⟨⟨?merges, ?composer, ?issues⟩, ?commits, ?learns, ?refuses⟩
  case merges =>
    intro e s c x head admitted plain good spare hx
    subst hx
    have field := fieldOk_within (field_of_admitted admitted)
    exact ⟨_, fieldMerged s c, head.departs (runIfield_merges admitted good plain spare), by simp, sget_sput_self (Option.some_ne_none _) .., rfl,
      mergedVal_outside .., mergedVal_field field _, List.length_append, rfl⟩
  case composer =>
    intro e s c head admitted composer good room
    obtain ⟨reply, run⟩ := runIfield_composer admitted good composer room
    obtain ⟨last, -, waiting⟩ := composerWrite_waits s (cTable c) (cRow c)
      [(cLsb c / 64, fieldWord s (cTable c) (cRow c) (cLsb c) (cWid c) (cVal c).toNat)] reply
    exact ⟨_, head.departs run, last, waiting⟩
  case issues =>
    rintro s key c j waits good coal words rfl room
    have written := issued_word (key := key) words coal (c.mask = BitVec.allOnes 64) (issuedWord s key c)
    obtain ⟨gone, word, entered⟩ := written
    have run := issueCoal_writes waits good room
    generalize putWord (if c.mask = BitVec.allOnes 64 then withoutCoal s key else touch (withoutCoal s key) key) key (issuedWord s key c) = u at gone word entered run
    have committed := commitWaits_same u (issuedRec s key c) c.waits
    refine ⟨_, congrArg Host.Outcome.next run, ?_, ?_, ?_⟩
    · rw [committed.sram, gone]
    · rw [commitWaits_last, entered]
    · exact (congrFun (cell_congr committed.sram committed.str) key).trans word
  case commits =>
    intro s waiting
    have nonempty : s.search.waiting.isEmpty = false := by simpa using waiting
    refine ⟨fun held => congrArg Host.Outcome.next (if_pos (by simp [held])), fun free => ?_⟩
    obtain ⟨frame, search⟩ := commitGeneration_takes s
    refine ⟨_, congrArg Host.Outcome.next (if_neg (by simp [nonempty, free])), ?_, ?_, ?_, ?_, frame⟩
    all_goals rw [search]
  case learns =>
    intro e s c n head cont port hn
    subst hn
    refine ⟨fun kind lost => ?_, fun kind serves few => ?_, fun kind serves many => ?_, fun kind => ?_, fun no1 no2 => ?_⟩
    · exact head.answers ((runLearn_core cont port kind).trans (by rw [lost, if_neg nofun])) (.refl s)
    · exact ⟨_, head.answers (runLearn_raises cont port kind serves few) rfl, relearned_head .., relearned_same ..⟩
    · exact ⟨_, head.answers (runLearn_recurs cont port kind serves many) (event_same ..).eng,
        relearned_head .., relearned_same ..⟩
    · exact head.answers (runLearn_note cont port kind) (trace_same ..).eng
    · exact head.answers (runLearn_malformed no1 no2) (.refl s)
  case refuses =>
    intro e s c head cont other kind
    exact head.answers (runLearn_notOwner cont other kind) (.refl s)
end

section
open Sys2Proof Sys2Proof.Machine
namespace Sys2Proof.Machine

/-! ## Where the banks stand (R92, R96, R98)
The bank map, the tables of the banks and the gate selectors: a clone's progress changes none of them. -/

/-- t has the bank map, the bank tables and the selectors of s. -/
structure MapKept (s t : State) : Prop where
  site : t.tcam.site = s.tcam.site
  table : t.tcam.table = s.tcam.table
  sels : t.tcam.sels = s.tcam.sels
  str : t.str = s.str

section
variable {s t u : State}

theorem MapKept.refl (s : State) : MapKept s s := ⟨rfl, rfl, rfl, rfl⟩

theorem MapKept.trans (h : MapKept s t) (k : MapKept t u) : MapKept s u :=
  ⟨k.site.trans h.site, k.table.trans h.table, k.sels.trans h.sels, k.str.trans h.str⟩

theorem SameBut.map {ps : List Part} (h : SameBut ps s t) (hp : Part.tcam ∉ ps := by decide) (hs : Part.str ∉ ps := by decide) : MapKept s t :=
  ⟨congrArg Tcam.site (h.tcam hp), congrArg Tcam.table (h.tcam hp), congrArg Tcam.sels (h.tcam hp), h.str hs⟩

theorem MapKept.siteOf (h : MapKept s t) (b : Nat) : siteOf t b = siteOf s b := siteOf_congr h.site b

theorem bankTable_congr (h : t.tcam.table = s.tcam.table) (b : Nat) : bankTable t b = bankTable s b := by rw [bankTable, bankTable, h]

theorem isPair_congr (h : t.tcam.table = s.tcam.table) (hs : t.str = s.str) (b : Nat) : isPair t b = isPair s b := by
  have kind : tKind t = tKind s := funext fun n => by rw [tKind, tKind, desc, desc, hs]
  have width : tWidth t = tWidth s := funext fun n => tWidth_congr hs n
  rw [isPair, isPair, bankTable_congr h, kind, width]

theorem MapKept.bankTable (h : MapKept s t) (b : Nat) : bankTable t b = bankTable s b := bankTable_congr h.table b

theorem MapKept.isPair (h : MapKept s t) (b : Nat) : isPair t b = isPair s b := isPair_congr h.table h.str b

theorem MapKept.clonePairs (h : MapKept s t) (c : Clone) : clonePairs t c = clonePairs s c := by
  rw [Machine.clonePairs, Machine.clonePairs, bankPair, bankPair, h.isPair]

theorem MapKept.ungoverned (h : MapKept s t) (b : Nat) : ungoverned t b = ungoverned s b := by
  rw [Machine.ungoverned, Machine.ungoverned, freeSels, freeSels, h.sels]

theorem MapKept.cloneFrozen (h : MapKept s t) (ha : t.arbs = s.arbs) (c : Clone) : cloneFrozen t c = cloneFrozen s c := by
  simp only [Machine.cloneFrozen, h.clonePairs, h.siteOf, bankFrozen, ha]

theorem MapKept.cloneTable (h : MapKept s t) (b : Nat) : (Machine.bankTable t b).getD 0 = (Machine.bankTable s b).getD 0 := by rw [h.bankTable]

end

theorem siteProbed_congr {s t : State} (h : t.search = s.search) (pair : Bool) (a : Nat) : siteProbed t pair a = siteProbed s pair a := by
  rw [siteProbed, siteProbed, h]

/-- The first bad row is found in the entries alone. -/
theorem badFrom_congr {s t : State} (h : MapKept s t) (hr : t.tcam.rows = s.tcam.rows) (n b lo : Nat) : badFrom t n b lo = badFrom s n b lo := by
  have rows : getRow t = getRow s := funext fun a => funext fun r => by rw [getRow, getRow, hr]
  have listed : siteRows t = siteRows s := funext fun a => by rw [siteRows, siteRows, hr]
  have entries : bankEntries t = bankEntries s := by
    unfold bankEntries
    rw [rows, listed]
  rw [badFrom, badFrom, liveEntries, liveEntries, tWidth_congr h.str, h.siteOf, h.siteOf, entries]

/-! ## The rows of a clone (R178, R404) -/

section
variable {s : State} {c : Clone} {e : Nat}

/-- Where the copying of a clone's rows ends: at the first row with bad parity, or at the bank's end. -/
def cloneTo (s : State) (c : Clone) : Nat := (badFrom s ((bankTable s c.src).getD 0) c.src c.row).getD 4096

/-- The rows of a clone's banks copied up to there. -/
def cloneRows (s : State) (c : Clone) : State :=
  (clonePairs s c).foldl (fun u x => copyRows u (siteOf u x.1) (siteOf u x.2) c.row (cloneTo s c)) s

/-- With them the result slots, of a copy, and the cursor records. -/
def cloned (s : State) (c : Clone) : State :=
  cloneCursors (if c.copy then copySlots (cloneRows s c) ((bankTable s c.src).getD 0) c.src c.dst c.row (cloneTo s c) else cloneRows s c) c (cloneTo s c)

theorem advanceClone_frozen (h : (getEng s e).clone = some c) (hf : cloneFrozen s c = true) : advanceClone s e = s := by
  rw [advanceClone, h]
  exact if_pos hf

theorem advanceClone_thawed (h : (getEng s e).clone = some c) (hf : cloneFrozen s c = false) :
    advanceClone s e = setEng (cloned s c) e { getEng (cloned s c) e with clone := some { c with row := cloneTo s c } } := by
  rw [advanceClone, h]
  exact if_neg (by simp [hf])

theorem cloneRows_same (s : State) (c : Clone) : SameBut [.tcam] s (cloneRows s c) := by simp [cloneRows]

theorem cloned_same (s : State) (c : Clone) : SameBut [.tcam, .sram, .journal, .integ, .events, .mgmt, .free] s (cloned s c) := by
  unfold cloned
  split <;> simp [cloneRows]

/-- The result slots and the cursor records change no bank. -/
theorem cloned_tcam (s : State) (c : Clone) : (cloned s c).tcam = (cloneRows s c).tcam := by
  unfold cloned
  split
  · exact SameBut.tcam (ps := [.sram, .journal, .integ, .events, .mgmt, .free]) (by simp)
  · exact SameBut.tcam (ps := [.sram, .journal, .integ, .events, .mgmt, .free]) (by simp)

theorem cloneRows_only (s : State) (c : Clone) : (cloneRows s c).tcam = { s.tcam with rows := (cloneRows s c).tcam.rows } := by
  unfold cloneRows
  generalize cloneTo s c = hi
  generalize clonePairs s c = ps
  induction ps generalizing s with
  | nil => rfl
  | cons p ps ih => exact ih _

theorem cloned_only (s : State) (c : Clone) : (cloned s c).tcam = { s.tcam with rows := (cloned s c).tcam.rows } := by
  rw [cloned_tcam]
  exact cloneRows_only s c

theorem cloned_state (s : State) (c : Clone) : (cloned s c).tcam.state = s.tcam.state := by rw [cloned_only]

theorem cloned_mirror (s : State) (c : Clone) : (cloned s c).tcam.mirror = s.tcam.mirror := by rw [cloned_only]

theorem cloned_map (s : State) (c : Clone) : MapKept s (cloned s c) :=
  ⟨by rw [cloned_only], by rw [cloned_only], by rw [cloned_only], (cloned_same s c).str⟩

theorem jNote_last (s : State) (r : JRec) : (jNote s r).journal.last = s.journal.last := by
  unfold jNote
  split <;> rfl

/-- The cursor records stand in the group of the last JSN. -/
theorem cloneCursors_last (s : State) (c : Clone) (hi : Nat) : (cloneCursors s c hi).journal.last = s.journal.last := by
  unfold cloneCursors
  generalize (List.range 9).filter _ = ks
  induction ks generalizing s with
  | nil => rfl
  | cons k ks ih => exact (ih _).trans (jNote_last ..)

theorem cloned_last (s : State) (c : Clone) : (cloned s c).journal.last = s.journal.last := by
  refine (cloneCursors_last ..).trans (congrArg Journal.last ?_)
  split
  · exact SameBut.journal (ps := [.tcam, .sram, .integ, .events, .mgmt, .free]) (by simp [cloneRows])
  · exact (cloneRows_same s c).journal

/-- An engine with a running clone is not as at reset. -/
theorem cloning_ne_reset (x : Engine) (c : Clone) : { x with clone := some c } ≠ Engine.reset := fun h => nomatch congrArg Engine.clone h

theorem getEng_cloning (s : State) (e : Nat) (x : Engine) (c : Clone) :
    getEng (setEng s e { x with clone := some c }) e = { x with clone := some c } := sget_sput_self (cloning_ne_reset x c) ..

theorem advanceClone_clone (h : (getEng s e).clone = some c) (hf : cloneFrozen s c = false) :
    (getEng (advanceClone s e) e).clone = some { c with row := cloneTo s c } := by
  rw [advanceClone_thawed h hf, getEng_cloning]

end

end Sys2Proof.Machine
end

section
open Sys2Proof Sys2Proof.Machine
namespace Sys2Proof.Machine

/-! ## Rows copied from site to site -/

section
variable {s : State} {a b lo hi r : Nat}

/-- Put the rows of es that stand at site a, from lo to hi - 1, at site b. -/
def putRows (a b lo hi : Nat) (es m : Sparse TRow) : Sparse TRow :=
  ((es.filter (fun e => decide (e.1 / 4096 = a))).map (fun e => (e.1 % 4096, e.2))).foldl
    (fun m x => if lo ≤ x.1 ∧ x.1 < hi then sput TRow.blank m (b * 4096 + x.1) x.2 else m) m

/-- Rows put at site b are read there, and where site a has none, what stood at site b is. -/
theorem sget_putRows {es : Sparse TRow} {l : Option Nat} (h : swf TRow.blank l es = true) (hr : r < 4096) (hl : lo ≤ r) (hh : r < hi) (m : Sparse TRow) :
    sget TRow.blank (putRows a b lo hi es m) (b * 4096 + r) =
      if sget TRow.blank es (a * 4096 + r) = TRow.blank then sget TRow.blank m (b * 4096 + r) else sget TRow.blank es (a * 4096 + r) := by
  induction es generalizing l m with
  | nil => exact (if_pos rfl).symm
  | cons e es ih =>
    obtain ⟨k, w⟩ := e
    obtain ⟨-, solid, rest⟩ := swf_cons.mp h
    rw [sget_cons]
    by_cases here : k / 4096 = a
    · have step : putRows a b lo hi ((k, w) :: es) m =
          putRows a b lo hi es (if lo ≤ k % 4096 ∧ k % 4096 < hi then sput TRow.blank m (b * 4096 + k % 4096) w else m) := by
        simp [putRows, here]
      rw [step, ih rest]
      by_cases row : a * 4096 + r = k
      · have same : k % 4096 = r := by omega
        have gone : sget TRow.blank es (a * 4096 + r) = TRow.blank := sget_below rest (by omega)
        rw [gone, if_pos rfl, if_pos row, if_neg solid, same, if_pos ⟨hl, hh⟩, sget_sput_self solid]
      · rw [if_neg row]
        have other : r ≠ k % 4096 := fun same => row (by rw [same, ← here, Nat.div_add_mod'])
        have apart : sget TRow.blank (if lo ≤ k % 4096 ∧ k % 4096 < hi then sput TRow.blank m (b * 4096 + k % 4096) w else m) (b * 4096 + r) =
            sget TRow.blank m (b * 4096 + r) := by
          split
          · exact sget_sput_other solid _ fun same => other (Nat.add_left_cancel same)
          · rfl
        rw [apart]
    · have step : putRows a b lo hi ((k, w) :: es) m = putRows a b lo hi es m := by simp [putRows, here]
      rw [step, ih rest, if_neg (show a * 4096 + r ≠ k by omega)]

/-- A copy drops the destination's rows and puts the source's in their place. -/
theorem copyRows_eq (s : State) (a b lo hi : Nat) : copyRows s a b lo hi = { s with tcam := { s.tcam with
    rows := putRows a b lo hi s.tcam.rows (sdrop s.tcam.rows (fun k => decide (b * 4096 + lo ≤ k ∧ k < b * 4096 + hi))) } } := rfl

/-- The rows copied are those of the source. -/
theorem getRow_copyRows (h : swf TRow.blank none s.tcam.rows = true) (hr : r < 4096) (hl : lo ≤ r) (hh : r < hi) :
    getRow (copyRows s a b lo hi) b r = getRow s a r := by
  have gone : sget TRow.blank (sdrop s.tcam.rows (fun k => decide (b * 4096 + lo ≤ k ∧ k < b * 4096 + hi))) (b * 4096 + r) = TRow.blank :=
    sget_sdrop_of (p := fun k => decide (b * 4096 + lo ≤ k ∧ k < b * 4096 + hi)) (decide_eq_true ⟨by omega, by omega⟩)
  rw [copyRows_eq]
  refine (sget_putRows h hr hl hh _).trans ?_
  rw [gone]
  split
  · next empty => exact empty.symm
  · rfl

end

/-! ## Bank states (R92) -/

section
variable {s : State} {b d : Nat} {st : BitVec 4}

/-- The stored form of a state other than FREE and SPARE is not the initial one, in neither run of the banks. -/
theorem stored_ne (h0 : st ≠ 0) (h2 : st ≠ 2) (b : Nat) : st ^^^ (if b ≥ 2048 then 2 else 0) ≠ 0 := by
  split
  · exact (by decide : ∀ st : BitVec 4, st ≠ 2 → st ^^^ 2 ≠ 0) st h2
  · exact (by decide : ∀ st : BitVec 4, st ≠ 0 → st ^^^ 0 ≠ 0) st h0

theorem unstore (st m : BitVec 4) : st ^^^ m ^^^ m = st := by rw [BitVec.xor_assoc, BitVec.xor_self, BitVec.xor_zero]

theorem bankState_set_self (h0 : st ≠ 0) (h2 : st ≠ 2) : bankState (setBankState s b st) b = st := by
  have read : sget 0 (setBankState s b st).tcam.state b = st ^^^ (if b ≥ 2048 then 2 else 0) := sget_sput_self (stored_ne h0 h2 b) ..
  rw [bankState, read, unstore]

theorem bankState_set_other (h0 : st ≠ 0) (h2 : st ≠ 2) (hd : d ≠ b) : bankState (setBankState s b st) d = bankState s d :=
  congrArg (· ^^^ (if d ≥ 2048 then 2 else 0)) (sget_sput_other (stored_ne h0 h2 b) _ hd)

/-- Of canonical states any may be set. -/
theorem bankState_set (h : swf 0 none s.tcam.state = true) (b d : Nat) (st : BitVec 4) :
    bankState (setBankState s b st) d = if d = b then st else bankState s d := by
  have read : sget 0 (setBankState s b st).tcam.state d = if d = b then st ^^^ (if b ≥ 2048 then 2 else 0) else sget 0 s.tcam.state d := sget_sput h ..
  rw [bankState, read]
  split
  · next same => rw [same, unstore]
  · rfl

/-- The copies of a bank's writes stand in the mirror lists alone. -/
theorem mirrorsOf_of_mirror {t : State} (h : t.tcam.mirror = s.tcam.mirror) (b : Nat) : mirrorsOf t b = mirrorsOf s b := by rw [mirrorsOf, mirrorsOf, h]

theorem setBankState_map (s : State) (b : Nat) (st : BitVec 4) : MapKept s (setBankState s b st) := ⟨rfl, rfl, rfl, rfl⟩

theorem bankState_congr {t : State} (h : t.tcam.state = s.tcam.state) (b : Nat) : bankState t b = bankState s b := by rw [bankState, bankState, h]

end

/-! ## The start of a clone (R177, R178) -/

section
variable {s : State} {e src dst : Nat} {cmd : Option TCmd} {copy : Bool}

/-- The clone that a start leaves in its engine. -/
def cloneOf (s : State) (cmd : Option TCmd) (src dst : Nat) (copy : Bool) : Clone :=
  ⟨src, dst, copy, cmd, bankState s dst, bankState s (dst + 1), s.journal.last + 1, 0, false⟩

/-- The journal's record of the start. -/
def cloneBegun (s : State) (src dst : Nat) : State := (jCommit s [.bank 1 src dst 0 3] true).2

theorem startClone_eq (s : State) (e : Nat) (cmd : Option TCmd) (src dst : Nat) (copy : Bool) :
    startClone s e cmd src dst copy =
      setEng (mirrorOn (cloneBegun s src dst) (cloneOf s cmd src dst copy)) e { getEng s e with clone := some (cloneOf s cmd src dst copy) } := rfl

/-- The destinations become CLONE_DEST, and the source's writes go to the first of them too. -/
theorem mirrorOn_banks (s : State) (c : Clone) :
    bankState (mirrorOn s c) c.dst = 3 ∧ (isPair s c.src = true → bankState (mirrorOn s c) (c.dst + 1) = 3) ∧
    (mirrorOn s c).tcam.mirror = smod [] s.tcam.mirror c.src (· ++ [(c.dst, c.copy)]) ∧ (mirrorOn s c).tcam.rows = s.tcam.rows ∧
    MapKept s (mirrorOn s c) := by
  unfold mirrorOn
  extract_lets tcam u
  have kept : MapKept s u := ⟨rfl, rfl, rfl, rfl⟩
  have pair : isPair u c.src = isPair s c.src := kept.isPair c.src
  rw [bankPair, pair]
  cases isPair s c.src with
  | false => exact ⟨bankState_set_self (by decide) (by decide), nofun, rfl, rfl, kept.trans (setBankState_map ..)⟩
  | true =>
    refine ⟨?_, fun _ => bankState_set_self (by decide) (by decide), rfl, rfl, kept.trans ((setBankState_map ..).trans (setBankState_map ..))⟩
    exact (bankState_set_other (by decide) (by decide) (Nat.succ_ne_self c.dst).symm).trans (bankState_set_self (by decide) (by decide))

/-- What the start leaves, before any row is copied. -/
structure Started (s u : State) (e : Nat) (c : Clone) : Prop where
  frame : SameBut [.tcam, .update, .journal, .mgmt] s u
  map : MapKept s u
  rows : u.tcam.rows = s.tcam.rows
  running : (getEng u e).clone = some c
  dest : bankState u c.dst = 3
  twin : isPair s c.src = true → bankState u (c.dst + 1) = 3
  mirrored : (c.dst, c.copy) ∈ mirrorsOf u c.src
  last : u.journal.last = s.journal.last + 1

theorem startClone_started (s : State) (e : Nat) (cmd : Option TCmd) (src dst : Nat) (copy : Bool) :
    Started s (startClone s e cmd src dst copy) e (cloneOf s cmd src dst copy) := by
  have frame : SameBut [.tcam, .update, .journal, .mgmt] s (startClone s e cmd src dst copy) := by simp
  obtain ⟨dest, twin, mirror, rows, map⟩ := mirrorOn_banks (cloneBegun s src dst) (cloneOf s cmd src dst copy)
  rw [startClone_eq] at frame ⊢
  refine ⟨frame, ⟨map.site, map.table, map.sels, map.str⟩, rows, ?_, dest, twin, ?_, ?_⟩
  · rw [getEng_cloning]
  · have all : sget [] (mirrorOn (cloneBegun s src dst) (cloneOf s cmd src dst copy)).tcam.mirror src =
        sget [] s.tcam.mirror src ++ [(dst, copy)] := by
      rw [mirror, smod]
      exact sget_sput_self (by simp) ..
    exact List.mem_append_left _ (all ▸ List.mem_append_right _ (.head _))
  · have mirrored : SameBut [.tcam] (cloneBegun s src dst) (mirrorOn (cloneBegun s src dst) (cloneOf s cmd src dst copy)) := by simp
    exact congrArg Journal.last mirrored.journal

/-- What the clone leaves at its start: the started clone, its rows copied as far as they are sound. -/
structure CloneBegins (s t : State) (e : Nat) (c x : Clone) : Prop where
  running : (getEng t e).clone = some x
  same : x = { c with row := x.row }
  dest : bankState t c.dst = 3
  twin : isPair s c.src = true → bankState t (c.dst + 1) = 3
  mirrored : (c.dst, c.copy) ∈ mirrorsOf t c.src
  last : t.journal.last = s.journal.last + 1
  row : x.row = if cloneFrozen s c = true then 0 else (badFrom s ((bankTable s c.src).getD 0) c.src 0).getD 4096
  copied : isPair s c.src = false → swf TRow.blank none s.tcam.rows = true →
    ∀ r < x.row, r < 4096 → getRow t (siteOf s c.dst) r = getRow s (siteOf s c.src) r

theorem Started.advances {u : State} {c : Clone} (h : Started s u e c) (h0 : c.row = 0) : ∃ x, CloneBegins s (advanceClone u e) e c x := by
  have frozen : cloneFrozen u c = cloneFrozen s c := h.map.cloneFrozen h.frame.arbs c
  by_cases hf : cloneFrozen s c = true
  · rw [advanceClone_frozen h.running (frozen.trans hf)]
    exact ⟨c, h.running, rfl, h.dest, h.twin, h.mirrored, h.last, by rw [if_pos hf, h0], fun _ _ r hr => absurd hr (by omega)⟩
  · have thawed : cloneFrozen u c = false := by rw [frozen]; simpa using hf
    have reach : cloneTo u c = (badFrom s ((bankTable s c.src).getD 0) c.src 0).getD 4096 := by
      rw [cloneTo, h.map.cloneTable, badFrom_congr h.map h.rows, h0]
    have run := advanceClone_clone h.running thawed
    rw [advanceClone_thawed h.running thawed] at run ⊢
    refine ⟨_, run, rfl, ?_, ?_, ?_, ?_, ?_, ?_⟩
    · exact (bankState_congr (cloned_state u c) _).trans h.dest
    · exact fun pair => (bankState_congr (cloned_state u c) _).trans (h.twin pair)
    · have same : mirrorsOf (cloned u c) c.src = mirrorsOf u c.src := mirrorsOf_of_mirror (cloned_mirror u c) _
      exact (same ▸ h.mirrored : (c.dst, c.copy) ∈ mirrorsOf (cloned u c) c.src)
    · exact (cloned_last u c).trans h.last
    · rw [if_neg hf]
      exact reach
    · intro single rows r hr hb
      have pairs : clonePairs u c = [(c.src, c.dst)] := by
        rw [h.map.clonePairs, clonePairs, bankPair, single]
        rfl
      have one : cloneRows u c = copyRows u (siteOf s c.src) (siteOf s c.dst) 0 (cloneTo u c) := by
        rw [cloneRows, pairs, h0, ← h.map.siteOf, ← h.map.siteOf]
        rfl
      calc getRow (cloned u c) (siteOf s c.dst) r
        _ = getRow (cloneRows u c) (siteOf s c.dst) r := getRow_congr (cloned_tcam u c) ..
        _ = getRow u (siteOf s c.src) r := by rw [one, getRow_copyRows (by rwa [h.rows]) hb (Nat.zero_le r) hr]
        _ = getRow s (siteOf s c.src) r := by rw [getRow, getRow, h.rows]

end

/-! ## BANK_CLONE -/

section
variable {s : State} {c : TCmd} {e : Nat}

theorem runClone_starts (hc : cCont c = 0) (hi : c.issuer = qFW) (h1 : cBank c < 2112) (h2 : cBank2 c < 2112)
    (ok : cloneDestOk s (cBank c) (cBank2 c) (decide (cMode c % 2 = 1)) = true) (idle : (getEng s e).clone = none) (ready : saving s = false)
    (room : (jAdmit s [[.bank 1 (cBank c) (cBank2 c) 0 3]]).1 = true) :
    runClone e s c = .ends (advanceClone (startClone s e (some c) (cBank c) (cBank2 c) (decide (cMode c % 2 = 1))) e) none := by
  have rules : firstStatus [(decide (cCont c ≠ 0 ∨ 2112 ≤ cBank c ∨ 2112 ≤ cBank2 c), .malformed), (decide (c.issuer ≠ qFW), .notOwner),
      (!cloneDestOk s (cBank c) (cBank2 c) (decide (cMode c % 2 = 1)), .malformed)] = none := by
    have known : ¬ (cCont c ≠ 0 ∨ 2112 ≤ cBank c ∨ 2112 ≤ cBank2 c) := by omega
    simp [firstStatus, known, hi, ok]
  unfold runClone
  dsimp only
  rw [rules]
  dsimp only
  rw [idle, ready, if_neg (by decide), jAdmit_admits room]
  rfl

end

end Sys2Proof.Machine
end

section
open Sys2Proof Sys2Proof.Machine
namespace Sys2Proof.Machine

/-! ## The moves of a finished clone (R98, R178) -/

/-- The ends of the clones of a list of banks, one after another. -/
def endClones (s : State) (t : Nat) (copy : Bool) (ps : List (Nat × Nat)) : State := ps.foldl (fun u p => endClone u t p.1 p.2 copy) s

section
variable {s : State} {t a b d : Nat} {ps : List (Nat × Nat)}

theorem endClones_same (s : State) (t : Nat) (copy : Bool) (ps : List (Nat × Nat)) : SameBut [.tcam, .journal, .mgmt] s (endClones s t copy ps) := by
  simp [endClones]

/-- Each bank's end is a group of its own. -/
theorem endClone_last (s : State) (t a b : Nat) (copy : Bool) : (endClone s t a b copy).journal.last = s.journal.last + 1 := by
  unfold endClone
  extract_lets u
  split <;> rfl

theorem endClones_last (s : State) (t : Nat) (copy : Bool) (ps : List (Nat × Nat)) :
    (endClones s t copy ps).journal.last = s.journal.last + BitVec.ofNat 64 ps.length := by
  induction ps generalizing s with
  | nil => exact (BitVec.add_zero _).symm
  | cons p ps ih =>
    refine (ih _).trans ?_
    rw [endClone_last, List.length_cons, Nat.add_comm ps.length, BitVec.ofNat_add, ← BitVec.add_assoc]
    rfl

/-- In MOVE mode only the bank map changes. -/
theorem endClones_move (s : State) (t : Nat) (ps : List (Nat × Nat)) :
    (endClones s t false ps).tcam.state = s.tcam.state ∧ (endClones s t false ps).tcam.table = s.tcam.table ∧
    (endClones s t false ps).tcam.mirror = s.tcam.mirror := by
  induction ps generalizing s with
  | nil => exact ⟨rfl, rfl, rfl⟩
  | cons p ps ih => exact ih _

theorem siteOf_swap (h : swf 0 none s.tcam.site = true) (a b d : Nat) :
    siteOf (swapSites s a b) d = if d = b then siteOf s a else if d = a then siteOf s b else siteOf s d := by
  have inner : swf 0 none (sput 0 s.tcam.site a (siteOf s b ^^^ a)) = true := swf_sput h _ _ nofun
  have read : sget 0 (swapSites s a b).tcam.site d =
      if d = b then siteOf s a ^^^ b else if d = a then siteOf s b ^^^ a else sget 0 s.tcam.site d :=
    (sget_sput inner ..).trans (by rw [sget_sput h])
  rw [siteOf, read]
  split
  · next same => rw [same, Nat.xor_assoc, Nat.xor_self, Nat.xor_zero]
  · split
    · next same => rw [same, Nat.xor_assoc, Nat.xor_self, Nat.xor_zero]
    · rfl

/-- A bank of none of the pairs stays where it is. -/
theorem siteOf_endClones_other (h : swf 0 none s.tcam.site = true) (hn : ∀ p ∈ ps, d ≠ p.1 ∧ d ≠ p.2) :
    siteOf (endClones s t false ps) d = siteOf s d := by
  induction ps generalizing s with
  | nil => rfl
  | cons p ps ih =>
    obtain ⟨first, second⟩ := hn p (.head _)
    have inner : swf 0 none (endClone s t p.1 p.2 false).tcam.site = true := swf_sput (swf_sput h _ _ nofun) _ _ nofun
    refine (ih inner fun q hq => hn q (.tail _ hq)).trans ?_
    have swapped := siteOf_swap (s := (jCommit s (cloneRec s t p.1 p.2 false) true).2) h p.1 p.2 d
    rw [if_neg second, if_neg first] at swapped
    exact swapped

/-- The two banks of each pair exchange their sites. -/
theorem siteOf_endClones (h : swf 0 none s.tcam.site = true) (hn : (ps.flatMap (fun p => [p.1, p.2])).Nodup) :
    ∀ p ∈ ps, siteOf (endClones s t false ps) p.1 = siteOf s p.2 ∧ siteOf (endClones s t false ps) p.2 = siteOf s p.1 := by
  induction ps generalizing s with
  | nil => exact fun _ hp => nomatch hp
  | cons p ps ih =>
    have inner : swf 0 none (endClone s t p.1 p.2 false).tcam.site = true := swf_sput (swf_sput h _ _ nofun) _ _ nofun
    rw [List.flatMap_cons, List.nodup_append] at hn
    obtain ⟨own, rest, apart⟩ := hn
    have differ : p.1 ≠ p.2 := by simpa using own
    have swapped := siteOf_swap (s := (jCommit s (cloneRec s t p.1 p.2 false) true).2) h p.1 p.2
    have away : ∀ x ∈ [p.1, p.2], ∀ q ∈ ps, x ≠ q.1 ∧ x ≠ q.2 := fun x hx q hq =>
      ⟨apart x hx q.1 (List.mem_flatMap.2 ⟨q, hq, .head _⟩), apart x hx q.2 (List.mem_flatMap.2 ⟨q, hq, .tail _ (.head _)⟩)⟩
    intro q hq
    rcases List.mem_cons.1 hq with rfl | later
    · constructor
      · refine (siteOf_endClones_other inner (away q.1 (.head _))).trans ((swapped q.1).trans ?_)
        rw [if_neg differ, if_pos rfl]
        rfl
      · exact (siteOf_endClones_other inner (away q.2 (.tail _ (.head _)))).trans ((swapped q.2).trans (if_pos rfl))
    · obtain ⟨first, second⟩ := ih inner rest q later
      have kept : ∀ x ∈ [q.1, q.2], siteOf (endClone s t p.1 p.2 false) x = siteOf s x := by
        intro x hx
        have here : x ∈ ps.flatMap (fun p => [p.1, p.2]) := List.mem_flatMap.2 ⟨q, later, hx⟩
        refine (swapped x).trans ?_
        rw [if_neg (apart p.2 (.tail _ (.head _)) x here).symm, if_neg (apart p.1 (.head _) x here).symm]
        rfl
      exact ⟨first.trans (kept q.2 (.tail _ (.head _))), second.trans (kept q.1 (.head _))⟩

theorem bankTable_set (s : State) (b t d : Nat) : bankTable (setBankTable s b (some t)) d = if d = b then some t else bankTable s d := by
  have solid : t + 1 ≠ 0 := Nat.succ_ne_zero t
  split
  · next here =>
    have read : sget 0 (setBankTable s b (some t)).tcam.table d = t + 1 := by
      rw [here]
      exact sget_sput_self solid ..
    rw [bankTable, read]
  · next away =>
    have read : sget 0 (setBankTable s b (some t)).tcam.table d = sget 0 s.tcam.table d := sget_sput_other solid _ away
    rw [bankTable, bankTable, read]

theorem endClone_copy (s : State) (t a b d : Nat) :
    bankState (endClone s t a b true) d = (if d = b then 1 else bankState s d) ∧
    bankTable (endClone s t a b true) d = if d = b then some t else bankTable s d := by
  have table := bankTable_set (jCommit s (cloneRec s t a b true) true).2 b t d
  refine ⟨?_, table⟩
  split
  · next here =>
    rw [here]
    exact bankState_set_self (by decide) (by decide)
  · next away => exact bankState_set_other (by decide) (by decide) away

/-- In COPY mode the destinations belong to the table and are IN_USE, and neither the bank map nor the mirrors change. -/
theorem endClones_copy (s : State) (t : Nat) (ps : List (Nat × Nat)) :
    (endClones s t true ps).tcam.site = s.tcam.site ∧ (endClones s t true ps).tcam.mirror = s.tcam.mirror ∧
    ∀ d, (d ∈ ps.map (·.2) → bankState (endClones s t true ps) d = 1 ∧ bankTable (endClones s t true ps) d = some t) ∧
      (d ∉ ps.map (·.2) → bankState (endClones s t true ps) d = bankState s d ∧ bankTable (endClones s t true ps) d = bankTable s d) := by
  induction ps generalizing s with
  | nil => exact ⟨rfl, rfl, fun d => ⟨nofun, fun _ => ⟨rfl, rfl⟩⟩⟩
  | cons p ps ih =>
    obtain ⟨site, mirror, banks⟩ := ih (endClone s t p.1 p.2 true)
    refine ⟨site, mirror, fun d => ?_⟩
    obtain ⟨named, other⟩ := banks d
    obtain ⟨state, table⟩ := endClone_copy s t p.1 p.2 d
    refine ⟨fun mem => ?_, fun absent => ?_⟩
    · by_cases later : d ∈ ps.map (·.2)
      · exact named later
      · have here : d = p.2 := (List.mem_cons.1 mem).resolve_right later
        obtain ⟨s1, t1⟩ := other later
        rw [if_pos here] at state table
        exact ⟨s1.trans state, t1.trans table⟩
    · obtain ⟨here, later⟩ := not_or.1 (mt List.mem_cons.2 absent)
      obtain ⟨s1, t1⟩ := other later
      rw [if_neg here] at state table
      exact ⟨s1.trans state, t1.trans table⟩

end

end Sys2Proof.Machine
end

section
open Sys2Proof Sys2Proof.Machine
namespace Sys2Proof.Machine

/-! ## The old sites are left (R98, R407) -/

section
variable {s : State} {e : Nat} {c : Clone}

theorem sget_mem_or {α : Type} (d : α) (m : Sparse α) (i : Nat) : sget d m i = d ∨ (i, sget d m i) ∈ m := by
  induction m with
  | nil => exact .inl rfl
  | cons e m ih =>
    rw [sget_cons]
    split
    · next here => exact .inr (here ▸ .head _)
    · exact ih.imp_right (.tail _)

/-- The mirror's end leaves no bank's writes going to the destination. -/
theorem dropMirror_lists (s : State) (dst b : Nat) : ∀ m ∈ sget [] (dropMirror s dst).tcam.mirror b, m.1 ≠ dst := by
  rcases sget_mem_or [] (dropMirror s dst).tcam.mirror b with empty | listed
  · rw [empty]
    exact fun _ h => nomatch h
  · obtain ⟨x, -, hx⟩ := List.mem_filterMap.1 listed
    dsimp only at hx
    split at hx
    · cases hx
    · rw [← (Prod.mk.inj (Option.some.inj hx)).2]
      exact fun m hm => of_decide_eq_true (List.mem_filter.1 hm).2

theorem mirrorsOf_dropMirror (s : State) (dst b : Nat) : ∀ m ∈ mirrorsOf (dropMirror s dst) b, m.1 ≠ dst := by
  intro m hm
  rcases List.mem_append.1 hm with own | through
  · exact dropMirror_lists s dst b m own
  · obtain ⟨d, -, hd⟩ := List.mem_flatMap.1 through
    split at hd
    · exact dropMirror_lists s dst d.1 m hd
    · cases hd

/-- The row writes of the carry of H bits change rows alone. -/
theorem carrySiteH_only (s : State) (a b : Nat) : (carrySiteH s a b).tcam = { s.tcam with rows := (carrySiteH s a b).tcam.rows } := by
  unfold carrySiteH
  generalize siteRows s a = xs
  induction xs generalizing s with
  | nil => rfl
  | cons x xs ih => exact ih _

/-- The sites of a moved clone are left, each bank's in turn. -/
def leaveSites (s : State) (c : Clone) : State := if c.copy then s else (clonePairs s c).foldl (fun u x => leaveSite u x.1 x.2) s

theorem leaveSite_kept (s : State) (a b : Nat) : (leaveSite s a b).tcam.site = s.tcam.site ∧ (leaveSite s a b).tcam.mirror = s.tcam.mirror := by
  have carried := carrySiteH_only s (siteOf s b) (siteOf s a)
  have site : (leaveSite s a b).tcam.site = (carrySiteH s (siteOf s b) (siteOf s a)).tcam.site := rfl
  have mirror : (leaveSite s a b).tcam.mirror = (carrySiteH s (siteOf s b) (siteOf s a)).tcam.mirror := rfl
  rw [site, mirror, carried]
  exact ⟨rfl, rfl⟩

theorem leaveSite_state (s : State) (a b d : Nat) : bankState (leaveSite s a b) d = if d = b then 4 else bankState s d := by
  split
  · next here => exact here ▸ bankState_set_self (by decide) (by decide)
  · next away =>
    refine (bankState_set_other (by decide) (by decide) away).trans (bankState_congr ?_ d)
    rw [carrySiteH_only]

theorem leaveSites_same (s : State) (c : Clone) : SameBut [.tcam] s (leaveSites s c) := by
  unfold leaveSites
  split
  · exact .refl ..
  · simp

/-- Leaving old sites changes neither the bank map nor the mirrors, and a destination that is named, or was TESTING, is TESTING. -/
theorem foldl_leaveSite (s : State) (ps : List (Nat × Nat)) :
    (ps.foldl (fun u x => leaveSite u x.1 x.2) s).tcam.site = s.tcam.site ∧
    (ps.foldl (fun u x => leaveSite u x.1 x.2) s).tcam.mirror = s.tcam.mirror ∧
    ∀ d, (d ∈ ps.map (·.2) ∨ bankState s d = 4) → bankState (ps.foldl (fun u x => leaveSite u x.1 x.2) s) d = 4 := by
  induction ps generalizing s with
  | nil => exact ⟨rfl, rfl, fun d h => h.resolve_left (fun h => nomatch h)⟩
  | cons p ps ih =>
    obtain ⟨site, mirror, testing⟩ := ih (leaveSite s p.1 p.2)
    obtain ⟨site1, mirror1⟩ := leaveSite_kept s p.1 p.2
    refine ⟨site.trans site1, mirror.trans mirror1, fun d h => testing d ?_⟩
    rw [leaveSite_state]
    split
    · exact .inr rfl
    · next away => exact h.imp_left fun mem => (List.mem_cons.1 mem).resolve_left away

theorem leaveSites_banks (s : State) (c : Clone) (hc : c.copy = false) :
    (leaveSites s c).tcam.site = s.tcam.site ∧ (leaveSites s c).tcam.mirror = s.tcam.mirror ∧
    ∀ p ∈ clonePairs s c, bankState (leaveSites s c) p.2 = 4 := by
  unfold leaveSites
  rw [hc, if_neg nofun]
  obtain ⟨site, mirror, testing⟩ := foldl_leaveSite s (clonePairs s c)
  exact ⟨site, mirror, fun p hp => testing p.2 (.inl (List.mem_map_of_mem hp))⟩

/-- While a search probes an old site, a moved clone waits. -/
theorem cloneLeft_held (hc : c.copy = false) (hp : (clonePairs s c).any (fun x => siteProbed s (isPair s c.src) (siteOf s x.2)) = true) :
    cloneLeft s e c = s := by
  unfold cloneLeft
  dsimp only
  rw [hc, hp]
  exact if_pos rfl

/-- Else the clone is over. -/
theorem cloneLeft_over (hp : c.copy = true ∨ (clonePairs s c).any (fun x => siteProbed s (isPair s c.src) (siteOf s x.2)) = false)
    (he : swf Engine.reset none s.update.eng = true) :
    (getEng (cloneLeft s e c) e).clone = none ∧ (cloneLeft s e c).tcam = (leaveSites s c).tcam ∧ (cloneLeft s e c).journal = s.journal := by
  have free : ¬ (!c.copy && (clonePairs s c).any (fun x => siteProbed s (isPair s c.src) (siteOf s x.2))) = true := by
    rcases hp with copy | idle
    · simp [copy]
    · simp [idle]
  have left := leaveSites_same s c
  have gone : (getEng (setEng (leaveSites s c) e { getEng (leaveSites s c) e with clone := none }) e).clone = none := by
    have read : getEng (setEng (leaveSites s c) e { getEng (leaveSites s c) e with clone := none }) e = { getEng (leaveSites s c) e with clone := none } :=
      (sget_sput (by rw [left.update]; exact he) ..).trans (if_pos rfl)
    rw [read]
  unfold cloneLeft
  dsimp only
  rw [if_neg free]
  split
  · next m _ =>
    have answered := answer_same (setEng (leaveSites s c) e { getEng (leaveSites s c) e with clone := none }) m.via (fill m { TRsp.of .ok with jsn := c.jsn })
    have kept := answer_eng (setEng (leaveSites s c) e { getEng (leaveSites s c) e with clone := none }) m.via (fill m { TRsp.of .ok with jsn := c.jsn })
    exact ⟨(congrArg Engine.clone (kept.getEng e)).trans gone, answered.tcam, answered.journal.trans left.journal⟩
  · exact ⟨gone, rfl, left.journal⟩

end

end Sys2Proof.Machine
end

section
open Sys2Proof Sys2Proof.Machine
namespace Sys2Proof.Machine

/-! ## CLONE_COMPLETE (R98, R178, R407) -/

section
variable {s : State} {e : Nat} {x : Clone}

/-- The state once every bank's clone has ended, and the mirror of a move. -/
def cloneMoved (s : State) (e : Nat) (x : Clone) : State :=
  let u := endClones (advanceClone s e) ((bankTable s x.src).getD 0) x.copy (clonePairs s x)
  if x.copy then u else dropMirror u x.dst

/-- The clone record then: every row is copied, and it waits for the searches at the old sites. -/
def movedClone (s : State) (e : Nat) (x : Clone) : Clone := { x with row := 4096, moved := true, jsn := (cloneMoved s e x).journal.last }

/-- A clone that is soundly copied to its end, on banks that no gated change and no freeze holds, ends. -/
structure CloneEnds (s : State) (e : Nat) (x : Clone) : Prop where
  running : (getEng s e).clone = some x
  awake : saving s = false
  unmoved : x.moved = false
  thawed : cloneFrozen s x = false
  free : ∀ p ∈ clonePairs s x, ungoverned s p.1 = true
  sound : badFrom s ((bankTable s x.src).getD 0) x.src x.row = none
  room : (jAdmit (advanceClone s e) ((clonePairs s x).map (fun p => cloneRec (advanceClone s e) ((bankTable s x.src).getD 0) p.1 p.2 x.copy))).1 = true

theorem advanceClone_map (h : (getEng s e).clone = some x) (hf : cloneFrozen s x = false) : MapKept s (advanceClone s e) := by
  rw [advanceClone_thawed h hf]
  exact (cloned_map s x).trans ⟨rfl, rfl, rfl, rfl⟩

theorem CloneEnds.copied (h : CloneEnds s e x) : (getEng (advanceClone s e) e).clone = some { x with row := 4096 } := by
  have whole : cloneTo s x = 4096 := by rw [cloneTo, h.sound]; rfl
  rw [advanceClone_clone h.running h.thawed, whole]

theorem cloneComplete_ends (h : CloneEnds s e x) :
    cloneComplete s e = cloneLeft (setEng (cloneMoved s e x) e { getEng (cloneMoved s e x) e with clone := some (movedClone s e x) }) e (movedClone s e x) := by
  have map := advanceClone_map h.running h.thawed
  have frame : SameBut [.tcam, .sram, .update, .journal, .integ, .events, .mgmt, .free] s (advanceClone s e) := by simp
  have frozen : cloneFrozen (advanceClone s e) { x with row := 4096 } = false := (map.cloneFrozen frame.arbs _).trans h.thawed
  have pairs : clonePairs (advanceClone s e) { x with row := 4096 } = clonePairs s x := map.clonePairs _
  have table : (bankTable (advanceClone s e) x.src).getD 0 = (bankTable s x.src).getD 0 := map.cloneTable _
  have governed : (clonePairs s x).any (fun p => !ungoverned (advanceClone s e) p.1) = false := by
    rw [List.any_eq_false]
    intro p hp
    simp [map.ungoverned, h.free p hp]
  unfold cloneComplete
  rw [h.awake, if_neg nofun]
  extract_lets u
  have here : u = advanceClone s e := rfl
  rw [here, h.copied]
  dsimp only
  rw [pairs, table, jAdmit_admits h.room]
  dsimp only
  rw [if_neg (show ¬ x.moved = true by simp [h.unmoved]), frozen, governed, if_neg (by simp)]
  rfl

/-- What the end of a move leaves: the numbers on each other's sites, and nothing mirrored to the destination. -/
theorem cloneMoved_move (hr : (getEng s e).clone = some x) (hf : cloneFrozen s x = false) (hc : x.copy = false)
    (hn : ((clonePairs s x).flatMap (fun p => [p.1, p.2])).Nodup) (hs : swf 0 none s.tcam.site = true) :
    (∀ p ∈ clonePairs s x, siteOf (cloneMoved s e x) p.1 = siteOf s p.2 ∧ siteOf (cloneMoved s e x) p.2 = siteOf s p.1) ∧
    (cloneMoved s e x).tcam.state = s.tcam.state ∧ (cloneMoved s e x).tcam.table = s.tcam.table ∧
    ∀ b, ∀ m ∈ mirrorsOf (cloneMoved s e x) b, m.1 ≠ x.dst := by
  have map := advanceClone_map hr hf
  have dropped : cloneMoved s e x = dropMirror (endClones (advanceClone s e) ((bankTable s x.src).getD 0) false (clonePairs s x)) x.dst := by
    rw [cloneMoved, hc]
    rfl
  have state : (advanceClone s e).tcam.state = s.tcam.state := by
    rw [advanceClone_thawed hr hf]
    exact cloned_state s x
  obtain ⟨state2, table2, -⟩ := endClones_move (advanceClone s e) ((bankTable s x.src).getD 0) (clonePairs s x)
  rw [dropped]
  refine ⟨fun p hp => ?_, state2.trans state, table2.trans map.table, mirrorsOf_dropMirror _ x.dst⟩
  have swapped := siteOf_endClones (s := advanceClone s e) (t := (bankTable s x.src).getD 0) (by rwa [map.site]) hn p hp
  rw [map.siteOf, map.siteOf] at swapped
  exact swapped

/-- What the end of a copy leaves: destinations of the source's table, in use, still mirrored. -/
theorem cloneMoved_copy (hr : (getEng s e).clone = some x) (hf : cloneFrozen s x = false) (hc : x.copy = true) :
    (cloneMoved s e x).tcam.mirror = s.tcam.mirror ∧ (cloneMoved s e x).tcam.site = s.tcam.site ∧
    ∀ p ∈ clonePairs s x, bankState (cloneMoved s e x) p.2 = 1 ∧ bankTable (cloneMoved s e x) p.2 = some ((bankTable s x.src).getD 0) := by
  have map := advanceClone_map hr hf
  have kept : cloneMoved s e x = endClones (advanceClone s e) ((bankTable s x.src).getD 0) true (clonePairs s x) := by
    rw [cloneMoved, hc]
    rfl
  have mirror : (advanceClone s e).tcam.mirror = s.tcam.mirror := by
    rw [advanceClone_thawed hr hf]
    exact cloned_mirror s x
  obtain ⟨site, mirrors, banks⟩ := endClones_copy (advanceClone s e) ((bankTable s x.src).getD 0) (clonePairs s x)
  rw [kept]
  exact ⟨mirrors.trans mirror, site.trans map.site, fun p hp => (banks p.2).1 (List.mem_map_of_mem hp)⟩

theorem cloneMoved_last (hr : (getEng s e).clone = some x) (hf : cloneFrozen s x = false) :
    (cloneMoved s e x).journal.last = s.journal.last + BitVec.ofNat 64 (clonePairs s x).length := by
  have last : (advanceClone s e).journal.last = s.journal.last := by
    rw [advanceClone_thawed hr hf]
    exact cloned_last s x
  rw [← last, ← endClones_last (advanceClone s e) ((bankTable s x.src).getD 0) x.copy (clonePairs s x)]
  unfold cloneMoved
  split <;> rfl

theorem cloneMoved_same (s : State) (e : Nat) (x : Clone) :
    SameBut [.tcam, .journal, .mgmt] (advanceClone s e) (cloneMoved s e x) := by
  unfold cloneMoved
  extract_lets u
  have ended : SameBut [.tcam, .journal, .mgmt] (advanceClone s e) u := endClones_same ..
  split
  · exact ended
  · simpa using ended

end

end Sys2Proof.Machine
end

section
open Sys2Proof Sys2Proof.Machine
namespace Sys2Proof.Machine

section
variable {s : State} {e : Nat} {x : Clone}

/-- The state in which the moved clone waits or ends. -/
def cloneWaits (s : State) (e : Nat) (x : Clone) : State :=
  setEng (cloneMoved s e x) e { getEng (cloneMoved s e x) e with clone := some (movedClone s e x) }

/-- A search probes an old site after the move where it did before. -/
theorem cloneWaits_probed (hr : (getEng s e).clone = some x) (hf : cloneFrozen s x = false) (hc : x.copy = false)
    (hn : ((clonePairs s x).flatMap (fun p => [p.1, p.2])).Nodup) (hs : swf 0 none s.tcam.site = true) :
    clonePairs (cloneWaits s e x) (movedClone s e x) = clonePairs s x ∧
    (clonePairs (cloneWaits s e x) (movedClone s e x)).any (fun p => siteProbed (cloneWaits s e x) (isPair (cloneWaits s e x) (movedClone s e x).src)
      (siteOf (cloneWaits s e x) p.2)) = (clonePairs s x).any (fun p => siteProbed s (isPair s x.src) (siteOf s p.1)) := by
  obtain ⟨sites, -, table, -⟩ := cloneMoved_move hr hf hc hn hs
  have frame : SameBut [.tcam, .sram, .update, .journal, .integ, .events, .mgmt, .free] s (cloneWaits s e x) := by
    have advanced : SameBut [.tcam, .sram, .update, .journal, .integ, .events, .mgmt, .free] s (advanceClone s e) := by simp
    exact (advanced.trans ((cloneMoved_same s e x).mono (by decide))).trans (by simp [cloneWaits])
  have pair : ∀ b, isPair (cloneWaits s e x) b = isPair s b := isPair_congr table frame.str
  have pairs : clonePairs (cloneWaits s e x) (movedClone s e x) = clonePairs s x := by
    rw [clonePairs, bankPair, pair]
    rfl
  have probed : ∀ p ∈ clonePairs s x, siteProbed (cloneWaits s e x) (isPair s x.src) (siteOf (cloneWaits s e x) p.2) =
      siteProbed s (isPair s x.src) (siteOf s p.1) := by
    intro p hp
    have moved : siteOf (cloneWaits s e x) p.2 = siteOf s p.1 := (sites p hp).2
    rw [moved, siteProbed_congr frame.search]
  refine ⟨pairs, ?_⟩
  rw [pairs, pair, Bool.eq_iff_iff, List.any_eq_true, List.any_eq_true]
  constructor
  · rintro ⟨p, hp, h⟩
    exact ⟨p, hp, (probed p hp).symm.trans h⟩
  · rintro ⟨p, hp, h⟩
    exact ⟨p, hp, (probed p hp).trans h⟩

theorem cloneWaits_eng (hr : (getEng s e).clone = some x) (hf : cloneFrozen s x = false) (he : swf Engine.reset none s.update.eng = true) :
    swf Engine.reset none (cloneWaits s e x).update.eng = true := by
  have begun : swf Engine.reset none (advanceClone s e).update.eng = true := by
    rw [advanceClone_thawed hr hf]
    exact swf_sput (by rw [(cloned_same s x).update]; exact he) _ _ nofun
  exact swf_sput (by rw [(cloneMoved_same s e x).update]; exact begun) _ _ nofun

/-! ## A clone that has moved waits for the searches (R98, R407) -/

theorem liveEntries_row {t b : Nat} {y : Nat × Nat × Entry} (h : y ∈ liveEntries s t b) : y.1 < 4096 := by
  obtain ⟨row, hrow, hy⟩ := List.mem_flatMap.1 (List.mem_filter.1 h).1
  obtain ⟨en, -, rfl⟩ := List.mem_map.1 hrow
  dsimp only at hy
  have low : en.1 % 4096 < 4096 := Nat.mod_lt _ (by decide)
  split at hy
  · simp only [List.mem_cons, List.not_mem_nil, or_false] at hy
    rcases hy with rfl | rfl <;> exact low
  · rw [List.mem_singleton.1 hy]
    exact low

/-- No row follows the last. -/
theorem badFrom_end (s : State) (t b : Nat) : badFrom s t b 4096 = none := by
  rw [badFrom, Option.map_eq_none_iff, List.find?_eq_none]
  intro y hy
  have low := liveEntries_row hy
  simp [show ¬ 4096 ≤ y.1 by omega]

/-- A copy of no rows changes nothing. -/
theorem copyRows_none (s : State) (a b n : Nat) : copyRows s a b n n = s := by
  have kept : sdrop s.tcam.rows (fun k => decide (b * 4096 + n ≤ k ∧ k < b * 4096 + n)) = s.tcam.rows := by
    rw [sdrop, List.filter_eq_self]
    intro k _
    simp [Nat.lt_or_ge]
  have put : putRows a b n n s.tcam.rows s.tcam.rows = s.tcam.rows := by
    unfold putRows
    generalize (s.tcam.rows.filter _).map _ = xs
    induction xs with
    | nil => rfl
    | cons y xs ih =>
      rw [List.foldl_cons, if_neg (by omega)]
      exact ih
  rw [copyRows_eq, kept, put]

theorem cloned_end (hrow : x.row = 4096) (hc : x.copy = false) : cloned s x = s := by
  have whole : cloneTo s x = 4096 := by rw [cloneTo, hrow, badFrom_end]; rfl
  have rows : cloneRows s x = s := by
    rw [cloneRows, whole, hrow]
    generalize clonePairs s x = ps
    induction ps with
    | nil => rfl
    | cons p ps ih => rw [List.foldl_cons, copyRows_none, ih]
  have cursors : (List.range 9).filter (fun k => decide (x.row < 512 * k ∧ 512 * k ≤ 4096)) = [] := by
    rw [List.filter_eq_nil_iff]
    intro k _
    simp only [decide_eq_true_eq]
    omega
  rw [cloned, whole, hc, if_neg nofun, rows, cloneCursors, cursors]
  rfl

/-- What the copying of a wholly copied clone leaves: all as it was. -/
structure CloneStays (s u : State) (e : Nat) (x : Clone) : Prop where
  running : (getEng u e).clone = some x
  frame : SameBut [.update] s u
  eng : swf Engine.reset none u.update.eng = true

theorem advanceClone_end (hr : (getEng s e).clone = some x) (hrow : x.row = 4096) (hc : x.copy = false) (he : swf Engine.reset none s.update.eng = true) :
    CloneStays s (advanceClone s e) e x := by
  by_cases hf : cloneFrozen s x = true
  · rw [advanceClone_frozen hr hf]
    exact ⟨hr, .refl .., he⟩
  · have thawed : cloneFrozen s x = false := by simpa using hf
    have whole : cloneTo s x = 4096 := by rw [cloneTo, hrow, badFrom_end]; rfl
    have run := advanceClone_clone hr thawed
    rw [whole, ← hrow] at run
    refine ⟨run, ?_, ?_⟩
    · rw [advanceClone_thawed hr thawed, cloned_end hrow hc]
      simp
    · rw [advanceClone_thawed hr thawed, cloned_end hrow hc]
      exact swf_sput he _ _ nofun

theorem cloneComplete_moved (hr : (getEng s e).clone = some x) (hs : saving s = false) (hm : x.moved = true) (hrow : x.row = 4096) (hc : x.copy = false)
    (he : swf Engine.reset none s.update.eng = true) : cloneComplete s e = cloneLeft (advanceClone s e) e x := by
  have stays := advanceClone_end hr hrow hc he
  unfold cloneComplete
  rw [hs, if_neg nofun]
  extract_lets u
  have here : u = advanceClone s e := rfl
  rw [here, stays.running]
  dsimp only
  rw [if_pos hm]

end

end Sys2Proof.Machine
end

section
open Sys2Proof Sys2Proof.Machine
namespace Sys2Proof.Machine

/-! ## BANK_RETIRE (R179) -/

section
variable {s : State} {c : TCmd} {b mode : Nat} {st : BitVec 4}

theorem runRetire_retires (hc : cCont c = 0) (hb : cBank c < 2112) (hi : c.issuer = qFW) (hs : retireState s (cBank c) (cMode c) = some st)
    (room : (jAdmit s [[.bank 4 (cBank c) 0 0 0]]).1 = true) :
    runRetire s c = .ends (retireBank s (cBank c) (cMode c) st) (some { TRsp.of .ok with jsn := (retireBank s (cBank c) (cMode c) st).journal.last }) := by
  have rules : firstStatus [(decide (cCont c ≠ 0) || !decide (cBank c < 2112), .malformed), (decide (c.issuer ≠ qFW), .notOwner),
      ((retireState s (cBank c) (cMode c)).isNone, .malformed)] = none := by
    simp [firstStatus, hc, hi, hb, hs]
  unfold runRetire
  dsimp only
  rw [rules]
  dsimp only
  rw [jAdmit_admits room, hs]
  rfl

/-- What the retirement leaves before the bank's state: the record, and the repair record or the emptied site. -/
def retiring (s : State) (b mode : Nat) (st : BitVec 4) : State :=
  let u := (jCommit s [.bank 4 b 0 0 st.toNat] true).2
  if mode = 0 then { u with integ := { u.integ with repairs := u.integ.repairs ++ [siteRec u b] } } else clearSite u (siteOf u b)

theorem retireBank_eq (s : State) (b mode : Nat) (st : BitVec 4) :
    retireBank s b mode st = setBankTable (setBankState (dropMirror (retiring s b mode st) b) b st) b none := rfl

theorem retiring_keeps (s : State) (b mode : Nat) (st : BitVec 4) :
    (retiring s b mode st).journal.last = s.journal.last + 1 ∧ EngKept s (retiring s b mode st) ∧
    (retiring s b mode st).tcam.state = s.tcam.state ∧ (retiring s b mode st).tcam.table = s.tcam.table ∧
    (retiring s b mode st).integ.repairs.length = s.integ.repairs.length + (if mode = 0 then 1 else 0) := by
  unfold retiring
  extract_lets u
  split
  · exact ⟨rfl, rfl, rfl, rfl, List.length_append⟩
  · exact ⟨rfl, rfl, rfl, rfl, rfl⟩

/-- A bank that goes back holds no entry. -/
theorem retireBank_rows (hm : mode ≠ 0) {r : Nat} (hr : r < 4096) : getRow (retireBank s b mode st) (siteOf s b) r = TRow.blank := by
  have cleared : retiring s b mode st = clearSite (jCommit s [.bank 4 b 0 0 st.toNat] true).2 (siteOf s b) := by
    unfold retiring
    exact if_neg hm
  rw [retireBank_eq, cleared]
  exact sget_sdrop_of (p := fun k => decide (k / 4096 = siteOf s b)) (decide_eq_true (by omega))

theorem retireBank_table (ht : swf 0 none s.tcam.table = true) : bankTable (retireBank s b mode st) b = none := by
  obtain ⟨-, -, -, table, -⟩ := retiring_keeps s b mode st
  have read : sget 0 (retireBank s b mode st).tcam.table b = 0 := (sget_sput (by rw [← table] at ht; exact ht) ..).trans (if_pos rfl)
  rw [bankTable, read]

theorem retireBank_state (hs : swf 0 none s.tcam.state = true) : bankState (retireBank s b mode st) b = st := by
  obtain ⟨-, -, state, -, -⟩ := retiring_keeps s b mode st
  exact (bankState_set (s := dropMirror (retiring s b mode st) b) (by rw [← state] at hs; exact hs) b b st).trans (if_pos rfl)

end

/-! ## Removed replicas (R76) -/

section
variable {s : State}

theorem bankTable_freeBank (h : swf 0 none s.tcam.table = true) (b d : Nat) :
    bankTable (freeBank s b) d = if d = b then none else bankTable s d := by
  have read : sget 0 (freeBank s b).tcam.table d = if d = b then 0 else sget 0 s.tcam.table d := sget_sput h ..
  rw [bankTable, read]
  by_cases here : d = b
  · rw [if_pos here, if_pos here]
  · rw [if_neg here, if_neg here, bankTable]

theorem bankState_freeBank (h : swf 0 none s.tcam.state = true) (b d : Nat) :
    bankState (freeBank s b) d = if d = b then 0 else bankState s d := bankState_set h b d 0

/-- Every bank of the list is FREE and of no table, once each has been freed. -/
theorem freeBanks_free (hs : swf 0 none s.tcam.state = true) (ht : swf 0 none s.tcam.table = true) (bs : List Nat) {b : Nat}
    (hb : b ∈ bs ∨ bankState s b = 0 ∧ bankTable s b = none) :
    bankState (bs.foldl freeBank s) b = 0 ∧ bankTable (bs.foldl freeBank s) b = none := by
  induction bs generalizing s with
  | nil => exact hb.resolve_left (fun h => nomatch h)
  | cons x bs ih =>
    refine ih (swf_sput hs _ _ nofun) (swf_sput ht _ _ nofun) ?_
    rw [bankState_freeBank hs, bankTable_freeBank ht]
    by_cases here : b = x
    · exact .inr ⟨if_pos here, if_pos here⟩
    · rw [if_neg here, if_neg here]
      exact hb.imp_left fun mem => (List.mem_cons.1 mem).resolve_left here

theorem replicaRelease_eq {d : Nat} {r : Nat × Nat × List Nat} (h : s.marker.releases.find? (fun r => r.1 = d) = some r) :
    replicaRelease s d = if r.2.2.any (bankHeld s) then s
      else { r.2.2.foldl freeBank s with marker := { (r.2.2.foldl freeBank s).marker with releases := (r.2.2.foldl freeBank s).marker.releases.erase r } } := by
  rw [replicaRelease, h]

theorem freeBanks_same (s : State) (bs : List Nat) : SameBut [.tcam] s (bs.foldl freeBank s) := SameBut.foldl (fun u b => by simp [freeBank]) bs s

end

/-! ## Refresh groups (R91, R93) -/

section
variable {s : State} {b : Nat}

/-- The refresh of a site's next group falls due. -/
def refreshDue (s : State) (b : Nat) : State :=
  { s with tcam := { s.tcam with refDue := sput 0 s.tcam.refDue b (sget 0 s.tcam.refDue b + 1), refBand := sput 0 s.tcam.refBand b (bandInForce s) } }

theorem issueRefresh_idle (h : (getArb s b).holder = none ∨ (getArb s b).holder = some 12) :
    issueRefresh s b = decideArb (refreshDue s b) b (.of (waitingAt (getArb s b))) := if_pos h

/-- Where no other class waits, at most REF's bit is set. -/
theorem waitingAt_refresh {x : Arb} (hw : ∀ k, k ≠ 12 → (getClass x k).waits = []) :
    waitingAt x = if (getClass x 12).waits.isEmpty then 0 else 1 <<< 12 := by
  have classes : List.range 16 = [0, 1, 2, 3, 4, 5, 6, 7, 8, 9, 10, 11, 12, 13, 14, 15] := rfl
  rw [waitingAt, classes]
  by_cases he : (getClass x 12).waits = []
  · simp [hw, he]
  · simp [hw, he]

/-- REF alone asks at a bank at whose arbiter no other class waits. -/
theorem asking_refresh (hb : b < 2112) (hw : ∀ k, k ≠ 12 → (getClass (getArb s b) k).waits = []) :
    asking (refreshDue s b) b (waitingAt (getArb s b)) = [12] := by
  have due : sget 0 (refreshDue s b).tcam.refDue b = sget 0 s.tcam.refDue b + 1 := sget_sput_self (Nat.succ_ne_zero _) ..
  have bits : setBits (bset 12 1 (waitingAt (getArb s b)) 1) = [12] := by
    rw [waitingAt_refresh hw]
    split <;> decide
  have member : isMember b 12 = true := by simp [isMember, arbType, hb]
  rw [asking, if_pos hb, due, if_neg (Nat.succ_ne_zero _), bits, List.filter_cons, if_pos member]
  rfl

/-- REF is a single-cycle class: where it alone may be granted, it wins. -/
theorem decideWinner_refresh (credit : Nat → Nat) (x : Arb) (t : Nat) : decideWinner credit x t [12] = some (12, false) := by
  have unstarved : starved x t [12] = none := rfl
  rw [decideWinner, unstarved, ite_self]
  rfl

theorem winner_refresh (hb : b < 2112) (hw : ∀ k, k ≠ 12 → (getClass (getArb s b) k).waits = []) :
    winner (refreshDue s b) b (.of (waitingAt (getArb s b))) = some (12, false) := by
  have asks : asking (refreshDue s b) b (ArbAsk.of (waitingAt (getArb s b))).classes = [12] := asking_refresh hb hw
  have may : ∀ x, mayGrant (refreshDue s b) b x [12] = [12] := by
    intro x
    unfold mayGrant
    split <;> rfl
  unfold winner
  rw [asks, may, decideWinner_refresh]

/-- The refresh of a bank that nothing else asks for is made at once. -/
theorem issueRefresh_grants (hb : b < 2112) (hi : (getArb s b).holder = none ∨ (getArb s b).holder = some 12)
    (hw : ∀ k, k ≠ 12 → (getClass (getArb s b) k).waits = []) :
    (getArb (issueRefresh s b) b).holder = some 12 ∧ (issueRefresh s b).tcam = (refreshRow (refreshDue s b) b).tcam := by
  have low : b < 7251 := by omega
  obtain ⟨grant, -, tcam⟩ := decideArb_grants low (winner_refresh hb hw)
  rw [issueRefresh_idle hi, grant, tcam, if_pos ⟨hb, rfl⟩]
  exact ⟨(grantTo_fields ..).1, rfl⟩

/-- Behind another class's transfer the request waits. -/
theorem issueRefresh_waits {k : Nat} (hk : (getArb s b).holder = some k) (h12 : k ≠ 12) :
    SameBut [.arbs] (refreshDue s b) (issueRefresh s b) ∧ (getClass (getArb (issueRefresh s b) b) 12).waits ≠ [] := by
  have busy : ¬ ((getArb (refreshDue s b) b).holder = none ∨ (getArb (refreshDue s b) b).holder = some 12) := by
    have same : (getArb (refreshDue s b) b).holder = some k := hk
    simp [same, h12]
  have run : issueRefresh s b = if (getClass (getArb (refreshDue s b) b) 12).waits.isEmpty then
      setArb (refreshDue s b) b (setClass (getArb (refreshDue s b) b) 12 { getClass (getArb (refreshDue s b) b) 12 with waits := [now (refreshDue s b)] })
      else refreshDue s b := if_neg busy
  rw [run]
  split
  · have held : setClass (getArb (refreshDue s b) b) 12 { getClass (getArb (refreshDue s b) b) 12 with waits := [now (refreshDue s b)] } ≠ .reset :=
      fun same => absurd (hk.symm.trans (show (getArb s b).holder = none from congrArg Arb.holder same)) nofun
    have asked : { getClass (getArb (refreshDue s b) b) 12 with waits := [now (refreshDue s b)] } ≠ ArbClass.reset :=
      fun same => nomatch congrArg ArbClass.waits same
    refine ⟨by simp, ?_⟩
    rw [getArb_setArb_self held, getClass_setClass_self asked]
    exact List.cons_ne_nil _ _
  · next waits => exact ⟨.refl .., by simpa using waits⟩

end

end Sys2Proof.Machine

/-- Settles O22: a clone by what its start, its copying and its end each leave, a retirement and a release by the banks' states, and a
refresh by the arbiter's decision. -/
theorem banksCloneRetireAndReplicate : Obligations.BanksCloneRetireAndReplicate := by
  unfold Obligations.BanksCloneRetireAndReplicate
  refine ⟨?starts, ?completes, ?moved, ?retires, fun s => ⟨?held, ?released, ?refreshes, ?rests⟩⟩
  case starts =>
    intro e s c head cont fw h1 h2 ok idle ready room
    have run := head.departs (runClone_starts cont fw h1 h2 ok idle ready room)
    obtain ⟨x, b⟩ := (startClone_started s e.val (some c) (cBank c) (cBank2 c) (decide (cMode c % 2 = 1))).advances rfl
    have same := b.same
    refine ⟨_, x, run, b.running, congrArg Clone.src same, congrArg Clone.dst same, congrArg Clone.copy same, congrArg Clone.cmd same, b.dest, b.twin, ?_, b.last, ?_,
      congrArg Clone.moved same, b.copied, by simp⟩
    · rw [show x.copy = decide (cMode c % 2 = 1) from congrArg Clone.copy same]
      exact b.mirrored
    · rw [same]
      exact b.row
  case completes =>
    intro e s x running awake unmoved thawed distinct free sound room site state eng
    have ends : CloneEnds s e.val x := ⟨running, awake, unmoved, thawed, free, sound, room⟩
    have run : exec (.cloneComplete e) s = .next (cloneLeft (cloneWaits s e.val x) e.val (movedClone s e.val x)) :=
      congrArg Host.Outcome.next (cloneComplete_ends ends)
    have waitsEng := cloneWaits_eng running thawed eng
    refine ⟨fun ⟨move, probed⟩ => ?_, fun gone => ?_⟩
    · obtain ⟨pairs, same⟩ := cloneWaits_probed running thawed move distinct site
      obtain ⟨sites, states, -, -⟩ := cloneMoved_move running thawed move distinct site
      rw [cloneLeft_held (c := movedClone s e.val x) move (same.trans probed)] at run
      refine ⟨_, run, cloneMoved_last running thawed, ⟨movedClone s e.val x, ?_, rfl, rfl, rfl⟩, fun p hp => ⟨(sites p hp).1, (sites p hp).2, bankState_congr states _⟩⟩
      rw [cloneWaits, getEng_cloning]
    · have settled : (movedClone s e.val x).copy = true ∨ (clonePairs (cloneWaits s e.val x) (movedClone s e.val x)).any (fun p =>
          siteProbed (cloneWaits s e.val x) (isPair (cloneWaits s e.val x) (movedClone s e.val x).src) (siteOf (cloneWaits s e.val x) p.2)) = false := by
        by_cases copy : x.copy = true
        · exact .inl copy
        · have move : x.copy = false := by simpa using copy
          exact .inr ((cloneWaits_probed running thawed move distinct site).2.trans (gone.resolve_left copy))
      obtain ⟨idle, tcam, journal⟩ := cloneLeft_over settled waitsEng
      refine ⟨_, run, idle, (congrArg Journal.last journal).trans (cloneMoved_last running thawed), fun move => ?_, fun copy => ?_⟩
      · obtain ⟨sites, -, -, unmirrored⟩ := cloneMoved_move running thawed move distinct site
        obtain ⟨leftSite, leftMirror, testing⟩ := leaveSites_banks (cloneWaits s e.val x) (movedClone s e.val x) move
        rw [(cloneWaits_probed running thawed move distinct site).1] at testing
        refine ⟨fun b => ?_, fun p hp => ?_⟩
        · rw [mirrorsOf_of_mirror (s := cloneMoved s e.val x) ((congrArg Tcam.mirror tcam).trans leftMirror)]
          exact unmirrored b
        · rw [siteOf_congr (s := cloneMoved s e.val x) ((congrArg Tcam.site tcam).trans leftSite), siteOf_congr (s := cloneMoved s e.val x) ((congrArg Tcam.site tcam).trans leftSite)]
          exact ⟨(sites p hp).1, (sites p hp).2, (bankState_congr (congrArg Tcam.state tcam) _).trans (testing p hp)⟩
      · obtain ⟨mirror, sites, banks⟩ := cloneMoved_copy running thawed copy
        have left : leaveSites (cloneWaits s e.val x) (movedClone s e.val x) = cloneWaits s e.val x := if_pos copy
        rw [left] at tcam
        refine ⟨(congrArg Tcam.mirror tcam).trans mirror, (congrArg Tcam.site tcam).trans sites, fun p hp => ?_⟩
        exact ⟨(bankState_congr (congrArg Tcam.state tcam) _).trans (banks p hp).1, (bankTable_congr (congrArg Tcam.table tcam) _).trans (banks p hp).2⟩
  case moved =>
    intro e s x running awake moved move row distinct eng
    have run : exec (.cloneComplete e) s = .next (cloneLeft (advanceClone s e.val) e.val x) :=
      congrArg Host.Outcome.next (cloneComplete_moved running awake moved row move eng)
    have stays := advanceClone_end running row move eng
    have map : MapKept s (advanceClone s e.val) := stays.frame.map
    have probed : (clonePairs (advanceClone s e.val) x).any (fun p => siteProbed (advanceClone s e.val) (isPair (advanceClone s e.val) x.src)
        (siteOf (advanceClone s e.val) p.2)) = (clonePairs s x).any (fun p => siteProbed s (isPair s x.src) (siteOf s p.2)) := by
      simp only [map.clonePairs, map.isPair, map.siteOf, siteProbed_congr stays.frame.search]
    refine ⟨fun held => ?_, fun gone => ?_⟩
    · rw [cloneLeft_held move (probed.trans held)] at run
      exact ⟨_, run, stays.running, stays.frame.tcam, stays.frame.journal⟩
    · obtain ⟨settled, tcam, journal⟩ := cloneLeft_over (.inr (probed.trans gone)) stays.eng
      obtain ⟨site, -, testing⟩ := leaveSites_banks (advanceClone s e.val) x move
      refine ⟨_, run, settled, ?_, journal.trans stays.frame.journal, fun p hp => ?_⟩
      · rw [tcam, site, map.site]
      · rw [← map.clonePairs] at hp
        exact (bankState_congr (congrArg Tcam.state tcam) _).trans (testing p hp)
  case retires =>
    intro e s c st head cont bank fw admits room state table
    obtain ⟨last, kept, -, -, repairs⟩ := retiring_keeps s (cBank c) (cMode c) st
    have run := head.answers (runRetire_retires cont bank fw admits room) kept
    exact ⟨_, _, run, rfl, last, retireBank_state state, retireBank_table table, repairs, fun back r hr => retireBank_rows back hr⟩
  case held =>
    intro d r found held
    exact congrArg Host.Outcome.next ((replicaRelease_eq found).trans (if_pos held))
  case released =>
    intro d r found free state table
    have freed := freeBanks_same s r.2.2
    have run := (replicaRelease_eq found).trans (if_neg (by simp [free]))
    refine ⟨_, congrArg Host.Outcome.next run, ?_, fun b hb => freeBanks_free state table r.2.2 (.inl hb), ?_⟩
    · exact congrArg (·.releases.erase r) freed.marker
    · simp
  case refreshes =>
    intro b due bank
    have run : exec (.refreshGroup b) s = .next (issueRefresh s b) := congrArg Host.Outcome.next (if_pos due)
    refine ⟨fun idle alone group count => ?_, fun k busy other => ?_⟩
    · obtain ⟨grant, tcam⟩ := issueRefresh_grants bank idle alone
      have frame : SameBut [.tcam, .arbs, .events, .free] s (issueRefresh s b) := by simp
      refine ⟨_, run, frame, ?_, grant, ?_, ?_⟩
      · rw [tcam]
        rfl
      · rw [tcam]
        have due1 : sget 0 (refreshDue s b).tcam.refDue b = sget 0 s.tcam.refDue b + 1 := (sget_sput count ..).trans (if_pos rfl)
        refine (sget_sput (swf_sput count _ _ nofun) ..).trans ((if_pos rfl).trans ?_)
        rw [due1, Nat.add_sub_cancel]
      · rw [tcam]
        exact refreshRow_group (s := refreshDue s b) group b
    · obtain ⟨frame, waits⟩ := issueRefresh_waits (b := b) busy other
      have begun : SameBut [.tcam] s (refreshDue s b) := by simp [refreshDue]
      refine ⟨_, run, (begun.mono (by decide)).trans (frame.mono (by decide)), ?_, ?_, ?_, waits⟩
      · rw [frame.tcam]
        rfl
      · rw [frame.tcam]
        rfl
      · rw [frame.tcam]
        exact sget_sput_self (Nat.succ_ne_zero _) ..
  case rests =>
    intro b idle
    exact congrArg Host.Outcome.next (if_neg (by simp [idle]))
end

section
open Sys2Proof Sys2Proof.Machine
namespace Sys2Proof.Machine

/-! ## Bulk streams (R180 to R183) -/

section
variable {s u : State} {p k : Nat} {x : Stream}

theorem getStream_setStream_self (h : x.isOpen = true) : getStream (setStream s p k x) p k = x :=
  sget_sput_self (fun same => absurd (h.symm.trans (congrArg Stream.isOpen same)) (by decide)) ..

theorem getStream_congr (h : u.update = s.update) (p k : Nat) : getStream u p k = getStream s p k := by rw [getStream, getStream, h]

/-- Two counts of w bits each stand side by side in one of 2w. -/
theorem bn_pair {w : Nat} {m n : Nat} (hm : m < 2 ^ w) (hn : n < 2 ^ w) :
    bn 0 w (BitVec.ofNat (2 * w) (m + n * 2 ^ w)) = m ∧ bn w w (BitVec.ofNat (2 * w) (m + n * 2 ^ w)) = n := by
  have fits : m + n * 2 ^ w < 2 ^ (2 * w) := by
    calc m + n * 2 ^ w < (n + 1) * 2 ^ w := by rw [Nat.add_mul, Nat.one_mul, Nat.add_comm]; exact Nat.add_lt_add_left hm _
      _ ≤ 2 ^ w * 2 ^ w := Nat.mul_le_mul_right _ hn
      _ = 2 ^ (2 * w) := by rw [← Nat.pow_add, Nat.two_mul]
  have whole : (BitVec.ofNat (2 * w) (m + n * 2 ^ w)).toNat = m + n * 2 ^ w := by rw [BitVec.toNat_ofNat, Nat.mod_eq_of_lt fits]
  constructor
  · rw [bn, BitVec.extractLsb'_toNat, whole, Nat.shiftRight_zero, Nat.add_mul_mod_self_right, Nat.mod_eq_of_lt hm]
  · rw [bn, BitVec.extractLsb'_toNat, whole, Nat.shiftRight_eq_div_pow, Nat.add_mul_div_right _ _ (Nat.two_pow_pos w), Nat.div_eq_of_lt hm, Nat.zero_add,
      Nat.mod_eq_of_lt hn]

theorem runBulkOpen_opens {s : State} {c : TCmd} (e : Nat)
    (h : entryRefusal s c (cDir c = 3) (if cDir c = 2 then [qFW, qSB] else []) (cDir c ≠ 2) = none)
    (shut : (getStream s c.issuer (cStream c)).isOpen = false) :
    runBulkOpen e s c = .ends (setStream s c.issuer (cStream c)
      { Stream.reset with isOpen := true, table := cTable c, dir := BitVec.ofNat 2 (cDir c), replace := cStreamReplace c, eng := e }) (some (TRsp.of .ok)) := by
  rw [runBulkOpen, h]
  dsimp only
  rw [shut, if_neg nofun]

theorem runBulkClose_closes {s : State} {c : TCmd} (cont : cCont c = 0) (kind : tKind s (cTable c) = 1)
    (isOpen : (getStream s c.issuer (cStream c)).isOpen = true) (table : (getStream s c.issuer (cStream c)).table = cTable c)
    (empty : c.issuer < 8 → bulkWaits s c.issuer = false) :
    runBulkClose s c = .ends (setStream s c.issuer (cStream c) Stream.reset) (some { TRsp.of .ok with
      res := BitVec.ofNat 64 ((getStream s c.issuer (cStream c)).committed % 2 ^ 32 + (getStream s c.issuer (cStream c)).rejected % 2 ^ 32 * 2 ^ 32) }) := by
  have fits : ¬ (cCont c ≠ 0 ∨ tKind s (cTable c) ≠ 1 ∨ (getStream s c.issuer (cStream c)).isOpen = false ∨ (getStream s c.issuer (cStream c)).table ≠ cTable c) := by
    simp [cont, kind, isOpen, table]
  have settled : ¬ (c.issuer < 8 ∧ bulkWaits s c.issuer = true) := fun ⟨port, waits⟩ => nomatch waits.symm.trans (empty port)
  rw [runBulkClose]
  dsimp only
  rw [if_neg fits, if_neg settled]

end

/-! ## Records (R181) -/

/-- The record x of stream k is next in order on port p, and its engine takes it. -/
structure RecordNext (s : State) (p k : Nat) (st : Stream) (i : Nat) (x : List Slot) (c : TCmd) : Prop where
  stream : st = getStream s p k
  isOpen : st.isOpen = true
  writes : st.dir ≠ 2
  next : nextRecord s p k = some (i, x)
  own : bStream (x.headD 0) = k
  cmd : c = recordCmd p st (x.headD 0) (x.getD 1 0) (x.getD 2 0)
  repaired : sget [] s.tcam.repairs st.eng = []
  turn : recordTurn (getEng s st.eng) (p * 4 + bStream (x.headD 0)) = true
  starts : (getEng s st.eng).restarts + (if mustRestart (getEng s st.eng) (entryNeed s c) then 1 else 0) < 4
  free : (entryNeed s c).any (resTaken s st.eng) = false
  thawed : waitsFrozen s c = false

/-- What a record that ends leaves behind it: its engine free of it, its slots taken, its stream past it. -/
def recordDone (y : State) (p k i : Nat) (eng seq : Nat) : State :=
  setStream (takeBulk (dropRecordOf y eng) p i) p k { getStream (takeBulk (dropRecordOf y eng) p i) p k with seq := seq + 1 }

section
variable {s y : State} {p k i : Nat} {st : Stream} {x : List Slot} {c : TCmd} {q : Option TRsp}

/-- A record whose command ends is answered on its stream. -/
theorem RecordNext.ends {r : List Slot} {rs : List (List Slot)} (h : RecordNext s p k st i x c) (hr : bulkRecords s p = r :: rs) (hk : bStream (r.headD 0) = k)
    (run : tryRecord st c (recordWhole x) s = .ends y q) :
    bulkRecord s p = answer (recordDone y p k i st.eng (bSeq (x.headD 0))) c.via (q.getD (TRsp.of .ok)) := by
  obtain ⟨rfl, isOpen, writes, next, own, rfl, repaired, turn, starts, free, thawed⟩ := h
  have served : serveRepairs s (getStream s p k).eng = s := by rw [serveRepairs, repaired]; rfl
  have below : ¬ 4 ≤ (if mustRestart (getEng s (getStream s p k).eng) (entryNeed s (recordCmd p (getStream s p k) (x.headD 0) (x.getD 1 0) (x.getD 2 0)))
      then (getEng s (getStream s p k).eng).restarts + 1 else (getEng s (getStream s p k).eng).restarts) := by
    split at starts <;> simp_all
    omega
  have opened : bulkRecord s p = runRecord s p i (getStream s p k) x := by
    rw [bulkRecord, hr]
    dsimp only
    rw [hk, next, if_neg (by simpa [isOpen] using writes)]
  rw [opened]
  unfold runRecord
  dsimp only
  rw [served, turn, if_neg nofun, if_neg below, free, thawed, if_neg nofun, heldRecord, run]
  dsimp only
  rw [endRecord, own]
  rfl

/-- A record of a stream that is not open, or is a dump's, is a bad slot. -/
theorem bulkRecord_stray {r : List Slot} {rs : List (List Slot)} (hr : bulkRecords s p = r :: rs)
    (shut : (getStream s p (bStream (r.headD 0))).isOpen = false ∨ (getStream s p (bStream (r.headD 0))).dir = 2) :
    bulkRecord s p = badSlot (takeBulk s p 0) p := by
  rw [bulkRecord, hr]
  exact if_pos (by simpa using shut)

theorem tryRecord_malformed (h : cTable c ≠ st.table ∨ recordWhole x = false) : tryRecord st c (recordWhole x) s = .ends s (some (TRsp.of .malformed)) := by
  rw [tryRecord, if_pos (by simpa using h)]

theorem tryRecord_applied (ht : cTable c = st.table) (hw : recordWhole x = true) :
    tryRecord st c (recordWhole x) s = if st.dir = 0 then runInsert st.eng s c else runDelete false st.eng s c := by
  rw [tryRecord, if_neg (by simp [ht, hw])]

/-- A DELETE of an entry that no exact probe finds misses (R162, R191). -/
theorem runDelete_misses {s1 : State} (e : Nat) (admitted : entryRefusal s c false [] true = none)
    (absent : findEntry s (cTable c) (cMask s c) (cKey s c) (cPlen c) (dirsFor s (cTable c) (cMask s c) (cKey s c)) = ([], s1)) :
    runDelete false e s c = .ends (countT s1 (cTable c) 5 1) (some (TRsp.of .miss)) := by
  rw [runDelete, admitted]
  dsimp only
  rw [absent]
  rfl

/-- The end of a record changes no entry, no journal and, but for its sequence number, not its stream. -/
theorem recordDone_keeps (y : State) (p k i : Nat) (eng seq : Nat) (h : (getStream y p k).isOpen = true) :
    SameBut [.update, .ports, .tally, .events, .mgmt, .free] y (recordDone y p k i eng seq) ∧
    getStream (recordDone y p k i eng seq) p k = { getStream y p k with seq := seq + 1 } := by
  have taken : SameBut [.ports, .tally, .events, .free] (dropRecordOf y eng) (takeBulk (dropRecordOf y eng) p i) := by simp
  have same : getStream (takeBulk (dropRecordOf y eng) p i) p k = getStream y p k := by
    rw [getStream_congr taken.update]
    rfl
  refine ⟨by simp [recordDone], ?_⟩
  rw [recordDone, same]
  exact getStream_setStream_self h

/-- A record that commits under a JSN counts in its stream (R183). -/
theorem answer_committed {y : State} {seq : Nat} {r : TRsp} (ok : r.st = .ok) (jsn : r.jsn ≠ 0) (h : (getStream y p k).isOpen = true) :
    (getStream (answer y (.bulk p k seq) r) p k).committed = (getStream y p k).committed + 1 := by
  have same : getStream (accepted y p r.jsn) p k = getStream y p k := getStream_congr (accepted_same ..).update p k
  have counted : answer y (.bulk p k seq) r =
      setStream (accepted y p r.jsn) p k { getStream (accepted y p r.jsn) p k with committed := (getStream (accepted y p r.jsn) p k).committed + 1 } := by
    rw [answer]
    unfold bulkAnswer
    dsimp only
    rw [if_pos ok, if_neg jsn]
  rw [counted, same]
  exact congrArg Stream.committed (getStream_setStream_self (x := { getStream y p k with committed := (getStream y p k).committed + 1 }) h)

end

/-! ## Dump streams (R182) -/

section
variable {s : State} {p k : Nat} {l : Loc} {en : Entry}

/-- The entry that a dump delivers is read as a READ reads it. -/
theorem readEntry_delivers {t : Nat} (he : getEntry s (tWidth s t) (primaryBank s l) l.r l.h = en) (hv : en.side.v = true) (hp : parityOk en = true)
    (hb : (peek s (kSlot (primaryBank s l) l.r l.h 0)).bad = false) :
    ∃ r, readEntry s t (primaryBank s l) l = .ends (touch s (kSlot (primaryBank s l) l.r l.h 0)) (some r) := by
  unfold readEntry
  dsimp only
  rw [he, hv, hp, hb, if_neg nofun, if_neg nofun, if_neg nofun]
  exact ⟨_, rfl⟩

/-- A delivery leaves on its port or in its register set. -/
theorem dumpOut_keeps (s : State) (p k seq : Nat) (r : TRsp) :
    (dumpOut s p k seq r).update.streams = s.update.streams ∧ (dumpOut s p k seq r).tcam = s.tcam := by
  unfold dumpOut
  split
  · exact ⟨congrArg Update.streams (send_same ..).update, (send_same ..).tcam⟩
  · unfold answer
    dsimp only
    split <;> exact ⟨rfl, rfl⟩

section
variable (isOpen : (getStream s p k).isOpen = true) (dump : (getStream s p k).dir = 2) (idle : 8 ≤ p → (dumpSet s p).busy = false)
include isOpen dump idle

theorem dumpEntry_runs : ¬ (!(getStream s p k).isOpen || decide ((getStream s p k).dir ≠ 2) || (decide (8 ≤ p) && (dumpSet s p).busy)) = true := by
  by_cases set : 8 ≤ p
  · simp [isOpen, dump, idle set]
  · simp [isOpen, dump, set]

theorem dumpEntry_ends (exhausted : nextEntry s (getStream s p k).table (getStream s p k).pos = none) :
    dumpEntry s p k = if p < 8 then send (setStream s p k Stream.reset) p [endOfDump k (getStream s p k).sent] else setStream s p k Stream.reset := by
  rw [dumpEntry]
  dsimp only
  rw [if_neg (dumpEntry_runs isOpen dump idle), exhausted]

theorem dumpEntry_waits (next : nextEntry s (getStream s p k).table (getStream s p k).pos = some (l, en))
    (frozen : frozenAt s (getStream s p k).table (primaryBank s l) = true) : dumpEntry s p k = s := by
  rw [dumpEntry]
  dsimp only
  rw [if_neg (dumpEntry_runs isOpen dump idle), next]
  exact if_pos (by simp [frozen])

/-- The stream moves past the entry that it delivers. -/
theorem dumpEntry_delivers (next : nextEntry s (getStream s p k).table (getStream s p k).pos = some (l, en)) (hp : parityOk en = true)
    (he : getEntry s (tWidth s (getStream s p k).table) (primaryBank s l) l.r l.h = en) (hv : en.side.v = true)
    (hb : (peek s (kSlot (primaryBank s l) l.r l.h 0)).bad = false)
    (thawed : frozenAt s (getStream s p k).table (primaryBank s l) = false) :
    ∃ r, dumpEntry s p k = dumpOut (setStream (touch s (kSlot (primaryBank s l) l.r l.h 0)) p k { getStream s p k with
      pos := locAddr s l * 2 + l.h + 1, sent := (getStream s p k).sent + 1, seq := (getStream s p k).seq + 1 }) p k (getStream s p k).seq r := by
  obtain ⟨r, read⟩ := readEntry_delivers he hv hp hb
  refine ⟨r, ?_⟩
  rw [dumpEntry]
  dsimp only
  rw [if_neg (dumpEntry_runs isOpen dump idle), next]
  dsimp only
  rw [hp, hb, thawed, if_neg (by decide), read]
  dsimp only
  rw [(touch_same ..).dirs.locAddr]

end
end

/-! ## Drained gates (R82, R312) -/

section
variable {s : State} {g : Nat}

theorem settleGate_waits (h : ¬ ((getGate s g).st = .draining ∧ drained s (getGate s g).seq = true ∧
    (getGate s g).copies.any (fun c => frozenAt s (getGate s g).table c.bank) = false)) : settleGate s g = s := if_neg h

/-- A finished gate is as at reset, no selector names it, and its change is not open in the journal. -/
theorem finishGate_frees (h : swf Gate.reset none s.marker.gates = true) :
    getGate (finishGate s g) g = Gate.reset ∧ (∀ k i, (k, some (g, i)) ∉ (finishGate s g).tcam.sels) ∧
    (getGate s g).jsn ∉ (finishGate s g).journal.open_ := by
  unfold finishGate
  extract_lets x w late s1 s2 s3 s4 s5
  have copied : SameBut [.tcam, .sram, .update, .ports, .tally, .journal, .integ, .events, .mgmt, .free] s s4 := by simp [s4, s3, s2, s1]
  have answered : SameBut [.update, .ports, .tally, .events, .mgmt, .free] (jApplied s5 x.jsn) (drainAnswer (jApplied s5 x.jsn) x late) := by simp
  refine ⟨?_, ?_, ?_⟩
  · have gates : (drainAnswer (jApplied s5 x.jsn) x late).marker.gates = sput Gate.reset s.marker.gates g Gate.reset := by
      rw [answered.marker, ← copied.marker]
      rfl
    rw [getGate, gates, sget_sput h, if_pos rfl]
  · intro k i listed
    have sels : (drainAnswer (jApplied s5 x.jsn) x late).tcam.sels = (releaseSels s4 g).tcam.sels := by
      rw [answered.tcam]
      rfl
    rw [sels] at listed
    have other := (List.mem_filter.1 listed).2
    simp at other
  · have opened : (drainAnswer (jApplied s5 x.jsn) x late).journal.open_ = s5.journal.open_.filter (· ≠ x.jsn) := by
      rw [answered.journal]
      rfl
    rw [opened]
    intro listed
    exact of_decide_eq_true (List.mem_filter.1 listed).2 rfl

end

end Sys2Proof.Machine
end

section
open Sys2Proof Sys2Proof.Machine

/-- Settles O23: a stream by its record, a bulk record by the run of its command, and a gate by what its drain frees. -/
theorem streamsAndGates : Obligations.StreamsAndGates := by
  unfold Obligations.StreamsAndGates
  refine ⟨fun e s c => ⟨?opens, ?closes⟩, fun p s r rs arrived => ⟨?stray, ?records⟩, ?dumps, fun g s => ⟨?early, ?frozen, ?frees⟩⟩
  case opens =>
    intro head admitted shut
    exact ⟨_, head.answers (runBulkOpen_opens e.val admitted shut) rfl, getStream_setStream_self rfl, setStream_same ..⟩
  case closes =>
    intro head cont kind isOpen table empty streams
    obtain ⟨committed, rejected⟩ := bn_pair (w := 32) (Nat.mod_lt (getStream s c.issuer (cStream c)).committed (Nat.two_pow_pos 32))
      (Nat.mod_lt (getStream s c.issuer (cStream c)).rejected (Nat.two_pow_pos 32))
    refine ⟨_, _, head.answers (runBulkClose_closes cont kind isOpen table empty) rfl, rfl, committed, rejected, ?_, setStream_same ..⟩
    exact congrArg Stream.isOpen ((sget_sput streams ..).trans (if_pos rfl))
  case stray =>
    intro shut
    exact congrArg Host.Outcome.next (bulkRecord_stray arrived shut)
  case records =>
    intro st i x c fin hst isOpen writes next own hc repaired turn starts free thawed hfin
    have ready : RecordNext s p.val (bStream (r.headD 0)) st i x c := ⟨hst, isOpen, writes, next, own, hc, repaired, turn, starts, free, thawed⟩
    have ending : fin = fun y => recordDone y p.val (bStream (r.headD 0)) i st.eng (bSeq (x.headD 0)) := funext hfin
    subst ending
    have ends : ∀ {y q}, tryRecord st c (recordWhole x) s = .ends y q → exec (.bulkRecord p) s =
        .next (answer (recordDone y p.val (bStream (r.headD 0)) i st.eng (bSeq (x.headD 0))) c.via (q.getD (TRsp.of .ok))) :=
      fun run => congrArg Host.Outcome.next (ready.ends arrived rfl run)
    refine ⟨fun bad => ?_, fun table whole => ?_⟩
    · have run := ends (tryRecord_malformed bad)
      exact run
    have applied := tryRecord_applied (s := s) table whole
    refine ⟨fun s2 q run => ?_, fun delete s1 admitted absent => ?_, fun load s1 l ls admitted keep found => ?_, fun load d pl admitted => ?_⟩
    · have run := ends (applied.trans run)
      exact run
    · rw [if_neg (by rw [delete]; decide)] at applied
      have run := ends (applied.trans (runDelete_misses st.eng admitted absent))
      exact run
    · rw [if_pos load, runInsert_admitted admitted, insertEntry_finds found, keep] at applied
      have run := ends applied
      exact ⟨_, run, rfl, rfl, rfl⟩
    · intro narrow unlinked settled part ungated absent planned unmoved mine unmirrored single rows fresh room
      have plain : PlainInsert s (cTable c) (cMask s c) (cKey s c) (cPlen c) (cRes c) (cNochain c) d pl :=
        ⟨narrow, unlinked, settled, part, ungated, absent, planned, unmoved, mine, unmirrored, single, room⟩
      obtain ⟨u, q, inserts, installed, ok, jsn⟩ := plain.ends (e := st.eng) (replace := cReplace c) rows (cMask_within s c)
      rw [if_pos load, runInsert_admitted admitted, inserts] at applied
      have stream : getStream u p.val (bStream (r.headD 0)) = st := (getStream_congr installed.frame.update _ _).trans hst.symm
      obtain ⟨kept, past⟩ := recordDone_keeps u p.val (bStream (r.headD 0)) i st.eng (bSeq (x.headD 0)) (by rw [stream, isOpen])
      have via : c.via = .bulk p.val (bStream (r.headD 0)) (bSeq (x.headD 0)) := by rw [hc, ← own]; rfl
      have answered := answer_same (recordDone u p.val (bStream (r.headD 0)) i st.eng (bSeq (x.headD 0))) c.via q
      have run := ends applied
      refine ⟨_, run, ?_, ?_, ?_⟩
      · exact (getEntry_congr (answered.tcam.trans kept.tcam) ..).trans installed.entry
      · exact (congrArg Journal.last (answered.journal.trans kept.journal)).trans installed.next
      · have counted := answer_committed (seq := bSeq (x.headD 0)) ok (jsn ▸ fresh) (by rw [past, stream]; exact isOpen)
        rw [past, stream] at counted
        rw [via]
        exact counted
  case dumps =>
    intro p k s isOpen dump idle
    refine ⟨fun exhausted => ⟨fun port => ?_, fun set => ?_⟩, fun l en next good held valid readable => ⟨fun frozen => ?_, fun thawed => ?_⟩⟩
    · exact congrArg Host.Outcome.next ((dumpEntry_ends isOpen dump idle exhausted).trans (if_pos port))
    · exact congrArg Host.Outcome.next ((dumpEntry_ends isOpen dump idle exhausted).trans (if_neg (by omega)))
    · exact congrArg Host.Outcome.next (dumpEntry_waits isOpen dump idle next frozen)
    · obtain ⟨r, run⟩ := dumpEntry_delivers isOpen dump idle next good held valid readable thawed
      obtain ⟨streams, tcam⟩ := dumpOut_keeps (setStream (touch s (kSlot (primaryBank s l) l.r l.h 0)) p.val k.val { getStream s p.val k.val with
        pos := locAddr s l * 2 + l.h + 1, sent := (getStream s p.val k.val).sent + 1, seq := (getStream s p.val k.val).seq + 1 })
        p.val k.val (getStream s p.val k.val).seq r
      have past := (congrArg (sget Stream.reset · (p.val * 4 + k.val)) streams).trans (getStream_setStream_self isOpen)
      exact ⟨_, congrArg Host.Outcome.next run, congrArg Stream.sent past, congrArg Stream.pos past, congrArg Stream.seq past, tcam.trans (touch_same ..).tcam⟩
  case early =>
    intro probing
    exact congrArg Host.Outcome.next (settleGate_waits fun ⟨_, drain, _⟩ => nomatch probing.symm.trans drain)
  case frozen =>
    intro frozen
    exact congrArg Host.Outcome.next (settleGate_waits fun ⟨_, _, thawed⟩ => nomatch frozen.symm.trans thawed)
  case frees =>
    intro draining drain thawed gates
    exact ⟨_, congrArg Host.Outcome.next (if_pos ⟨draining, drain, thawed⟩), finishGate_frees gates⟩
end
